-- ==== Sys2Proof/Word.lean ====
section
/-! DEFINITION. The word types of the model: a CSR word and a byte (R5, R85). -/

namespace Sys2Proof

/-- A 32-bit word: a CSR register word (R5), a Bodkin stack entry (R375). -/
abbrev Word := BitVec 32

/-- A byte. -/
abbrev Byte := BitVec 8

end Sys2Proof
end

