-- ==== Sys2Proof/Syntax.lean ====
section
/-! DEFINITION. The commands of the block: one constructor of `Instr` per row of spec/opcode_table.json, and the types of
their operands. What the device does not decide by itself (a measurement, a level at a ball, a frame from outside, the
outcome of an authentication) is an operand of the row that reports it. -/

namespace Sys2Proof

/-- The privilege levels of R16, from highest to lowest. -/
inductive Level where
  | vendor | operator | guest
  deriving DecidableEq, Repr

/-- Whether a writer of level `w` may do what level `need` may do (R16). -/
def Level.covers : (w need : Level) → Bool
  | .vendor, _ => true
  | .operator, .vendor => false
  | .operator, _ => true
  | .guest, .guest => true
  | .guest, _ => false

/-- The path an access takes, which is its requester's identity (R27): the host over PCIe, the maintenance port, a shelf
member, or a Bodkin core. -/
inductive Path where
  | host
  | maint
  | shelf (device : BitVec 6)
  | core (c : Fin 6)
  deriving DecidableEq, Repr

/-- A requester: its path and the level it acts at (R16, R19). -/
structure Req where
  path : Path
  level : Level
  deriving DecidableEq, Repr

/-- The 23 units of R26, in the order of their bits. -/
inductive UnitId where
  | top | mtm | pwr | asy | cfg | pkb | par | flw | sch | ple | cip | rfa | rfb | rfc | wma | sgm | eth | drc | cpu | prf
  | shf | hif | fld
  deriving DecidableEq, Repr

/-- The bit number of a unit (R26). -/
def UnitId.num : UnitId → Nat
  | .top => 0 | .mtm => 1 | .pwr => 2 | .asy => 3 | .cfg => 4 | .pkb => 5 | .par => 6 | .flw => 7 | .sch => 8
  | .ple => 9 | .cip => 10 | .rfa => 11 | .rfb => 12 | .rfc => 13 | .wma => 14 | .sgm => 15 | .eth => 16
  | .drc => 17 | .cpu => 18 | .prf => 19 | .shf => 20 | .hif => 21 | .fld => 22

/-- The base address of a unit's 1 MiB window (R26). -/
def UnitId.base : UnitId → Nat
  | .top => 0x00000000 | .mtm => 0x00100000 | .pwr => 0x00200000 | .asy => 0x00300000 | .cfg => 0x00400000
  | .pkb => 0x01000000 | .par => 0x01100000 | .flw => 0x01200000 | .sch => 0x01300000 | .ple => 0x01400000
  | .cip => 0x01500000 | .rfa => 0x02000000 | .rfb => 0x02100000 | .rfc => 0x02200000 | .wma => 0x02300000
  | .sgm => 0x02400000 | .eth => 0x03000000 | .drc => 0x04000000 | .cpu => 0x05000000 | .prf => 0x06000000
  | .shf => 0x07000000 | .hif => 0x07100000 | .fld => 0x08000000

/-- Every unit, in bit order (R26). -/
def UnitId.all : List UnitId :=
  [.top, .mtm, .pwr, .asy, .cfg, .pkb, .par, .flw, .sch, .ple, .cip, .rfa, .rfb, .rfc, .wma, .sgm, .eth, .drc, .cpu,
   .prf, .shf, .hif, .fld]

/-- The three mains reference inputs (R31). -/
inductive RefId where
  | a | b | c
  deriving DecidableEq, Repr

/-- The number of a reference input: 0 for A, 1 for B, 2 for C. -/
def RefId.num : RefId → Nat
  | .a => 0 | .b => 1 | .c => 2

/-- The seven power domains that sleep (R399). -/
inductive Dom where
  | core | cpu | rfa | rfb | rfc | mem | wire
  deriving DecidableEq, Repr

/-- The bit number of a domain (R399). -/
def Dom.num : Dom → Nat
  | .core => 1 | .cpu => 2 | .rfa => 3 | .rfb => 4 | .rfc => 5 | .mem => 6 | .wire => 7

/-- Every sleeping domain, in bit order (R399). -/
def Dom.all : List Dom := [.core, .cpu, .rfa, .rfb, .rfc, .mem, .wire]

/-- The high-power radios, A and B. -/
inductive Radio where
  | a | b
  deriving DecidableEq, Repr

/-- The number of a radio: 0 for A, 1 for B. -/
def Radio.num : Radio → Nat
  | .a => 0 | .b => 1

/-- The recovery functions of R416. -/
inductive Func where
  | luminaire | time | subghz | radioA | radioB | datapath | cipher | wired | dram | cpu | shelf | power | assay
  deriving DecidableEq, Repr

/-- The number f of a function (R416). -/
def Func.num : Func → Nat
  | .luminaire => 0 | .time => 1 | .subghz => 2 | .radioA => 3 | .radioB => 4 | .datapath => 5 | .cipher => 6
  | .wired => 7 | .dram => 8 | .cpu => 9 | .shelf => 10 | .power => 11 | .assay => 12

/-- Every function, in number order (R416). -/
def Func.all : List Func :=
  [.luminaire, .time, .subghz, .radioA, .radioB, .datapath, .cipher, .wired, .dram, .cpu, .shelf, .power, .assay]

/-- The monitors of R417, in the order of its rows. -/
inductive Monitor where
  | refClock | asyOsc | derivedClocks | aonRails | otherRails | tempHigh | tempCrit | hbFldMtm | hbOther | appCore
  | lockstep | asySram | hvWatchdog | wgcRate | packetMemory | cipherAlarm | cipherTamper | entropy | cipherFault
  | dramFreeze | mainsPlaus | daliBus | commandEcho | radioDegr | supply | safeDelay | partialImage
  deriving DecidableEq, Repr

/-- The row of R417, counted from 0, as `ASY_FUNC_f.CAUSE` reports it. -/
def Monitor.row : Monitor → Nat
  | .refClock => 0 | .asyOsc => 1 | .derivedClocks => 2 | .aonRails => 3 | .otherRails => 4 | .tempHigh => 5
  | .tempCrit => 6 | .hbFldMtm => 7 | .hbOther => 8 | .appCore => 9 | .lockstep => 10 | .asySram => 11
  | .hvWatchdog => 12 | .wgcRate => 13 | .packetMemory => 14 | .cipherAlarm => 15 | .cipherTamper => 16
  | .entropy => 17 | .cipherFault => 18 | .dramFreeze => 19 | .mainsPlaus => 20 | .daliBus => 21
  | .commandEcho => 22 | .radioDegr => 23 | .supply => 24 | .safeDelay => 25 | .partialImage => 26

/-- The samples of the ten strap balls at one instant (R70): FOLIO[1:0], CFG_SRC, GPIO[3:0], GPIO[5:4], TEST_MODE. -/
structure StrapSample where
  folio : BitVec 2
  cfgSrc : Bool
  pwmPre : BitVec 4
  maddr : BitVec 2
  testMode : Bool
  deriving DecidableEq, Repr

/-- One IMG field word of a folio: its CSR address and the 32-bit word the folio gives it. -/
structure FolioWord where
  addr : BitVec 32
  value : Word
  deriving DecidableEq, Repr

/-- A node of the scheduling tree that a folio builds (R159): a queue (0), a client (1) or a group (2), its number and the words
of its `SCH_NODE_BUF`. -/
structure FolioNode where
  kind : Fin 3
  num : BitVec 16
  w0 : Word
  w1 : Word
  w2 : Word
  deriving DecidableEq, Repr

/-- A shaper that a folio configures (R159, R169): its number, RATE and BURST. -/
structure FolioShaper where
  num : BitVec 16
  rate : BitVec 32
  burst : BitVec 32
  deriving DecidableEq, Repr

/-- What an authenticated FOLIO section holds: the words of its IMG fields, the static fields that no register holds (R77: DRAM
geometry and ball functions; root key selection is `CIP_ROOT_SEL`, among the words), the safe level in percent (R421), and the
scheduling tree (R159). -/
structure FolioData where
  words : List FolioWord
  dramGeometry : Nat
  ballFunctions : Nat
  safeLevel : BitVec 7
  nodes : List FolioNode
  shapers : List FolioShaper
  deriving DecidableEq, Repr

/-- A pin that the PLACEMENT section holds (R203): the fields of `PLE_PIN_BUF`. -/
structure PinData where
  flow : Bool
  key : List Byte
  level : BitVec 2
  unit : BitVec 8
  device : BitVec 6
  deriving DecidableEq, Repr

/-- One entry of the luminaire schedule table (R455). -/
structure SchedEntry where
  ports : BitVec 4
  pwms : BitVec 4
  level : BitVec 8
  sets : BitVec 16
  deriving DecidableEq, Repr

/-- One vendor alarm of the SCHEDULE section (R64, R76): its number 0 to 63 and the values of its registers. -/
structure AlarmEntry where
  num : BitVec 6
  opens : BitVec 48
  width : BitVec 32
  ctl : Word
  deriving DecidableEq, Repr

/-- A piece of the FIRMWARE section (R64): the memory it is loaded into (local SRAM of application cores 0 to 3, that of the
safety pair 4, shared SRAM 5), its offset there and its bytes. -/
structure CodeSeg where
  memory : Fin 6
  offset : BitVec 23
  bytes : List Byte
  deriving DecidableEq, Repr

/-- One bank's critical sections (R64): whether each authenticates, and what they hold; `folios` holds the four folios in
order. -/
structure CritLoad where
  firmware : Bool
  schedule : Bool
  folioOk : BitVec 4
  code : List CodeSeg
  folios : List FolioData
  entries : List SchedEntry
  alarms : List AlarmEntry
  deriving DecidableEq, Repr

/-- What a measurement pair of the supply's monitoring reads returns (R408, R409). -/
structure SupplyRead where
  status : BitVec 16
  vin : BitVec 16
  iin : BitVec 16
  pout : BitVec 16
  deriving DecidableEq, Repr

/-- One read of MFR_PERMIT_STATUS (R408). -/
structure PermitStatus where
  state : BitVec 2
  cls : BitVec 3
  tag : BitVec 3
  lease : BitVec 8
  deriving DecidableEq, Repr

/-- How a PMBus transaction ended: acknowledged, or failed after its retry (R409). -/
inductive BusResult where
  | ok | nack | pecTwice
  deriving DecidableEq, Repr

/-- The events of the wake listeners (R405). -/
inductive Listener where
  | port (n : BitVec 3)
  | radioB (link : Bool)
  | radioA
  | subGhz
  deriving DecidableEq, Repr

/-- A rule of the EDITION section (R64, R133): its index for a ternary rule, value, mask, action word and OVERRIDE. -/
structure RuleData where
  index : BitVec 14
  value : List Byte
  mask : List Byte
  action : BitVec 64
  override : Bool
  deriving DecidableEq, Repr

/-- A piece of the PARSE section's program memory: its byte address and its bytes (R112). -/
structure ProgSeg where
  addr : BitVec 21
  bytes : List Byte
  deriving DecidableEq, Repr

/-- The running bank's deferred sections (R64): whether each authenticates, and what they hold: the program memory and the entry
table (word indices) of PARSE, the first edition's number and rules of EDITION, the pins of PLACEMENT, the four folios. -/
structure DeferredLoad where
  parse : Bool
  edition : Bool
  placement : Bool
  folioOk : BitVec 4
  program : List ProgSeg
  entries : List (BitVec 19)
  number : BitVec 16
  ternary : List RuleData
  exact : List RuleData
  pins : List PinData
  folios : List FolioData
  deriving DecidableEq, Repr

/-- One upset byte of a WGC codeword as it is read: its number 0 to 35 and the bits that differ (R102). -/
structure Upset where
  pos : Fin 36
  flip : BitVec 8
  deriving DecidableEq, Repr

/-- What a read of a packet word finds besides the stored bits (R86, R89): upsets of the word, tag copies that differ, and
upsets of the link-table entry of the word's cell. -/
structure ReadErr where
  word : List Upset
  tags : Bool
  link : List Upset
  deriving DecidableEq, Repr

/-- A read that finds the stored bits as they were written. -/
def ReadErr.none : ReadErr := { word := [], tags := false, link := [] }

/-- What the read of one word of a packet finds; the header slot is word 0, data word k is word k + 1 (R98). -/
structure WordErr where
  word : BitVec 10
  err : ReadErr
  deriving DecidableEq, Repr

/-- Close statuses of an END beat (R92). -/
inductive CloseStatus where
  | good | bad | abort
  deriving DecidableEq, Repr

/-- The NAT outcome that an owner returns for a remote lookup (R154). -/
inductive NatOutcome where
  | none | outbound | inbound | exception | drop
  deriving DecidableEq, Repr

/-- A client of another device that is overheard (R200): its address and LQ. -/
structure Overheard where
  mac : BitVec 48
  lq : BitVec 10
  deriving DecidableEq, Repr

/-- A candidate of tier 3 (R197): the device and radio, its BSSID, the busy fraction of its link root, and for this device
the LQ of the client there. -/
structure SteerOption where
  device : BitVec 6
  radio : Radio
  bssid : BitVec 48
  air : BitVec 10
  lq : BitVec 10
  deriving DecidableEq, Repr

/-- A client that advertises BSS transition management (R197), with its PMKSA where it uses SAE (R286). -/
structure BtmClient where
  mac : BitVec 48
  options : List SteerOption
  pmksa : Option (BitVec 128 × BitVec 384)
  deriving DecidableEq, Repr

/-- A reassignment of a sub-GHz node that tier 4 orders (R201). -/
structure NodeOrder where
  eui : BitVec 64
  old : BitVec 6
  new : BitVec 6
  deriving DecidableEq, Repr

/-- One MPDU of a transmitted PPDU, as its acknowledgement names it. -/
structure MpduId where
  client : BitVec 13
  tid : BitVec 4
  sn : BitVec 12
  deriving DecidableEq, Repr

/-- The result of a tune pass (R261, R262): the best VSWR in 1/16, its setting, and the steps of 10 µs taken. -/
structure TuneResult where
  vswr : BitVec 12
  series : BitVec 6
  shunt : BitVec 6
  steps : BitVec 5
  deriving DecidableEq, Repr

/-- A received MPDU with a good FCS (R273 to R276, R279, R285): its link (0 to 2 for roots 8 to 10); its octets from Frame Control to
the end of the body; whether it came in an A-MPDU, and whether it is the last of its PPDU, with which the response falls due; whether it
starts a U-APSD service period, and the access category and bytes of its buffer status report; RSSI in 0.5 dBm, the MCS byte and the
width code of R276. -/
structure WifiRx where
  link : Fin 3
  mpdu : List (BitVec 8)
  aggregated : Bool
  last : Bool
  trigger : Bool
  report : Option (BitVec 2 × BitVec 32)
  rssi : BitVec 8
  mcs : BitVec 8
  width : BitVec 3
  deriving DecidableEq, Repr

/-- What a transmit command carries (R268 to R271): the MPDUs taken under its root's grant, with retransmissions, or the trigger frame
of an UL grant; the oldest response that is due on the link; or a frame of hardware that no grant covers. -/
inductive TxWhat where
  | granted (retries : List MpduId)
  | response
  | other
  deriving DecidableEq, Repr

/-- A TWT agreement (R280): an individual one of a station, or a broadcast schedule of a BSS with the stations that follow it. -/
inductive TwtId where
  | own (station : BitVec 10) (n : Fin 4)
  | group (radio : Radio) (bss : BitVec 4) (n : Fin 8) (members : List (BitVec 10))
  deriving DecidableEq, Repr

/-- An edge of a service period (R280): it opens, for a duration in ns; it closes; or it closes and its agreement is torn down. -/
inductive TwtEdge where
  | opens (duration : BitVec 32)
  | closes
  | ends
  deriving DecidableEq, Repr

/-- The key of an inline job (R324): an entry of the wrapped-key table, or a derived key. -/
inductive InlineKey where
  | table (index : BitVec 12)
  | derived (slot : BitVec 2) (label : List (BitVec 8)) (k256 : Bool)
  deriving DecidableEq, Repr

/-- A pair of lanes that disagree, and how many blocks of the job on it had left the pair before (R327). -/
structure LaneFault where
  pair : Fin 3
  released : BitVec 16
  deriving DecidableEq, Repr

/-- The alarms of R328 that come from outside the jobs. -/
inductive CipAlarm where
  | tamper | vglitch | cglitch
  deriving DecidableEq, Repr

/-- How a received mPacket began (R344, R345): as an express frame or with preemption disabled at the sender; as the start of a
preemptable frame, which carries its frame number; or as a continuation, with the frame number and the fragment count. -/
inductive EthSmd where
  | express
  | start (frame : BitVec 2)
  | cont (frame count : BitVec 2)
  deriving DecidableEq, Repr

/-- How a received mPacket ended: with the frame's FCS, or with the mCRC of a fragment that is not its last (R344). -/
inductive EthCheck where
  | fcs (good : Bool)
  | mcrc (good : Bool)
  deriving DecidableEq, Repr

/-- An mPacket received on a wired port (R335, R345): its start, its octets from behind the SMD to before its check, the check, the ns
since its first octet after the SMD, and, where it ends a frame, what the reads of the whole frame's words in the receive buffer find
(R105). -/
structure EthRx where
  smd : EthSmd
  data : List (BitVec 8)
  check : EthCheck
  ago : BitVec 32
  errs : List WordErr
  deriving DecidableEq, Repr

/-- A side of a wired port: this device's transmitter, or the partner's, which the receive side follows (R349). -/
inductive EthSide where
  | tx | rx
  deriving DecidableEq, Repr

/-- A Bodkin engine (R372): a core, or a parse engine. The safety pair runs one instruction stream; a row names it once, as
core 4. -/
inductive Engine where
  | core (c : Fin 6)
  | pe (n : Fin 32)
  deriving DecidableEq, Repr

/-- The sizes of a load or store (R375, R383). -/
inductive MemSize where
  | word | half | byte
  deriving DecidableEq, Repr

/-- Its bytes. -/
def MemSize.bytes : MemSize → Nat
  | .word => 4 | .half => 2 | .byte => 1

/-- The header of a received SMP frame, beyond its type and destination (R439). -/
structure SmpHead where
  src : BitVec 6
  hops : BitVec 4
  level : BitVec 2
  epoch : BitVec 12
  ctr : BitVec 20
  term : BitVec 32
  lt : BitVec 64
  deriving DecidableEq, Repr

/-- What a remote register access names (R15, R450): a shelf address, or a place in BAR2, whose aperture maps a unit window. -/
inductive RemoteTarget where
  | shelf (addr : BitVec 64)
  | aperture (offset : BitVec 26)
  deriving DecidableEq, Repr

/-- The sampling number of an engine (R472). -/
def Engine.num : Engine → Nat
  | .core c => c.val
  | .pe n => 0x20 + n.val

/-- A retired instruction word as the sampling unit sees it (R470, R472). -/
structure RetiredWord where
  pc : BitVec 32
  dataAddr : BitVec 32
  latency : BitVec 16
  slotB : Bool
  dataValid : Bool
  pairStall : Bool
  exc : Bool
  level : Level
  word : Word
  ctx : BitVec 8
  pass : BitVec 8
  cycle : BitVec 32
  deriving DecidableEq, Repr

/-- The event names of the log (R473); the names are the spec's. -/
inductive Ev where
  | ACCESS_DENIED
  | ACCESS_PARTIAL
  | ALARM
  | ALARM_BUSY
  | ALARM_SKIPPED
  | ASY_BIST_FAIL
  | ASY_FAULT
  | ASY_FAULT_END
  | ASY_LFT_FAIL
  | ASY_LFT_OVERDUE
  | ASY_REPLACE
  | ASY_RUNG
  | ASY_SAFE_ENTER
  | ASY_SAFE_EXIT
  | BOOT_COMPLETE
  | BOOT_LATE
  | BOOT_WARM
  | CFG_BANK_FALLBACK
  | CFG_TRIAL_EXPIRED
  | CIP_ALARM
  | CIP_ERASE
  | CIP_KEY_CORRUPT
  | CIP_QUARANTINE
  | CIP_RING_OVERRUN
  | CIP_ROOT_FAIL
  | CPU_DOUBLE_FAULT
  | DRC_BAD_ADDR
  | DRC_FREEZE
  | ETH_CFG_INVALID
  | ETH_MACSEC_KEYS_LOST
  | ETH_PN_HIGH
  | ETH_PORT_BUSY
  | ETH_VERIFY_FAIL
  | FLD_DALI_FULL
  | FLD_ECHO_FAIL
  | FLD_IN_CHATTER
  | FLD_IN_STUCK
  | FLD_PULSE_IGNORED
  | FLD_PWM_FAULT
  | FLD_SAFE_APPLIED
  | FLD_SAFE_BROADCAST
  | FLD_SAFE_COLLISION
  | FLD_SAFE_REFUSED
  | FLD_SCHED_BAD
  | FLW_BAD_PARAM
  | FLW_LIMP
  | FOLIO_SUBSTITUTED
  | FOLIO_SWITCH
  | GRANT_EXPIRED
  | GRANT_EXPIRING
  | JTAG_REFUSED
  | LT_LOAD
  | LT_STEP
  | LT_SYNC_LOST
  | MAINT_WAKE
  | MT_CYCLE_ADOPT
  | MT_CYCLE_MISMATCH
  | MT_CYCLE_UNRESOLVED
  | MT_HOLD_AMBIG
  | MT_HOLD_ENTER
  | MT_HOLD_EXIT
  | MT_HOLD_SLOT
  | MT_REF_CHATTER
  | MT_REF_RANGE
  | MT_REF_STUCK
  | MT_SRC_CHANGE
  | MT_STEP
  | MT_WRAP
  | PAR_BAD_ACTION
  /-- The MODEL's name (R22, log entry 195). -/
  | PAR_ENGINE_LOST
  | PAR_PROG_FAULT
  | PKB_RESERVE_SHORT
  | PLE_FENCE_TIMEOUT
  | PLE_MOVE_CANCEL
  | PLE_STEER_TIMEOUT
  | PLE_MOVE_UNCONFIRMED
  | PWR_BROWNOUT
  | PWR_LP_LOCK
  | PWR_PERMIT_DENIED
  | PWR_PERMIT_REVOKED
  | PWR_PMBUS_ERR
  | PWR_POWER_CYCLE
  | PWR_SUPPLY_FAULT
  | PWR_VIN_HIGH
  | PWR_VIN_LOW
  | QUIRE_BUSY
  | RFC_BAD_PROFILE
  | RFC_CH_LOST
  | RFC_IMAGE_LOW
  | RF_CHAN_DENIED
  | RF_COEX
  | RF_MISMATCH
  | RF_STATE_CONFLICT
  | SGM_ADRIFT
  | SGM_BUDGET_SKIP
  | SGM_LOST
  | SGM_PLAN_INVALID
  | SGM_PN_EXHAUST
  | SGM_SAFE_LEVEL
  | SHF_BAD_TYPE
  | SHF_ID_CONFLICT
  | SHF_LEAD_YIELD
  | SHF_NOT_LEAD
  | SHF_UNREACHABLE
  | STRAP_UNSTABLE
  | UNIT_NOT_READY
  | UNMAPPED
  | WGC_UNCORR
  | WMA_BH_DOWN
  | WMA_BH_UP
  | WMA_MIC_FAIL
  | WMA_PN_EXHAUST
  deriving DecidableEq, Repr

/-- The commands: one constructor per row of spec/opcode_table.json, in its order. -/
inductive Instr where
  /-- REGISTER_WRITE (R17): A write to a register field that has no row of its own, checked field by field against level and access type. -/
  | registerWrite (req : Req) (addr value : BitVec 32) (be : BitVec 4)
  /-- GUEST_READ_CHECK (R18): A Guest read returns only Guest-readable fields, or returns 0 and logs ACCESS_DENIED. -/
  | guestReadCheck (path : Path) (addr : BitVec 32)
  /-- READ_CLEAR (R12): A read of an RC field returns the value and clears it, keeping events of the same cycle. -/
  | readClear (req : Req) (addr : BitVec 32)
  /-- WIDE_VALUE_LATCH (R6): A read of the lowest word of a wide value latches its upper words into a holding copy. -/
  | wideValueLatch (req : Req) (addr : BitVec 32)
  /-- BOOT_LOCK_SET (R13): Firmware writes TOP_LOCK.BOOT to 1, making RWL fields read-only until a device reset. -/
  | bootLockSet (req : Req)
  /-- MAINT_ADDRESS_MATCH (R83): The maintenance-port address matcher matches the bus address and starts the maintenance logic while stretching SCL. -/
  | maintAddressMatch (address : BitVec 7) (stopped : Bool)
  /-- MAINT_WRITE (R84): A complete maintenance-port write transaction performs a register write at Operator level. -/
  | maintWrite (addr value : BitVec 32) (complete : Bool)
  /-- REF_INPUT_CHANGE (R31): A mains reference input changes level and starts its 200 us deglitch. -/
  | refInputChange (input : RefId) (level : Bool) (time : BitVec 64)
  /-- REF_EDGE_ACCEPT (R31): A reference level has held for 200 us and is accepted as an edge carrying the time of the change. -/
  | refEdgeAccept (input : RefId)
  /-- MT_REF_STUCK (R32): Three expected cycles pass without an accepted edge and the input enters STUCK. -/
  | mtRefStuck (input : RefId)
  /-- CHATTER_PERIOD_END (R33): The 10-cycle chatter period ends and the input goes to STUCK or GOOD. -/
  | chatterPeriodEnd (input : RefId)
  /-- MT_HOLD_SLOT (R39): The free-holdover error bound first reaches 4,096 ticks and is logged. -/
  | mtHoldSlot
  /-- MT_HOLD_AMBIG (R39): The holdover error bound reaches 32,768 ticks, CYC_AMBIG is set and the event is logged. -/
  | mtHoldAmbig
  /-- MT_STEP (R41): At the reference phase-0 instant a pending step of more than 4,096 ticks jumps or holds MT, or is cancelled into a slew. -/
  | mtStep
  /-- MT_CYCLE_BOUNDARY (R44): MT reaches a cycle boundary, which serves folio switches, slot frames and alarms. -/
  | mtCycleBoundary
  /-- OFFSET_LEARN (R35): The 64-cycle average of an input's offset completes and is stored in MTM_LEARN_x. -/
  | offsetLearn (input : RefId)
  /-- LT_LOAD (R46): GO to MTM_LT_LOAD loads LT once per cold reset, refusing a repeat or a lower value. -/
  | ltLoad (req : Req)
  /-- LT_STEP (R45): A write to MTM_LT_STEP steps LT forward by the given microseconds. -/
  | ltStep (req : Req) (amount : BitVec 24)
  /-- LT_SYNC_LOST (R45): On a non-lead member the servo offset leaves +-500 ns, LT_SYNC falls and the fall is logged. -/
  | ltSyncLost
  /-- MT_SNAP (R47): GO to MTM_SNAP captures MT and LT in the same datapath cycle. -/
  | mtSnap (req : Req)
  /-- ALARM (R50): An enabled phase alarm fires at the first MT in its window, sets PEND, runs its action and re-arms or disables. -/
  | alarm (n : BitVec 8)
  /-- ALARM_CTL_WRITE (R52): A write to MTM_ALM_CTL_n arms or disarms an alarm, firing at once with SKIPPED if its window has closed. -/
  | alarmCtlWrite (req : Req) (n : BitVec 8) (value : Word)
  /-- VIN_VALID (R398): The 12 V input has held at or above 10.6 V for 1 ms, which starts the start-up timeline. -/
  | vinValid (mv : BitVec 16)
  /-- AON_UP (R72): The always-on domain is up, the references run and TOP, MTM, PWR and FLD leave reset. -/
  | aonUp
  /-- STRAP_SAMPLE_DONE (R70): The eight strap samples are complete and the strap values are latched. -/
  | strapSampleDone (samples : List StrapSample)
  /-- ASSAY_BIST_DONE (R74): The Assay built-in self-test completes, is repeated once on failure, or stops start-up after a second failure. -/
  | assayBistDone (pass : Bool)
  /-- CFG_HEADERS_READ (R65): CFG has read and validated both headers and selects the bank, counting trial boots. -/
  | cfgHeadersRead
  /-- CRITICAL_SECTIONS_LOADED (R66): The critical sections have been authenticated and loaded, or the other bank is tried. -/
  | criticalSectionsLoaded
  /-- LUMINAIRE_CONTROL_READY (R72): At step 6 the field outputs take their start levels, schedule alarms are enabled and the Assay monitors are armed. -/
  | luminaireControlReady
  /-- CALIBRATION_SECTION_LOADED (R491): CFG has read and authenticated the CALIBRATION section before DRAM training. -/
  | calibrationSectionLoaded
  /-- DRAM_TRAINING_DONE (R75): DRAM training completes and DRC becomes ready, or it fails and start-up continues in Limp mode. -/
  | dramTrainingDone (pass : Bool)
  /-- DEFERRED_SECTIONS_LOADED (R66): The deferred sections are loaded and the datapath units become ready, or a failure triggers fallback or PARTIAL.
  `failed`: the parse engines that fail their self-test as PAR comes into service (R22). -/
  | deferredSectionsLoaded (failed : BitVec 32)
  /-- RADIO_CALIBRATION_DONE (R222): The start-up calibrations of radios A, B and C complete and the radio units become ready. -/
  | radioCalibrationDone (spans : List (BitVec 8 × TuneResult × TuneResult))
  /-- BOOT_COMPLETE (R72): Full service is reached, beacons start, the shelf is joined and TOP_LOCK.BOOT is set. -/
  | bootComplete
  /-- BOOT_LATE (R74): A start-up step exceeds its bound and is logged with the step number. -/
  | bootLate (stage : BitVec 4)
  /-- CONFIRM (R69): CFG_CMD CONFIRM sets CONF_SEQ, clears TRIALS and advances the OTP rollback count. -/
  | confirm (req : Req)
  /-- ERASE_BANK (R69): CFG_CMD ERASE_BANK starts erasing the non-running bank. -/
  | eraseBank (req : Req)
  /-- ERASE_BANK_DONE (R69): The bank erase finishes and the command reads DONE. -/
  | eraseBankDone
  /-- NVM_DATA_WRITE (R69): A write to CFG_NVM_DATA programs one word and advances the pointer, or sets PROG_ERR. -/
  | nvmDataWrite (req : Req) (data readBack : Word)
  /-- WARM_RESET (R76): TOP_RESET KIND warm starts a warm device reset that runs steps 3 to 10. -/
  | warmReset (req : Req) (key : BitVec 16)
  /-- COLD_RESET (R76): TOP_RESET KIND cold starts a cold reset that runs every start-up step. -/
  | coldReset (req : Req) (key : BitVec 16)
  /-- FOLIO_SWITCH_REQUEST (R78): A write to TOP_FOLIO_SEL with AT_RESET 0 requests a folio switch at a cycle boundary or is rejected. -/
  | folioSwitchRequest (req : Req) (folio : BitVec 2)
  /-- FOLIO_AT_RESET (R80): A write to TOP_FOLIO_SEL with AT_RESET 1 stores the folio for the next warm reset. -/
  | folioAtReset (req : Req) (folio : BitVec 2)
  /-- FOLIO_SWITCH (R78): At the chosen cycle boundary CFG writes all switchable fields from the folio store and logs the switch. -/
  | folioSwitch
  /-- QUIRE_RECONFIG (R79): A quire changed by a folio switch has drained, so CFG writes its new values and PKB takes its reserve. -/
  | quireReconfig (quire : BitVec 7)
  /-- QUIRE_START_BEAT (R94): A START beat opens a packet in a quire if a cell can be allocated, aborting any open packet. -/
  | quireStartBeat (quire : BitVec 7) (info : BitVec 128) (data : List (BitVec 8))
  /-- QUIRE_DATA_BEAT (R93): A data beat packs bytes into words, encodes full words and allocates cells, dropping the packet if none is free. -/
  | quireDataBeat (quire : BitVec 7) (data : List (BitVec 8))
  /-- QUIRE_END_BEAT (R96): An END beat completes or aborts the packet, writes the header slot and makes it visible. -/
  | quireEndBeat (quire : BitVec 7) (data : List (BitVec 8)) (close : CloseStatus)
  /-- QUIRE_WORD_READ (R98): A consumer reads the next word of a quire, header slot first, decoding it with the WGC. -/
  | quireWordRead (quire : BitVec 7) (err : ReadErr)
  /-- DROP_PKT (R99): DROP_PKT discards the unread rest of the current packet, or returns NO_PKT. -/
  | dropPkt (req : Req) (quire : BitVec 7)
  /-- FLUSH (R100): FLUSH discards the current packet and every packet visible when it is accepted. -/
  | flush (req : Req) (quire : BitVec 7)
  /-- QUIRE_DISABLE (R90): A write to PKB_Q_CFG_n clears EN, so the quire refuses new packets while complete ones stay readable. -/
  | quireDisable (req : Req) (quire : BitVec 7)
  /-- TABLE_SCRUB (R106): The scrubber reads a table SRAM word on its 10 s cycle and writes back corrections. -/
  | tableScrub (unit : UnitId) (source : BitVec 4) (index : BitVec 23) (upset : List Upset)
  /-- WGC_RATE_WINDOW_END (R110): A one-second window closes and a unit whose corrections exceeded THR reports a rate fault. -/
  | wgcRateWindowEnd (unit : UnitId)
  /-- PARSE_PASS_START (R112): PKB hands a packet to a parse engine, which checks its status and starts the pass's program. -/
  | parsePassStart (engine : BitVec 5) (quire : Option (BitVec 7)) (header : ReadErr)
  /-- PARSE_TIMEOUT (R114): A pass reaches 512 engine cycles without DONE and ends as PARSE_TIMEOUT. -/
  | parseTimeout (engine : BitVec 5)
  /-- FINAL_LOOKUP_RESULT (R116): The final ternary and exact-match lookup returns and the chosen action is executed. -/
  | finalLookupResult (engine : BitVec 5)
  /-- FRAG_HOLD_EXPIRE (R125): The 64 ms hold window closes, held fragments become FRAG_ORPHAN and the entry is freed. -/
  | fragHoldExpire (entry : BitVec 12)
  /-- FRAG_ACTIVE_EXPIRE (R127): The 2 s ACTIVE window closes and the fragment entry is freed. -/
  | fragActiveExpire (entry : BitVec 12)
  /-- RULE_WRITE (R133): PAR_RULE_CMD WRITE stores a rule open from the pending edition. -/
  | ruleWrite (req : Req) (exact : Bool) (index : BitVec 20)
  /-- RULE_RETIRE (R133): PAR_RULE_CMD RETIRE removes a pending rule or closes a committed one at the pending edition. -/
  | ruleRetire (req : Req) (exact : Bool) (index : BitVec 20)
  /-- RULE_READ (R133): PAR_RULE_CMD READ copies a rule into the buffer. -/
  | ruleRead (req : Req) (exact : Bool) (index : BitVec 20)
  /-- EDITION_COMMIT (R134): GO to PAR_COMMIT makes the pending edition current, or is refused with BUSY. -/
  | editionCommit (req : Req)
  /-- FLOW_LOOKUP (R140): A FORWARD packet reaches FLW and its key is looked up in the SRAM bucket. -/
  | flowLookup
  /-- FLOW_DRAM_READ_DONE (R140): The DRAM bucket read for a flow lookup returns. -/
  | flowDramReadDone
  /-- ROUTE_LOOKUP_DONE (R147): The route lookup returns and the route-stage checks decide the packet's fate. -/
  | routeLookupDone
  /-- REMOTE_LOOKUP_TIMEOUT (R154): No reply to a remote lookup arrives within FLW_REMOTE_TMO and the packet is dropped. -/
  | remoteLookupTimeout
  /-- REMOTE_LOOKUP_RX (R154): An owner receives a LOOKUP message, applies the edition rule and answers. -/
  | remoteLookupRx (src : BitVec 6) (request : BitVec 32) (key : BitVec 312) (edition : BitVec 16) (param : BitVec 32) (len : BitVec 16) (redirected : Bool)
  /-- LOOKUP_RESP_RX (R154): A LOOKUP_RESP returns the NAT outcome and releases waiting packets in order. -/
  | lookupRespRx (request : BitVec 32) (miss : Bool) (nat : NatOutcome) (xlat : BitVec 48)
  /-- AGEING_SWEEP (R156): The ageing sweep visits an entry, frees it if expired and clears stale next hops. -/
  | ageingSweep (sram : Bool) (index : BitVec 23)
  /-- FLW_LIMP (R157): DRC reports the freeze, FLW drops DRAM waiters, sets LIMP and invalidates cached next hops. -/
  | flwLimp
  /-- FLOW_READ (R153): FLW_FLOW_CMD READ copies the entry for the buffer's key into the buffer. -/
  | flowRead (req : Req)
  /-- FLOW_DELETE (R153): FLW_FLOW_CMD DELETE frees the entry, and its NAT partner, with a DELETED record. -/
  | flowDelete (req : Req)
  /-- FLOW_PIN (R153): FLW_FLOW_CMD PIN sets PIN and moves a WARM entry to SRAM. -/
  | flowPin (req : Req)
  /-- FLOW_UNPIN (R153): FLW_FLOW_CMD UNPIN clears the entry's PIN. -/
  | flowUnpin (req : Req)
  /-- FLOW_TIER_MOVE (R140): A placement move writes an entry to its new tier and frees the old place under one bucket serialisation. -/
  | flowTierMove (key : BitVec 312) (toSram : Bool)
  /-- ROUTE_ADD (R145): FLW_ROUTE_CMD ADD stores or replaces a route atomically. -/
  | routeAdd (req : Req)
  /-- ROUTE_DEL (R145): FLW_ROUTE_CMD DEL removes a route atomically. -/
  | routeDel (req : Req)
  /-- ROUTE_COMMIT (R146): FLW_ROUTE_CMD COMMIT advances a VRF's route generation or is refused with BUSY. -/
  | routeCommit (req : Req) (vrf : BitVec 6)
  /-- SCH_ENQUEUE (R161): A packet is appended to its scheduler queue or dropped at enqueue. -/
  | schEnqueue (queue : BitVec 15) (packet : BitVec 32)
  /-- WIRED_DEQUEUE (R174): A wired port has room for a frame and SCH selects and hands over the next packet of its root. -/
  | wiredDequeue (port : BitVec 3) (errs : List WordErr)
  /-- PAUSE_STATE_REPORT (R174): A port reports a PAUSE or PFC change and SCH updates the eligibility of the root or queues. -/
  | pauseStateReport (port : BitVec 3)
  /-- WHEEL_SLOT_RELEASE (R166): The wheel reaches a slot and its shapers are refilled and their nodes released. -/
  | wheelSlotRelease
  /-- OVERFLOW_SLOT_MOVE (R167): An overflow slot comes within range and its nodes move into the main wheel. -/
  | overflowSlotMove
  /-- SHAPER_PENDING_REFILL (R170): A PENDING shaper is refilled within 64 us and its new rate and burst apply. -/
  | shaperPendingRefill (shaper : BitVec 16)
  /-- WIFI_GRANT_REQUEST (R175): WMA asks for a PPDU's content and SCH answers with the class and per-user allowances. -/
  | wifiGrantRequest (root : BitVec 4) (ul : Bool) (mimo : Bool) (users : BitVec 7) (airtime : BitVec 32) (cls : BitVec 3)
  /-- WIFI_MPDU_TAKE (R176): WMA takes MPDUs from a queue, which are charged and rewritten for 802.11. -/
  | wifiMpduTake (root : BitVec 4) (entry : BitVec 6) (count : BitVec 10) (errs : List (List WordErr))
  /-- CELL_FRAME_RETURN (R182): SGM returns a taken frame to the head of its queue, the charge standing. -/
  | cellFrameReturn
  /-- SCH_NODE_READ (R183): SCH_NODE_CMD READ copies a node or shaper into the buffer. -/
  | schNodeRead (req : Req) (kind : BitVec 2) (index : BitVec 16)
  /-- SCH_NODE_WRITE (R183): SCH_NODE_CMD WRITE changes a node or shaper between selections, moving nodes with their packets. -/
  | schNodeWrite (req : Req) (kind : BitVec 2) (index : BitVec 16)
  /-- SCH_NODE_FLUSH (R183): SCH_NODE_CMD FLUSH drops every packet of a queue. -/
  | schNodeFlush (req : Req) (kind : BitVec 2) (index : BitVec 16)
  /-- SCH_NODE_READ_CLR (R183): SCH_NODE_CMD READ_CLR reads a node and clears its DROPS. -/
  | schNodeReadClr (req : Req) (kind : BitVec 2) (index : BitVec 16)
  /-- TIER1_ANCHOR_EVAL (R190): Every 1 ms candidate anchors of ANCHORED TIDs are scored and a new anchor is adopted when free. -/
  | tier1AnchorEval (air8 : BitVec 10) (air9 : BitVec 10) (air10 : BitVec 10)
  /-- LINK_USABILITY_CHANGE (R188): A link becomes usable or unusable for a client and its bit in every mask is set or cleared. -/
  | linkUsabilityChange (client : BitVec 13) (root : BitVec 4) (awake : Bool) (goodput : BitVec 16)
  /-- BA_AGREEMENT_CHANGE (R187): A block ack agreement is set up, changed or torn down and the TID is re-evaluated as SPLIT or ANCHORED. -/
  | baAgreementChange (station : BitVec 10) (tid : BitVec 4) (transmit : Bool) (size : BitVec 11) (ssn : BitVec 12)
  /-- TIER2_EVAL (R191): Every 50 ms tier 2 promotes, demotes and hints flow entries within its budget. -/
  | tier2Eval (dram : BitVec 10)
  /-- MOVE_HINT_RX (R193): A device receives MOVE_HINT and sends MOVE_REQ at its next tier 2 evaluation unless at a limit. -/
  | moveHintRx (src : BitVec 6) (key : BitVec 312) (share : BitVec 10)
  /-- MOVE_REQ_RX (R205): The old owner snapshots the entry, converts it to REMOTE and sends MOVE_DATA, or refuses. -/
  | moveReqRx (src : BitVec 6) (id : BitVec 32) (key : BitVec 312)
  /-- MOVE_DATA_RX (R206): The new owner installs the entry and sends MOVE_ACK, or cancels with FULL. -/
  | moveDataRx (src : BitVec 6) (id : BitVec 32) (entry : BitVec 512) (partner : BitVec 512)
  /-- MOVE_ACK_RX (R207): The old owner receives MOVE_ACK and discards its snapshot. -/
  | moveAckRx (src : BitVec 6) (id : BitVec 32)
  /-- DRAIN_DONE_RX (R208): The new owner receives DRAIN_DONE and releases the fence when its conditions hold. -/
  | drainDoneRx (src : BitVec 6) (id : BitVec 32)
  /-- MOVE_CANCEL_RX (R209): A move is cancelled and the old owner restores its entry from the snapshot. -/
  | moveCancelRx (src : BitVec 6) (id : BitVec 32) (reason : BitVec 8)
  /-- REDIRECT_RX (R205): A requester updates its REMOTE entry and resends the lookup to the new owner. -/
  | redirectRx (src : BitVec 6) (key : BitVec 312) (owner : BitVec 6)
  /-- WAIT_RX (R204): A requester receives WAIT and restarts its remote lookup timeout once. -/
  | waitRx (src : BitVec 6) (key : BitVec 312)
  /-- DRAIN_COMPLETE (R207): Every pre-commit packet of the flow has been enqueued or discarded, so the old owner sends DRAIN_DONE. -/
  | drainComplete
  /-- FENCE_TIMEOUT (R209): The 2 ms fence expires and the new owner keeps the flow or cancels the move. -/
  | fenceTimeout
  /-- PLE_MOVE_UNCONFIRMED (R207): No MOVE_ACK arrives within 10 ms, so the snapshot is discarded and logged. -/
  | pleMoveUnconfirmed
  /-- TIER3_EVAL (R197): Every second tier 3 scores clients and sends BSS transition requests for winning candidates. -/
  | tier3Eval (clients : List BtmClient)
  /-- STEER_TIMEOUT (R198): A steered client ignores the request for 5 s and its backoff doubles. -/
  | steerTimeout (mac : BitVec 48)
  /-- LOAD_REPORT_SEND (R200): Once per second a member sends its load report over SMP. -/
  | loadReportSend (clients : List Overheard) (nodes : List (BitVec 64)) (dram : BitVec 10)
  /-- LOAD_RX (R200): A member receives a peer's LOAD report and updates its PEER input. -/
  | loadRx (src : BitVec 6) (load : BitVec 10) (limp : Bool) (clients : List Overheard) (nodes : List (BitVec 64))
  /-- TIER4_EVAL (R201): Every 10 s the lead computes mean load, sets biases and orders sub-GHz node reassignments. -/
  | tier4Eval
  /-- TIER4_RX (R201): A member receives a TIER4 message and applies biases and reassignments. -/
  | tier4Rx (biases : List (BitVec 6 × BitVec 10)) (orders : List NodeOrder)
  /-- LEAD_OK_TIMEOUT (R201): No tier 4 message for 30 s clears every bias and LEAD_OK. -/
  | leadOkTimeout
  /-- PIN_SET (R203): PLE_PIN_CMD SET stores a pin and applies it as a forced change or keeps it UNMET. -/
  | pinSet (req : Req)
  /-- PIN_CLEAR (R203): PLE_PIN_CMD CLEAR removes a pin. -/
  | pinClear (req : Req)
  /-- PIN_READ (R203): PLE_PIN_CMD READ returns a pin and its state. -/
  | pinRead (req : Req)
  /-- PIN_RX (R203): A PIN message stores or distributes a shelf or remote device pin. -/
  | pinRx (src : BitVec 6) (image : BitVec 352)
  /-- RF_GO_OFF (R221): RFx_STATE_CMD TARGET OFF powers down a link after any PPDU completes.
  `req` none: WMA gives the state command, here and in the three rows below. -/
  | rfGoOff (req : Option Req) (radio : Radio) (link : Bool)
  /-- RF_GO_SLEEP (R221): RFx_STATE_CMD TARGET SLEEP biases a link down, abandoning held commands. -/
  | rfGoSleep (req : Option Req) (radio : Radio) (link : Bool)
  /-- RF_GO_IDLE (R221): RFx_STATE_CMD TARGET IDLE locks the synthesiser without reception. -/
  | rfGoIdle (req : Option Req) (radio : Radio) (link : Bool)
  /-- RF_GO_RX (R221): RFx_STATE_CMD TARGET RX starts reception on every enabled chain. -/
  | rfGoRx (req : Option Req) (radio : Radio) (link : Bool)
  /-- RF_TRANSITION_DONE (R219): A link transition or channel change completes and the next queued command starts. -/
  | rfTransitionDone (radio : Radio) (link : Bool)
  /-- TX_COMMAND (R221): A transmit command from WMA starts at once, waits or is held, cutting any reception.
  `len`: the length of the PPDU in ns; `errs`: what the reads of each MPDU's words find while it is sent (R107). -/
  | txCommand (radio : Radio) (link : Bool) (cls : BitVec 3) (len : BitVec 32) (what : TxWhat) (errs : List (List WordErr)) (receiving : Bool)
  /-- HELD_COMMAND_START (R224): Lock and calibration complete and a held transmit command starts in deadline order. -/
  | heldCommandStart (radio : Radio) (link : Bool)
  /-- TX_LATE (R225): A held command cannot start by its deadline and is abandoned. -/
  | txLate (radio : Radio) (link : Bool)
  /-- HOLD_EXPIRED (R225): A held command without a deadline reaches RFx_HOLD_MAX and is abandoned. -/
  | holdExpired (radio : Radio) (link : Bool)
  /-- PPDU_TX_END (R234): A PPDU ends, its status is returned and the chain VSWR measurement is taken. -/
  | ppduTxEnd (radio : Radio) (link : Bool) (vswr : List (BitVec 12)) (acked : List MpduId) (discarded : List MpduId)
  /-- CAL_SEGMENT_START (R223): A background calibration segment takes a chain out of reception.
  `receiving`: the radio is receiving a PPDU; `due`: a response is pending or WMA has scheduled a transmission within 20 µs. -/
  | calSegmentStart (radio : Radio) (chain : BitVec 3) (receiving : Bool) (due : Bool)
  /-- CAL_SEGMENT_END (R223): A segment ends, and a class completes after 64 segments per chain. -/
  | calSegmentEnd (radio : Radio) (chain : BitVec 3)
  /-- DPD_PERMIT_RETRY (R233): After a denied permit the radio asks again for a high-power class 1 s later. -/
  | dpdPermitRetry (radio : Radio)
  /-- RF_CAL_FULL (R222): RFx_CAL_CMD FULL runs a full calibration of the current channel. -/
  | rfCalFull (req : Req) (radio : Radio) (link : Bool)
  /-- RF_DPD_CLEAR (R222): RFx_CAL_CMD DPD_CLEAR makes every predistortion table of the link EMPTY. -/
  | rfDpdClear (req : Req) (radio : Radio) (link : Bool)
  /-- RF_CAL_DONE (R222): A full calibration completes and the link reaches its target state. -/
  | rfCalDone (radio : Radio) (link : Bool)
  /-- PA_TEMP_CHANGE (R231): A PA or LNA temperature change makes IQ calibration due or tables STALE. -/
  | paTempChange (radio : Radio) (chain : BitVec 3) (lna : Bool) (temp : BitVec 8)
  /-- MISMATCH_PROBE (R234): Every 60 s a class 0 probe is sent into a disabled chain, returning it to HIGH if good. -/
  | mismatchProbe (radio : Radio) (chain : BitVec 3) (vswr : BitVec 12)
  /-- GRANT_LOAD (R236): RFA_GRANT_CMD LOAD replaces the active coordination grant and recomputes the REG cap. -/
  | grantLoad (req : Req)
  /-- GRANT_CLEAR (R236): RFA_GRANT_CMD CLEAR ends the grant at once and the fallback applies. -/
  | grantClear (req : Req)
  /-- GRANT_EXPIRING (R238): No new grant by expiry minus EARLY is logged and raises the RFA interrupt. -/
  | grantExpiring
  /-- GRANT_EXPIRED (R238): The grant expires and the fallback applies from the next PPDU start. -/
  | grantExpired
  /-- RF_CHAN_WRITE (R239): A write to RFx_CHAN_l stages a channel, checking coexistence and incumbent rules. -/
  | rfChanWrite (req : Req) (radio : Radio) (link : Bool) (second : Bool) (data : BitVec 32)
  /-- CHANNEL_MOVE (R239): At the target beacon time where the CSA count reaches 0 the link moves to the staged channel. -/
  | channelMove (radio : Radio) (link : Bool)
  /-- RFB_SPLIT_WRITE (R213): A write that changes SPLIT applies only with both links OFF, or is discarded and logged. -/
  | rfbSplitWrite (req : Req) (split : Bool)
  /-- RFC_GO_OFF (R253): RFC_STATE_CMD TARGET OFF powers down radio C. -/
  | rfcGoOff (req : Req)
  /-- RFC_GO_SLEEP (R253): RFC_STATE_CMD TARGET SLEEP biases radio C down. -/
  | rfcGoSleep (req : Req)
  /-- RFC_GO_IDLE (R253): RFC_STATE_CMD TARGET IDLE locks radio C's synthesiser. -/
  | rfcGoIdle (req : Req)
  /-- RFC_GO_RX (R253): RFC_STATE_CMD TARGET RX starts reception of the span. -/
  | rfcGoRx (req : Req)
  /-- RFC_TRANSITION_DONE (R253): A radio C transition completes. -/
  | rfcTransitionDone
  /-- APPLY_PLAN (R243): RFC_CMD APPLY_PLAN activates the staged span, aborting frames in progress. -/
  | applyPlan (req : Req)
  /-- SPAN_RETUNE_DONE (R243): The synthesiser has retuned and reception resumes on the new plan. -/
  | spanRetuneDone
  /-- CAL_REQ (R258): RFC_CMD CAL_REQ marks an image calibration due. -/
  | calReq (req : Req)
  /-- TUNE_REQ (R261): RFC_CMD TUNE_REQ marks a tune pass due on a port. -/
  | tuneReq (req : Req) (port : Bool)
  /-- PREAMBLE_DETECT (R247): A channel searcher detects a preamble after 16 symbols and AFC starts. -/
  | preambleDetect (channel : BitVec 6) (entry : BitVec 2) (rssi : BitVec 8) (current : BitVec 8) (offset : BitVec 16) (same : Bool)
  /-- SFD_DETECT (R249): An SFD ends, AFC is frozen and the frame is stamped with its sync-word detection time. -/
  | sfdDetect (channel : BitVec 6) (entry : BitVec 2) (rssi : BitVec 8) (fofs : BitVec 16)
  /-- PHR_DECODE (R246): The PHR is decoded and a frame breaking its conditions is dropped. -/
  | phrDecode (channel : BitVec 6) (ms : Bool) (fcs16 : Bool) (dw : Bool) (length : BitVec 11)
  /-- RFC_RX_REPORT (R252): A frame ends or aborts and its receive report is delivered to SGM. -/
  | rfcRxReport (channel : BitVec 6) (fcsOk : Bool) (psdu : List (BitVec 8))
  /-- RFC_TX_COMMAND (R256): SGM submits a transmit command, which is queued or refused with BUSY. -/
  | rfcTxCommand (channel : BitVec 6) (profile : BitVec 4) (port : Bool) (level : BitVec 8) (turn : Bool) (ref : BitVec 6) (time : BitVec 64) (deadline : Bool) (dw : Bool) (psdu : List (BitVec 8))
  /-- RFC_TX_START (R256): A transmit command's start time arrives and the frame starts, stopping the receiver. -/
  | rfcTxStart (errs : List WordErr)
  /-- RFC_TX_LATE (R256): A command with a deadline cannot start at its start time and is abandoned. -/
  | rfcTxLate
  /-- RFC_TX_END (R255): A frame ends and its status, level and on-air time are returned to SGM. -/
  | rfcTxEnd (vswr : BitVec 12)
  /-- CAL_SLOT_OPEN (R258): The calibration slot opens and due image calibration and tune passes run. -/
  | calSlotOpen (image : BitVec 8) (port0 : TuneResult) (port1 : TuneResult)
  /-- RFC_TEMP_CHANGE (R258): A front-end temperature move of 10 C makes image calibration due. -/
  | rfcTempChange (temp : BitVec 8)
  /-- RFC_CH_LOST (R245): A demodulator fails its self-test and a channel left without one is marked lost. -/
  | rfcChLost (channel : BitVec 6)
  /-- RFC_CH_CFG_WRITE (R245): A write to RFC_CH_CFG_k applies when the channel's current frame ends. -/
  | rfcChCfgWrite (req : Req) (channel : BitVec 6) (data : BitVec 32)
  /-- ASSOC_REQUEST (R266): Firmware answers an association request, refusing it or accepting it without unsupported features. -/
  | assocRequest (mac : BitVec 48) (weak : Bool) (noBasicRate : Bool) (links : BitVec 3) (singleLink : Bool)
  /-- STA_ADD (R265): WMA_STA_CMD ADD installs a station entry. -/
  | staAdd (req : Req) (index : BitVec 10)
  /-- STA_DEL (R267): WMA_STA_CMD DEL ends the station's outstanding MPDUs and removes its state. -/
  | staDel (req : Req) (index : BitVec 10)
  /-- STA_READ (R265): WMA_STA_CMD READ returns a station entry. -/
  | staRead (req : Req) (index : BitVec 10)
  /-- STA_DEL_DONE (R267): No outstanding MPDU of a deleted station remains and DEL completes. -/
  | staDelDone (index : BitVec 10)
  /-- MPDU_RX (R273): A received MPDU is reordered, checked for duplicates and replay, decrypted and released to its quire. -/
  | mpduRx (mpdu : WifiRx)
  /-- BAR_RX (R273): A BlockAckReq or MU-BAR moves the receive window as an MPDU ahead of it would. -/
  | barRx (link : Fin 3) (station : BitVec 10) (tid : BitVec 4) (ssn : BitVec 12)
  /-- REORDER_TIMEOUT (R274): The oldest held MPDU reaches the reorder timeout and MSDUs are released past the gap. -/
  | reorderTimeout (station : BitVec 10) (tid : BitVec 4)
  /-- TWT_SP_BOUNDARY (R280): A TWT service period opens or closes and the station's ASLEEP changes. -/
  | twtSpBoundary (period : TwtId) (edge : TwtEdge)
  /-- BEACON_TX (R268): At the target beacon time hardware sends a beacon with TIM, CSA count and colour. -/
  | beaconTx (radio : Radio) (bss : BitVec 4) (groupClient : BitVec 13)
  /-- WMA_KEY_INSTALL (R283): WMA_KEY_CMD INSTALL has CIP wrap the key and clears the buffer. -/
  | wmaKeyInstall (req : Req) (index : BitVec 10) (slot : BitVec 4) (cipher : BitVec 3)
  /-- WMA_KEY_REMOVE (R283): WMA_KEY_CMD REMOVE empties a key slot. -/
  | wmaKeyRemove (req : Req) (index : BitVec 10) (slot : BitVec 4)
  /-- WMA_KEY_SET_TX (R283): WMA_KEY_CMD SET_TX switches the pairwise transmit key slot. -/
  | wmaKeySetTx (req : Req) (index : BitVec 10) (txSlot : Bool)
  /-- BTM_RESPONSE_RX (R286): A BSS transition management response marks success or failure of a steering request. -/
  | btmResponseRx (mac : BitVec 48) (status : BitVec 8)
  /-- WMA_BH_DOWN (R288): No frame from a backhaul peer for 3 beacon intervals takes the link down. -/
  | wmaBhDown (link : BitVec 3)
  /-- BH_REJOIN (R288): Every 1 s the joining side tries to re-establish a down backhaul link. -/
  | bhRejoin (link : BitVec 3) (success : Bool)
  /-- PLAN_COMMIT (R290): SGM_CMD PLAN_COMMIT checks the staged plan and makes it pending. -/
  | planCommit (req : Req)
  /-- PLAN_CANCEL (R291): SGM_CMD PLAN_CANCEL withdraws an unannounced pending plan. -/
  | planCancel (req : Req)
  /-- SLOT_FRAME_START (R291): A slot frame starts and any announced plan and staged span become active. -/
  | slotFrameStart
  /-- BEACON_SEND (R305): The slot-frame beacon is sent in block 0 with cycle, plan, safe, join and move entries. -/
  | beaconSend
  /-- GACK_SEND (R298): A GACK block's bitmap frame is sent on the beacon channel. -/
  | gackSend (block : BitVec 7)
  /-- CELL_FRAME_ASK (R181): MT reaches a downlink cell's open minus 8,192 ticks and SGM asks SCH for its frame. -/
  | cellFrameAsk (block : BitVec 7)
  /-- DOWN_SEND (R294): A DOWN frame is sent at the start instant plus the partner's predicted offset. -/
  | downSend (block : BitVec 7) (errs : List WordErr)
  /-- SAFE_LEVEL_SEND (R306): A SAFE_LEVEL frame is sent at the start instant of a block under the combined limit. -/
  | safeLevelSend (block : BitVec 7)
  /-- SGM_RX_REPORT (R295): SGM handles a receive report: join, cell, duplicate, MIC, replay, delivery and acknowledgement. -/
  | sgmRxReport
  /-- DOWN_ACK_RX (R297): A partner's Imm-Ack to a unicast DOWN frame is accepted and anchors drift learning. -/
  | downAckRx
  /-- DOWN_ACK_TIMEOUT (R297): A unicast DOWN frame is not acknowledged and is requeued or discarded after RETRIES. -/
  | downAckTimeout
  /-- KEEPALIVE_PERIOD_END (R302): A keep-alive period ends and a partner without an accepted frame records a missed wake. -/
  | keepalivePeriodEnd (node : BitVec 12)
  /-- SGM_NODE_ADD (R307): SGM_NODE_CMD ADD admits a partner and announces it in beacons. -/
  | sgmNodeAdd (req : Req) (index : BitVec 12)
  /-- SGM_NODE_DEL (R296): SGM_NODE_CMD DEL removes a partner and clears its history. -/
  | sgmNodeDel (req : Req) (index : BitVec 12)
  /-- SGM_NODE_READ (R296): SGM_NODE_CMD READ returns a partner entry. -/
  | sgmNodeRead (req : Req) (index : BitVec 12)
  /-- SGM_NODE_UPDATE (R296): SGM_NODE_CMD UPDATE changes a partner entry between frames. -/
  | sgmNodeUpdate (req : Req) (index : BitVec 12)
  /-- SGM_NODE_REASSIGN (R308): SGM_NODE_CMD REASSIGN announces a MOVE entry in 8 beacons and then deletes the partner. -/
  | sgmNodeReassign (req : Req) (index : BitVec 12)
  /-- DUTY_BUCKET_ROLL (R309): LT passes a second boundary and the oldest duty bucket leaves the window. -/
  | dutyBucketRoll
  /-- RING_PROD_WRITE (R318): Software advances a ring's PROD, or the write is discarded as an overrun. -/
  | ringProdWrite (req : Req) (ring : BitVec 3) (prod : BitVec 8)
  /-- RING_JOB_START (R319): CIP reads a descriptor, checks it and starts the job on a pair. -/
  | ringJobStart (ring : BitVec 3)
  /-- JOB_STATUS_WRITE (R318): A job ends and its STATUS is written in ring order and CONS advances. -/
  | jobStatusWrite (ring : BitVec 3) (count : BitVec 8) (badWord : Bool)
  /-- INLINE_JOB (R314): WMA, SGM or ETH submits an inline cipher job served ahead of ring jobs. -/
  | inlineJob (unit : UnitId) (key : InlineKey)
  /-- KEY_DERIVATION_DONE (R323): A derived-key cache miss finishes deriving the key and caches it. -/
  | keyDerivationDone
  /-- CIP_QUARANTINE (R327): The lanes of a pair disagree, the job ends MISMATCH, the pair is quarantined and an erase starts. -/
  | cipQuarantine (pairs : List LaneFault) (inlines : BitVec 2)
  /-- CIP_ALARM_INPUT (R328): A tamper, voltage-glitch or clock-glitch alarm starts an erase. -/
  | cipAlarmInput (alarm : CipAlarm) (inlines : BitVec 2)
  /-- CIP_ERASE (R329): The erase completes, waiting jobs start and the causes are logged. -/
  | cipErase
  /-- RNG_HEALTH_FAIL (R326): The entropy source fails its health test and jobs stop starting. -/
  | rngHealthFail
  /-- RNG_HEALTH_PASS (R326): The entropy source passes again and waiting jobs start. -/
  | rngHealthPass
  /-- CIP_KEY_INSTALL (R325): CIP_KEY_CMD INSTALL wraps a key into a ring entry of the table. -/
  | cipKeyInstall (req : Req) (index : BitVec 12) (k256 : Bool)
  /-- CIP_KEY_REMOVE (R325): CIP_KEY_CMD REMOVE makes a ring table entry not valid. -/
  | cipKeyRemove (req : Req) (index : BitVec 12)
  /-- CIP_KEY_DERIVE (R325): CIP_KEY_CMD DERIVE places a derived key in the table without exposing it. -/
  | cipKeyDerive (req : Req) (index : BitVec 12) (k256 : Bool) (slot : BitVec 2)
  /-- EVICT_SLOT (R323): CIP_KEY_CMD EVICT_SLOT removes every cached key of a root slot once unused. -/
  | evictSlot (req : Req) (slot : BitVec 2)
  /-- CIP_KEY_ERASE (R328): CIP_KEY_CMD ERASE raises the SW alarm and starts an erase. -/
  | cipKeyErase (req : Req) (inlines : BitVec 2)
  /-- ROOT_PROGRAM (R332): CIP_ROOT_CMD PROGRAM programs an OTP root bank and reads it back. -/
  | rootProgram (req : Req) (slot : BitVec 2) (bank : Bool) (readBack : Bool)
  /-- ETH_FRAME_RX (R335): A received frame is checked for runt, MACsec and FCS and written to its ingress quire. -/
  | ethFrameRx (port : BitVec 3) (frame : EthRx)
  /-- PAUSE_RX (R346): A received PAUSE frame sets, replaces or ends the port's pause timer. -/
  | pauseRx (port : BitVec 3) (quanta : BitVec 16)
  /-- PFC_RX (R347): A received PFC frame sets the timers of its enabled priorities. -/
  | pfcRx (port : BitVec 3) (enable : BitVec 8) (quanta : List (BitVec 16))
  /-- PAUSE_TIMER_EXPIRE (R346): A pause timer runs out and the pause ends. -/
  | pauseTimerExpire (port : BitVec 3)
  /-- ETH_FRAME_SEND (R342): A port sends a frame from its transmit buffer with checksums, MACsec and PTP stamp. -/
  | ethFrameSend (port : BitVec 3) (errs : List WordErr)
  /-- PREEMPT_FRAGMENT_END (R344): A preemptable frame ends its fragment with an mCRC for an express frame or pause. -/
  | preemptFragmentEnd (port : BitVec 3)
  /-- VERIFY_SEND (R343): A verify mPacket is sent every VERIFY_MS, failing after 3 unanswered attempts. -/
  | verifySend (port : BitVec 3)
  /-- VERIFY_RESPONSE_RX (R343): A verify response is received and preemption becomes active. -/
  | verifyResponseRx (port : BitVec 3)
  /-- XOFF_REACHED (R348): Ingress cells reach XOFF and the port sends a PAUSE or PFC frame. -/
  | xoffReached (port : BitVec 3)
  /-- PAUSE_REPEAT (R348): Every QUANTA/2 quanta above XON the pause frame is repeated. -/
  | pauseRepeat (port : BitVec 3)
  /-- XON_REACHED (R348): Ingress cells fall below XON and a pause of time 0 is sent. -/
  | xonReached (port : BitVec 3)
  /-- LPI_ENTER (R349): The transmit side has been idle for IDLE us and enters LPI. -/
  | lpiEnter (port : BitVec 3) (side : EthSide)
  /-- LPI_EXIT (R349): A frame arrives during LPI and starts after the wake time. -/
  | lpiExit (port : BitVec 3) (side : EthSide)
  /-- LINK_DOWN (R334): A port's link goes down, its buffer is discarded and it reports no room. -/
  | linkDown (port : BitVec 3)
  /-- LINK_UP (R334): A port's link comes up and preemption verification restarts. -/
  | linkUp (port : BitVec 3) (speed : BitVec 3)
  /-- TS_FIFO_READ (R352): A read of the lowest word of ETH_TS_FIFO removes and latches the oldest stamp. -/
  | tsFifoRead (req : Req) (port : BitVec 3)
  /-- SA_INSTALL (R354): ETH_SA_CMD INSTALL installs a MACsec association key. -/
  | saInstall (req : Req) (port : BitVec 2) (sc : BitVec 4) (an : BitVec 2)
  /-- SA_REMOVE (R354): ETH_SA_CMD REMOVE removes a MACsec association. -/
  | saRemove (req : Req) (port : BitVec 2) (sc : BitVec 4) (an : BitVec 2)
  /-- SA_SET_TX (R355): ETH_SA_CMD SET_TX makes an association of channel 0 the transmit association. -/
  | saSetTx (req : Req) (port : BitVec 2) (sc : BitVec 4) (an : BitVec 2)
  /-- ETH_PORT_CFG_WRITE (R334): A write changing MODE or FEC while EN is 1 is discarded and logged. -/
  | ethPortCfgWrite (req : Req) (port : BitVec 3) (value : BitVec 32)
  /-- PREEMPT_EN_WRITE (R337): A write enabling preemption with EXP_Q equal to RX_Q is discarded and logged. -/
  | preemptEnWrite (req : Req) (port : BitVec 3) (value : BitVec 32)
  /-- DRAM_REQUEST (R360): A source issues a DRAM request, refused for a bad address or queued by class. -/
  | dramRequest (source : BitVec 5) (addr : BitVec 33) (words : BitVec 5) (data : Option (List (BitVec 8)))
  /-- DRAM_READ_COMPLETE (R363): A DRAM read returns decoded data, queueing a write-back for a corrected word. -/
  | dramReadComplete (channel : BitVec 2) (word : BitVec 4) (upset : List Upset)
  /-- STROBE_TIMEOUT (R369): A read's data strobe does not arrive within its window. -/
  | strobeTimeout (channel : BitVec 2)
  /-- WQ_ENTRY_FREED (R361): A write queue entry frees and a stalled source resumes. -/
  | wqEntryFreed (channel : BitVec 2)
  /-- REQUEST_AGED (R361): A request has waited AGE and becomes aged. -/
  | requestAged (channel : BitVec 2)
  /-- REFRESH_DUE (R367): A refresh falls due on the rate grid and is issued or postponed. -/
  | refreshDue (channel : BitVec 2) (sub : Bool) (util : BitVec 6) (narrow : Bool)
  /-- REFRESH_WINDOW_CLOSE (R367): A postponed refresh reaches the end of its window and is issued before any request. -/
  | refreshWindowClose (channel : BitVec 2) (sub : Bool)
  /-- DIE_TEMP_READ (R367): The 1 ms temperature reading sets the refresh rate and may make a retrain due. -/
  | dieTempRead (channel : BitVec 2) (temp0 : BitVec 8) (temp1 : BitVec 8)
  /-- TEMPER_DUE (R364): A channel's 100 ms temper pass falls due and runs at the next refresh. -/
  | temperDue (channel : BitVec 2)
  /-- LOAD_TEMPER_DUE (R365): A LIGHT channel above 60 % for 10 ms makes a temper pass at load due with a guard offset. -/
  | loadTemperDue (channel : BitVec 2) (util : BitVec 6)
  /-- LOAD_TEMPER_DEADLINE (R365): No qualifying refresh in 50 ms, so the pass runs at the next refresh and stamps HEAVY. -/
  | loadTemperDeadline (channel : BitVec 2)
  /-- DRC_RETRAIN (R366): DRC_CMD RETRAIN makes a full retrain of a channel due. -/
  | drcRetrain (req : Req) (channel : BitVec 2)
  /-- DRC_TEMPER (R364): DRC_CMD TEMPER makes a temper pass due. -/
  | drcTemper (req : Req) (channel : BitVec 2)
  /-- RETRAIN_DONE (R366): A full retrain ends, or fails and freezes the controller. -/
  | retrainDone (channel : BitVec 2) (ok : Bool)
  /-- DRAM_SCRUB (R363): The scrubber reads a word on its SCRUB cycle and corrects it. -/
  | dramScrub (upset : List Upset)
  /-- FREEZE_HOLD_EXPIRE (R371): HOLD seconds after a first freeze Assay performs the warm reset. -/
  | freezeHoldExpire
  /-- NOP (R383): Short operation with no effect. -/
  | nop (engine : Engine)
  /-- PUSHS (R383): Pushes sign-extended arg9. -/
  | pushs (engine : Engine) (value : BitVec 9)
  /-- DUP (R383): Duplicates the top of the stack. -/
  | dup (engine : Engine)
  /-- DROP (R383): Pops the top of the stack. -/
  | drop (engine : Engine)
  /-- SWAP (R383): Swaps the top two entries. -/
  | swap (engine : Engine)
  /-- OVER (R383): Copies the second entry to the top. -/
  | overCopy (engine : Engine)
  /-- ROT (R383): Rotates the top three entries. -/
  | rot (engine : Engine)
  /-- PICK (R383): Copies a numbered entry to the top. -/
  | pick (engine : Engine) (entry : BitVec 4)
  /-- ADD (R383): Adds the top two entries modulo 2^32. -/
  | add (engine : Engine)
  /-- SUB (R383): Subtracts the top two entries. -/
  | sub (engine : Engine)
  /-- AND (R383): Bitwise AND of the top two entries. -/
  | and (engine : Engine)
  /-- OR (R383): Bitwise OR of the top two entries. -/
  | or (engine : Engine)
  /-- XOR (R383): Bitwise XOR of the top two entries. -/
  | xor (engine : Engine)
  /-- NOT (R383): Bitwise complement of the top entry. -/
  | not (engine : Engine)
  /-- NEG (R383): Negates the top entry. -/
  | neg (engine : Engine)
  /-- SHL (R383): Shifts left by arg9 or by a popped count. -/
  | shl (engine : Engine) (popped : Bool) (count : BitVec 5)
  /-- SHR (R383): Logical shift right. -/
  | shr (engine : Engine) (popped : Bool) (count : BitVec 5)
  /-- SAR (R383): Arithmetic shift right. -/
  | sar (engine : Engine) (popped : Bool) (count : BitVec 5)
  /-- MUL (R383): Low 32 bits of the product. -/
  | mul (engine : Engine)
  /-- MULHU (R383): High 32 bits of the unsigned product. -/
  | mulhu (engine : Engine)
  /-- MULHS (R383): High 32 bits of the signed product. -/
  | mulhs (engine : Engine)
  /-- EQ (R383): Pushes 1 if equal. -/
  | eq (engine : Engine)
  /-- LT (R383): Pushes 1 if less, signed. -/
  | lt (engine : Engine)
  /-- LTU (R383): Pushes 1 if less, unsigned. -/
  | ltu (engine : Engine)
  /-- SEL (R383): Selects one of two values by a condition. -/
  | sel (engine : Engine)
  /-- LD (R383): Loads a word, halfword or byte from a popped address. -/
  | ld (engine : Engine) (size : MemSize) (upset : List Upset)
  /-- ST (R383): Stores a value of the given size at a popped address. -/
  | st (engine : Engine) (size : MemSize)
  /-- LDA (R385): Loads through an address generator, optionally advancing it. -/
  | lda (engine : Engine) (ag : BitVec 3) (advance : Bool) (upset : List Upset)
  /-- STA (R385): Stores through an address generator, optionally advancing it. -/
  | sta (engine : Engine) (ag : BitVec 3) (advance : Bool)
  /-- TO_R (R383): >R moves the top entry to the return stack. -/
  | toR (engine : Engine)
  /-- R_FROM (R383): R> pops the return stack onto the operand stack. -/
  | rFrom (engine : Engine)
  /-- R_FETCH (R383): R@ copies the top of the return stack. -/
  | rFetch (engine : Engine)
  /-- RET (R383): Jumps to the address popped from the return stack. -/
  | ret (engine : Engine)
  /-- JMPS (R383): Jumps to a popped address. -/
  | jmps (engine : Engine)
  /-- CALLS (R383): Calls a popped address, pushing the return address. -/
  | calls (engine : Engine)
  /-- FENCE (R376): Waits until every earlier access of the core has been performed. -/
  | fence (engine : Engine)
  /-- BRK (R383): Raises BREAK. -/
  | brk (engine : Engine)
  /-- PUSH (R384): Pushes sign-extended imm20. -/
  | push (engine : Engine) (imm : BitVec 20)
  /-- PUSH_UPPER (R384): Pushes imm20 shifted left by 12. -/
  | pushUpper (engine : Engine) (imm : BitVec 20)
  /-- ADDI (R384): Adds sign-extended imm20. -/
  | addi (engine : Engine) (imm : BitVec 20)
  /-- ANDI (R384): ANDs sign-extended imm20. -/
  | andi (engine : Engine) (imm : BitVec 20)
  /-- ORI (R384): ORs zero-extended imm20. -/
  | ori (engine : Engine) (imm : BitVec 20)
  /-- XORI (R384): XORs zero-extended imm20. -/
  | xori (engine : Engine) (imm : BitVec 20)
  /-- EQI (R384): Compares equal with sign-extended imm20. -/
  | eqi (engine : Engine) (imm : BitVec 20)
  /-- LTI (R384): Signed less-than with imm20. -/
  | lti (engine : Engine) (imm : BitVec 20)
  /-- LTUI (R384): Unsigned less-than with zero-extended imm20. -/
  | ltui (engine : Engine) (imm : BitVec 20)
  /-- BR_ALWAYS (R384): Relative branch taken always. -/
  | brAlways (engine : Engine) (offset : BitVec 20)
  /-- BR_ZERO (R384): Relative branch if a popped condition is zero. -/
  | brZero (engine : Engine) (offset : BitVec 20)
  /-- BR_NONZERO (R384): Relative branch if a popped condition is nonzero. -/
  | brNonzero (engine : Engine) (offset : BitVec 20)
  /-- CALL (R384): Relative call pushing the return address. -/
  | call (engine : Engine) (offset : BitVec 20)
  /-- LDO (R384): Loads at a popped address plus imm20. -/
  | ldo (engine : Engine) (size : MemSize) (offset : BitVec 20) (upset : List Upset)
  /-- STO (R384): Stores at a popped address plus imm20. -/
  | sto (engine : Engine) (size : MemSize) (offset : BitVec 20)
  /-- AGW (R385): Writes a field of an address generator. -/
  | agw (engine : Engine) (ag field : BitVec 3)
  /-- AGR (R385): Reads a field of an address generator. -/
  | agr (engine : Engine) (ag field : BitVec 3)
  /-- AGADD (R384): Adds imm20 to a generator's index modulo LEN. -/
  | agadd (engine : Engine) (ag : BitVec 3) (imm : BitVec 20)
  /-- AMOADD (R377): Atomic add on a shared SRAM word. -/
  | amoadd (engine : Engine) (upset : List Upset)
  /-- AMOSWAP (R377): Atomic swap on a shared SRAM word. -/
  | amoswap (engine : Engine) (upset : List Upset)
  /-- AMOCAS (R377): Atomic compare-and-swap on a shared SRAM word. -/
  | amocas (engine : Engine) (upset : List Upset)
  /-- SRR (R380): Reads a special register. -/
  | srr (engine : Engine) (reg : BitVec 4)
  /-- SRW (R380): Writes a special register, raising PRIV or ILLEGAL where not allowed. -/
  | srw (engine : Engine) (reg : BitVec 4)
  /-- SYS (R384): Raises SYS with imm20 in EADDR. -/
  | sys (engine : Engine) (imm : BitVec 20)
  /-- RETX (R388): Returns from an exception or interrupt, restoring level and slot. -/
  | retx (engine : Engine)
  /-- WLD (R113): Window load of 1 to 8 bytes, ending the pass with DEPTH or TRUNCATED when out of bounds. -/
  | wld (engine : Engine) (size : BitVec 2) (popped : Bool) (offset : BitVec 9) (errs : List WordErr)
  /-- MLD (R395): Loads from the header slot. -/
  | mld (engine : Engine) (size : BitVec 2) (byte : BitVec 5) (err : ReadErr)
  /-- BEXT (R395): Extracts a bit field from the top of the stack. -/
  | bext (engine : Engine) (pos len : BitVec 5)
  /-- LAYER (R114): Records a header layer, ending the pass with DEPTH at the 13th. -/
  | layer (engine : Engine) (code : BitVec 8)
  /-- KEY (R395): Appends bytes to the ternary or exact key. -/
  | key (engine : Engine) (exact value : Bool) (len : BitVec 6) (errs : List WordErr)
  /-- LOOKUP (R116): Looks up the exact key and pushes the action word and hit flag. -/
  | lookup (engine : Engine) (stall : BitVec 7)
  /-- LENCHK (R123): Checks the computed end offset against the packet length. -/
  | lenchk (engine : Engine)
  /-- MAL (R395): Ends the pass with a LENGTH or BAD_OPTION malformed class. -/
  | mal (engine : Engine) (cls : BitVec 3)
  /-- DONE (R116): Ends the program and issues the final classification lookup. -/
  | done (engine : Engine) (index : BitVec 18)
  /-- FRAG (R395): Reports a fragment to the fragment table at DONE. -/
  | frag (engine : Engine) (v6 : Bool) (errs : List WordErr)
  /-- INTERRUPT_ENTRY (R390): An enabled pending interrupt is taken between words and enters Vendor mode at the interrupt vector. -/
  | interruptEntry (core : Fin 4)
  /-- CORE_RUN (R389): A write to CPU_CTL.RUN halts a core or restarts it at CPU_VBASE. -/
  | coreRun (req : Req) (run : BitVec 4)
  /-- SWI_SET (R390): A write to CPU_SWI raises the software interrupt of a core. -/
  | swiSet (req : Req) (cores : BitVec 4)
  /-- SLOT_BUDGET_EXPIRE (R392): A program slot has run BUDGET x 1,024 cycles and BUDGET is raised. -/
  | slotBudgetExpire (core : Fin 4)
  /-- LOCKSTEP_DIFFERENCE (R393): The safety cores differ, both halt and Assay is told within 1 us. -/
  | lockstepDifference
  /-- PWR_WAIT_RELEASE (R401): A core stalled in a PWR_WAIT load sees an enabled interrupt pending and the load returns. -/
  | pwrWaitRelease (core : Fin 4)
  /-- PWR_VIN_LOW (R398): The input falls below 10.4 V for 20 us, which is logged and caps the class at 4. -/
  | pwrVinLow (mv : BitVec 16)
  /-- VIN_LOW_CLEAR (R398): The input holds 10.6 V for 10 ms and LOW clears. -/
  | vinLowClear (mv : BitVec 16)
  /-- VIN_FAIL (R398): The input falls below 9.0 V for 50 us and a cold reset is held. -/
  | vinFail (mv : BitVec 16)
  /-- PWR_VIN_HIGH (R398): The input exceeds 14.0 V for 20 us and is logged. -/
  | pwrVinHigh (mv : BitVec 16)
  /-- VIN_HIGH_CLEAR (R398): The input holds at or below 13.8 V for 10 ms and HIGH clears. -/
  | vinHighClear (mv : BitVec 16)
  /-- DOMAIN_IDLE_EXPIRE (R400): A domain's idle condition holds for its idle time and it enters low power. -/
  | domainIdleExpire (dom : Dom)
  /-- DOMAIN_WAKE_DEMAND (R400): A demand reaches a domain in low power and starts its wake. -/
  | domainWakeDemand (dom : Dom)
  /-- DOMAIN_WAKE_DONE (R400): A domain's wake completes and stalled demands proceed. -/
  | domainWakeDone (dom : Dom)
  /-- TARGET_FULL (R404): PWR_STATE_CMD TARGET FULL moves the device to FULL or wakes it from STANDBY or OFF. -/
  | targetFull (req : Req)
  /-- TARGET_REDUCED (R404): PWR_STATE_CMD TARGET REDUCED moves the device to REDUCED. -/
  | targetReduced (req : Req)
  /-- TARGET_STANDBY (R404): PWR_STATE_CMD TARGET STANDBY stops service and puts the domains into low power. -/
  | targetStandby (req : Req)
  /-- TARGET_OFF (R404): PWR_STATE_CMD TARGET OFF enters STANDBY and then unpowers the non-AON domains. -/
  | targetOff (req : Req)
  /-- STATE_TRANSITION_DONE (R404): A device state transition ends and PWR_STATE.STATE changes. -/
  | stateTransitionDone
  /-- WAKE_N_ASSERT (R405): WAKE_N is asserted with WAKE_N_EN set, ending STANDBY or OFF or abandoning an entry. -/
  | wakeNAssert
  /-- WAKE_LISTENER_EVENT (R405): A wake listener detects its event and wakes its domain or the device. -/
  | wakeListenerEvent (listener : Listener)
  /-- PWR_BROWNOUT (R407): The AON regulator hits its low-power limit, leaves the mode and latches the field outputs. -/
  | pwrBrownout
  /-- BROWNOUT_LATCH_RELEASE (R407): The AON rail is back at 97 % and the output latch is released. -/
  | brownoutLatchRelease
  /-- PERMIT_REQUEST (R411): PWR writes MFR_PERMIT_REQ for the target class with the next TAG. -/
  | permitRequest (radio : Radio) (result : BusResult)
  /-- PERMIT_POLL (R411): Every 250 us PWR reads MFR_PERMIT_STATUS and acts on GRANTED or DENIED. -/
  | permitPoll (radio : Radio) (status : PermitStatus) (result : BusResult)
  /-- PERMIT_TIMEOUT (R411): No answer by t0 + 5 ms ends the request as TIMEOUT. -/
  | permitTimeout (radio : Radio)
  /-- PERMIT_RETRY_END (R411): The 1 s RETRY ends and a request may start again. -/
  | permitRetryEnd (radio : Radio)
  /-- PERMIT_RENEWAL (R412): At t0 + LEASE x 50 ms PWR starts a renewal request. -/
  | permitRenewal (radio : Radio)
  /-- PMB_ALERT (R413): PMB_ALERT_N asserts and PWR reads status, handling a revocation. -/
  | pmbAlert (word : BitVec 16) (statusA statusB : PermitStatus)
  /-- GRANT_LEASE_END (R414): A grant reaches its end without renewal and the permitted class becomes 4. -/
  | grantLeaseEnd (radio : Radio)
  /-- TXOP_END_REPORT (R414): WMA reports no TXOP at the grant's class remains and PWR writes a release. -/
  | txopEndReport (radio : Radio)
  /-- MONITOR_READ (R409): Every 1 s PWR reads STATUS_WORD, VIN, IIN and POUT from the supply. -/
  | monitorRead (values : SupplyRead) (result : BusResult)
  /-- PMBUS_NACK_RETRY (R409): 100 us after a NACK the transaction is retried once, or it fails and is logged. -/
  | pmbusNackRetry (again : Bool)
  /-- POWER_CYCLE (R415): PWR_CMD POWER_CYCLE writes MFR_POWER_CYCLE to the supply. -/
  | powerCycle (req : Req) (offTime : BitVec 8) (result : BusResult)
  /-- ASY_FAULT (R418): A monitor reports a fault, which is logged and leads to the safe state, degraded mode or the ladder. -/
  | asyFault (monitor : Monitor) (func : Func)
  /-- HEARTBEAT_TIMEOUT (R417): A unit misses consecutive heartbeats and a monitor fault is raised. -/
  | heartbeatTimeout (unit : UnitId)
  /-- DALI_SAFE_BROADCAST_START (R420): A DALI port's bus has been idle 13.5 ms and the safe-level broadcast begins. -/
  | daliSafeBroadcastStart (port : BitVec 2)
  /-- FLD_SAFE_BROADCAST (R420): A port's safe-level broadcast ends and is logged. -/
  | fldSafeBroadcast (port : BitVec 2)
  /-- SAFE_QUIET_EXPIRE (R423): No cause has been set for CLEAR_S and, with AUTO_RELEASE, the safe state ends. -/
  | safeQuietExpire
  /-- ASY_RELEASE (R423): ASY_CMD RELEASE ends the safe state or returns ACTIVE. -/
  | asyRelease (req : Req)
  /-- ENTER_SAFE (R423): ASY_CMD ENTER_SAFE enters the safe state with cause MANUAL. -/
  | enterSafe (req : Req)
  /-- CLEAR_REPLACE (R426): ASY_CMD CLEAR_REPLACE ends the replacement request. -/
  | clearReplace (req : Req)
  /-- LFT_NOW (R424): ASY_CMD LFT_NOW runs the latent-fault self-test at once. -/
  | lftNow (req : Req)
  /-- FORCE_RUNG (R431): ASY_CMD FORCE_RUNG forces a rung of a function without advancing counts. -/
  | forceRung (req : Req) (func : BitVec 4) (rung : BitVec 2)
  /-- HV_WATCHDOG_EXPIRE (R419): The HV-die watchdog sees no restart for 5 ms and applies the safe state on its own. -/
  | hvWatchdogExpire
  /-- RUNG_TIMEOUT (R428): A rung's limit runs out without recovery and the function escalates. -/
  | rungTimeout (func : Func)
  /-- LFT_DUE (R424): 86,400 s of LT have passed since the last self-test and it becomes due. -/
  | lftDue
  /-- ASY_LFT_OVERDUE (R424): The self-test has been due for 24 h, so LFT_OVERDUE is set and logged. -/
  | asyLftOverdue
  /-- LFT_COMPLETE (R425): The latent-fault self-test ends and failed items request replacement. -/
  | lftComplete (fail : BitVec 11)
  /-- TEMP_RECOVERED (R421): Every sensor has stayed below the Tj maximum for 60 s and STANDBY or REDUCED ends. -/
  | tempRecovered
  /-- ASY_FAULT_END (R492): A degraded fault's condition is gone and its end is logged. -/
  | asyFaultEnd (monitor : Monitor) (func : Func)
  /-- HELLO_SEND (R437): Every 100 ms a member sends HELLO on each shelf link that is up. -/
  | helloSend
  /-- HELLO_RX (R437): A HELLO is received and an adjacency may form. -/
  | helloRx (link : BitVec 4) (member : BitVec 6) (eui mask : BitVec 64)
  /-- ADJACENCY_TIMEOUT (R437): No HELLO for 300 ms ends an adjacency. -/
  | adjacencyTimeout (link : BitVec 4)
  /-- LSA_SEND (R437): A member floods its LSA on adjacency change and every 1 s. -/
  | lsaSend
  /-- LSA_RX (R437): An LSA is received and routes are recomputed. -/
  | lsaRx (member : BitVec 6) (seq : BitVec 32) (edges : List (BitVec 6 × Bool))
  /-- SMP_FRAME_RX (R440): An SMP frame is checked for tag and replay and forwarded or delivered. -/
  | smpFrameRx (link : BitVec 4) (frame : List Byte)
  /-- ROUTE_HOLD_END (R438): The 500 us hold after a route change ends and held frames are sent. -/
  | routeHoldEnd (member : BitVec 6)
  /-- TIME_SEND (R442): At each phase-0 instant with MT valid the lead broadcasts TIME. -/
  | timeSend
  /-- TIME_RX (R442): A member receives TIME and uses it for offsets, shelf holdover and adoption. -/
  | timeRx (cycle : BitVec 32) (lt : BitVec 64) (freq : BitVec 32) (valid sync : Bool)
  /-- LEAD_CLAIM_RX (R446): A LEAD_CLAIM with a higher term reroutes member 0 to the acting lead. -/
  | leadClaimRx (src : BitVec 6) (term : BitVec 32) (deputy : BitVec 6) (alias_ : Bool)
  /-- LEAVE_RX (R434): A LEAVE message removes the member's SMP state. -/
  | leaveRx (src : BitVec 6)
  /-- REMOTE_REG_ACCESS (R443): An access to another member's shelf address is sent as REG_REQ. -/
  | remoteRegAccess (req : Req) (target : RemoteTarget) (write : Bool) (value : Word)
  /-- REG_REQ_RX (R443): A member performs a remote register access at the carried level and answers REG_RESP. -/
  | regReqRx (src : BitVec 6) (level : BitVec 2) (addr : BitVec 64) (write : Bool) (value : Word) (request : BitVec 32)
  /-- REG_RESP_RX (R443): A REG_RESP completes the originator's remote access. -/
  | regRespRx (src : BitVec 6) (request : BitVec 32) (unreachable : Bool) (value : Word)
  /-- SHF_UNREACHABLE (R443): No answer within 1 ms fails the remote access, which is logged. -/
  | shfUnreachable
  /-- STEER_RX (R286): A target device receives STEER with the client's PMKSA. -/
  | steerRx (src : BitVec 6) (mac bssid : BitVec 48) (pmkid : BitVec 128) (wrapped : BitVec 448)
  /-- STEER_DONE_RX (R286): The old device receives STEER_DONE and deletes the station. -/
  | steerDoneRx (src : BitVec 6) (mac : BitVec 48)
  /-- NODE_MOVE_RX (R308): A NODE_MOVE message agrees a sub-GHz partner's reassignment. -/
  | nodeMoveRx (src : BitVec 6) (eui : BitVec 64) (addr : BitVec 16) (old new : BitVec 6) (accepted : Bool)
  /-- FAULT_RX (R445): The lead writes a FAULT message into the host message ring and raises vector 0. -/
  | faultRx (head : SmpHead) (func row cls rung : Byte)
  /-- SAFE_RX (R445): The lead writes a SAFE message into the host message ring. -/
  | safeRx (head : SmpHead) (exit : Bool) (causes : BitVec 16) (level : Byte)
  /-- REPLACE_RX (R445): The lead writes a REPLACE message into the host message ring. -/
  | replaceRx (head : SmpHead) (cause : Byte)
  /-- CYCLE_REQ_RX (R445): The lead writes a CYCLE_REQ message into the host message ring. -/
  | cycleReqRx (head : SmpHead) (func : Byte)
  /-- LEAD_LOST (R446): The deputy hears nothing from member 0 for 300 ms and takes over as acting lead. -/
  | leadLost
  /-- SHF_REJOIN (R447): SHF_CMD REJOIN releases the alias to the returned lead. -/
  | shfRejoin (req : Req)
  /-- SHF_TAKEOVER (R446): SHF_CMD TAKEOVER makes the deputy take over now. -/
  | shfTakeover (req : Req)
  /-- HOST_MEMORY_ACCESS (R450): A host BAR4 access reads or writes shared SRAM or DRAM. -/
  | hostMemoryAccess (write : Bool) (offset : BitVec 25) (len : BitVec 7) (data : List Byte) (upset : List Upset)
  /-- HIF_DOORBELL (R451): A host write to HIF_DOORBELL stores the value and raises interrupt source 7. -/
  | hifDoorbell (req : Req) (value : Word)
  /-- HIF_HOST_DB (R451): A firmware write to HIF_HOST_DB raises MSI-X vector 2. -/
  | hifHostDb (req : Req) (value : Word)
  /-- DALI_SEND16 (R453): FLD_DALI_CMD SEND16 queues a 16-bit forward frame. -/
  | daliSend16 (req : Req) (port : BitVec 2) (prio : BitVec 3)
  /-- DALI_SEND24 (R453): FLD_DALI_CMD SEND24 queues a 24-bit forward frame. -/
  | daliSend24 (req : Req) (port : BitVec 2) (prio : BitVec 3)
  /-- DALI_FRAME_START (R453): The bus has been idle for the frame's settling time and the port starts sending. -/
  | daliFrameStart (port : BitVec 2)
  /-- DALI_COLLISION (R453): The line disagrees with a driven bit, so the port stops and retries or ends with COLLISION. -/
  | daliCollision (port : BitVec 2)
  /-- DALI_BACKWARD_RX (R453): A backward frame is received within the answer window. -/
  | daliBackwardRx (port : BitVec 2) (data : BitVec 8) (garbled : Bool)
  /-- DALI_ANSWER_WINDOW_END (R453): The answer window closes with no backward frame and the frame ends NO_ANSWER. -/
  | daliAnswerWindowEnd (port : BitVec 2)
  /-- DALI_BUS_LOW (R457): The line reads low for 10 ms and the bus fault is raised. -/
  | daliBusLow (port : BitVec 2)
  /-- DALI_BUS_HIGH (R457): The line reads high for 10 ms and the bus fault ends. -/
  | daliBusHigh (port : BitVec 2)
  /-- ECHO_QUERY (R458): ECHO_WAIT after a level frame or every ECHO_PERIOD a QUERY ACTUAL LEVEL is queued. -/
  | echoQuery (port : BitVec 2) (gear : BitVec 6)
  /-- PWM_PERIOD_START (R459): A PWM period starts, applying new settings and reading back the output. -/
  | pwmPeriodStart (output : BitVec 2) (readsLow : Bool)
  /-- PWM_DUTY_WRITE (R460): A write to DUTY is stored, or refused and logged while SAFE is set. -/
  | pwmDutyWrite (req : Req) (output : BitVec 2) (duty : BitVec 16)
  /-- GPIO_INPUT_ACCEPT (R462): A slow input's new level has held for DEGLITCH and is accepted. -/
  | gpioInputAccept (input : Fin 17) (level : Bool)
  /-- CHATTER_HOLD_END (R463): The 10 s chatter hold ends and the input returns to GOOD. -/
  | chatterHoldEnd (input : Fin 17)
  /-- FLD_IN_STUCK (R464): An input has held its asserted level for STUCK_S and is reported deasserted. -/
  | fldInStuck (input : Fin 17)
  /-- PULSE_END (R461): A 1 ms pulse ends and the GPIO returns to OUT. -/
  | pulseEnd (gpio : BitVec 4)
  /-- EVSEL_WRITE (R466): A write to PRF_EVSEL_u_k selects an event and clears the counter. -/
  | evselWrite (req : Req) (index : Fin 184) (value : Word)
  /-- PRF_SNAP (R468): GO to PRF_SNAP copies every counter into its shadow and captures MT and LT. -/
  | prfSnap (req : Req)
  /-- PRF_FREEZE_WRITE (R468): A write to PRF_FREEZE freezes or unfreezes counters and sampling. -/
  | prfFreezeWrite (req : Req) (freeze : Bool)
  /-- SAMPLE_CANDIDATE (R470): A retired word becomes the candidate and a sampling record is written if its latency qualifies. -/
  | sampleCandidate (engine : Engine) (word : RetiredWord)
  /-- LOG_ENTRY (R473): A unit logs an event into the ring or the staging buffer. -/
  | logEntry (unit : UnitId) (event : Ev) (args : List (BitVec 32)) (reaction : Bool)
  /-- STAGED_MOVE (R476): With CORE up PRF moves staged entries into the ring with STAGED set. -/
  | stagedMove
  /-- LOG_STOPPED_CLEAR (R477): A write of 1 to STOPPED empties the ring and clears STOPPED and WRAPPED. -/
  | logStoppedClear (req : Req)
  /-- BYPASS (R489): TAP instruction BYPASS. -/
  | bypass
  /-- IDCODE (R489): TAP instruction IDCODE reads 0xB064_0F2B. -/
  | idcode
  /-- SAMPLE_PRELOAD (R489): TAP instruction SAMPLE/PRELOAD. -/
  | samplePreload (balls : List Bool)
  /-- EXTEST (R490): TAP instruction EXTEST, accepted only with TEST_MODE 1. -/
  | extest
  /-- CLAMP (R490): TAP instruction CLAMP, accepted only with TEST_MODE 1. -/
  | clamp
  /-- HIGHZ (R490): TAP instruction HIGHZ, accepted only with TEST_MODE 1. -/
  | highz
  /-- TRIG_NORESP (R271): The response time after a trigger frame passes without a TB PPDU from a user, which is counted in WMA_CNT_TRIG_NORESP. -/
  | trigNoresp (root : BitVec 4) (user : BitVec 6)
  /-- DIE_ERROR_FLAG (R369): A DRAM die raises its error flag, which freezes the controller with cause COMMAND. -/
  | dieErrorFlag (channel : BitVec 2) (sub : Bool)
  /-- ILLEGAL (R387): A core or parse engine issues a reserved or all-zero instruction word, a paired word with bit 30 set, or a control operation in slot A, and ILLEGAL is raised or the pass is ended. -/
  | illegal (engine : Engine)
  /-- RUNG_COMPLETE (R428): A rung of the recovery ladder ends with its function back in service, so the function's ladder is complete and its safe-state cause can clear. -/
  | rungComplete (func : Func)
  deriving DecidableEq, Repr

end Sys2Proof
end

