-- ==== Sys2Proof/WellFormed.lean ====
section
/-! DEFINITION. Well-formed commands: the relations between operands that their types do not say. -/

namespace Sys2Proof

/-- The strap balls are sampled at eight instants (R70). -/
def strapsOk (l : List StrapSample) : Bool := decide (l.length = 8)

/-- A beat carries at most 64 bits (R92). -/
def beatOk (l : List Byte) : Bool := decide (l.length ≤ 8)

/-- A count of entries in a message is one byte (R441). -/
def countOk {α : Type} (l : List α) : Bool := decide (l.length ≤ 255)

/-- A DRAM request covers 1 to 16 whole words of one 512-byte aligned range, and a write brings their data (R360). -/
def dramOk (addr words : Nat) (data : Option (List Byte)) : Bool :=
  decide (1 ≤ words) && decide (words ≤ 16) && decide (addr % 32 = 0) && decide (addr % 512 + 32 * words ≤ 512) &&
    (match data with | some d => decide (d.length = 32 * words) | none => true)

/-- A host access lies within one 64-byte aligned block, and a write brings its bytes (R450). -/
def hostOk (write : Bool) (offset len : Nat) (data : List Byte) : Bool :=
  decide (1 ≤ len) && decide (offset % 64 + len ≤ 64) && (!write || decide (data.length = len))

/-- The safety pair is named as core 4 (R393). -/
def Engine.ok : Engine → Bool
  | .core c => decide (c.val ≠ 5)
  | .pe _ => true

/-- A requester acts at a level that its path can carry (R16, R19): the host and the maintenance port act at Operator level, or as a
Guest where a check at that level is reported; a shelf access carries its originator's level, and a core acts at its own. -/
def Req.ok (r : Req) : Bool :=
  match r.path with
  | .host | .maint => decide (r.level ≠ .vendor)
  | .shelf _ | .core _ => true

/-- A command whose operands fit together. -/
def Instr.wellFormed : Instr → Bool
  | .registerWrite req _ _ _ => req.ok
  | .guestReadCheck _ _ => true
  | .readClear req _ => req.ok
  | .wideValueLatch req _ => req.ok
  | .bootLockSet req => req.ok
  | .maintAddressMatch _ _ => true
  | .maintWrite _ _ _ => true
  | .refInputChange _ _ _ => true
  | .refEdgeAccept _ => true
  | .mtRefStuck _ => true
  | .chatterPeriodEnd _ => true
  | .mtHoldSlot => true
  | .mtHoldAmbig => true
  | .mtStep => true
  | .mtCycleBoundary => true
  | .offsetLearn _ => true
  | .ltLoad req => req.ok
  | .ltStep req _ => req.ok
  | .ltSyncLost => true
  | .mtSnap req => req.ok
  | .alarm _ => true
  | .alarmCtlWrite req _ _ => req.ok
  | .vinValid _ => true
  | .aonUp => true
  | .strapSampleDone samples => strapsOk samples
  | .assayBistDone _ => true
  | .cfgHeadersRead => true
  | .criticalSectionsLoaded => true
  | .luminaireControlReady => true
  | .calibrationSectionLoaded => true
  | .dramTrainingDone _ => true
  | .deferredSectionsLoaded _ => true
  | .radioCalibrationDone _ => true
  | .bootComplete => true
  | .bootLate _ => true
  | .confirm req => req.ok
  | .eraseBank req => req.ok
  | .eraseBankDone => true
  | .nvmDataWrite req _ _ => req.ok
  | .warmReset req _ => req.ok
  | .coldReset req _ => req.ok
  | .folioSwitchRequest req _ => req.ok
  | .folioAtReset req _ => req.ok
  | .folioSwitch => true
  | .quireReconfig _ => true
  | .quireStartBeat _ _ data => beatOk data
  | .quireDataBeat _ data => beatOk data
  | .quireEndBeat _ data _ => beatOk data
  | .quireWordRead _ _ => true
  | .dropPkt req _ => req.ok
  | .flush req _ => req.ok
  | .quireDisable req _ => req.ok
  | .tableScrub _ _ _ _ => true
  | .wgcRateWindowEnd _ => true
  | .parsePassStart _ _ _ => true
  | .parseTimeout _ => true
  | .finalLookupResult _ => true
  | .fragHoldExpire _ => true
  | .fragActiveExpire _ => true
  | .ruleWrite req _ _ => req.ok
  | .ruleRetire req _ _ => req.ok
  | .ruleRead req _ _ => req.ok
  | .editionCommit req => req.ok
  | .flowLookup => true
  | .flowDramReadDone => true
  | .routeLookupDone => true
  | .remoteLookupTimeout => true
  | .remoteLookupRx _ _ _ _ _ _ _ => true
  | .lookupRespRx _ _ _ _ => true
  | .ageingSweep _ _ => true
  | .flwLimp => true
  | .flowRead req => req.ok
  | .flowDelete req => req.ok
  | .flowPin req => req.ok
  | .flowUnpin req => req.ok
  | .flowTierMove _ _ => true
  | .routeAdd req => req.ok
  | .routeDel req => req.ok
  | .routeCommit req _ => req.ok
  | .schEnqueue _ _ => true
  | .wiredDequeue _ _ => true
  | .pauseStateReport _ => true
  | .wheelSlotRelease => true
  | .overflowSlotMove => true
  | .shaperPendingRefill _ => true
  | .wifiGrantRequest _ _ _ _ _ _ => true
  | .wifiMpduTake _ _ _ _ => true
  | .cellFrameReturn => true
  | .schNodeRead req _ _ => req.ok
  | .schNodeWrite req _ _ => req.ok
  | .schNodeFlush req _ _ => req.ok
  | .schNodeReadClr req _ _ => req.ok
  | .tier1AnchorEval _ _ _ => true
  | .linkUsabilityChange _ _ _ _ => true
  | .baAgreementChange _ _ _ _ _ => true
  | .tier2Eval _ => true
  | .moveHintRx _ _ _ => true
  | .moveReqRx _ _ _ => true
  | .moveDataRx _ _ _ _ => true
  | .moveAckRx _ _ => true
  | .drainDoneRx _ _ => true
  | .moveCancelRx _ _ _ => true
  | .redirectRx _ _ _ => true
  | .waitRx _ _ => true
  | .drainComplete => true
  | .fenceTimeout => true
  | .pleMoveUnconfirmed => true
  | .tier3Eval _ => true
  | .steerTimeout _ => true
  | .loadReportSend _ _ _ => true
  | .loadRx _ _ _ clients nodes => countOk clients && countOk nodes
  | .tier4Eval => true
  | .tier4Rx biases orders => countOk biases && countOk orders
  | .leadOkTimeout => true
  | .pinSet req => req.ok
  | .pinClear req => req.ok
  | .pinRead req => req.ok
  | .pinRx _ _ => true
  | .rfGoOff req _ _ => req.all Req.ok
  | .rfGoSleep req _ _ => req.all Req.ok
  | .rfGoIdle req _ _ => req.all Req.ok
  | .rfGoRx req _ _ => req.all Req.ok
  | .rfTransitionDone _ _ => true
  | .txCommand _ _ _ _ _ _ _ => true
  | .heldCommandStart _ _ => true
  | .txLate _ _ => true
  | .holdExpired _ _ => true
  | .ppduTxEnd _ _ _ _ _ => true
  | .calSegmentStart _ _ _ _ => true
  | .calSegmentEnd _ _ => true
  | .dpdPermitRetry _ => true
  | .rfCalFull req _ _ => req.ok
  | .rfDpdClear req _ _ => req.ok
  | .rfCalDone _ _ => true
  | .paTempChange _ _ _ _ => true
  | .mismatchProbe _ _ _ => true
  | .grantLoad req => req.ok
  | .grantClear req => req.ok
  | .grantExpiring => true
  | .grantExpired => true
  | .rfChanWrite req _ _ _ _ => req.ok
  | .channelMove _ _ => true
  | .rfbSplitWrite req _ => req.ok
  | .rfcGoOff req => req.ok
  | .rfcGoSleep req => req.ok
  | .rfcGoIdle req => req.ok
  | .rfcGoRx req => req.ok
  | .rfcTransitionDone => true
  | .applyPlan req => req.ok
  | .spanRetuneDone => true
  | .calReq req => req.ok
  | .tuneReq req _ => req.ok
  | .preambleDetect _ _ _ _ _ _ => true
  | .sfdDetect _ _ _ _ => true
  | .phrDecode _ _ _ _ _ => true
  | .rfcRxReport _ _ _ => true
  | .rfcTxCommand _ _ _ _ _ _ _ _ _ _ => true
  | .rfcTxStart _ => true
  | .rfcTxLate => true
  | .rfcTxEnd _ => true
  | .calSlotOpen _ _ _ => true
  | .rfcTempChange _ => true
  | .rfcChLost _ => true
  | .rfcChCfgWrite req _ _ => req.ok
  | .assocRequest _ _ _ _ _ => true
  | .staAdd req _ => req.ok
  | .staDel req _ => req.ok
  | .staRead req _ => req.ok
  | .staDelDone _ => true
  | .mpduRx _ => true
  | .barRx _ _ _ _ => true
  | .reorderTimeout _ _ => true
  | .twtSpBoundary _ _ => true
  | .beaconTx _ _ _ => true
  | .wmaKeyInstall req _ _ _ => req.ok
  | .wmaKeyRemove req _ _ => req.ok
  | .wmaKeySetTx req _ _ => req.ok
  | .btmResponseRx _ _ => true
  | .wmaBhDown _ => true
  | .bhRejoin _ _ => true
  | .planCommit req => req.ok
  | .planCancel req => req.ok
  | .slotFrameStart => true
  | .beaconSend => true
  | .gackSend _ => true
  | .cellFrameAsk _ => true
  | .downSend _ _ => true
  | .safeLevelSend _ => true
  | .sgmRxReport => true
  | .downAckRx => true
  | .downAckTimeout => true
  | .keepalivePeriodEnd _ => true
  | .sgmNodeAdd req _ => req.ok
  | .sgmNodeDel req _ => req.ok
  | .sgmNodeRead req _ => req.ok
  | .sgmNodeUpdate req _ => req.ok
  | .sgmNodeReassign req _ => req.ok
  | .dutyBucketRoll => true
  | .ringProdWrite req _ _ => req.ok
  | .ringJobStart _ => true
  | .jobStatusWrite _ _ _ => true
  | .inlineJob _ _ => true
  | .keyDerivationDone => true
  | .cipQuarantine pairs _ => decide (pairs.length ≤ 3)
  | .cipAlarmInput _ _ => true
  | .cipErase => true
  | .rngHealthFail => true
  | .rngHealthPass => true
  | .cipKeyInstall req _ _ => req.ok
  | .cipKeyRemove req _ => req.ok
  | .cipKeyDerive req _ _ _ => req.ok
  | .evictSlot req _ => req.ok
  | .cipKeyErase req _ => req.ok
  | .rootProgram req _ _ _ => req.ok
  | .ethFrameRx _ _ => true
  | .pauseRx _ _ => true
  | .pfcRx _ _ quanta => decide (quanta.length = 8)
  | .pauseTimerExpire _ => true
  | .ethFrameSend _ _ => true
  | .preemptFragmentEnd _ => true
  | .verifySend _ => true
  | .verifyResponseRx _ => true
  | .xoffReached _ => true
  | .pauseRepeat _ => true
  | .xonReached _ => true
  | .lpiEnter _ _ => true
  | .lpiExit _ _ => true
  | .linkDown _ => true
  | .linkUp _ _ => true
  | .tsFifoRead req _ => req.ok
  | .saInstall req _ _ _ => req.ok
  | .saRemove req _ _ _ => req.ok
  | .saSetTx req _ _ _ => req.ok
  | .ethPortCfgWrite req _ _ => req.ok
  | .preemptEnWrite req _ _ => req.ok
  | .dramRequest _ addr words data => dramOk addr.toNat words.toNat data
  | .dramReadComplete _ _ _ => true
  | .strobeTimeout _ => true
  | .wqEntryFreed _ => true
  | .requestAged _ => true
  | .refreshDue _ _ _ _ => true
  | .refreshWindowClose _ _ => true
  | .dieTempRead _ _ _ => true
  | .temperDue _ => true
  | .loadTemperDue _ _ => true
  | .loadTemperDeadline _ => true
  | .drcRetrain req _ => req.ok
  | .drcTemper req _ => req.ok
  | .retrainDone _ _ => true
  | .dramScrub _ => true
  | .freezeHoldExpire => true
  | .nop engine => engine.ok
  | .pushs engine _ => engine.ok
  | .dup engine => engine.ok
  | .drop engine => engine.ok
  | .swap engine => engine.ok
  | .overCopy engine => engine.ok
  | .rot engine => engine.ok
  | .pick engine _ => engine.ok
  | .add engine => engine.ok
  | .sub engine => engine.ok
  | .and engine => engine.ok
  | .or engine => engine.ok
  | .xor engine => engine.ok
  | .not engine => engine.ok
  | .neg engine => engine.ok
  | .shl engine _ _ => engine.ok
  | .shr engine _ _ => engine.ok
  | .sar engine _ _ => engine.ok
  | .mul engine => engine.ok
  | .mulhu engine => engine.ok
  | .mulhs engine => engine.ok
  | .eq engine => engine.ok
  | .lt engine => engine.ok
  | .ltu engine => engine.ok
  | .sel engine => engine.ok
  | .ld engine _ _ => engine.ok
  | .st engine _ => engine.ok
  | .lda engine _ _ _ => engine.ok
  | .sta engine _ _ => engine.ok
  | .toR engine => engine.ok
  | .rFrom engine => engine.ok
  | .rFetch engine => engine.ok
  | .ret engine => engine.ok
  | .jmps engine => engine.ok
  | .calls engine => engine.ok
  | .fence engine => engine.ok
  | .brk engine => engine.ok
  | .push engine _ => engine.ok
  | .pushUpper engine _ => engine.ok
  | .addi engine _ => engine.ok
  | .andi engine _ => engine.ok
  | .ori engine _ => engine.ok
  | .xori engine _ => engine.ok
  | .eqi engine _ => engine.ok
  | .lti engine _ => engine.ok
  | .ltui engine _ => engine.ok
  | .brAlways engine _ => engine.ok
  | .brZero engine _ => engine.ok
  | .brNonzero engine _ => engine.ok
  | .call engine _ => engine.ok
  | .ldo engine _ _ _ => engine.ok
  | .sto engine _ _ => engine.ok
  | .agw engine _ _ => engine.ok
  | .agr engine _ _ => engine.ok
  | .agadd engine _ _ => engine.ok
  | .amoadd engine _ => engine.ok
  | .amoswap engine _ => engine.ok
  | .amocas engine _ => engine.ok
  | .srr engine _ => engine.ok
  | .srw engine _ => engine.ok
  | .sys engine _ => engine.ok
  | .retx engine => engine.ok
  | .wld engine _ _ _ _ => engine.ok
  | .mld engine _ _ _ => engine.ok
  | .bext engine _ _ => engine.ok
  | .layer engine _ => engine.ok
  | .key engine _ _ _ _ => engine.ok
  | .lookup engine _ => engine.ok
  | .lenchk engine => engine.ok
  | .mal engine _ => engine.ok
  | .done engine _ => engine.ok
  | .frag engine _ _ => engine.ok
  | .interruptEntry _ => true
  | .coreRun req _ => req.ok
  | .swiSet req _ => req.ok
  | .slotBudgetExpire _ => true
  | .lockstepDifference => true
  | .pwrWaitRelease _ => true
  | .pwrVinLow _ => true
  | .vinLowClear _ => true
  | .vinFail _ => true
  | .pwrVinHigh _ => true
  | .vinHighClear _ => true
  | .domainIdleExpire _ => true
  | .domainWakeDemand _ => true
  | .domainWakeDone _ => true
  | .targetFull req => req.ok
  | .targetReduced req => req.ok
  | .targetStandby req => req.ok
  | .targetOff req => req.ok
  | .stateTransitionDone => true
  | .wakeNAssert => true
  | .wakeListenerEvent _ => true
  | .pwrBrownout => true
  | .brownoutLatchRelease => true
  | .permitRequest _ _ => true
  | .permitPoll _ _ _ => true
  | .permitTimeout _ => true
  | .permitRetryEnd _ => true
  | .permitRenewal _ => true
  | .pmbAlert _ _ _ => true
  | .grantLeaseEnd _ => true
  | .txopEndReport _ => true
  | .monitorRead _ _ => true
  | .pmbusNackRetry _ => true
  | .powerCycle req _ _ => req.ok
  | .asyFault _ _ => true
  | .heartbeatTimeout _ => true
  | .daliSafeBroadcastStart _ => true
  | .fldSafeBroadcast _ => true
  | .safeQuietExpire => true
  | .asyRelease req => req.ok
  | .enterSafe req => req.ok
  | .clearReplace req => req.ok
  | .lftNow req => req.ok
  | .forceRung req _ _ => req.ok
  | .hvWatchdogExpire => true
  | .rungTimeout _ => true
  | .lftDue => true
  | .asyLftOverdue => true
  | .lftComplete _ => true
  | .tempRecovered => true
  | .asyFaultEnd _ _ => true
  | .helloSend => true
  | .helloRx _ _ _ _ => true
  | .adjacencyTimeout _ => true
  | .lsaSend => true
  | .lsaRx _ _ edges => countOk edges
  | .smpFrameRx _ _ => true
  | .routeHoldEnd _ => true
  | .timeSend => true
  | .timeRx _ _ _ _ _ => true
  | .leadClaimRx _ _ _ _ => true
  | .leaveRx _ => true
  | .remoteRegAccess req _ _ _ => req.ok
  | .regReqRx _ _ _ _ _ _ => true
  | .regRespRx _ _ _ _ => true
  | .shfUnreachable => true
  | .steerRx _ _ _ _ _ => true
  | .steerDoneRx _ _ => true
  | .nodeMoveRx _ _ _ _ _ _ => true
  | .faultRx _ _ _ _ _ => true
  | .safeRx _ _ _ _ => true
  | .replaceRx _ _ => true
  | .cycleReqRx _ _ => true
  | .leadLost => true
  | .shfRejoin req => req.ok
  | .shfTakeover req => req.ok
  | .hostMemoryAccess write offset len data _ => hostOk write offset.toNat len.toNat data
  | .hifDoorbell req _ => req.ok
  | .hifHostDb req _ => req.ok
  | .daliSend16 req _ _ => req.ok
  | .daliSend24 req _ _ => req.ok
  | .daliFrameStart _ => true
  | .daliCollision _ => true
  | .daliBackwardRx _ _ _ => true
  | .daliAnswerWindowEnd _ => true
  | .daliBusLow _ => true
  | .daliBusHigh _ => true
  | .echoQuery _ _ => true
  | .pwmPeriodStart _ _ => true
  | .pwmDutyWrite req _ _ => req.ok
  | .gpioInputAccept _ _ => true
  | .chatterHoldEnd _ => true
  | .fldInStuck _ => true
  | .pulseEnd _ => true
  | .evselWrite req _ _ => req.ok
  | .prfSnap req => req.ok
  | .prfFreezeWrite req _ => req.ok
  | .sampleCandidate engine _ => engine.ok
  | .logEntry _ _ _ _ => true
  | .stagedMove => true
  | .logStoppedClear req => req.ok
  | .bypass => true
  | .idcode => true
  | .samplePreload _ => true
  | .extest => true
  | .clamp => true
  | .highz => true
  | .trigNoresp _ _ => true
  | .dieErrorFlag _ _ => true
  | .illegal engine => engine.ok
  | .rungComplete _ => true

end Sys2Proof
end

