-- ==== Sys2Proof/Machine/Table.lean ====
section
/-! DEFINITION. Sparse tables: sorted lists of numbered entries, and the byte memories built on them (a byte that is not
listed reads 0x00). -/

namespace Sys2Proof.Machine

/-- A sparse table: entries by number, in rising order, at most one per number. -/
abbrev Map (α : Type) := List (Nat × α)

/-- The entry numbered `k`, if there is one. -/
def Map.look {α : Type} : Map α → Nat → Option α
  | [], _ => none
  | (j, v) :: t, k => if j = k then some v else Map.look t k

/-- The table with entry `k` written. -/
def Map.put {α : Type} : Map α → Nat → α → Map α
  | [], k, v => [(k, v)]
  | (j, w) :: t, k, v =>
    if j = k then (k, v) :: t else if k < j then (k, v) :: (j, w) :: t else (j, w) :: Map.put t k v

/-- The table without entry `k`. -/
def Map.del {α : Type} : Map α → Nat → Map α
  | [], _ => []
  | (j, w) :: t, k => if j = k then Map.del t k else (j, w) :: Map.del t k

/-- A key is given a value, or has none. -/
def Map.set? {α : Type} (m : Map α) (k : Nat) : Option α → Map α
  | some v => m.put k v
  | none => m.del k

/-- The entry numbered `k`, or `d` where there is none. -/
def Map.lookD {α : Type} (m : Map α) (k : Nat) (d : α) : α := (m.look k).getD d

/-- Whether the table has an entry numbered `k`. -/
def Map.has {α : Type} (m : Map α) (k : Nat) : Bool := (m.look k).isSome

/-- The table with entry `k`, where there is one, replaced by `f` of it. -/
def Map.edit {α : Type} (m : Map α) (k : Nat) (f : α → α) : Map α :=
  match m.look k with
  | some v => m.put k (f v)
  | none => m

/-- The numbers of the entries rise strictly. -/
def Map.sorted {α : Type} : Map α → Bool
  | [] => true
  | [_] => true
  | (j, _) :: (k, v) :: t => decide (j < k) && Map.sorted ((k, v) :: t)

/-- A byte memory: the bytes that do not read 0x00, by address. -/
abbrev Memory := List Host.Cell

/-- The byte at an address: 0x00 where nothing is listed (DESIGN CHOICE, log entry 3). -/
def Memory.byte (m : Memory) (a : Nat) : Byte := (Map.look m a).getD 0

/-- The memory with one byte written, in canonical form: a byte written 0x00 is not listed. -/
def Memory.setByte (m : Memory) (a : Nat) (b : Byte) : Memory :=
  if b = 0 then Map.del m a else Map.put m a b

/-- The canonical form: addresses strictly rising, and no listed byte equal to what an unlisted address reads as. -/
def Memory.wf (m : Memory) : Bool := Map.sorted m && m.all (fun c => decide (c.2 ≠ 0))

/-- The `n` bytes from an address, the one at the lowest address first. -/
def Memory.bytes (m : Memory) (a : Nat) : Nat → List Byte
  | 0 => []
  | n + 1 => m.byte a :: Memory.bytes m (a + 1) n

/-- The memory with bytes written from an address upwards. -/
def Memory.setBytes (m : Memory) (a : Nat) : List Byte → Memory
  | [] => m
  | b :: t => Memory.setBytes (m.setByte a b) (a + 1) t

/-- A little-endian value of bytes (R3). -/
def leNat : List Byte → Nat
  | [] => 0
  | b :: t => b.toNat + 256 * leNat t

/-- The `n` little-endian bytes of a value (R3). -/
def natLe : Nat → Nat → List Byte
  | 0, _ => []
  | n + 1, v => BitVec.ofNat 8 v :: natLe n (v / 256)

/-- A big-endian (network order) value of bytes. -/
def beNat (l : List Byte) : Nat := leNat l.reverse

/-- The `n` big-endian bytes of a value. -/
def natBe (n v : Nat) : List Byte := (natLe n v).reverse

/-- A value read from memory, little-endian. -/
def Memory.le (m : Memory) (a n : Nat) : Nat := leNat (m.bytes a n)

/-- A value written to memory, little-endian. -/
def Memory.setLe (m : Memory) (a n v : Nat) : Memory := m.setBytes a (natLe n v)

/-- The list with its `n`-th element replaced by `f` of it. -/
def editAt {α : Type} : List α → Nat → (α → α) → List α
  | [], _, _ => []
  | a :: t, 0, f => f a :: t
  | a :: t, n + 1, f => a :: editAt t n f

/-- The list with bytes written from position `n`. -/
def putBytes (l : List Byte) (n : Nat) (b : List Byte) : List Byte := l.take n ++ b ++ l.drop (n + b.length)

/-- A two's complement reading of the low `w` bits of a number. -/
def sx (w n : Nat) : Int :=
  let m := n % 2 ^ w
  if m < 2 ^ (w - 1) then (m : Int) else (m : Int) - ((2 ^ w : Nat) : Int)

/-- The low `w` bits of an integer. -/
def toBits (w : Nat) (i : Int) : Nat := (i % ((2 ^ w : Nat) : Int)).toNat

end Sys2Proof.Machine
end

