-- ==== Sys2Proof/Machine/Aes.lean ====
section
/-! DEFINITION. AES (FIPS 197) and the modes of R315 (NIST SP 800-38A to 38D, IEEE 802.15.4), on lists of bytes. The spec
names the standards; their content is PRESUMED (log entry 47). -/

namespace Sys2Proof.Machine

/-- Byte-wise exclusive or, as long as the shorter list. -/
def xorBytes (a b : List Byte) : List Byte := List.zipWith (· ^^^ ·) a b

/-- Zero bytes up to a multiple of 16. -/
def pad16 (l : List Byte) : List Byte := l ++ List.replicate ((16 - l.length % 16) % 16) 0

/-- The list cut into blocks of 16 bytes; the last may be shorter. -/
def blocks (l : List Byte) : List (List Byte) :=
  (List.range ((l.length + 15) / 16)).map fun i => (l.drop (16 * i)).take 16

/-! ### The cipher -/

/-- Doubling in GF(2⁸). -/
def xtime (b : Byte) : Byte := (b <<< 1) ^^^ (if b.getLsbD 7 then 0x1B#8 else 0#8)

/-- The product in GF(2⁸). -/
def aesMul (a b : Byte) : Byte :=
  ((List.range 8).foldl (fun (x : Byte × Byte) i => (if b.getLsbD i then x.1 ^^^ x.2 else x.1, xtime x.2)) (0, a)).1

/-- The S-box, entry 0 in the least significant byte (FIPS 197; Laws/Image.lean proves it equal to its definition). -/
def sboxTable : Nat :=
  0x16BB54B00F2D99416842E6BF0D89A18CDF2855CEE9871E9B948ED9691198F8E19E1DC186B95735610EF6034866B53E708A8BBD4B1F74DDE8C6B4A61C2E2578BA08AE7A65EAF4566CA94ED58D6D37C8E779E4959162ACD3C25C2406490A3A32E0DB0B5EDE14B8EE4688902A22DC4F816073195D643D7EA7C41744975FEC130CCDD2F3FF1021DAB6BCF5389D928F40A351A89F3C507F02F94585334D43FBAAEFD0CF584C4A39BECB6A5BB1FC20ED00D153842FE329B3D63B52A05A6E1B1A2C830975B227EBE28012079A059618C323C7041531D871F1E5A534CCF73F362693FDB7C072A49CAFA2D4ADF04759FA7DC982CA76ABD7FE2B670130C56F6BF27B777C63

/-- The inverse S-box, laid out alike. -/
def sboxInvTable : Nat :=
  0x7D0C2155631469E126D677BA7E042B17619953833CBBEBC8B0F52AAE4D3BE0A0EF9CC9939F7AE52D0D4AB519A97F51605FEC8027591012B131C7078833A8DD1FF45ACD78FEC0DB9A2079D2C64B3E56FC1BBE18AA0E62B76F89C5291D711AF1476EDF751CE837F9E28535ADE72274AC9673E6B4F0CECFF297EADC674F4111913A6B8A130103BDAFC1020F3FCA8F1E2CD00645B3B80558E4F70AD3BC8C00ABD890849D8DA75746155EDAB9EDFD5048706C92B6655DCC5CA4D41698688664F6F87225D18B6D49A25B76B224D92866A12E084EC3FA420B954CEE3D23C2A632947B54CBE9DEC444438E3487FF2F9B8239E37CFBD7F3819EA340BF38A53630D56A0952

/-- The S-box and its inverse. -/
def sbox (a : Byte) : Byte := BitVec.ofNat 8 (sboxTable >>> (8 * a.toNat))
def sboxInv (a : Byte) : Byte := BitVec.ofNat 8 (sboxInvTable >>> (8 * a.toNat))

/-- The key schedule: `n` further words, newest first, with the round constant. -/
def keyWords (nk : Nat) : Nat → Nat → Byte → List (List Byte) → List (List Byte)
  | 0, _, _, ws => ws
  | n + 1, i, rc, ws =>
    let last := ws.headD []
    let old := ws.getD (nk - 1) []
    if i % nk = 0 then
      let t := (last.drop 1 ++ last.take 1).map sbox
      keyWords nk n (i + 1) (xtime rc) (xorBytes old (xorBytes t [rc, 0, 0, 0]) :: ws)
    else
      let t := if nk = 8 ∧ i % 8 = 4 then last.map sbox else last
      keyWords nk n (i + 1) rc (xorBytes old t :: ws)

/-- The round keys of a key of 16 or 32 bytes. -/
def roundKeys (key : List Byte) : List (List Byte) :=
  let nk := key.length / 4
  let first := (List.range nk).map fun i => (key.drop (4 * i)).take 4
  blocks (keyWords nk (4 * (nk + 7) - nk) nk 1 first.reverse).reverse.flatten

/-- Row shifts of a state held column by column. -/
def shiftRows (l : List Byte) : List Byte := (List.range 16).map fun i => l.getD ((i + 4 * (i % 4)) % 16) 0
def shiftRowsInv (l : List Byte) : List Byte := (List.range 16).map fun i => l.getD ((i + 12 * (i % 4)) % 16) 0

/-- The column mix of the cipher, whose coefficients are 2, 3, 1, 1: each byte of a column is what all four give, with itself and
twice itself and the next. -/
def mixColumns (l : List Byte) : List Byte :=
  (List.range 16).map fun i =>
    let b (j : Nat) : Byte := l.getD (i / 4 * 4 + (i + j) % 4) 0
    xtime (b 0 ^^^ b 1) ^^^ b 1 ^^^ b 2 ^^^ b 3

/-- A column mix with a row of coefficients. -/
def mixWith (c : List Byte) (l : List Byte) : List Byte :=
  (List.range 16).map fun i =>
    (List.range 4).foldl (fun x j => x ^^^ aesMul (c.getD ((j + 4 - i % 4) % 4) 0) (l.getD (i / 4 * 4 + j) 0)) 0
def mixColumnsInv : List Byte → List Byte := mixWith [14, 11, 13, 9]

/-- One block encrypted. -/
def aesEnc (key block : List Byte) : List Byte :=
  match roundKeys key with
  | [] => block
  | k0 :: ks =>
    let body := ks.dropLast.foldl (fun s k => xorBytes (mixColumns (shiftRows (s.map sbox))) k) (xorBytes block k0)
    xorBytes (shiftRows (body.map sbox)) (ks.getLastD [])

/-- One block decrypted. -/
def aesDec (key block : List Byte) : List Byte :=
  match (roundKeys key).reverse with
  | [] => block
  | k0 :: ks =>
    let body := ks.dropLast.foldl (fun s k => mixColumnsInv (xorBytes ((shiftRowsInv s).map sboxInv) k)) (xorBytes block k0)
    xorBytes ((shiftRowsInv body).map sboxInv) (ks.getLastD [])

/-! ### The modes -/

/-- CBC-MAC over whole blocks, from a block. -/
def cbcMac (key : List Byte) (x : List Byte) (l : List Byte) : List Byte :=
  (blocks l).foldl (fun x b => aesEnc key (xorBytes x b)) x

/-- Sixteen zero bytes. -/
def zero16 : List Byte := List.replicate 16 0

/-- The 16 bytes doubled in the field of CMAC. -/
def cmacDouble (l : List Byte) : List Byte :=
  let n := 2 * beNat l
  natBe 16 (if 2 ^ 128 ≤ n then Nat.xor (n - 2 ^ 128) 0x87 else n)

/-- CMAC (SP 800-38B). -/
def cmac (key l : List Byte) : List Byte :=
  let k1 := cmacDouble (aesEnc key zero16)
  let whole := decide (l ≠ [] ∧ l.length % 16 = 0)
  let n := if l = [] then 0 else (l.length - 1) / 16 * 16
  let tail := l.drop n
  let tail := if whole then xorBytes tail k1 else xorBytes (pad16 (tail ++ [0x80])) (cmacDouble k1)
  cbcMac key zero16 (l.take n ++ tail)

/-- A key stream from counter blocks, applied to bytes. -/
def ctrApply (key : List Byte) (counter : Nat → List Byte) (l : List Byte) : List Byte :=
  xorBytes l ((List.range ((l.length + 15) / 16)).map fun i => aesEnc key (counter i)).flatten

/-- The initial counter block with its last 4 bytes, big-endian, advanced. -/
def inc32 (iv : List Byte) (i : Nat) : List Byte := iv.take 12 ++ natBe 4 ((beNat (iv.drop 12) + i) % 2 ^ 32)

/-- CBC. -/
def cbcEnc (key iv l : List Byte) : List Byte :=
  ((blocks l).foldl (fun (a : List Byte × List Byte) b =>
    let c := aesEnc key (xorBytes a.1 b)
    (c, a.2 ++ c)) (iv, [])).2
def cbcDec (key iv l : List Byte) : List Byte :=
  ((blocks l).foldl (fun (a : List Byte × List Byte) c => (c, a.2 ++ xorBytes (aesDec key c) a.1)) (iv, [])).2

/-- CFB-128; `dec` where the input is the ciphertext. -/
def cfb (dec : Bool) (key iv l : List Byte) : List Byte :=
  ((blocks l).foldl (fun (a : List Byte × List Byte) b =>
    let o := xorBytes b (aesEnc key a.1)
    (if dec then b else o, a.2 ++ o)) (iv, [])).2

/-- OFB. -/
def ofb (key iv l : List Byte) : List Byte :=
  ((blocks l).foldl (fun (a : List Byte × List Byte) b =>
    let o := aesEnc key a.1
    (o, a.2 ++ xorBytes b o)) (iv, [])).2

/-- The full tag of CCM and CCM* over a payload in the clear (SP 800-38C). -/
def ccmTag (key nonce aad payload : List Byte) (taglen : Nat) : List Byte :=
  let q := 15 - nonce.length
  let flags := (if aad = [] then 0 else 64) + (if taglen = 0 then 0 else 8 * ((taglen - 2) / 2)) + (q - 1)
  let n := if aad.length < 65280 then natBe 2 aad.length else [0xFF, 0xFE] ++ natBe 4 aad.length
  let a := if aad = [] then [] else pad16 (n ++ aad)
  let mac := cbcMac key zero16 (natBe 1 flags ++ nonce ++ natBe q payload.length ++ a ++ pad16 payload)
  xorBytes mac (aesEnc key (natBe 1 (q - 1) ++ nonce ++ natBe q 0))

/-- The payload of CCM and CCM* encrypted or decrypted. -/
def ccmApply (key nonce l : List Byte) : List Byte :=
  let q := 15 - nonce.length
  ctrApply key (fun i => natBe 1 (q - 1) ++ nonce ++ natBe q (i + 1)) l

/-- A product in the field of GHASH, both operands as 128-bit numbers whose first bit is the most significant. -/
def ghashMul (x y : Nat) : Nat :=
  ((List.range 128).foldl (fun (a : Nat × Nat) i =>
    (if x.testBit (127 - i) then Nat.xor a.1 a.2 else a.1,
     if a.2 % 2 = 1 then Nat.xor (a.2 / 2) (0xE1 * 2 ^ 120) else a.2 / 2)) (0, y)).1

/-- The full tag of GCM over a ciphertext (SP 800-38D), for a 12-byte IV. -/
def gcmTag (key iv aad c : List Byte) : List Byte :=
  let h := beNat (aesEnc key zero16)
  let l := pad16 aad ++ pad16 c ++ natBe 8 (8 * aad.length) ++ natBe 8 (8 * c.length)
  let s := (blocks l).foldl (fun x b => ghashMul (Nat.xor x (beNat b)) h) 0
  xorBytes (natBe 16 s) (aesEnc key (iv ++ [0, 0, 0, 1]))

/-- What a job of R315 computes from its payload: the output (empty for a MAC mode), and its full tag where it has one. -/
def cipCompute (mode : Nat) (dec : Bool) (key iv aad l : List Byte) (taglen : Nat) : List Byte × List Byte :=
  match mode with
  | 0 => (((blocks l).map (if dec then aesDec key else aesEnc key)).flatten, [])
  | 1 => (if dec then cbcDec key iv l else cbcEnc key iv l, [])
  | 2 => (ctrApply key (inc32 iv) l, [])
  | 3 => (cfb dec key iv l, [])
  | 4 => (ofb key iv l, [])
  | 5 => ([], cbcMac key zero16 l)
  | 6 => ([], cmac key l)
  | 7 | 8 =>
    let o := ccmApply key iv l
    (o, ccmTag key iv aad (if dec then o else l) taglen)
  | _ =>
    let o := ctrApply key (fun i => inc32 (iv ++ [0, 0, 0, 1]) (i + 1)) l
    (o, gcmTag key iv aad (if dec then l else o))

/-- The key wrap of RFC 3394: its integrity word and the 8-byte pieces of the key, after steps `t` to `t + n − 1`. -/
def wrapSteps (kek : List Byte) : Nat → Nat → Nat × List (List Byte) → Nat × List (List Byte)
  | 0, _, x => x
  | n + 1, t, (a, rs) =>
    let i := (t - 1) % max 1 rs.length
    let b := aesEnc kek (natBe 8 a ++ rs.getD i [])
    wrapSteps kek n (t + 1) (Nat.xor (beNat (b.take 8)) t, rs.set i (b.drop 8))

/-- The same steps undone, from step `t` down. -/
def unwrapSteps (kek : List Byte) : Nat → Nat × List (List Byte) → Nat × List (List Byte)
  | 0, x => x
  | t + 1, (a, rs) =>
    let i := t % max 1 rs.length
    let b := aesDec kek (natBe 8 (Nat.xor a (t + 1)) ++ rs.getD i [])
    unwrapSteps kek t (beNat (b.take 8), rs.set i (b.drop 8))

/-- The 8-byte pieces of bytes. -/
def octos (l : List Byte) : List (List Byte) := (List.range (l.length / 8)).map fun i => (l.drop (8 * i)).take 8

/-- A key wrapped under another (RFC 3394), 8 bytes longer than the key. -/
def keyWrap (kek key : List Byte) : List Byte :=
  let rs := octos key
  let (a, rs) := wrapSteps kek (6 * rs.length) 1 (0xA6A6A6A6A6A6A6A6, rs)
  natBe 8 a ++ rs.flatten

/-- A key unwrapped; none where its integrity check fails. -/
def keyUnwrap (kek l : List Byte) : Option (List Byte) :=
  let rs := octos (l.drop 8)
  let (a, rs) := unwrapSteps kek (6 * rs.length) (beNat (l.take 8), rs)
  if a = 0xA6A6A6A6A6A6A6A6 then some rs.flatten else none

/-- The key derivation of R321, of 128 or 256 bits. -/
def deriveKey (root label : List Byte) (bits : Nat) : List Byte :=
  ((List.range (bits / 128)).map fun i => cmac root (natBe 1 (i + 1) ++ label ++ [0] ++ natBe 2 bits)).flatten

end Sys2Proof.Machine
end

