-- ==== Sys2Proof/Config.lean ====
section
/-! DEFINITION. The values the spec leaves open: one opaque function, so that nothing can be proved about a value drawn
from it. -/

namespace Sys2Proof

/-- What a free value stands for, with the rule that leaves it open. -/
inductive FreeTag where
  /-- The phase loop's frequency estimate after an edge (R34, R42: bandwidth 0.5 Hz, no difference equation given). -/
  | mtmLoop
  /-- The rounding of the 64-cycle average of a learned offset (R35). -/
  | learnRound
  /-- The cell from which on PKB looks for a free one (R89: the order of allocation is open). -/
  | cellIndex
  /-- The word of a port's transmit buffer that holds a word of a frame, as `LAST_ADDR` shows it (spec/14: the layout of the
  buffer is open). -/
  | bufferWord
  /-- The length at egress of a packet that uses an entry and never reaches its egress (R142, R147). -/
  | noEgress
  /-- Producer metadata of a record FLW writes to a quire (R142). -/
  | recordInfo
  /-- The place the hardware chooses among the free ones of an exact rule's two buckets (R133). -/
  | exactWay
  /-- The access category of an UL grant entry (R175). -/
  | ulCategory
  /-- The random value 0 to 15 at which sampling restarts its count (R470). -/
  | sampleRestart
  /-- The original IPv6 source of an inbound NAT64 packet whose flow another device owns: LOOKUP_RESP does not carry it
  (R150, R154). -/
  | xlatV6
  /-- NEXT_PLAN of a beacon that announces no plan (R305). -/
  | nextPlan
  /-- The read-capture centre of a DRAM channel at a freeze (R369: the training's result, of which no value is given). -/
  | readCentre
  /-- What a freeze without a failing request captures as its request (R369). -/
  | freezeCapture
  /-- EADDR of an exception that has neither a data address nor an immediate (R380, R388). -/
  | eaddr
  /-- The cause code in ECAUSE of an interrupt (R390). -/
  | irqCode
  /-- Which of the pending sources 0 to 10 an interrupt entry leaves pending (R390 names no acknowledgement of them). -/
  | irqAck
  /-- The cycle count of a core (R380: no relation to what it executes is given). -/
  | cycle
  /-- The action word that LOOKUP pushes where it does not hit (R395). -/
  | lookupMiss
  /-- The link, width and speed that `HIF_STATUS` reports (R449: they are negotiated with the host). -/
  | pcieLink
  deriving DecidableEq, Repr

/-- The value that the spec leaves open, for a tag and for the number of values drawn before it. -/
opaque Config.free (tag : FreeTag) (n : Nat) : Nat

/-- What NAT64 writes into the header fields that only the new family has (R150 names none of them): the identification and
flags of an IPv4 header, or the flow label of an IPv6 one, of the packet that is translated. -/
opaque Config.nat64 (toV4 : Bool) (packet : List Byte) : Nat

/-- The 512-byte block of DRAM in which the first bucket of the flow table lies (R140 gives no address). -/
opaque Config.flowTable : Nat

/-- The hash that FLW chooses a NAT translation by: of the original key, with the VRF's seed, at a place of its sequence
(R149 gives its use, not its value). -/
opaque Config.natHash (key : List Byte) (vrf k : Nat) : Nat

/-- What collisions in the sketch add to the estimate of a WARM entry's packets (R191). -/
opaque Config.sketchExtra (key : List Byte) (n : Nat) : Nat

/-- The very-low-power class of the compliance module on a 6 GHz channel of a number and width; above 7 it does not permit
the mode (R236: the module is the vendor's and not described). -/
opaque Config.vlpClass (channel width : Nat) : Nat

/-- The regulatory class that the compliance module gives a link of radio B on a channel (R217, R229). -/
opaque Config.regClass (link channel width : Nat) : Nat

/-- The colour of a BSS, radio × 16 + number, and what firmware writes into its beacon (R268 names both and gives neither). -/
opaque Config.bssColour (bss : Nat) : Nat
opaque Config.beaconBody (bss : Nat) (tim : List Nat) (csa : Option Nat) (dtim : Bool) : List Byte

/-- The RU of a trigger frame's user, of so many (R175, R271: WMA chooses it). -/
opaque Config.wifiRu (users k : Nat) : Nat

/-- The Duration field of an MPDU (no rule gives it). -/
opaque Config.wifiDuration (sn : Nat) : Nat

/-- Field DW of SGM's own transmit commands (R255 gives the field; no rule of spec/12 says how SGM sets it). -/
opaque Config.sgmDw : Bool

/-- What the sub-GHz MAC sends of a packet that is not IPv6: R300 compresses IPv6 and UDP headers and names no form for another. -/
opaque Config.compress (packet : List Byte) (context : Nat) : List Byte

/-- The two candidate buckets of an exact-match key (R133 gives their number, not the hash). -/
opaque Config.exactBucket (key : List Byte) (second : Bool) : Nat

/-! ### What an authenticated section of the image says (R64 names what each is loaded into, not its layout) -/

/-- FIRMWARE: the code and data of the cores. -/
opaque Config.firmware (bytes : List Byte) : List CodeSeg

/-- SCHEDULE: the vendor alarms, and the luminaire schedule table. -/
opaque Config.alarms (bytes : List Byte) : List AlarmEntry
opaque Config.schedule (bytes : List Byte) : List SchedEntry

/-- FOLIO: the words of the IMG fields, the DRAM geometry (0) and ball functions (1), the safe level, and the scheduling tree. -/
opaque Config.folioWords (bytes : List Byte) : List FolioWord
opaque Config.folioStatic (bytes : List Byte) (k : Nat) : Nat
opaque Config.folioSafe (bytes : List Byte) : BitVec 7
opaque Config.folioNodes (bytes : List Byte) : List FolioNode
opaque Config.folioShapers (bytes : List Byte) : List FolioShaper

/-- PARSE: the program memory and the entry table. -/
opaque Config.program (bytes : List Byte) : List ProgSeg
opaque Config.entries (bytes : List Byte) : List (BitVec 19)

/-- EDITION: the first edition's number, its ternary and its exact rules. -/
opaque Config.edition (bytes : List Byte) : BitVec 16
opaque Config.ternary (bytes : List Byte) : List RuleData
opaque Config.exact (bytes : List Byte) : List RuleData

/-- PLACEMENT: the pins. -/
opaque Config.pins (bytes : List Byte) : List PinData

/-- The 16-bit code of an event in a log entry, by the event's place in the model's list of names (R473: the event list fixes
it, the spec does not print it). -/
opaque Config.eventCode (name : Nat) : BitVec 16

/-- The three ARG words of a log entry, of its event and arguments (R473: laid out by the event list). -/
opaque Config.eventArg (name : Nat) (args : List Nat) (word : Nat) : BitVec 32

end Sys2Proof
end

