-- ==== Sys2Proof/Machine/RegMap.lean ====
section
/-! DEFINITION. The register map: every register of spec/01 to spec/21, one row each, transcribed from the register
tables of the section files (address R26, access types R10, levels R16, reset values and the IMG mark of the Reset column). -/

namespace Sys2Proof.Machine

/-- The access types of R10. -/
inductive Acc where
  | rw | ro | wo | w1c | rc | rwl | cmd
  deriving DecidableEq, Repr

/-- One field of a register: bits [hi:lo] counted over all its words (R6), access type, lowest level that may write it
(none: no level), reset value (or pre-image value, R73), and whether its Reset column says IMG. -/
structure FieldDesc where
  hi : Nat
  lo : Nat
  acc : Acc
  lvl : Option Level
  rst : Nat
  img : Bool
  deriving DecidableEq, Repr

/-- One row of a register table: `count` copies `stride` bytes apart from `base` (an absolute CSR address), each of
`words` 32-bit words; `latch` where the value is read under R6. -/
structure RegDesc where
  base : Nat
  count : Nat
  stride : Nat
  words : Nat
  latch : Bool
  fields : List FieldDesc
  deriving DecidableEq, Repr

/-- A field row whose level is the Level column's entry. -/
def fv (hi lo : Nat) (a : Acc) (r : Nat) (img : Bool) : FieldDesc := ⟨hi, lo, a, some .vendor, r, img⟩
/-- A field row of Operator level. -/
def fo (hi lo : Nat) (a : Acc) (r : Nat) (img : Bool) : FieldDesc := ⟨hi, lo, a, some .operator, r, img⟩
/-- A field row of Guest level. -/
def fg (hi lo : Nat) (a : Acc) (r : Nat) (img : Bool) : FieldDesc := ⟨hi, lo, a, some .guest, r, img⟩
/-- A field row that no level may write. -/
def fn (hi lo : Nat) (a : Acc) (r : Nat) (img : Bool) : FieldDesc := ⟨hi, lo, a, none, r, img⟩

/-- The registers of unit TOP. -/
def regsTOP : List RegDesc :=
  [
   -- TOP_DEVID
   ⟨0x0, 1, 0x4, 1, false, [fn 31 16 .ro 0x4703 false, fn 15 0 .ro 0x640 false]⟩,
   -- TOP_STEP
   ⟨0x4, 1, 0x4, 1, false, [fn 7 0 .ro 0xB0 false]⟩,
   -- TOP_RESET
   ⟨0x8, 1, 0x4, 1, false, [fo 31 16 .cmd 0x0 false, fo 9 8 .cmd 0x0 false, fn 7 4 .cmd 0x0 false, fn 3 0 .cmd 0x0 false]⟩,
   -- TOP_UNIT_PRESENT
   ⟨0x10, 1, 0x4, 1, false, [fn 22 0 .ro 0x7FFFFF false]⟩,
   -- TOP_UNIT_READY
   ⟨0x14, 1, 0x4, 1, false, [fn 22 0 .ro 0x1 false]⟩,
   -- TOP_STRAP
   ⟨0x20, 1, 0x4, 1, false, [fn 9 9 .ro 0x0 false, fn 8 7 .ro 0x0 false, fn 6 3 .ro 0x0 false, fn 2 2 .ro 0x0 false, fn 1 0 .ro 0x0 false]⟩,
   -- TOP_LOCK
   ⟨0x24, 1, 0x4, 1, false, [fv 0 0 .rw 0x0 false]⟩,
   -- TOP_FOLIO_SEL
   ⟨0x30, 1, 0x4, 1, false, [fo 10 10 .cmd 0x0 false, fo 9 8 .cmd 0x0 false, fn 7 4 .cmd 0x0 false, fn 3 0 .cmd 0x0 false]⟩,
   -- TOP_FOLIO_STAT
   ⟨0x34, 1, 0x4, 1, false, [fn 14 14 .ro 0x0 false, fn 13 12 .ro 0x0 false, fn 11 8 .ro 0x0 false, fn 6 6 .ro 0x0 false, fn 5 5 .ro 0x0 false, fn 4 3 .ro 0x0 false, fn 1 0 .ro 0x0 false]⟩]

/-- The registers of unit MTM. -/
def regsMTM : List RegDesc :=
  [
   -- MTM_CTL
   ⟨0x100000, 1, 0x4, 1, false, [fo 5 5 .rw 0x0 true, fo 4 4 .rw 0x0 true, fo 2 0 .rw 0x7 true]⟩,
   -- MTM_STATUS
   ⟨0x100004, 1, 0x4, 1, false, [fn 8 8 .ro 0x0 false, fn 7 7 .ro 0x0 false, fn 6 6 .ro 0x0 false, fn 5 5 .ro 0x0 false, fn 4 4 .ro 0x0 false, fn 3 3 .ro 0x0 false, fn 2 0 .ro 0x0 false]⟩,
   -- MTM_REF_OFFSET
   ⟨0x100008, 1, 0x4, 1, false, [fo 23 0 .rw 0x0 true]⟩,
   -- MTM_REF_STAT
   ⟨0x10000C, 1, 0x4, 1, false, [fn 5 4 .ro 0x1 false, fn 3 2 .ro 0x1 false, fn 1 0 .ro 0x1 false]⟩,
   -- MTM_FREQ
   ⟨0x100010, 1, 0x4, 1, false, [fn 31 0 .ro 0x320000 false]⟩,
   -- MTM_EPOCH
   ⟨0x100014, 1, 0x4, 1, false, [fn 15 0 .ro 0x0 false]⟩,
   -- MTM_MT_NOW
   ⟨0x100020, 1, 0x4, 2, true, [fn 47 16 .ro 0x0 false, fn 15 0 .ro 0x0 false]⟩,
   -- MTM_LT_NOW
   ⟨0x100028, 1, 0x4, 2, true, [fn 63 0 .ro 0x0 false]⟩,
   -- MTM_SNAP
   ⟨0x100030, 1, 0x4, 1, false, [fg 8 8 .cmd 0x0 false, fn 7 4 .cmd 0x0 false, fn 3 0 .cmd 0x0 false]⟩,
   -- MTM_SNAP_MT
   ⟨0x100038, 1, 0x4, 2, true, [fn 47 0 .ro 0x0 false]⟩,
   -- MTM_SNAP_LT
   ⟨0x100040, 1, 0x4, 2, true, [fn 63 0 .ro 0x0 false]⟩,
   -- MTM_LT_LOAD_VAL
   ⟨0x100048, 1, 0x4, 2, true, [fo 63 0 .rw 0x0 false]⟩,
   -- MTM_LEARN_A
   ⟨0x100050, 1, 0x4, 1, false, [fn 16 16 .ro 0x0 false, fn 15 0 .ro 0x0 false]⟩,
   -- MTM_LEARN_B
   ⟨0x100054, 1, 0x4, 1, false, [fn 16 16 .ro 0x0 false, fn 15 0 .ro 0x5555 false]⟩,
   -- MTM_LEARN_C
   ⟨0x100058, 1, 0x4, 1, false, [fn 16 16 .ro 0x0 false, fn 15 0 .ro 0xAAAB false]⟩,
   -- MTM_HOLD_DRIFT
   ⟨0x100060, 1, 0x4, 1, false, [fo 15 0 .rw 0xA7 true]⟩,
   -- MTM_HOLD_BOUND
   ⟨0x100064, 1, 0x4, 1, false, [fn 31 0 .ro 0x0 false]⟩,
   -- MTM_LAST_ERR
   ⟨0x100068, 1, 0x4, 1, false, [fn 15 0 .ro 0x0 false]⟩,
   -- MTM_LT_ADJ
   ⟨0x100070, 1, 0x4, 1, false, [fo 23 0 .rw 0x0 false]⟩,
   -- MTM_LT_STEP
   ⟨0x100074, 1, 0x4, 1, false, [fo 31 8 .cmd 0x0 false, fn 7 4 .cmd 0x0 false, fn 3 0 .cmd 0x0 false]⟩,
   -- MTM_LT_LOAD
   ⟨0x100078, 1, 0x4, 1, false, [fo 8 8 .cmd 0x0 false, fn 7 4 .cmd 0x0 false, fn 3 0 .cmd 0x0 false]⟩,
   -- MTM_ALM_PENDV
   ⟨0x100080, 2, 0x4, 1, false, [fv 31 0 .w1c 0x0 false]⟩,
   -- MTM_ALM_PENDO
   ⟨0x100088, 4, 0x4, 1, false, [fo 31 0 .w1c 0x0 false]⟩,
   -- MTM_ALM_PENDG
   ⟨0x100098, 2, 0x4, 1, false, [fg 31 0 .w1c 0x0 false]⟩,
   -- MTM_ALM_OPEN_V
   ⟨0x101000, 64, 0x10, 2, true, [fv 47 0 .rw 0x0 false]⟩,
   -- MTM_ALM_WIDTH_V
   ⟨0x101008, 64, 0x10, 1, false, [fv 31 0 .rw 0x1 false]⟩,
   -- MTM_ALM_CTL_V
   ⟨0x10100C, 64, 0x10, 1, false, [fv 31 16 .rw 0x0 false, fv 15 8 .rw 0x0 false, fv 7 4 .rw 0x0 false, fn 3 3 .ro 0x0 false, fv 2 2 .rw 0x1 false, fv 0 0 .rw 0x0 false]⟩,
   -- MTM_ALM_OPEN_O
   ⟨0x101400, 128, 0x10, 2, true, [fo 47 0 .rw 0x0 false]⟩,
   -- MTM_ALM_WIDTH_O
   ⟨0x101408, 128, 0x10, 1, false, [fo 31 0 .rw 0x1 false]⟩,
   -- MTM_ALM_CTL_O
   ⟨0x10140C, 128, 0x10, 1, false, [fo 31 16 .rw 0x0 false, fo 15 8 .rw 0x0 false, fo 7 4 .rw 0x0 false, fn 3 3 .ro 0x0 false, fo 2 2 .rw 0x1 false, fo 0 0 .rw 0x0 false]⟩] ++
  [
   -- MTM_ALM_OPEN_G
   ⟨0x101C00, 64, 0x10, 2, true, [fg 47 0 .rw 0x0 false]⟩,
   -- MTM_ALM_WIDTH_G
   ⟨0x101C08, 64, 0x10, 1, false, [fg 31 0 .rw 0x1 false]⟩,
   -- MTM_ALM_CTL_G
   ⟨0x101C0C, 64, 0x10, 1, false, [fg 31 16 .rw 0x0 false, fg 15 8 .rw 0x0 false, fg 7 4 .rw 0x0 false, fn 3 3 .ro 0x0 false, fg 2 2 .rw 0x1 false, fg 0 0 .rw 0x0 false]⟩]

/-- The registers of unit PWR. -/
def regsPWR : List RegDesc :=
  [
   -- PWR_STATE
   ⟨0x200000, 1, 0x4, 1, false, [fn 23 16 .ro 0x0 false, fn 15 8 .ro 0x1 false, fn 4 3 .ro 0x0 false, fn 1 0 .ro 0x0 false]⟩,
   -- PWR_STATE_CMD
   ⟨0x200004, 1, 0x4, 1, false, [fo 9 8 .cmd 0x0 false, fn 7 4 .cmd 0x0 false, fn 3 0 .cmd 0x0 false]⟩,
   -- PWR_IDLE_d
   ⟨0x200014, 7, 0x4, 1, false, [fo 23 0 .rw 0x0 true]⟩,
   -- PWR_REDUCED
   ⟨0x200030, 1, 0x4, 1, false, [fo 11 8 .rw 0x0 true, fo 7 0 .rw 0x0 true]⟩,
   -- PWR_WAKE_CFG
   ⟨0x200034, 1, 0x4, 1, false, [fo 19 19 .rw 0x0 true, fo 18 18 .rw 0x0 true, fo 17 12 .rw 0x0 true, fo 10 10 .rw 0x0 true, fo 9 8 .rw 0x0 true, fo 7 0 .rw 0x0 true]⟩,
   -- PWR_WAIT
   ⟨0x200040, 1, 0x4, 1, false, [fn 31 0 .ro 0x0 false]⟩,
   -- PWR_AON_CTL
   ⟨0x200050, 1, 0x4, 1, false, [fn 10 8 .ro 0x0 false, fn 2 2 .ro 0x0 false, fn 1 1 .ro 0x0 false, fo 0 0 .rw 0x0 true]⟩,
   -- PWR_VIN
   ⟨0x200060, 1, 0x4, 1, false, [fn 18 18 .ro 0x0 false, fn 17 17 .ro 0x0 false, fn 16 16 .ro 0x0 false, fn 15 0 .ro 0x0 false]⟩,
   -- PWR_PMBUS_CFG
   ⟨0x200100, 1, 0x4, 1, false, [fo 31 31 .rwl 0x0 true, fo 30 30 .rwl 0x0 true, fo 6 0 .rwl 0x0 true]⟩,
   -- PWR_PERMIT_CFG
   ⟨0x200104, 1, 0x4, 1, false, [fo 6 4 .rw 0x0 true, fo 2 0 .rw 0x0 true]⟩,
   -- PWR_PERMIT_STAT_r
   ⟨0x200110, 2, 0x4, 1, false, [fn 31 16 .ro 0x0 false, fn 9 8 .ro 0x0 false, fn 6 4 .ro 0x0 false, fn 2 0 .ro 0x4 false]⟩,
   -- PWR_CMD
   ⟨0x200120, 1, 0x4, 1, false, [fo 23 16 .cmd 0x0 false, fo 11 8 .cmd 0x0 false, fn 7 4 .cmd 0x0 false, fn 3 0 .cmd 0x0 false]⟩,
   -- PWR_SUPPLY_STATUS
   ⟨0x200130, 1, 0x4, 1, false, [fn 15 0 .ro 0x0 false]⟩,
   -- PWR_SUPPLY_VIN
   ⟨0x200134, 1, 0x4, 1, false, [fn 15 0 .ro 0x0 false]⟩,
   -- PWR_SUPPLY_IIN
   ⟨0x200138, 1, 0x4, 1, false, [fn 15 0 .ro 0x0 false]⟩,
   -- PWR_SUPPLY_POUT
   ⟨0x20013C, 1, 0x4, 1, false, [fn 15 0 .ro 0x0 false]⟩,
   -- PWR_CNT_PERMIT_REQ
   ⟨0x200300, 1, 0x4, 2, true, [fn 47 0 .rc 0x0 false]⟩,
   -- PWR_CNT_PERMIT_GRANT
   ⟨0x200308, 1, 0x4, 2, true, [fn 47 0 .rc 0x0 false]⟩,
   -- PWR_CNT_PERMIT_DENIED
   ⟨0x200310, 1, 0x4, 2, true, [fn 47 0 .rc 0x0 false]⟩,
   -- PWR_CNT_WAKE
   ⟨0x200318, 1, 0x4, 2, true, [fn 47 0 .rc 0x0 false]⟩,
   -- PWR_CNT_BROWNOUT
   ⟨0x200320, 1, 0x4, 2, true, [fn 47 0 .rc 0x0 false]⟩]

/-- The registers of unit ASY. -/
def regsASY : List RegDesc :=
  [
   -- ASY_STATUS
   ⟨0x300000, 1, 0x4, 1, false, [fn 31 31 .ro 0x0 false, fn 30 30 .ro 0x0 false, fn 29 29 .ro 0x0 false, fn 28 28 .ro 0x0 false, fn 27 27 .ro 0x0 false, fn 23 16 .ro 0x0 false, fn 12 0 .ro 0x0 false]⟩,
   -- ASY_CFG
   ⟨0x300004, 1, 0x4, 1, false, [fo 31 31 .rwl 0x0 true, fo 23 16 .rwl 0x0 true, fo 15 0 .rwl 0x0 true]⟩,
   -- ASY_CMD
   ⟨0x300008, 1, 0x4, 1, false, [fo 19 16 .cmd 0x0 false, fo 13 12 .cmd 0x0 false, fo 11 8 .cmd 0x0 false, fn 7 4 .cmd 0x0 false, fn 3 0 .cmd 0x0 false]⟩,
   -- ASY_CAUSE
   ⟨0x300010, 1, 0x4, 1, false, [fn 9 0 .ro 0x0 false]⟩,
   -- ASY_CAUSE_SEEN
   ⟨0x300014, 1, 0x4, 1, false, [fo 9 0 .w1c 0x0 false]⟩,
   -- ASY_LFT_STAT
   ⟨0x300020, 1, 0x4, 1, false, [fn 31 31 .ro 0x0 false, fn 30 30 .ro 0x0 false, fn 10 0 .ro 0x0 false]⟩,
   -- ASY_LFT_LT
   ⟨0x300028, 1, 0x4, 2, true, [fn 63 0 .ro 0x0 false]⟩,
   -- ASY_FUNC_f
   ⟨0x300100, 13, 0x4, 1, false, [fn 31 28 .ro 0x0 false, fn 26 24 .ro 0x0 false, fn 19 16 .ro 0x0 false, fn 15 8 .ro 0x0 false]⟩,
   -- ASY_CNT_SAFE_ENTRY
   ⟨0x300300, 1, 0x4, 2, true, [fn 47 0 .rc 0x0 false]⟩,
   -- ASY_CNT_RUNG1
   ⟨0x300308, 1, 0x4, 2, true, [fn 47 0 .rc 0x0 false]⟩,
   -- ASY_CNT_RUNG2
   ⟨0x300310, 1, 0x4, 2, true, [fn 47 0 .rc 0x0 false]⟩,
   -- ASY_CNT_RUNG3
   ⟨0x300318, 1, 0x4, 2, true, [fn 47 0 .rc 0x0 false]⟩,
   -- ASY_CNT_RUNG4
   ⟨0x300320, 1, 0x4, 2, true, [fn 47 0 .rc 0x0 false]⟩,
   -- ASY_CNT_HB_MISS
   ⟨0x300328, 1, 0x4, 2, true, [fn 47 0 .rc 0x0 false]⟩,
   -- ASY_CNT_LFT_RUN
   ⟨0x300330, 1, 0x4, 2, true, [fn 47 0 .rc 0x0 false]⟩,
   -- ASY_CNT_LFT_FAIL
   ⟨0x300338, 1, 0x4, 2, true, [fn 47 0 .rc 0x0 false]⟩,
   -- ASY_WGC_CORR
   ⟨0x300400, 1, 0x4, 2, true, [fn 47 0 .rc 0x0 false]⟩,
   -- ASY_WGC_UNCORR
   ⟨0x300408, 1, 0x4, 2, true, [fn 47 0 .rc 0x0 false]⟩,
   -- ASY_WGC_LAST
   ⟨0x300410, 1, 0x4, 1, false, [fn 31 31 .ro 0x0 false, fn 30 30 .ro 0x0 false, fn 29 24 .ro 0x0 false, fn 23 20 .ro 0x0 false]⟩,
   -- ASY_WGC_LAST_ADDR
   ⟨0x300414, 1, 0x4, 1, false, [fn 31 0 .ro 0x0 false]⟩,
   -- ASY_WGC_THR
   ⟨0x300418, 1, 0x4, 1, false, [fo 31 0 .rw 0x0 true]⟩,
   -- ASY_WGC_STAT
   ⟨0x30041C, 1, 0x4, 1, false, [fo 1 1 .w1c 0x0 false, fo 0 0 .w1c 0x0 false]⟩]

/-- The registers of unit CFG. -/
def regsCFG : List RegDesc :=
  [
   -- CFG_STATUS
   ⟨0x400000, 1, 0x4, 1, false, [fn 23 16 .ro 0x0 false, fo 9 9 .w1c 0x0 false, fn 8 8 .ro 0x0 false, fn 7 7 .ro 0x0 false, fn 6 6 .ro 0x0 false, fn 5 5 .ro 0x0 false, fn 3 0 .ro 0x0 false]⟩,
   -- CFG_BANK
   ⟨0x400004, 1, 0x4, 1, false, [fn 23 16 .ro 0x0 false, fn 15 8 .ro 0x0 false, fn 3 2 .ro 0x0 false, fn 1 1 .ro 0x0 false, fn 0 0 .ro 0x0 false]⟩,
   -- CFG_CMD
   ⟨0x400008, 1, 0x4, 1, false, [fo 11 8 .cmd 0x0 false, fn 7 4 .cmd 0x0 false, fn 3 0 .cmd 0x0 false]⟩,
   -- CFG_SEQ_A
   ⟨0x400010, 1, 0x4, 1, false, [fn 31 0 .ro 0x0 false]⟩,
   -- CFG_SEQ_B
   ⟨0x400014, 1, 0x4, 1, false, [fn 31 0 .ro 0x0 false]⟩,
   -- CFG_CONF_SEQ
   ⟨0x400018, 1, 0x4, 1, false, [fn 31 0 .ro 0x0 false]⟩,
   -- CFG_NVM_PTR
   ⟨0x400020, 1, 0x4, 1, false, [fo 25 25 .rw 0x0 false, fo 24 0 .rw 0x0 false]⟩,
   -- CFG_NVM_DATA
   ⟨0x400024, 1, 0x4, 1, false, [fo 31 0 .wo 0x0 false]⟩]

/-- The registers of unit PKB. -/
def regsPKB : List RegDesc :=
  [
   -- PKB_STATUS
   ⟨0x1000000, 1, 0x4, 1, false, [fn 30 20 .ro 0x0 false, fn 17 0 .ro 0x30000 false]⟩,
   -- PKB_QCMD
   ⟨0x1000008, 1, 0x4, 1, false, [fo 22 16 .cmd 0x0 false, fo 11 8 .cmd 0x0 false, fn 7 4 .cmd 0x0 false, fn 3 0 .cmd 0x0 false]⟩,
   -- PKB_CNT_TRUNC
   ⟨0x1000100, 1, 0x4, 2, true, [fn 47 0 .rc 0x0 false]⟩,
   -- PKB_CNT_NOCELL
   ⟨0x1000108, 1, 0x4, 2, true, [fn 47 0 .rc 0x0 false]⟩,
   -- PKB_CNT_ABORT
   ⟨0x1000110, 1, 0x4, 2, true, [fn 47 0 .rc 0x0 false]⟩,
   -- PKB_CNT_EMPTY
   ⟨0x1000118, 1, 0x4, 2, true, [fn 47 0 .rc 0x0 false]⟩,
   -- PKB_CNT_POISON_DROP
   ⟨0x1000120, 1, 0x4, 2, true, [fn 47 0 .rc 0x0 false]⟩,
   -- PKB_CNT_HDR_POISON
   ⟨0x1000128, 1, 0x4, 2, true, [fn 47 0 .rc 0x0 false]⟩,
   -- PKB_WGC_CORR
   ⟨0x1000200, 1, 0x4, 2, true, [fn 47 0 .rc 0x0 false]⟩,
   -- PKB_WGC_UNCORR
   ⟨0x1000208, 1, 0x4, 2, true, [fn 47 0 .rc 0x0 false]⟩,
   -- PKB_WGC_LAST
   ⟨0x1000210, 1, 0x4, 1, false, [fn 31 31 .ro 0x0 false, fn 30 30 .ro 0x0 false, fn 29 24 .ro 0x0 false, fn 23 20 .ro 0x0 false]⟩,
   -- PKB_WGC_LAST_ADDR
   ⟨0x1000214, 1, 0x4, 1, false, [fn 31 0 .ro 0x0 false]⟩,
   -- PKB_WGC_THR
   ⟨0x1000218, 1, 0x4, 1, false, [fo 31 0 .rw 0x0 true]⟩,
   -- PKB_WGC_STAT
   ⟨0x100021C, 1, 0x4, 1, false, [fo 1 1 .w1c 0x0 false, fo 0 0 .w1c 0x0 false]⟩,
   -- PKB_Q_CFG_n
   ⟨0x1001000, 128, 0x20, 1, false, [fo 31 31 .rw 0x0 true, fo 30 30 .rw 0x0 true, fo 29 28 .rw 0x0 true, fo 20 16 .rw 0x0 true, fo 12 8 .rw 0x0 true]⟩,
   -- PKB_Q_LIMIT_n
   ⟨0x1001004, 128, 0x20, 1, false, [fo 31 16 .rw 0x0 true, fo 15 0 .rw 0x0 true]⟩,
   -- PKB_Q_STAT_n
   ⟨0x1001008, 128, 0x20, 1, false, [fn 31 18 .ro 0x0 false, fn 17 0 .ro 0x0 false]⟩,
   -- PKB_Q_CORR_n
   ⟨0x1001010, 128, 0x20, 2, true, [fn 47 0 .rc 0x0 false]⟩,
   -- PKB_Q_UNC_n
   ⟨0x1001018, 128, 0x20, 2, true, [fn 47 0 .rc 0x0 false]⟩]

/-- The registers of unit PAR. -/
def regsPAR : List RegDesc :=
  [
   -- PAR_COMMIT
   ⟨0x1100000, 1, 0x4, 1, false, [fo 8 8 .cmd 0x0 false, fn 7 4 .cmd 0x0 false, fn 3 0 .cmd 0x0 false]⟩,
   -- PAR_EDITION
   ⟨0x1100004, 1, 0x4, 1, false, [fn 31 16 .ro 0x0 true, fn 15 0 .ro 0x0 true]⟩,
   -- PAR_ED_REF_k
   ⟨0x1100010, 4, 0x4, 1, false, [fn 31 31 .ro 0x0 false, fn 19 0 .ro 0x0 false]⟩,
   -- PAR_FRAG_STAT
   ⟨0x1100020, 1, 0x4, 1, false, [fn 24 16 .ro 0x0 false, fn 12 0 .ro 0x0 false]⟩,
   -- PAR_RULE_CMD
   ⟨0x1100030, 1, 0x4, 1, false, [fo 31 30 .cmd 0x0 false, fo 29 29 .cmd 0x0 false, fo 28 9 .cmd 0x0 false, fn 7 4 .cmd 0x0 false, fn 3 0 .cmd 0x0 false]⟩,
   -- PAR_RULE_RES
   ⟨0x1100034, 1, 0x4, 1, false, [fn 19 0 .ro 0x0 false]⟩,
   -- PAR_RULE_BUF_VALUE
   ⟨0x1100100, 16, 0x4, 1, false, [fo 31 0 .rw 0x0 false]⟩,
   -- PAR_RULE_BUF_MASK
   ⟨0x1100140, 16, 0x4, 1, false, [fo 31 0 .rw 0x0 false]⟩,
   -- PAR_RULE_BUF_ACTION
   ⟨0x1100180, 2, 0x4, 1, false, [fo 31 0 .rw 0x0 false]⟩,
   -- PAR_RULE_BUF_RANGE
   ⟨0x1100188, 1, 0x4, 1, false, [fo 31 16 .rw 0x0 false, fo 15 0 .rw 0x0 false]⟩,
   -- PAR_RULE_BUF_FLAGS
   ⟨0x110018C, 1, 0x4, 1, false, [fo 0 0 .rw 0x0 false, fo 1 1 .rw 0x0 false, fn 2 2 .ro 0x0 false]⟩,
   -- PAR_MAL_CFG_c
   ⟨0x1100200, 7, 0x4, 1, false, [fo 31 16 .rw 0x0 true, fo 14 8 .rw 0x0 true, fo 1 0 .rw 0x0 true]⟩,
   -- PAR_MAL_TRUNCATED
   ⟨0x1100300, 1, 0x4, 2, true, [fn 47 0 .rc 0x0 false]⟩,
   -- PAR_MAL_DEPTH
   ⟨0x1100308, 1, 0x4, 2, true, [fn 47 0 .rc 0x0 false]⟩,
   -- PAR_MAL_LENGTH
   ⟨0x1100310, 1, 0x4, 2, true, [fn 47 0 .rc 0x0 false]⟩,
   -- PAR_MAL_FRAG_ORPHAN
   ⟨0x1100318, 1, 0x4, 2, true, [fn 47 0 .rc 0x0 false]⟩,
   -- PAR_MAL_FRAG_OVERLAP
   ⟨0x1100320, 1, 0x4, 2, true, [fn 47 0 .rc 0x0 false]⟩,
   -- PAR_MAL_BAD_OPTION
   ⟨0x1100328, 1, 0x4, 2, true, [fn 47 0 .rc 0x0 false]⟩,
   -- PAR_MAL_PARSE_TIMEOUT
   ⟨0x1100330, 1, 0x4, 2, true, [fn 47 0 .rc 0x0 false]⟩,
   -- PAR_CNT_BAD
   ⟨0x1100380, 1, 0x4, 2, true, [fn 47 0 .rc 0x0 false]⟩,
   -- PAR_CNT_EXC_FULL
   ⟨0x1100388, 1, 0x4, 2, true, [fn 47 0 .rc 0x0 false]⟩,
   -- PAR_CNT_FRAG_TABLE_FULL
   ⟨0x1100390, 1, 0x4, 2, true, [fn 47 0 .rc 0x0 false]⟩,
   -- PAR_CNT_FRAG_RANGE_FULL
   ⟨0x1100398, 1, 0x4, 2, true, [fn 47 0 .rc 0x0 false]⟩,
   -- PAR_WGC_CORR
   ⟨0x1100400, 1, 0x4, 2, true, [fn 47 0 .rc 0x0 false]⟩,
   -- PAR_WGC_UNCORR
   ⟨0x1100408, 1, 0x4, 2, true, [fn 47 0 .rc 0x0 false]⟩,
   -- PAR_WGC_LAST
   ⟨0x1100410, 1, 0x4, 1, false, [fn 31 31 .ro 0x0 false, fn 30 30 .ro 0x0 false, fn 29 24 .ro 0x0 false, fn 23 20 .ro 0x0 false]⟩,
   -- PAR_WGC_LAST_ADDR
   ⟨0x1100414, 1, 0x4, 1, false, [fn 31 0 .ro 0x0 false]⟩,
   -- PAR_WGC_THR
   ⟨0x1100418, 1, 0x4, 1, false, [fo 31 0 .rw 0x0 true]⟩,
   -- PAR_WGC_STAT
   ⟨0x110041C, 1, 0x4, 1, false, [fo 1 1 .w1c 0x0 false, fo 0 0 .w1c 0x0 false]⟩,
   -- PAR_PROG_n
   ⟨0x1102000, 128, 0x4, 1, false, [fo 31 31 .rw 0x0 true, fo 30 23 .rw 0x0 true, fo 14 0 .rw 0x0 true]⟩]

/-- The registers of unit FLW. -/
def regsFLW : List RegDesc :=
  [
   -- FLW_STATUS
   ⟨0x1200000, 1, 0x4, 1, false, [fn 31 31 .ro 0x0 false, fn 23 0 .ro 0x0 false]⟩,
   -- FLW_SRAM_COUNT
   ⟨0x1200004, 1, 0x4, 1, false, [fn 18 0 .ro 0x0 false]⟩,
   -- FLW_CTL
   ⟨0x1200008, 1, 0x4, 1, false, [fo 22 16 .rw 0x0 true, fo 14 8 .rw 0x0 true, fo 6 0 .rw 0x0 true]⟩,
   -- FLW_HASH_SEED
   ⟨0x120000C, 1, 0x4, 1, false, [fo 31 0 .rwl 0x0 true]⟩,
   -- FLW_REMOTE_TMO
   ⟨0x1200010, 1, 0x4, 1, false, [fo 15 0 .rw 0x0 true]⟩,
   -- FLW_FLOW_CMD
   ⟨0x1200020, 1, 0x4, 1, false, [fo 11 8 .cmd 0x0 false, fn 7 4 .cmd 0x0 false, fn 3 0 .cmd 0x0 false]⟩,
   -- FLW_FLOW_BUF
   ⟨0x1200100, 16, 0x4, 1, false, [fo 31 0 .rw 0x0 false]⟩,
   -- FLW_ROUTE_CMD
   ⟨0x1200200, 1, 0x4, 1, false, [fo 21 16 .cmd 0x0 false, fo 11 8 .cmd 0x0 false, fn 7 4 .cmd 0x0 false, fn 3 0 .cmd 0x0 false]⟩,
   -- FLW_ROUTE_BUF_PREFIX
   ⟨0x1200210, 4, 0x4, 1, false, [fo 31 0 .rw 0x0 false]⟩,
   -- FLW_ROUTE_BUF_DESC
   ⟨0x1200220, 1, 0x4, 1, false, [fo 7 0 .rw 0x0 false, fo 13 8 .rw 0x0 false, fo 16 16 .rw 0x0 false, fo 17 17 .rw 0x0 false]⟩,
   -- FLW_ROUTE_BUF_NH
   ⟨0x1200224, 1, 0x4, 1, false, [fo 15 0 .rw 0x0 false]⟩,
   -- FLW_CNT_NO_KEY
   ⟨0x1200300, 1, 0x4, 2, true, [fn 47 0 .rc 0x0 false]⟩,
   -- FLW_CNT_TABLE_FULL
   ⟨0x1200308, 1, 0x4, 2, true, [fn 47 0 .rc 0x0 false]⟩,
   -- FLW_CNT_NO_ROUTE
   ⟨0x1200310, 1, 0x4, 2, true, [fn 47 0 .rc 0x0 false]⟩,
   -- FLW_CNT_TTL
   ⟨0x1200318, 1, 0x4, 2, true, [fn 47 0 .rc 0x0 false]⟩,
   -- FLW_CNT_MTU
   ⟨0x1200320, 1, 0x4, 2, true, [fn 47 0 .rc 0x0 false]⟩,
   -- FLW_CNT_NAT_EXHAUST
   ⟨0x1200328, 1, 0x4, 2, true, [fn 47 0 .rc 0x0 false]⟩,
   -- FLW_CNT_NAT_EXC
   ⟨0x1200330, 1, 0x4, 2, true, [fn 47 0 .rc 0x0 false]⟩,
   -- FLW_CNT_FRAG_NOFLOW
   ⟨0x1200338, 1, 0x4, 2, true, [fn 47 0 .rc 0x0 false]⟩,
   -- FLW_CNT_REMOTE_TMO
   ⟨0x1200340, 1, 0x4, 2, true, [fn 47 0 .rc 0x0 false]⟩,
   -- FLW_CNT_LIMP_DROP
   ⟨0x1200348, 1, 0x4, 2, true, [fn 47 0 .rc 0x0 false]⟩,
   -- FLW_CNT_EXPORT_LOST
   ⟨0x1200350, 1, 0x4, 2, true, [fn 47 0 .rc 0x0 false]⟩,
   -- FLW_WGC_CORR
   ⟨0x1200400, 1, 0x4, 2, true, [fn 47 0 .rc 0x0 false]⟩,
   -- FLW_WGC_UNCORR
   ⟨0x1200408, 1, 0x4, 2, true, [fn 47 0 .rc 0x0 false]⟩,
   -- FLW_WGC_LAST
   ⟨0x1200410, 1, 0x4, 1, false, [fn 31 31 .ro 0x0 false, fn 30 30 .ro 0x0 false, fn 29 24 .ro 0x0 false, fn 23 20 .ro 0x0 false]⟩,
   -- FLW_WGC_LAST_ADDR
   ⟨0x1200414, 1, 0x4, 1, false, [fn 31 0 .ro 0x0 false]⟩,
   -- FLW_WGC_THR
   ⟨0x1200418, 1, 0x4, 1, false, [fo 31 0 .rw 0x0 true]⟩,
   -- FLW_WGC_STAT
   ⟨0x120041C, 1, 0x4, 1, false, [fo 1 1 .w1c 0x0 false, fo 0 0 .w1c 0x0 false]⟩,
   -- FLW_CLASS_c
   ⟨0x1201000, 256, 0x8, 2, false, [fo 30 16 .rw 0x0 true, fo 14 0 .rw 0x0 true, fo 33 33 .rw 0x0 true, fo 32 32 .rw 0x0 true]⟩,
   -- FLW_VRF_CTL_v
   ⟨0x1202000, 64, 0x10, 1, false, [fn 7 0 .ro 0x0 false, fo 8 8 .rw 0x0 true]⟩] ++
  [
   -- FLW_VRF_POOL_BASE_v
   ⟨0x1202004, 64, 0x10, 1, false, [fo 31 0 .rw 0x0 true]⟩,
   -- FLW_VRF_POOL_v
   ⟨0x1202008, 64, 0x10, 1, false, [fo 3 0 .rw 0x0 true, fo 31 16 .rw 0x0 true]⟩,
   -- FLW_PFX64
   ⟨0x1203000, 3, 0x4, 1, false, [fo 31 0 .rw 0x0 true]⟩,
   -- FLW_NH_n
   ⟨0x1240000, 65535, 0x8, 2, false, [fo 31 16 .rw 0x0 true, fo 14 0 .rw 0x0 true, fo 63 63 .rw 0x0 true, fo 51 32 .rw 0x0 true]⟩]

/-- The registers of unit SCH. -/
def regsSCH : List RegDesc :=
  [
   -- SCH_WHEEL_STAT
   ⟨0x1300000, 1, 0x4, 1, false, [fn 17 0 .ro 0x0 false]⟩,
   -- SCH_OVF_STAT
   ⟨0x1300004, 1, 0x4, 1, false, [fn 17 0 .ro 0x0 false]⟩,
   -- SCH_NODE_CMD
   ⟨0x1300010, 1, 0x4, 1, false, [fo 31 30 .cmd 0x0 false, fo 29 28 .cmd 0x0 false, fo 23 8 .cmd 0x0 false, fn 7 4 .cmd 0x0 false, fn 3 0 .cmd 0x0 false]⟩,
   -- SCH_NODE_BUF_CFG
   ⟨0x1300020, 3, 0x4, 1, false, [fo 31 0 .rw 0x0 false]⟩,
   -- SCH_NODE_BUF_STAT
   ⟨0x130002C, 5, 0x4, 1, false, [fn 31 0 .ro 0x0 false]⟩,
   -- SCH_ROOT_r
   ⟨0x1300100, 14, 0x8, 2, false, [fo 31 31 .rw 0x0 true, fo 30 30 .rw 0x0 true, fo 15 0 .rw 0x0 true, fn 48 48 .ro 0x0 false, fn 47 40 .ro 0x0 false, fo 39 32 .rw 0x0 true]⟩,
   -- SCH_ROOT_RSV
   ⟨0x1300170, 2, 0x8, 2, false, []⟩,
   -- SCH_CNT_TAIL_DROP
   ⟨0x1300300, 1, 0x4, 2, true, [fn 47 0 .rc 0x0 false]⟩,
   -- SCH_CNT_NOQUEUE
   ⟨0x1300308, 1, 0x4, 2, true, [fn 47 0 .rc 0x0 false]⟩,
   -- SCH_CNT_CLASS_LOWERED
   ⟨0x1300310, 1, 0x4, 2, true, [fn 47 0 .rc 0x0 false]⟩,
   -- SCH_CNT_WIFI_UNUSED
   ⟨0x1300318, 1, 0x4, 2, true, [fn 47 0 .rc 0x0 false]⟩,
   -- SCH_CNT_CELL_EMPTY
   ⟨0x1300320, 1, 0x4, 2, true, [fn 47 0 .rc 0x0 false]⟩,
   -- SCH_CNT_CELL_BUDGET
   ⟨0x1300328, 1, 0x4, 2, true, [fn 47 0 .rc 0x0 false]⟩,
   -- SCH_CNT_CELL_RETURN
   ⟨0x1300330, 1, 0x4, 2, true, [fn 47 0 .rc 0x0 false]⟩,
   -- SCH_CNT_FAR
   ⟨0x1300338, 1, 0x4, 2, true, [fn 47 0 .rc 0x0 false]⟩,
   -- SCH_WGC_CORR
   ⟨0x1300400, 1, 0x4, 2, true, [fn 47 0 .rc 0x0 false]⟩,
   -- SCH_WGC_UNCORR
   ⟨0x1300408, 1, 0x4, 2, true, [fn 47 0 .rc 0x0 false]⟩,
   -- SCH_WGC_LAST
   ⟨0x1300410, 1, 0x4, 1, false, [fn 31 31 .ro 0x0 false, fn 30 30 .ro 0x0 false, fn 29 24 .ro 0x0 false, fn 23 20 .ro 0x0 false]⟩,
   -- SCH_WGC_LAST_ADDR
   ⟨0x1300414, 1, 0x4, 1, false, [fn 31 0 .ro 0x0 false]⟩,
   -- SCH_WGC_THR
   ⟨0x1300418, 1, 0x4, 1, false, [fo 31 0 .rw 0x0 true]⟩,
   -- SCH_WGC_STAT
   ⟨0x130041C, 1, 0x4, 1, false, [fo 1 1 .w1c 0x0 false, fo 0 0 .w1c 0x0 false]⟩]

/-- The registers of unit PLE. -/
def regsPLE : List RegDesc :=
  [
   -- PLE_CTL
   ⟨0x1400000, 1, 0x4, 1, false, [fo 8 8 .rw 0x0 true, fo 4 4 .rw 0x0 true, fo 3 0 .rw 0x0 true]⟩,
   -- PLE_STATUS
   ⟨0x1400004, 1, 0x4, 1, false, [fn 22 16 .ro 0x0 false, fn 12 0 .ro 0x0 false]⟩,
   -- PLE_STATE
   ⟨0x1400008, 1, 0x4, 1, false, [fn 28 28 .ro 0x0 false, fn 27 27 .ro 0x0 false, fn 25 16 .ro 0x0 false, fn 9 0 .ro 0x0 false]⟩,
   -- PLE_WEIGHT_t
   ⟨0x1400100, 4, 0x8, 2, false, [fo 31 0 .rw 0x0 true, fo 63 32 .rw 0x0 true]⟩,
   -- PLE_HYST_t
   ⟨0x1400140, 4, 0x8, 2, false, [fo 31 24 .rw 0x0 true, fo 23 0 .rw 0x0 true, fo 55 32 .rw 0x0 true]⟩,
   -- PLE_T1
   ⟨0x1400200, 1, 0x4, 1, false, [fo 31 16 .rw 0x0 true, fo 15 6 .rw 0x0 true]⟩,
   -- PLE_T1_SPREAD
   ⟨0x1400204, 1, 0x4, 1, false, [fo 23 0 .rw 0x0 true]⟩,
   -- PLE_T2
   ⟨0x1400210, 1, 0x4, 1, false, [fo 25 16 .rw 0x0 true, fo 9 0 .rw 0x0 true]⟩,
   -- PLE_T2_THR
   ⟨0x1400214, 1, 0x4, 1, false, [fo 23 0 .rw 0x0 true]⟩,
   -- PLE_T2_ACT
   ⟨0x1400218, 1, 0x4, 1, false, [fo 25 16 .rw 0x0 true, fo 15 0 .rw 0x0 true]⟩,
   -- PLE_T2_BUDGET
   ⟨0x140021C, 1, 0x4, 1, false, [fo 24 16 .rw 0x0 true, fo 12 0 .rw 0x0 true]⟩,
   -- PLE_T3
   ⟨0x1400220, 1, 0x4, 2, false, [fo 31 16 .rw 0x0 true, fo 15 0 .rw 0x0 true, fo 38 32 .rw 0x0 true]⟩,
   -- PLE_PIN_CMD
   ⟨0x1400300, 1, 0x4, 1, false, [fo 9 8 .cmd 0x0 false, fn 7 4 .cmd 0x0 false, fn 3 0 .cmd 0x0 false]⟩,
   -- PLE_PIN_BUF_KEY
   ⟨0x1400310, 10, 0x4, 1, false, [fo 31 0 .rw 0x0 false]⟩,
   -- PLE_PIN_BUF_DESC
   ⟨0x1400338, 1, 0x4, 1, false, [fo 0 0 .rw 0x0 false, fo 2 1 .rw 0x0 false, fo 8 4 .rw 0x0 false, fo 21 16 .rw 0x0 false, fn 25 24 .ro 0x0 false]⟩,
   -- PLE_CNT_MOVE_DONE
   ⟨0x1400400, 1, 0x4, 2, true, [fn 47 0 .rc 0x0 false]⟩,
   -- PLE_CNT_MOVE_CANCEL
   ⟨0x1400408, 1, 0x4, 2, true, [fn 47 0 .rc 0x0 false]⟩,
   -- PLE_CNT_FENCE_TIMEOUT
   ⟨0x1400410, 1, 0x4, 2, true, [fn 47 0 .rc 0x0 false]⟩,
   -- PLE_CNT_FENCE_DROP
   ⟨0x1400418, 1, 0x4, 2, true, [fn 47 0 .rc 0x0 false]⟩,
   -- PLE_CNT_TIER_REFUSED
   ⟨0x1400420, 1, 0x4, 2, true, [fn 47 0 .rc 0x0 false]⟩,
   -- PLE_CNT_WINDOW_STALL
   ⟨0x1400428, 1, 0x4, 2, true, [fn 47 0 .rc 0x0 false]⟩,
   -- PLE_CNT_STEER_SENT
   ⟨0x1400430, 1, 0x4, 2, true, [fn 47 0 .rc 0x0 false]⟩,
   -- PLE_CNT_STEER_FAIL
   ⟨0x1400438, 1, 0x4, 2, true, [fn 47 0 .rc 0x0 false]⟩,
   -- PLE_WGC_CORR
   ⟨0x1400500, 1, 0x4, 2, true, [fn 47 0 .rc 0x0 false]⟩,
   -- PLE_WGC_UNCORR
   ⟨0x1400508, 1, 0x4, 2, true, [fn 47 0 .rc 0x0 false]⟩,
   -- PLE_WGC_LAST
   ⟨0x1400510, 1, 0x4, 1, false, [fn 31 31 .ro 0x0 false, fn 30 30 .ro 0x0 false, fn 29 24 .ro 0x0 false, fn 23 20 .ro 0x0 false]⟩,
   -- PLE_WGC_LAST_ADDR
   ⟨0x1400514, 1, 0x4, 1, false, [fn 31 0 .ro 0x0 false]⟩,
   -- PLE_WGC_THR
   ⟨0x1400518, 1, 0x4, 1, false, [fo 31 0 .rw 0x0 true]⟩,
   -- PLE_WGC_STAT
   ⟨0x140051C, 1, 0x4, 1, false, [fo 1 1 .w1c 0x0 false, fo 0 0 .w1c 0x0 false]⟩,
   -- PLE_DLOG_HEAD
   ⟨0x1400600, 1, 0x4, 1, false, [fn 31 31 .ro 0x0 false, fn 11 0 .ro 0x0 false]⟩] ++
  [
   -- PLE_DLOG
   ⟨0x1410000, 32768, 0x4, 1, false, [fn 31 0 .ro 0x0 false]⟩]

/-- The registers of unit CIP. -/
def regsCIP : List RegDesc :=
  [
   -- CIP_STATUS
   ⟨0x1500000, 1, 0x4, 1, false, [fn 9 9 .ro 0x0 false, fn 8 8 .ro 0x0 false, fn 2 0 .ro 0x0 false]⟩,
   -- CIP_ALARM
   ⟨0x1500004, 1, 0x4, 1, false, [fo 5 0 .w1c 0x0 false]⟩,
   -- CIP_CM
   ⟨0x1500008, 1, 0x4, 1, false, [fv 1 1 .rw 0x1 false, fv 0 0 .rw 0x1 false]⟩,
   -- CIP_ROOT_SEL
   ⟨0x1500010, 1, 0x4, 1, false, [fv 3 0 .rwl 0x0 true]⟩,
   -- CIP_ROOT_STAT
   ⟨0x1500014, 1, 0x4, 1, false, [fn 15 8 .ro 0x0 false, fn 7 0 .ro 0x0 false]⟩,
   -- CIP_ROOT_CMD
   ⟨0x1500018, 1, 0x4, 1, false, [fv 14 14 .cmd 0x0 false, fv 13 12 .cmd 0x0 false, fv 11 8 .cmd 0x0 false, fn 7 4 .cmd 0x0 false, fn 3 0 .cmd 0x0 false]⟩,
   -- CIP_ROOT_BUF
   ⟨0x1500020, 8, 0x4, 1, false, [fv 31 0 .wo 0x0 false]⟩,
   -- CIP_KEY_CMD
   ⟨0x1500040, 1, 0x4, 1, false, [fo 27 16 .cmd 0x0 false, fo 14 14 .cmd 0x0 false, fo 13 12 .cmd 0x0 false, fo 11 8 .cmd 0x0 false, fn 7 4 .cmd 0x0 false, fn 3 0 .cmd 0x0 false]⟩,
   -- CIP_KEY_BUF_KEY
   ⟨0x1500080, 8, 0x4, 1, false, [fo 31 0 .wo 0x0 false]⟩,
   -- CIP_KEY_BUF_LABEL
   ⟨0x15000A0, 16, 0x4, 1, false, [fo 31 0 .wo 0x0 false]⟩,
   -- CIP_KEY_BUF_DESC
   ⟨0x15000E0, 1, 0x4, 1, false, [fo 6 0 .wo 0x0 false, fo 9 8 .wo 0x0 false]⟩,
   -- CIP_RING_BASE_n
   ⟨0x1500100, 8, 0x10, 2, true, [fo 63 0 .rw 0x0 false]⟩,
   -- CIP_RING_CFG_n
   ⟨0x1500108, 8, 0x10, 1, false, [fo 31 31 .rw 0x0 false, fo 29 28 .rw 0x0 false, fo 8 8 .rw 0x0 false, fo 3 0 .rw 0x0 false]⟩,
   -- CIP_RING_IDX_n
   ⟨0x150010C, 8, 0x10, 1, false, [fo 7 0 .rw 0x0 false, fn 23 16 .ro 0x0 false]⟩,
   -- CIP_CNT_JOBS
   ⟨0x1500300, 1, 0x4, 2, true, [fn 47 0 .rc 0x0 false]⟩,
   -- CIP_CNT_AUTH
   ⟨0x1500308, 1, 0x4, 2, true, [fn 47 0 .rc 0x0 false]⟩,
   -- CIP_CNT_LEN
   ⟨0x1500310, 1, 0x4, 2, true, [fn 47 0 .rc 0x0 false]⟩,
   -- CIP_CNT_MISMATCH
   ⟨0x1500318, 1, 0x4, 2, true, [fn 47 0 .rc 0x0 false]⟩,
   -- CIP_CNT_ERASE
   ⟨0x1500320, 1, 0x4, 2, true, [fn 47 0 .rc 0x0 false]⟩,
   -- CIP_CNT_ABORTED
   ⟨0x1500328, 1, 0x4, 2, true, [fn 47 0 .rc 0x0 false]⟩,
   -- CIP_CNT_DERIVE
   ⟨0x1500330, 1, 0x4, 2, true, [fn 47 0 .rc 0x0 false]⟩,
   -- CIP_CNT_UNWRAP
   ⟨0x1500338, 1, 0x4, 2, true, [fn 47 0 .rc 0x0 false]⟩,
   -- CIP_WGC_CORR
   ⟨0x1500400, 1, 0x4, 2, true, [fn 47 0 .rc 0x0 false]⟩,
   -- CIP_WGC_UNCORR
   ⟨0x1500408, 1, 0x4, 2, true, [fn 47 0 .rc 0x0 false]⟩,
   -- CIP_WGC_LAST
   ⟨0x1500410, 1, 0x4, 1, false, [fn 31 31 .ro 0x0 false, fn 30 30 .ro 0x0 false, fn 29 24 .ro 0x0 false, fn 23 20 .ro 0x0 false]⟩,
   -- CIP_WGC_LAST_ADDR
   ⟨0x1500414, 1, 0x4, 1, false, [fn 31 0 .ro 0x0 false]⟩,
   -- CIP_WGC_THR
   ⟨0x1500418, 1, 0x4, 1, false, [fo 31 0 .rw 0x0 true]⟩,
   -- CIP_WGC_STAT
   ⟨0x150041C, 1, 0x4, 1, false, [fo 1 1 .w1c 0x0 false, fo 0 0 .w1c 0x0 false]⟩]

/-- The registers of unit RFA. -/
def regsRFA : List RegDesc :=
  [
   -- RFA_CTL
   ⟨0x2000000, 1, 0x4, 1, false, [fo 15 8 .rw 0x0 true]⟩,
   -- RFA_STATE
   ⟨0x2000004, 1, 0x4, 1, false, [fn 2 0 .ro 0x0 false]⟩,
   -- RFA_STATE_CMD
   ⟨0x2000008, 1, 0x4, 1, false, [fo 12 12 .cmd 0x0 false, fo 11 8 .cmd 0x0 false, fn 7 4 .cmd 0x0 false, fn 3 0 .cmd 0x0 false]⟩,
   -- RFA_CHAN_l
   ⟨0x2000010, 2, 0x8, 2, false, [fo 31 24 .rw 0x0 true, fo 15 12 .rw 0x0 true, fo 10 8 .rw 0x0 true, fo 7 0 .rw 0x0 true, fo 47 32 .rw 0x0 true]⟩,
   -- RFA_CLASS_STAT
   ⟨0x2000020, 1, 0x4, 1, false, [fn 7 4 .ro 0x0 false, fn 2 0 .ro 0x0 false]⟩,
   -- RFA_DPD_STAT_l
   ⟨0x2000028, 2, 0x4, 1, false, [fn 15 0 .ro 0x0 false]⟩,
   -- RFA_MISMATCH_k
   ⟨0x2000040, 8, 0x4, 1, false, [fn 19 8 .ro 0x10 false, fn 1 0 .ro 0x0 false]⟩,
   -- RFA_CAL_CMD
   ⟨0x2000080, 1, 0x4, 1, false, [fo 12 12 .cmd 0x0 false, fo 11 8 .cmd 0x0 false, fn 7 4 .cmd 0x0 false, fn 3 0 .cmd 0x0 false]⟩,
   -- RFA_HOLD_MAX
   ⟨0x2000084, 1, 0x4, 1, false, [fo 15 0 .rw 0x0 true]⟩,
   -- RFA_ANT
   ⟨0x2000090, 1, 0x4, 1, false, [fo 7 0 .rwl 0x0 true]⟩,
   -- RFA_GRANT_CMD
   ⟨0x2000100, 1, 0x4, 1, false, [fo 11 8 .cmd 0x0 false, fn 7 4 .cmd 0x0 false, fn 3 0 .cmd 0x0 false]⟩,
   -- RFA_GRANT_CFG
   ⟨0x2000104, 1, 0x4, 1, false, [fn 31 31 .ro 0x0 false, fo 16 16 .rw 0x0 true, fo 15 0 .rw 0x0 true]⟩,
   -- RFA_GRANT_EXP
   ⟨0x2000108, 1, 0x4, 2, true, [fo 63 0 .rw 0x0 false]⟩,
   -- RFA_GRANT_ENT_n
   ⟨0x2000200, 16, 0x8, 2, false, [fo 31 31 .rw 0x0 false, fo 15 8 .rw 0x0 false, fo 7 0 .rw 0x0 false, fo 47 40 .rw 0x0 false, fo 39 32 .rw 0x0 false]⟩,
   -- RFA_CNT_TX_LATE
   ⟨0x2000300, 1, 0x4, 2, true, [fn 47 0 .rc 0x0 false]⟩,
   -- RFA_CNT_HOLD_EXPIRED
   ⟨0x2000308, 1, 0x4, 2, true, [fn 47 0 .rc 0x0 false]⟩,
   -- RFA_CNT_CLAMPED
   ⟨0x2000310, 1, 0x4, 2, true, [fn 47 0 .rc 0x0 false]⟩,
   -- RFA_CNT_CAL_SEGMENTS
   ⟨0x2000318, 1, 0x4, 2, true, [fn 47 0 .rc 0x0 false]⟩,
   -- RFA_CNT_MISMATCH
   ⟨0x2000320, 1, 0x4, 2, true, [fn 47 0 .rc 0x0 false]⟩,
   -- RFA_WGC_CORR
   ⟨0x2000400, 1, 0x4, 2, true, [fn 47 0 .rc 0x0 false]⟩,
   -- RFA_WGC_UNCORR
   ⟨0x2000408, 1, 0x4, 2, true, [fn 47 0 .rc 0x0 false]⟩,
   -- RFA_WGC_LAST
   ⟨0x2000410, 1, 0x4, 1, false, [fn 31 31 .ro 0x0 false, fn 30 30 .ro 0x0 false, fn 29 24 .ro 0x0 false, fn 23 20 .ro 0x0 false]⟩,
   -- RFA_WGC_LAST_ADDR
   ⟨0x2000414, 1, 0x4, 1, false, [fn 31 0 .ro 0x0 false]⟩,
   -- RFA_WGC_THR
   ⟨0x2000418, 1, 0x4, 1, false, [fo 31 0 .rw 0x0 true]⟩,
   -- RFA_WGC_STAT
   ⟨0x200041C, 1, 0x4, 1, false, [fo 1 1 .w1c 0x0 false, fo 0 0 .w1c 0x0 false]⟩,
   -- RFA_BSS_n
   ⟨0x2001000, 16, 0x8, 2, false, [fo 31 31 .rw 0x0 true, fo 29 29 .rw 0x0 true, fo 15 0 .rw 0x0 true, fo 63 32 .rw 0x0 true]⟩]

/-- The registers of unit RFB. -/
def regsRFB : List RegDesc :=
  [
   -- RFB_CTL
   ⟨0x2100000, 1, 0x4, 1, false, [fo 11 8 .rw 0x0 true, fo 0 0 .rw 0x0 true]⟩,
   -- RFB_STATE
   ⟨0x2100004, 1, 0x4, 1, false, [fn 6 4 .ro 0x0 false, fn 2 0 .ro 0x0 false]⟩,
   -- RFB_STATE_CMD
   ⟨0x2100008, 1, 0x4, 1, false, [fo 12 12 .cmd 0x0 false, fo 11 8 .cmd 0x0 false, fn 7 4 .cmd 0x0 false, fn 3 0 .cmd 0x0 false]⟩,
   -- RFB_CHAN_l
   ⟨0x2100010, 2, 0x8, 2, false, [fo 31 24 .rw 0x0 true, fo 15 12 .rw 0x0 true, fo 10 8 .rw 0x0 true, fo 7 0 .rw 0x0 true, fo 47 32 .rw 0x0 true]⟩,
   -- RFB_CLASS_STAT
   ⟨0x2100020, 1, 0x4, 1, false, [fn 23 20 .ro 0x0 false, fn 18 16 .ro 0x0 false, fn 7 4 .ro 0x0 false, fn 2 0 .ro 0x0 false]⟩,
   -- RFB_DPD_STAT_l
   ⟨0x2100028, 2, 0x4, 1, false, [fn 15 0 .ro 0x0 false]⟩,
   -- RFB_MISMATCH_k
   ⟨0x2100040, 4, 0x4, 1, false, [fn 19 8 .ro 0x10 false, fn 1 0 .ro 0x0 false]⟩,
   -- RFB_CAL_CMD
   ⟨0x2100080, 1, 0x4, 1, false, [fo 12 12 .cmd 0x0 false, fo 11 8 .cmd 0x0 false, fn 7 4 .cmd 0x0 false, fn 3 0 .cmd 0x0 false]⟩,
   -- RFB_HOLD_MAX
   ⟨0x2100084, 1, 0x4, 1, false, [fo 15 0 .rw 0x0 true]⟩,
   -- RFB_CNT_TX_LATE
   ⟨0x2100300, 1, 0x4, 2, true, [fn 47 0 .rc 0x0 false]⟩,
   -- RFB_CNT_HOLD_EXPIRED
   ⟨0x2100308, 1, 0x4, 2, true, [fn 47 0 .rc 0x0 false]⟩,
   -- RFB_CNT_CLAMPED
   ⟨0x2100310, 1, 0x4, 2, true, [fn 47 0 .rc 0x0 false]⟩,
   -- RFB_CNT_CAL_SEGMENTS
   ⟨0x2100318, 1, 0x4, 2, true, [fn 47 0 .rc 0x0 false]⟩,
   -- RFB_CNT_MISMATCH
   ⟨0x2100320, 1, 0x4, 2, true, [fn 47 0 .rc 0x0 false]⟩,
   -- RFB_WGC_CORR
   ⟨0x2100400, 1, 0x4, 2, true, [fn 47 0 .rc 0x0 false]⟩,
   -- RFB_WGC_UNCORR
   ⟨0x2100408, 1, 0x4, 2, true, [fn 47 0 .rc 0x0 false]⟩,
   -- RFB_WGC_LAST
   ⟨0x2100410, 1, 0x4, 1, false, [fn 31 31 .ro 0x0 false, fn 30 30 .ro 0x0 false, fn 29 24 .ro 0x0 false, fn 23 20 .ro 0x0 false]⟩,
   -- RFB_WGC_LAST_ADDR
   ⟨0x2100414, 1, 0x4, 1, false, [fn 31 0 .ro 0x0 false]⟩,
   -- RFB_WGC_THR
   ⟨0x2100418, 1, 0x4, 1, false, [fo 31 0 .rw 0x0 true]⟩,
   -- RFB_WGC_STAT
   ⟨0x210041C, 1, 0x4, 1, false, [fo 1 1 .w1c 0x0 false, fo 0 0 .w1c 0x0 false]⟩,
   -- RFB_BSS_n
   ⟨0x2101000, 16, 0x8, 2, false, [fo 31 31 .rw 0x0 true, fo 30 30 .rw 0x0 true, fo 15 0 .rw 0x0 true, fo 63 32 .rw 0x0 true]⟩]

/-- The registers of unit RFC. -/
def regsRFC : List RegDesc :=
  [
   -- RFC_CTL
   ⟨0x2200000, 1, 0x4, 1, false, [fo 8 8 .rw 0x0 true]⟩,
   -- RFC_STATE
   ⟨0x2200004, 1, 0x4, 1, false, [fn 2 0 .ro 0x0 false]⟩,
   -- RFC_STATE_CMD
   ⟨0x2200008, 1, 0x4, 1, false, [fo 11 8 .cmd 0x0 false, fn 7 4 .cmd 0x0 false, fn 3 0 .cmd 0x0 false]⟩,
   -- RFC_SPAN
   ⟨0x2200010, 1, 0x4, 1, false, [fo 31 31 .rw 0x0 true, fo 30 30 .rw 0x0 true, fo 19 0 .rw 0x0 true]⟩,
   -- RFC_SPAN_ACT
   ⟨0x2200014, 1, 0x4, 1, false, [fn 31 31 .ro 0x0 true, fn 30 30 .ro 0x0 true, fn 19 0 .ro 0x0 true]⟩,
   -- RFC_CMD
   ⟨0x2200018, 1, 0x4, 1, false, [fo 12 12 .cmd 0x0 false, fo 11 8 .cmd 0x0 false, fn 7 4 .cmd 0x0 false, fn 3 0 .cmd 0x0 false]⟩,
   -- RFC_CAL_CFG
   ⟨0x2200020, 1, 0x4, 1, false, [fo 6 4 .rw 0x0 true, fo 3 0 .rw 0x0 true]⟩,
   -- RFC_CAL_STAT
   ⟨0x2200024, 1, 0x4, 1, false, [fn 31 31 .ro 0x0 false, fn 23 16 .ro 0x0 false, fn 9 8 .ro 0x0 false, fn 7 0 .ro 0x0 false]⟩,
   -- RFC_TX_CFG
   ⟨0x2200030, 1, 0x4, 1, false, [fo 23 16 .rw 0x0 true, fo 7 0 .rw 0x0 true]⟩,
   -- RFC_PORT_STAT_p
   ⟨0x2200040, 2, 0x4, 1, false, [fn 31 26 .ro 0x0 false, fn 25 20 .ro 0x0 false, fn 19 8 .ro 0x10 false, fn 7 4 .ro 0x0 false, fn 2 2 .ro 0x0 false, fn 1 1 .ro 0x0 false, fn 0 0 .ro 0x0 false]⟩,
   -- RFC_CH_LOST
   ⟨0x2200060, 1, 0x4, 2, true, [fn 63 0 .ro 0x0 false]⟩,
   -- RFC_CH_CFG_k
   ⟨0x2200100, 64, 0x4, 1, false, [fo 31 31 .rw 0x0 true, fo 30 30 .rw 0x0 true, fo 19 16 .rw 0x0 true, fo 15 0 .rw 0x0 true]⟩,
   -- RFC_CNT_SYNC
   ⟨0x2200300, 1, 0x4, 2, true, [fn 47 0 .rc 0x0 false]⟩,
   -- RFC_CNT_FCS_BAD
   ⟨0x2200308, 1, 0x4, 2, true, [fn 47 0 .rc 0x0 false]⟩,
   -- RFC_CNT_PHR_BAD
   ⟨0x2200310, 1, 0x4, 2, true, [fn 47 0 .rc 0x0 false]⟩,
   -- RFC_CNT_CAPTURE_RESTART
   ⟨0x2200318, 1, 0x4, 2, true, [fn 47 0 .rc 0x0 false]⟩,
   -- RFC_CNT_CAPTURE_ABORT
   ⟨0x2200320, 1, 0x4, 2, true, [fn 47 0 .rc 0x0 false]⟩,
   -- RFC_CNT_RX_ABORT_TX
   ⟨0x2200328, 1, 0x4, 2, true, [fn 47 0 .rc 0x0 false]⟩,
   -- RFC_CNT_RX_ABORT_OTHER
   ⟨0x2200330, 1, 0x4, 2, true, [fn 47 0 .rc 0x0 false]⟩,
   -- RFC_CNT_TX_LATE
   ⟨0x2200338, 1, 0x4, 2, true, [fn 47 0 .rc 0x0 false]⟩,
   -- RFC_CNT_TX_REDUCED
   ⟨0x2200340, 1, 0x4, 2, true, [fn 47 0 .rc 0x0 false]⟩,
   -- RFC_CNT_TUNE_FAULT
   ⟨0x2200348, 1, 0x4, 2, true, [fn 47 0 .rc 0x0 false]⟩,
   -- RFC_WGC_CORR
   ⟨0x2200400, 1, 0x4, 2, true, [fn 47 0 .rc 0x0 false]⟩,
   -- RFC_WGC_UNCORR
   ⟨0x2200408, 1, 0x4, 2, true, [fn 47 0 .rc 0x0 false]⟩,
   -- RFC_WGC_LAST
   ⟨0x2200410, 1, 0x4, 1, false, [fn 31 31 .ro 0x0 false, fn 30 30 .ro 0x0 false, fn 29 24 .ro 0x0 false, fn 23 20 .ro 0x0 false]⟩,
   -- RFC_WGC_LAST_ADDR
   ⟨0x2200414, 1, 0x4, 1, false, [fn 31 0 .ro 0x0 false]⟩,
   -- RFC_WGC_THR
   ⟨0x2200418, 1, 0x4, 1, false, [fo 31 0 .rw 0x0 true]⟩,
   -- RFC_WGC_STAT
   ⟨0x220041C, 1, 0x4, 1, false, [fo 1 1 .w1c 0x0 false, fo 0 0 .w1c 0x0 false]⟩]

/-- The registers of unit WMA. -/
def regsWMA : List RegDesc :=
  [
   -- WMA_CTL
   ⟨0x2300000, 1, 0x4, 1, false, [fo 23 16 .rw 0x0 true, fo 15 0 .rw 0x0 true]⟩,
   -- WMA_STATUS
   ⟨0x2300004, 1, 0x4, 1, false, [fn 23 16 .ro 0x0 false, fn 10 0 .ro 0x0 false]⟩,
   -- WMA_STA_CMD
   ⟨0x2300010, 1, 0x4, 1, false, [fv 25 16 .cmd 0x0 false, fv 11 8 .cmd 0x0 false, fn 7 4 .cmd 0x0 false, fn 3 0 .cmd 0x0 false]⟩,
   -- WMA_KEY_CMD
   ⟨0x2300018, 1, 0x4, 1, false, [fv 29 20 .cmd 0x0 false, fv 19 16 .cmd 0x0 false, fv 15 15 .cmd 0x0 false, fv 14 12 .cmd 0x0 false, fv 11 8 .cmd 0x0 false, fn 7 4 .cmd 0x0 false, fn 3 0 .cmd 0x0 false]⟩,
   -- WMA_STA_BUF_ADDR_HI
   ⟨0x2300020, 1, 0x4, 1, false, [fv 15 0 .rw 0x0 false]⟩,
   -- WMA_STA_BUF_ADDR_LO
   ⟨0x2300024, 1, 0x4, 1, false, [fv 31 0 .rw 0x0 false]⟩,
   -- WMA_STA_BUF_LINKS
   ⟨0x2300028, 1, 0x4, 1, false, [fv 2 0 .rw 0x0 false, fv 14 3 .rw 0x0 false, fv 15 15 .rw 0x0 false, fv 16 16 .rw 0x0 false]⟩,
   -- WMA_STA_BUF_SCHED
   ⟨0x230002C, 1, 0x4, 1, false, [fv 12 0 .rw 0x0 false]⟩,
   -- WMA_BA_CFG
   ⟨0x2300040, 1, 0x4, 1, false, [fo 14 0 .rw 0x0 true]⟩,
   -- WMA_KEY_BUF_KEY
   ⟨0x2300080, 8, 0x4, 1, false, [fv 31 0 .wo 0x0 false]⟩,
   -- WMA_KEY_BUF_PN
   ⟨0x23000A0, 1, 0x4, 2, false, [fv 31 0 .wo 0x0 false, fv 47 32 .wo 0x0 false]⟩,
   -- WMA_BH_PEER_n
   ⟨0x2300100, 8, 0x4, 1, false, [fo 31 31 .rw 0x0 true, fn 30 30 .ro 0x0 false, fo 25 20 .rw 0x0 true, fo 19 16 .rw 0x0 true, fn 9 0 .ro 0x0 false]⟩,
   -- WMA_CNT_DUP
   ⟨0x2300300, 1, 0x4, 2, true, [fn 47 0 .rc 0x0 false]⟩,
   -- WMA_CNT_REPLAY
   ⟨0x2300308, 1, 0x4, 2, true, [fn 47 0 .rc 0x0 false]⟩,
   -- WMA_CNT_MIC_FAIL
   ⟨0x2300310, 1, 0x4, 2, true, [fn 47 0 .rc 0x0 false]⟩,
   -- WMA_CNT_RX_NOCELL
   ⟨0x2300318, 1, 0x4, 2, true, [fn 47 0 .rc 0x0 false]⟩,
   -- WMA_CNT_REORDER_TMO
   ⟨0x2300320, 1, 0x4, 2, true, [fn 47 0 .rc 0x0 false]⟩,
   -- WMA_CNT_REORDER_FORCED
   ⟨0x2300328, 1, 0x4, 2, true, [fn 47 0 .rc 0x0 false]⟩,
   -- WMA_CNT_RESP_LATE
   ⟨0x2300330, 1, 0x4, 2, true, [fn 47 0 .rc 0x0 false]⟩,
   -- WMA_CNT_TRIG_NORESP
   ⟨0x2300338, 1, 0x4, 2, true, [fn 47 0 .rc 0x0 false]⟩,
   -- WMA_CNT_STA_FULL
   ⟨0x2300340, 1, 0x4, 2, true, [fn 47 0 .rc 0x0 false]⟩,
   -- WMA_CNT_UNKNOWN_TA
   ⟨0x2300348, 1, 0x4, 2, true, [fn 47 0 .rc 0x0 false]⟩,
   -- WMA_CNT_PN_EXHAUST
   ⟨0x2300350, 1, 0x4, 2, true, [fn 47 0 .rc 0x0 false]⟩,
   -- WMA_WGC_CORR
   ⟨0x2300400, 1, 0x4, 2, true, [fn 47 0 .rc 0x0 false]⟩,
   -- WMA_WGC_UNCORR
   ⟨0x2300408, 1, 0x4, 2, true, [fn 47 0 .rc 0x0 false]⟩,
   -- WMA_WGC_LAST
   ⟨0x2300410, 1, 0x4, 1, false, [fn 31 31 .ro 0x0 false, fn 30 30 .ro 0x0 false, fn 29 24 .ro 0x0 false, fn 23 20 .ro 0x0 false]⟩,
   -- WMA_WGC_LAST_ADDR
   ⟨0x2300414, 1, 0x4, 1, false, [fn 31 0 .ro 0x0 false]⟩,
   -- WMA_WGC_THR
   ⟨0x2300418, 1, 0x4, 1, false, [fo 31 0 .rw 0x0 true]⟩,
   -- WMA_WGC_STAT
   ⟨0x230041C, 1, 0x4, 1, false, [fo 1 1 .w1c 0x0 false, fo 0 0 .w1c 0x0 false]⟩]

/-- The registers of unit SGM. -/
def regsSGM : List RegDesc :=
  [
   -- SGM_CTL
   ⟨0x2400000, 1, 0x4, 1, false, [fo 30 24 .rw 0x0 true, fo 22 16 .rw 0x0 true, fo 15 8 .rw 0x0 true, fo 3 0 .rw 0x0 true]⟩,
   -- SGM_STATUS
   ⟨0x2400004, 1, 0x4, 1, false, [fn 31 31 .ro 0x0 false, fn 30 24 .ro 0x0 false, fn 23 23 .ro 0x0 false, fn 20 13 .ro 0x0 false, fn 12 0 .ro 0x0 false]⟩,
   -- SGM_TIMING
   ⟨0x2400008, 1, 0x4, 1, false, [fo 31 24 .rw 0x0 true, fo 23 16 .rw 0x0 true, fo 15 0 .rw 0x0 true]⟩,
   -- SGM_BEACON
   ⟨0x240000C, 1, 0x4, 1, false, [fo 31 24 .rw 0x0 true, fo 23 20 .rw 0x0 true, fo 19 19 .rw 0x0 true, fo 5 0 .rw 0x0 true]⟩,
   -- SGM_CMD
   ⟨0x2400010, 1, 0x4, 1, false, [fo 11 8 .cmd 0x0 false, fn 7 4 .cmd 0x0 false, fn 3 0 .cmd 0x0 false]⟩,
   -- SGM_EUI
   ⟨0x2400020, 1, 0x4, 2, true, [fo 63 0 .rwl 0x0 true]⟩,
   -- SGM_ADDR
   ⟨0x2400028, 1, 0x4, 1, false, [fo 15 0 .rw 0x0 true]⟩,
   -- SGM_CTX
   ⟨0x2400030, 1, 0x4, 2, true, [fo 63 0 .rw 0x0 true]⟩,
   -- SGM_NODE_CMD
   ⟨0x2400040, 1, 0x4, 1, false, [fv 27 16 .cmd 0x0 false, fv 11 8 .cmd 0x0 false, fn 7 4 .cmd 0x0 false, fn 3 0 .cmd 0x0 false]⟩,
   -- SGM_NODE_BUF_EUI
   ⟨0x2400050, 1, 0x4, 2, true, [fv 63 0 .rw 0x0 false]⟩,
   -- SGM_NODE_BUF_ADDR
   ⟨0x2400058, 1, 0x4, 1, false, [fv 15 0 .rw 0x0 false, fv 16 16 .rw 0x0 false, fv 17 17 .rw 0x0 false, fn 19 18 .ro 0x0 false, fn 31 24 .ro 0x0 false]⟩,
   -- SGM_NODE_BUF_CELL
   ⟨0x240005C, 1, 0x4, 1, false, [fv 6 0 .rw 0x0 false, fv 13 8 .rw 0x0 false, fv 19 16 .rw 0x0 false]⟩,
   -- SGM_NODE_BUF_SETS
   ⟨0x2400060, 1, 0x4, 1, false, [fv 15 0 .rw 0x0 false, fv 18 16 .rw 0x0 false, fv 29 24 .rw 0x0 false]⟩,
   -- SGM_NODE_BUF_SCHED
   ⟨0x2400064, 1, 0x4, 1, false, [fv 12 0 .rw 0x0 false]⟩,
   -- SGM_NODE_BUF_DRIFT
   ⟨0x2400068, 1, 0x4, 1, false, [fn 31 0 .ro 0x0 false]⟩,
   -- SGM_NODE_BUF_MOVE
   ⟨0x240006C, 1, 0x4, 1, false, [fv 5 0 .rw 0x0 false, fv 25 6 .rw 0x0 false]⟩,
   -- SGM_SUB_LO_j
   ⟨0x2400200, 8, 0x10, 1, false, [fo 19 0 .rw 0x0 true, fo 30 30 .rw 0x0 true, fo 31 31 .rw 0x0 true]⟩,
   -- SGM_SUB_HI_j
   ⟨0x2400204, 8, 0x10, 1, false, [fo 19 0 .rw 0x0 true]⟩,
   -- SGM_SUB_BUDGET_j
   ⟨0x2400208, 8, 0x10, 1, false, [fo 23 0 .rw 0x0 true, fo 31 24 .rw 0x0 true]⟩,
   -- SGM_SUB_USED_j
   ⟨0x240020C, 8, 0x10, 1, false, [fn 23 0 .ro 0x0 false]⟩,
   -- SGM_CNT_DUP
   ⟨0x2400300, 1, 0x4, 2, true, [fn 47 0 .rc 0x0 false]⟩,
   -- SGM_CNT_MIC_FAIL
   ⟨0x2400308, 1, 0x4, 2, true, [fn 47 0 .rc 0x0 false]⟩,
   -- SGM_CNT_REPLAY
   ⟨0x2400310, 1, 0x4, 2, true, [fn 47 0 .rc 0x0 false]⟩,
   -- SGM_CNT_UNKNOWN
   ⟨0x2400318, 1, 0x4, 2, true, [fn 47 0 .rc 0x0 false]⟩,
   -- SGM_CNT_WRONG_CELL
   ⟨0x2400320, 1, 0x4, 2, true, [fn 47 0 .rc 0x0 false]⟩,
   -- SGM_CNT_RX_NOCELL
   ⟨0x2400328, 1, 0x4, 2, true, [fn 47 0 .rc 0x0 false]⟩,
   -- SGM_CNT_TX_FAIL
   ⟨0x2400330, 1, 0x4, 2, true, [fn 47 0 .rc 0x0 false]⟩,
   -- SGM_CNT_ACK_SKIP
   ⟨0x2400338, 1, 0x4, 2, true, [fn 47 0 .rc 0x0 false]⟩,
   -- SGM_CNT_ADRIFT
   ⟨0x2400340, 1, 0x4, 2, true, [fn 47 0 .rc 0x0 false]⟩,
   -- SGM_CNT_LOST
   ⟨0x2400348, 1, 0x4, 2, true, [fn 47 0 .rc 0x0 false]⟩] ++
  [
   -- SGM_CNT_JOIN_REQ
   ⟨0x2400350, 1, 0x4, 2, true, [fn 47 0 .rc 0x0 false]⟩,
   -- SGM_WGC_CORR
   ⟨0x2400400, 1, 0x4, 2, true, [fn 47 0 .rc 0x0 false]⟩,
   -- SGM_WGC_UNCORR
   ⟨0x2400408, 1, 0x4, 2, true, [fn 47 0 .rc 0x0 false]⟩,
   -- SGM_WGC_LAST
   ⟨0x2400410, 1, 0x4, 1, false, [fn 31 31 .ro 0x0 false, fn 30 30 .ro 0x0 false, fn 29 24 .ro 0x0 false, fn 23 20 .ro 0x0 false]⟩,
   -- SGM_WGC_LAST_ADDR
   ⟨0x2400414, 1, 0x4, 1, false, [fn 31 0 .ro 0x0 false]⟩,
   -- SGM_WGC_THR
   ⟨0x2400418, 1, 0x4, 1, false, [fo 31 0 .rw 0x0 true]⟩,
   -- SGM_WGC_STAT
   ⟨0x240041C, 1, 0x4, 1, false, [fo 1 1 .w1c 0x0 false, fo 0 0 .w1c 0x0 false]⟩,
   -- SGM_BLOCK_b
   ⟨0x2401000, 128, 0x8, 2, false, [fo 31 31 .rw 0x0 true, fo 27 24 .rw 0x0 true, fo 22 16 .rw 0x0 true, fo 12 8 .rw 0x0 true, fo 5 0 .rw 0x0 true, fo 51 48 .rw 0x0 true, fo 43 40 .rw 0x0 true, fo 38 32 .rw 0x0 true]⟩,
   -- SGM_BLOCK_ACT_b
   ⟨0x2401800, 128, 0x8, 2, false, [fn 31 31 .ro 0x0 true, fn 27 24 .ro 0x0 true, fn 22 16 .ro 0x0 true, fn 12 8 .ro 0x0 true, fn 5 0 .ro 0x0 true, fn 51 48 .ro 0x0 true, fn 43 40 .ro 0x0 true, fn 38 32 .ro 0x0 true]⟩]

/-- The registers of unit ETH. -/
def regsETH : List RegDesc :=
  [
   -- ETH_PORT_CFG
   ⟨0x3000000, 8, 0x10000, 1, false, [fo 31 31 .rw 0x0 true, fo 30 28 .rw 0x0 true, fo 27 27 .rw 0x0 true, fo 13 0 .rw 0x0 true]⟩,
   -- ETH_PORT_STAT
   ⟨0x3000004, 8, 0x10000, 1, false, [fn 31 31 .ro 0x0 false, fn 30 28 .ro 0x0 false, fn 27 27 .ro 0x0 false, fn 26 26 .ro 0x0 false, fn 25 24 .ro 0x0 false, fn 23 23 .ro 0x0 false, fn 22 22 .ro 0x0 false, fn 15 8 .ro 0x0 false]⟩,
   -- ETH_PORT_MAC
   ⟨0x3000008, 8, 0x10000, 2, false, [fo 15 0 .rw 0x0 true, fo 63 32 .rw 0x0 true]⟩,
   -- ETH_PORT_Q
   ⟨0x3000010, 8, 0x10000, 1, false, [fo 14 8 .rw 0x0 true, fo 6 0 .rw 0x0 true]⟩,
   -- ETH_PORT_PREEMPT
   ⟨0x3000014, 8, 0x10000, 1, false, [fo 31 31 .rw 0x0 true, fo 30 30 .rw 0x0 true, fo 29 28 .rw 0x0 true, fo 15 8 .rw 0x0 true, fo 7 0 .rw 0x0 true]⟩,
   -- ETH_PORT_EEE
   ⟨0x3000018, 8, 0x10000, 1, false, [fo 31 31 .rw 0x0 true, fo 23 12 .rw 0x0 true, fo 11 0 .rw 0x0 true]⟩,
   -- ETH_PORT_FC
   ⟨0x300001C, 8, 0x10000, 1, false, [fo 31 30 .rw 0x0 true, fo 23 16 .rw 0x0 true, fo 15 0 .rw 0x0 true]⟩,
   -- ETH_PORT_FC_THR
   ⟨0x3000020, 8, 0x10000, 1, false, [fo 31 16 .rw 0x0 true, fo 15 0 .rw 0x0 true]⟩,
   -- ETH_PORT_PTP
   ⟨0x3000024, 8, 0x10000, 1, false, [fo 31 31 .rw 0x0 true, fo 30 30 .rw 0x0 true]⟩,
   -- ETH_TS_FIFO
   ⟨0x3000030, 8, 0x10000, 4, true, [fn 127 127 .rc 0x0 false, fn 91 84 .rc 0x0 false, fn 83 80 .rc 0x0 false, fn 79 64 .rc 0x0 false, fn 63 0 .rc 0x0 false]⟩,
   -- ETH_MACSEC
   ⟨0x3000040, 4, 0x10000, 1, false, [fv 31 31 .rw 0x0 true, fv 30 29 .rw 0x0 true, fv 28 28 .rw 0x0 true, fv 27 27 .rw 0x0 true, fv 26 26 .rw 0x0 true, fv 25 25 .rw 0x0 true, fn 1 0 .ro 0x0 false]⟩,
   -- ETH_MACSEC_WIN
   ⟨0x3000044, 4, 0x10000, 1, false, [fv 31 0 .rw 0x0 true]⟩,
   -- ETH_MACSEC_SCI
   ⟨0x3000048, 4, 0x10000, 2, true, [fv 63 0 .rw 0x0 true]⟩,
   -- ETH_SA_CMD
   ⟨0x3000060, 4, 0x10000, 1, false, [fv 17 16 .cmd 0x0 false, fv 15 12 .cmd 0x0 false, fv 11 8 .cmd 0x0 false, fn 7 4 .cmd 0x0 false, fn 3 0 .cmd 0x0 false]⟩,
   -- ETH_SA_BUF
   ⟨0x3000080, 4, 0x10000, 16, false, [fv 31 0 .wo 0x0 false, fv 63 32 .wo 0x0 false, fv 95 64 .wo 0x0 false, fv 127 96 .wo 0x0 false, fv 159 128 .wo 0x0 false, fv 191 160 .wo 0x0 false, fv 223 192 .wo 0x0 false, fv 255 224 .wo 0x0 false, fv 287 256 .wo 0x0 false, fv 319 288 .wo 0x0 false, fv 351 320 .wo 0x0 false, fv 383 352 .wo 0x0 false, fv 415 384 .wo 0x0 false, fv 447 416 .wo 0x0 false, fv 479 448 .wo 0x0 false, fv 511 480 .wo 0x0 false]⟩,
   -- ETH_CNT_RX_OK
   ⟨0x3000100, 8, 0x10000, 2, true, [fn 47 0 .rc 0x0 false]⟩,
   -- ETH_CNT_RX_FCS
   ⟨0x3000108, 8, 0x10000, 2, true, [fn 47 0 .rc 0x0 false]⟩,
   -- ETH_CNT_RX_RUNT
   ⟨0x3000110, 8, 0x10000, 2, true, [fn 47 0 .rc 0x0 false]⟩,
   -- ETH_CNT_RX_OVERSIZE
   ⟨0x3000118, 8, 0x10000, 2, true, [fn 47 0 .rc 0x0 false]⟩,
   -- ETH_CNT_RX_NOCELL
   ⟨0x3000120, 8, 0x10000, 2, true, [fn 47 0 .rc 0x0 false]⟩,
   -- ETH_CNT_RX_OVERRUN
   ⟨0x3000128, 8, 0x10000, 2, true, [fn 47 0 .rc 0x0 false]⟩,
   -- ETH_CNT_TX_OK
   ⟨0x3000130, 8, 0x10000, 2, true, [fn 47 0 .rc 0x0 false]⟩,
   -- ETH_CNT_TX_OVERSIZE
   ⟨0x3000138, 8, 0x10000, 2, true, [fn 47 0 .rc 0x0 false]⟩,
   -- ETH_CNT_TX_LINKDOWN
   ⟨0x3000140, 8, 0x10000, 2, true, [fn 47 0 .rc 0x0 false]⟩,
   -- ETH_CNT_NO_NBR
   ⟨0x3000148, 8, 0x10000, 2, true, [fn 47 0 .rc 0x0 false]⟩,
   -- ETH_CNT_PAUSE_RX
   ⟨0x3000150, 8, 0x10000, 2, true, [fn 47 0 .rc 0x0 false]⟩,
   -- ETH_CNT_PAUSE_TX
   ⟨0x3000158, 8, 0x10000, 2, true, [fn 47 0 .rc 0x0 false]⟩,
   -- ETH_CNT_CTRL_DROP
   ⟨0x3000160, 8, 0x10000, 2, true, [fn 47 0 .rc 0x0 false]⟩,
   -- ETH_CNT_FRAG_ERR
   ⟨0x3000168, 8, 0x10000, 2, true, [fn 47 0 .rc 0x0 false]⟩,
   -- ETH_CNT_TS_LOST
   ⟨0x3000170, 8, 0x10000, 2, true, [fn 47 0 .rc 0x0 false]⟩] ++
  [
   -- ETH_CNT_MACSEC_DROP
   ⟨0x3000178, 8, 0x10000, 2, true, [fn 47 0 .rc 0x0 false]⟩,
   -- ETH_CNT_MACSEC_REPLAY
   ⟨0x3000180, 8, 0x10000, 2, true, [fn 47 0 .rc 0x0 false]⟩,
   -- ETH_CNT_PN_EXHAUST
   ⟨0x3000188, 8, 0x10000, 2, true, [fn 47 0 .rc 0x0 false]⟩,
   -- ETH_WGC_CORR
   ⟨0x3000400, 1, 0x4, 2, true, [fn 47 0 .rc 0x0 false]⟩,
   -- ETH_WGC_UNCORR
   ⟨0x3000408, 1, 0x4, 2, true, [fn 47 0 .rc 0x0 false]⟩,
   -- ETH_WGC_LAST
   ⟨0x3000410, 1, 0x4, 1, false, [fn 31 31 .ro 0x0 false, fn 30 30 .ro 0x0 false, fn 29 24 .ro 0x0 false, fn 23 20 .ro 0x0 false]⟩,
   -- ETH_WGC_LAST_ADDR
   ⟨0x3000414, 1, 0x4, 1, false, [fn 31 0 .ro 0x0 false]⟩,
   -- ETH_WGC_THR
   ⟨0x3000418, 1, 0x4, 1, false, [fo 31 0 .rw 0x0 true]⟩,
   -- ETH_WGC_STAT
   ⟨0x300041C, 1, 0x4, 1, false, [fo 1 1 .w1c 0x0 false, fo 0 0 .w1c 0x0 false]⟩,
   -- ETH_NBR_n
   ⟨0x3008000, 4096, 0x8, 2, false, [fo 31 31 .rw 0x0 false, fo 30 30 .rw 0x0 false, fo 27 16 .rw 0x0 false, fo 15 0 .rw 0x0 false, fo 63 32 .rw 0x0 false]⟩]

/-- The registers of unit DRC. -/
def regsDRC : List RegDesc :=
  [
   -- DRC_STATUS
   ⟨0x4000000, 1, 0x4, 1, false, [fn 31 31 .ro 0x0 false, fn 30 30 .ro 0x0 false, fn 11 8 .ro 0x0 false, fn 7 0 .ro 0x0 false]⟩,
   -- DRC_CTL
   ⟨0x4000004, 1, 0x4, 1, false, [fo 31 24 .rw 0x0 true, fo 11 0 .rw 0x0 true]⟩,
   -- DRC_CMD
   ⟨0x4000008, 1, 0x4, 1, false, [fo 13 12 .cmd 0x0 false, fo 11 8 .cmd 0x0 false, fn 7 4 .cmd 0x0 false, fn 3 0 .cmd 0x0 false]⟩,
   -- DRC_CH_STAT_c
   ⟨0x4000010, 4, 0x4, 1, false, [fn 31 24 .ro 0x0 false, fn 23 16 .ro 0x0 false, fn 15 12 .ro 0x0 false, fn 11 8 .ro 0x0 false, fn 7 2 .ro 0x0 false, fn 1 1 .ro 0x0 false, fn 0 0 .ro 0x0 false]⟩,
   -- DRC_SRC_s
   -- (sources 0 and 5 are read only, SAFETY and REALTIME)
   ⟨0x4000040, 1, 0x4, 1, false, [fn 1 0 .ro 0x0 false]⟩,
   ⟨0x4000044, 4, 0x4, 1, false, [fo 1 0 .rw 0x0 true]⟩,
   ⟨0x4000054, 1, 0x4, 1, false, [fn 1 0 .ro 0x1 false]⟩,
   ⟨0x4000058, 26, 0x4, 1, false, [fo 1 0 .rw 0x0 true]⟩,
   -- DRC_FREEZE_CFG
   ⟨0x4000100, 1, 0x4, 1, false, [fo 15 0 .rw 0x0 true]⟩,
   -- DRC_FREEZE_CAUSE
   ⟨0x4000110, 1, 0x4, 1, false, [fn 31 29 .ro 0x0 false, fn 28 24 .ro 0x0 false, fn 23 22 .ro 0x0 false, fn 21 20 .ro 0x0 false, fn 19 19 .ro 0x0 false, fn 18 15 .ro 0x0 false, fn 14 0 .ro 0x0 false]⟩,
   -- DRC_FREEZE_LT
   ⟨0x4000118, 1, 0x4, 2, true, [fn 63 0 .ro 0x0 false]⟩,
   -- DRC_FREEZE_ADDR
   ⟨0x4000120, 1, 0x4, 2, true, [fn 63 0 .ro 0x0 false]⟩,
   -- DRC_FREEZE_SYN
   ⟨0x4000128, 1, 0x4, 1, false, [fn 31 0 .ro 0x0 false]⟩,
   -- DRC_FREEZE_Q_c
   ⟨0x4000130, 4, 0x4, 1, false, [fn 31 24 .ro 0x0 false, fn 23 16 .ro 0x0 false, fn 15 8 .ro 0x0 false, fn 0 0 .ro 0x0 false]⟩,
   -- DRC_CNT_AGED
   ⟨0x4000300, 1, 0x4, 2, true, [fn 47 0 .rc 0x0 false]⟩,
   -- DRC_CNT_WQ_FULL
   ⟨0x4000308, 1, 0x4, 2, true, [fn 47 0 .rc 0x0 false]⟩,
   -- DRC_CNT_FORWARD
   ⟨0x4000310, 1, 0x4, 2, true, [fn 47 0 .rc 0x0 false]⟩,
   -- DRC_CNT_POSTPONED
   ⟨0x4000318, 1, 0x4, 2, true, [fn 47 0 .rc 0x0 false]⟩,
   -- DRC_CNT_CATCHUP
   ⟨0x4000320, 1, 0x4, 2, true, [fn 47 0 .rc 0x0 false]⟩,
   -- DRC_CNT_TEMPER
   ⟨0x4000328, 1, 0x4, 2, true, [fn 47 0 .rc 0x0 false]⟩,
   -- DRC_CNT_RETRAIN
   ⟨0x4000330, 1, 0x4, 2, true, [fn 47 0 .rc 0x0 false]⟩,
   -- DRC_WGC_CORR
   ⟨0x4000400, 1, 0x4, 2, true, [fn 47 0 .rc 0x0 false]⟩,
   -- DRC_WGC_UNCORR
   ⟨0x4000408, 1, 0x4, 2, true, [fn 47 0 .rc 0x0 false]⟩,
   -- DRC_WGC_LAST
   ⟨0x4000410, 1, 0x4, 1, false, [fn 31 31 .ro 0x0 false, fn 30 30 .ro 0x0 false, fn 29 24 .ro 0x0 false, fn 23 20 .ro 0x0 false]⟩,
   -- DRC_WGC_LAST_ADDR
   ⟨0x4000414, 1, 0x4, 1, false, [fn 31 0 .ro 0x0 false]⟩,
   -- DRC_WGC_THR
   ⟨0x4000418, 1, 0x4, 1, false, [fo 31 0 .rw 0x0 true]⟩,
   -- DRC_WGC_STAT
   ⟨0x400041C, 1, 0x4, 1, false, [fo 1 1 .w1c 0x0 false, fo 0 0 .w1c 0x0 false]⟩]

/-- The registers of unit CPU. -/
def regsCPU : List RegDesc :=
  [
   -- CPU_CTL
   ⟨0x5000000, 1, 0x4, 1, false, [fn 13 8 .ro 0x0 false, fv 3 0 .rw 0x0 true]⟩,
   -- CPU_VBASE
   ⟨0x5000004, 1, 0x4, 1, false, [fv 31 10 .rwl 0x0 true]⟩,
   -- CPU_SWI
   ⟨0x5000008, 1, 0x4, 1, false, [fo 3 0 .wo 0x0 false]⟩,
   -- CPU_SWI_PEND
   ⟨0x500000C, 1, 0x4, 1, false, [fo 3 0 .w1c 0x0 false]⟩,
   -- CPU_CORE_STAT_c
   ⟨0x5000010, 6, 0x10, 1, false, [fn 7 0 .ro 0x0 false, fn 12 8 .ro 0x0 false, fn 13 13 .ro 0x0 false]⟩,
   -- CPU_CORE_EPC_c
   ⟨0x5000014, 6, 0x10, 1, false, [fn 31 0 .ro 0x0 false]⟩,
   -- CPU_CORE_EADDR_c
   ⟨0x5000018, 6, 0x10, 1, false, [fn 31 0 .ro 0x0 false]⟩,
   -- CPU_SLOT_CODE_BASE_n
   ⟨0x5000100, 16, 0x20, 1, false, [fo 31 0 .rw 0x0 true]⟩,
   -- CPU_SLOT_CODE_LEN_n
   ⟨0x5000104, 16, 0x20, 1, false, [fo 31 0 .rw 0x0 true]⟩,
   -- CPU_SLOT_DATA_BASE_n
   ⟨0x5000108, 16, 0x20, 1, false, [fo 31 0 .rw 0x0 true]⟩,
   -- CPU_SLOT_DATA_LEN_n
   ⟨0x500010C, 16, 0x20, 1, false, [fo 31 0 .rw 0x0 true]⟩,
   -- CPU_SLOT_DRAM_BASE_n
   ⟨0x5000110, 16, 0x20, 1, false, [fo 12 0 .rw 0x0 true]⟩,
   -- CPU_SLOT_DRAM_LEN_n
   ⟨0x5000114, 16, 0x20, 1, false, [fo 13 0 .rw 0x0 true]⟩,
   -- CPU_SLOT_CTL_n
   ⟨0x5000118, 16, 0x20, 1, false, [fo 31 31 .rw 0x0 true, fo 29 28 .rw 0x0 true, fo 15 0 .rw 0x0 true]⟩,
   -- CPU_CNT_PAIR_STALL_c
   ⟨0x5000300, 6, 0x20, 2, true, [fn 47 0 .rc 0x0 false]⟩,
   -- CPU_CNT_SPILL_c
   ⟨0x5000308, 6, 0x20, 2, true, [fn 47 0 .rc 0x0 false]⟩,
   -- CPU_CNT_EXC_c
   ⟨0x5000310, 6, 0x20, 2, true, [fn 47 0 .rc 0x0 false]⟩,
   -- CPU_WGC_CORR
   ⟨0x5000400, 1, 0x4, 2, true, [fn 47 0 .rc 0x0 false]⟩,
   -- CPU_WGC_UNCORR
   ⟨0x5000408, 1, 0x4, 2, true, [fn 47 0 .rc 0x0 false]⟩,
   -- CPU_WGC_LAST
   ⟨0x5000410, 1, 0x4, 1, false, [fn 31 31 .ro 0x0 false, fn 30 30 .ro 0x0 false, fn 29 24 .ro 0x0 false, fn 23 20 .ro 0x0 false]⟩,
   -- CPU_WGC_LAST_ADDR
   ⟨0x5000414, 1, 0x4, 1, false, [fn 31 0 .ro 0x0 false]⟩,
   -- CPU_WGC_THR
   ⟨0x5000418, 1, 0x4, 1, false, [fo 31 0 .rw 0x0 true]⟩,
   -- CPU_WGC_STAT
   ⟨0x500041C, 1, 0x4, 1, false, [fo 1 1 .w1c 0x0 false, fo 0 0 .w1c 0x0 false]⟩]

/-- The registers of unit PRF. -/
def regsPRF : List RegDesc :=
  [
   -- PRF_CTL
   ⟨0x6000000, 1, 0x4, 1, false, [fo 31 31 .rw 0x0 true, fo 1 1 .rw 0x0 true, fo 0 0 .rw 0x0 true]⟩,
   -- PRF_SNAP
   ⟨0x6000004, 1, 0x4, 1, false, [fo 8 8 .cmd 0x0 false, fn 7 4 .cmd 0x0 false, fn 3 0 .cmd 0x0 false]⟩,
   -- PRF_FREEZE
   ⟨0x6000008, 1, 0x4, 1, false, [fo 0 0 .rw 0x0 false]⟩,
   -- PRF_OVF_w
   ⟨0x6000020, 5, 0x4, 1, false, [fo 31 0 .w1c 0x0 false]⟩,
   -- PRF_OVF_5
   ⟨0x6000034, 1, 0x4, 1, false, [fo 23 0 .w1c 0x0 false]⟩,
   -- PRF_GUEST_MASK_w
   ⟨0x6000040, 5, 0x4, 1, false, [fo 31 0 .rw 0x0 true]⟩,
   -- PRF_GUEST_MASK_5
   ⟨0x6000054, 1, 0x4, 1, false, [fo 23 0 .rw 0x0 true]⟩,
   -- PRF_SAMPLE_CFG
   ⟨0x6000100, 1, 0x4, 1, false, [fo 31 31 .rw 0x0 false, fo 30 30 .rw 0x0 false, fv 29 29 .rw 0x0 false, fo 22 16 .rw 0x0 false, fo 15 0 .rw 0x0 false]⟩,
   -- PRF_SAMPLE_LAT
   ⟨0x6000104, 1, 0x4, 1, false, [fo 15 0 .rw 0x0 false]⟩,
   -- PRF_SAMPLE_HEAD
   ⟨0x6000108, 1, 0x4, 1, false, [fn 31 31 .ro 0x0 false, fn 13 0 .ro 0x0 false]⟩,
   -- PRF_LOG_STAT
   ⟨0x6000110, 1, 0x4, 1, false, [fn 31 31 .ro 0x0 false, fo 30 30 .w1c 0x0 false, fn 13 0 .ro 0x0 false]⟩,
   -- PRF_LOG_LOST
   ⟨0x6000118, 1, 0x4, 2, true, [fn 47 0 .rc 0x0 false]⟩,
   -- PRF_WGC_CORR
   ⟨0x6000400, 1, 0x4, 2, true, [fn 47 0 .rc 0x0 false]⟩,
   -- PRF_WGC_UNCORR
   ⟨0x6000408, 1, 0x4, 2, true, [fn 47 0 .rc 0x0 false]⟩,
   -- PRF_WGC_LAST
   ⟨0x6000410, 1, 0x4, 1, false, [fn 31 31 .ro 0x0 false, fn 30 30 .ro 0x0 false, fn 29 24 .ro 0x0 false, fn 23 20 .ro 0x0 false]⟩,
   -- PRF_WGC_LAST_ADDR
   ⟨0x6000414, 1, 0x4, 1, false, [fn 31 0 .ro 0x0 false]⟩,
   -- PRF_WGC_THR
   ⟨0x6000418, 1, 0x4, 1, false, [fo 31 0 .rw 0x0 true]⟩,
   -- PRF_WGC_STAT
   ⟨0x600041C, 1, 0x4, 1, false, [fo 1 1 .w1c 0x0 false, fo 0 0 .w1c 0x0 false]⟩,
   -- PRF_EVSEL_u_k
   ⟨0x6001000, 184, 0x4, 1, false, [fo 10 8 .rw 0x0 false, fo 7 0 .rw 0x0 false]⟩,
   -- PRF_CNT_u_k
   ⟨0x6002000, 184, 0x8, 2, true, [fn 47 0 .ro 0x0 false]⟩,
   -- PRF_SHADOW_u_k
   ⟨0x6004000, 184, 0x8, 2, true, [fn 47 0 .ro 0x0 false]⟩,
   -- PRF_LOG
   ⟨0x6010000, 131072, 0x4, 1, false, [fn 31 0 .ro 0x0 false]⟩,
   -- PRF_SAMPLE
   ⟨0x60A0000, 32768, 0x4, 1, false, [fn 31 0 .ro 0x0 false]⟩]

/-- The registers of unit SHF. -/
def regsSHF : List RegDesc :=
  [
   -- SHF_CFG
   ⟨0x7000000, 1, 0x4, 1, false, [fo 31 31 .rwl 0x0 true, fo 29 24 .rwl 0x0 true, fo 21 16 .rwl 0x0 true, fo 15 8 .rwl 0x0 true, fo 7 0 .rwl 0x0 true]⟩,
   -- SHF_MGMT
   ⟨0x7000004, 1, 0x4, 1, false, [fo 3 3 .rwl 0x0 true, fo 2 0 .rwl 0x0 true]⟩,
   -- SHF_STATUS
   ⟨0x7000008, 1, 0x4, 1, false, [fn 31 30 .ro 0x0 false, fn 29 29 .ro 0x0 false, fn 28 28 .ro 0x0 false, fn 21 16 .ro 0x0 false, fn 15 15 .ro 0x0 false, fn 5 0 .ro 0x0 false]⟩,
   -- SHF_TERM
   ⟨0x700000C, 1, 0x4, 1, false, [fn 31 0 .ro 0x0 false]⟩,
   -- SHF_MEMBERS
   ⟨0x7000010, 1, 0x4, 2, true, [fn 63 0 .ro 0x0 false]⟩,
   -- SHF_CMD
   ⟨0x7000020, 1, 0x4, 1, false, [fo 11 8 .cmd 0x0 false, fn 7 4 .cmd 0x0 false, fn 3 0 .cmd 0x0 false]⟩,
   -- SHF_ROUTE_n
   ⟨0x7000100, 64, 0x4, 1, false, [fn 31 31 .ro 0x0 false, fn 19 16 .ro 0x0 false, fn 13 8 .ro 0x0 false, fn 7 7 .ro 0x0 false, fn 2 0 .ro 0x0 false]⟩,
   -- SHF_CNT_AUTH
   ⟨0x7000300, 1, 0x4, 2, true, [fn 47 0 .rc 0x0 false]⟩,
   -- SHF_CNT_REPLAY
   ⟨0x7000308, 1, 0x4, 2, true, [fn 47 0 .rc 0x0 false]⟩,
   -- SHF_CNT_HOPS
   ⟨0x7000310, 1, 0x4, 2, true, [fn 47 0 .rc 0x0 false]⟩,
   -- SHF_CNT_UNREACHABLE
   ⟨0x7000318, 1, 0x4, 2, true, [fn 47 0 .rc 0x0 false]⟩,
   -- SHF_CNT_REMOTE
   ⟨0x7000320, 1, 0x4, 2, true, [fn 47 0 .rc 0x0 false]⟩,
   -- SHF_WGC_CORR
   ⟨0x7000400, 1, 0x4, 2, true, [fn 47 0 .rc 0x0 false]⟩,
   -- SHF_WGC_UNCORR
   ⟨0x7000408, 1, 0x4, 2, true, [fn 47 0 .rc 0x0 false]⟩,
   -- SHF_WGC_LAST
   ⟨0x7000410, 1, 0x4, 1, false, [fn 31 31 .ro 0x0 false, fn 30 30 .ro 0x0 false, fn 29 24 .ro 0x0 false, fn 23 20 .ro 0x0 false]⟩,
   -- SHF_WGC_LAST_ADDR
   ⟨0x7000414, 1, 0x4, 1, false, [fn 31 0 .ro 0x0 false]⟩,
   -- SHF_WGC_THR
   ⟨0x7000418, 1, 0x4, 1, false, [fo 31 0 .rw 0x0 true]⟩,
   -- SHF_WGC_STAT
   ⟨0x700041C, 1, 0x4, 1, false, [fo 1 1 .w1c 0x0 false, fo 0 0 .w1c 0x0 false]⟩]

/-- The registers of unit HIF. -/
def regsHIF : List RegDesc :=
  [
   -- HIF_STATUS
   ⟨0x7100000, 1, 0x4, 1, false, [fn 31 30 .ro 0x0 false, fn 29 29 .ro 0x0 false, fn 28 26 .ro 0x0 false, fn 25 23 .ro 0x0 false, fo 0 0 .w1c 0x0 false]⟩,
   -- HIF_DWIN
   ⟨0x7100010, 1, 0x4, 1, false, [fo 8 0 .rw 0x0 false]⟩,
   -- HIF_MSG_CFG
   ⟨0x7100020, 1, 0x4, 1, false, [fo 31 8 .rw 0x0 false, fo 3 0 .rw 0x0 false]⟩,
   -- HIF_MSG_IDX
   ⟨0x7100024, 1, 0x4, 1, false, [fn 31 24 .rc 0x0 false, fn 23 12 .ro 0x0 false, fo 11 0 .rw 0x0 false]⟩,
   -- HIF_DOORBELL
   ⟨0x7100030, 1, 0x4, 1, false, [fo 31 0 .wo 0x0 false]⟩,
   -- HIF_DB_LAST
   ⟨0x7100034, 1, 0x4, 1, false, [fn 31 0 .ro 0x0 false]⟩,
   -- HIF_HOST_DB
   ⟨0x7100038, 1, 0x4, 1, false, [fv 31 0 .wo 0x0 false]⟩,
   -- HIF_APER_n
   ⟨0x7100100, 64, 0x4, 1, false, [fo 31 31 .rw 0x0 false, fo 29 24 .rw 0x0 false, fo 11 0 .rw 0x0 false]⟩]

/-- The registers of unit FLD. -/
def regsFLD : List RegDesc :=
  [
   -- FLD_STATUS
   ⟨0x8000000, 1, 0x4, 1, false, [fn 21 18 .ro 0x0 false, fn 17 17 .ro 0x0 false, fn 16 16 .ro 0x0 false, fn 15 0 .ro 0x0 false]⟩,
   -- FLD_DALI_CFG_p
   ⟨0x8000100, 4, 0x10, 1, false, [fo 31 31 .rw 0x0 true, fo 30 30 .rw 0x0 true, fo 29 23 .rw 0x0 true, fo 22 16 .rw 0x0 true, fo 15 0 .rw 0x0 true]⟩,
   -- FLD_DALI_CMD_p
   ⟨0x8000104, 4, 0x10, 1, false, [fo 14 12 .cmd 0x0 false, fo 11 8 .cmd 0x0 false, fn 7 4 .cmd 0x0 false, fn 3 0 .cmd 0x0 false]⟩,
   -- FLD_DALI_TX_p
   ⟨0x8000108, 4, 0x10, 1, false, [fo 23 0 .rw 0x0 false]⟩,
   -- FLD_DALI_RX_p
   ⟨0x800010C, 4, 0x10, 1, false, [fn 31 31 .ro 0x0 false, fn 7 0 .ro 0x0 false]⟩,
   -- FLD_ECHO_MASK_p
   ⟨0x8000200, 4, 0x8, 2, true, [fo 63 0 .rw 0x0 true]⟩,
   -- FLD_PWM_p
   ⟨0x8000300, 4, 0x8, 2, false, [fo 31 31 .rw 0x0 true, fo 30 30 .rw 0x0 true, fo 22 16 .rw 0x0 true, fo 14 0 .rw 0x0 true, fo 63 48 .rw 0x0 true, fo 47 32 .rwl 0x0 true]⟩,
   -- FLD_WGC_CORR
   ⟨0x8000400, 1, 0x4, 2, true, [fn 47 0 .rc 0x0 false]⟩,
   -- FLD_WGC_UNCORR
   ⟨0x8000408, 1, 0x4, 2, true, [fn 47 0 .rc 0x0 false]⟩,
   -- FLD_WGC_LAST
   ⟨0x8000410, 1, 0x4, 1, false, [fn 31 31 .ro 0x0 false, fn 30 30 .ro 0x0 false, fn 29 24 .ro 0x0 false, fn 23 20 .ro 0x0 false]⟩,
   -- FLD_WGC_LAST_ADDR
   ⟨0x8000414, 1, 0x4, 1, false, [fn 31 0 .ro 0x0 false]⟩,
   -- FLD_WGC_THR
   ⟨0x8000418, 1, 0x4, 1, false, [fo 31 0 .rw 0x0 true]⟩,
   -- FLD_WGC_STAT
   ⟨0x800041C, 1, 0x4, 1, false, [fo 1 1 .w1c 0x0 false, fo 0 0 .w1c 0x0 false]⟩,
   -- FLD_GPIO_CFG_n
   ⟨0x8000500, 16, 0x4, 1, false, [fo 31 30 .rw 0x0 true, fg 29 29 .rw 0x0 true, fo 28 28 .rw 0x0 true, fo 27 16 .rw 0x0 true, fn 9 8 .ro 0x0 false, fo 7 0 .rw 0x0 true]⟩,
   -- FLD_WAKE_CFG
   ⟨0x8000540, 1, 0x4, 1, false, [fg 29 29 .rw 0x0 true, fo 28 28 .rw 0x0 true, fo 27 16 .rw 0x0 true, fn 9 8 .ro 0x0 false, fo 7 0 .rw 0x0 true]⟩,
   -- FLD_CNT_DALI_TX
   ⟨0x8000600, 1, 0x4, 2, true, [fn 47 0 .rc 0x0 false]⟩,
   -- FLD_CNT_COLLISION
   ⟨0x8000608, 1, 0x4, 2, true, [fn 47 0 .rc 0x0 false]⟩,
   -- FLD_CNT_ECHO_MISS
   ⟨0x8000610, 1, 0x4, 2, true, [fn 47 0 .rc 0x0 false]⟩,
   -- FLD_CNT_IN_EVENTS
   ⟨0x8000618, 1, 0x4, 2, true, [fn 47 0 .rc 0x0 false]⟩]

/-- The registers of the unit whose window holds a CSR address (R26). -/
def regsOf : UnitId → List RegDesc
  | .top => regsTOP
  | .mtm => regsMTM
  | .pwr => regsPWR
  | .asy => regsASY
  | .cfg => regsCFG
  | .pkb => regsPKB
  | .par => regsPAR
  | .flw => regsFLW
  | .sch => regsSCH
  | .ple => regsPLE
  | .cip => regsCIP
  | .rfa => regsRFA
  | .rfb => regsRFB
  | .rfc => regsRFC
  | .wma => regsWMA
  | .sgm => regsSGM
  | .eth => regsETH
  | .drc => regsDRC
  | .cpu => regsCPU
  | .prf => regsPRF
  | .shf => regsSHF
  | .hif => regsHIF
  | .fld => regsFLD

end Sys2Proof.Machine
end

