-- ==== Sys2Proof/Machine/RegNames.lean ====
section
/-! DEFINITION. Names for the fields of the register map, as the spec writes them (UNIT_REGISTER_FIELD), each with its
absolute CSR address and bits; an indexed register's field is a function of its index. -/

namespace Sys2Proof.Machine

/-- A field inside one 32-bit register word: bits [hi:lo] of the word at `addr`. -/
structure Field where
  addr : Nat
  hi : Nat
  lo : Nat
  deriving DecidableEq, Repr

/-- A value of `bits` bits that occupies consecutive words from `addr` (R6). -/
structure Wide where
  addr : Nat
  bits : Nat
  deriving DecidableEq, Repr

def TOP_DEVID_FAMILY : Field := ⟨0x0, 31, 16⟩
def TOP_DEVID_PART : Field := ⟨0x0, 15, 0⟩
def TOP_STEP_STEP : Field := ⟨0x4, 7, 0⟩
def TOP_RESET_KEY : Field := ⟨0x8, 31, 16⟩
def TOP_RESET_KIND : Field := ⟨0x8, 9, 8⟩
def TOP_RESET_RESULT : Field := ⟨0x8, 7, 4⟩
def TOP_RESET_STATE : Field := ⟨0x8, 3, 0⟩
def TOP_UNIT_PRESENT_PRESENT : Field := ⟨0x10, 22, 0⟩
def TOP_UNIT_READY_READY : Field := ⟨0x14, 22, 0⟩
def TOP_STRAP_UNSTABLE : Field := ⟨0x20, 9, 9⟩
def TOP_STRAP_MADDR : Field := ⟨0x20, 8, 7⟩
def TOP_STRAP_PWM_PRE : Field := ⟨0x20, 6, 3⟩
def TOP_STRAP_CFG_SRC : Field := ⟨0x20, 2, 2⟩
def TOP_STRAP_FOLIO : Field := ⟨0x20, 1, 0⟩
def TOP_LOCK_BOOT : Field := ⟨0x24, 0, 0⟩
def TOP_FOLIO_SEL_AT_RESET : Field := ⟨0x30, 10, 10⟩
def TOP_FOLIO_SEL_FOLIO : Field := ⟨0x30, 9, 8⟩
def TOP_FOLIO_SEL_RESULT : Field := ⟨0x30, 7, 4⟩
def TOP_FOLIO_SEL_STATE : Field := ⟨0x30, 3, 0⟩
def TOP_FOLIO_STAT_NEXT_VALID : Field := ⟨0x34, 14, 14⟩
def TOP_FOLIO_STAT_NEXT : Field := ⟨0x34, 13, 12⟩
def TOP_FOLIO_STAT_AVAIL : Field := ⟨0x34, 11, 8⟩
def TOP_FOLIO_STAT_SUBST : Field := ⟨0x34, 6, 6⟩
def TOP_FOLIO_STAT_PEND_VALID : Field := ⟨0x34, 5, 5⟩
def TOP_FOLIO_STAT_PENDING : Field := ⟨0x34, 4, 3⟩
def TOP_FOLIO_STAT_ACTIVE : Field := ⟨0x34, 1, 0⟩
def MTM_CTL_SHELF_HOLD : Field := ⟨0x100000, 5, 5⟩
def MTM_CTL_NOMINAL : Field := ⟨0x100000, 4, 4⟩
def MTM_CTL_REF_EN : Field := ⟨0x100000, 2, 0⟩
def MTM_STATUS_STEP_PEND : Field := ⟨0x100004, 8, 8⟩
def MTM_STATUS_CYC_AMBIG : Field := ⟨0x100004, 7, 7⟩
def MTM_STATUS_CYC_ADOPTED : Field := ⟨0x100004, 6, 6⟩
def MTM_STATUS_LT_SYNC : Field := ⟨0x100004, 5, 5⟩
def MTM_STATUS_LOCKED : Field := ⟨0x100004, 4, 4⟩
def MTM_STATUS_VALID : Field := ⟨0x100004, 3, 3⟩
def MTM_STATUS_SRC : Field := ⟨0x100004, 2, 0⟩
def MTM_REF_OFFSET_DELAY : Field := ⟨0x100008, 23, 0⟩
def MTM_REF_STAT_C : Field := ⟨0x10000C, 5, 4⟩
def MTM_REF_STAT_B : Field := ⟨0x10000C, 3, 2⟩
def MTM_REF_STAT_A : Field := ⟨0x10000C, 1, 0⟩
def MTM_FREQ_FREQ : Field := ⟨0x100010, 31, 0⟩
def MTM_EPOCH_WRAPS : Field := ⟨0x100014, 15, 0⟩
def MTM_MT_NOW_PHASE : Field := ⟨0x100020, 15, 0⟩
def MTM_LT_NOW_LT : Wide := ⟨0x100028, 64⟩
def MTM_SNAP_GO : Field := ⟨0x100030, 8, 8⟩
def MTM_SNAP_RESULT : Field := ⟨0x100030, 7, 4⟩
def MTM_SNAP_STATE : Field := ⟨0x100030, 3, 0⟩
def MTM_SNAP_MT_VALUE : Wide := ⟨0x100038, 48⟩
def MTM_SNAP_LT_VALUE : Wide := ⟨0x100040, 64⟩
def MTM_LT_LOAD_VAL_VALUE : Wide := ⟨0x100048, 64⟩
def MTM_LEARN_A_LEARNED : Field := ⟨0x100050, 16, 16⟩
def MTM_LEARN_A_OFS : Field := ⟨0x100050, 15, 0⟩
def MTM_LEARN_B_LEARNED : Field := ⟨0x100054, 16, 16⟩
def MTM_LEARN_B_OFS : Field := ⟨0x100054, 15, 0⟩
def MTM_LEARN_C_LEARNED : Field := ⟨0x100058, 16, 16⟩
def MTM_LEARN_C_OFS : Field := ⟨0x100058, 15, 0⟩
def MTM_HOLD_DRIFT_D : Field := ⟨0x100060, 15, 0⟩
def MTM_HOLD_BOUND_BOUND : Field := ⟨0x100064, 31, 0⟩
def MTM_LAST_ERR_E : Field := ⟨0x100068, 15, 0⟩
def MTM_LT_ADJ_RATE : Field := ⟨0x100070, 23, 0⟩
def MTM_LT_STEP_AMOUNT : Field := ⟨0x100074, 31, 8⟩
def MTM_LT_STEP_RESULT : Field := ⟨0x100074, 7, 4⟩
def MTM_LT_STEP_STATE : Field := ⟨0x100074, 3, 0⟩
def MTM_LT_LOAD_GO : Field := ⟨0x100078, 8, 8⟩
def MTM_LT_LOAD_RESULT : Field := ⟨0x100078, 7, 4⟩
def MTM_LT_LOAD_STATE : Field := ⟨0x100078, 3, 0⟩
def MTM_ALM_PENDV_PEND (n : Nat) : Field := ⟨0x100080 + 0x4 * n, 31, 0⟩
def MTM_ALM_PENDO_PEND (n : Nat) : Field := ⟨0x100088 + 0x4 * n, 31, 0⟩
def MTM_ALM_PENDG_PEND (n : Nat) : Field := ⟨0x100098 + 0x4 * n, 31, 0⟩
def MTM_ALM_OPEN_V_OPEN (n : Nat) : Wide := ⟨0x101000 + 0x10 * n, 48⟩
def MTM_ALM_WIDTH_V_WIDTH (n : Nat) : Field := ⟨0x101008 + 0x10 * n, 31, 0⟩
def MTM_ALM_CTL_V_REPEAT (n : Nat) : Field := ⟨0x10100C + 0x10 * n, 31, 16⟩
def MTM_ALM_CTL_V_ARG (n : Nat) : Field := ⟨0x10100C + 0x10 * n, 15, 8⟩
def MTM_ALM_CTL_V_ACTION (n : Nat) : Field := ⟨0x10100C + 0x10 * n, 7, 4⟩
def MTM_ALM_CTL_V_SKIPPED (n : Nat) : Field := ⟨0x10100C + 0x10 * n, 3, 3⟩
def MTM_ALM_CTL_V_MISSED (n : Nat) : Field := ⟨0x10100C + 0x10 * n, 2, 2⟩
def MTM_ALM_CTL_V_EN (n : Nat) : Field := ⟨0x10100C + 0x10 * n, 0, 0⟩
def MTM_ALM_OPEN_O_OPEN (n : Nat) : Wide := ⟨0x101400 + 0x10 * n, 48⟩
def MTM_ALM_WIDTH_O_WIDTH (n : Nat) : Field := ⟨0x101408 + 0x10 * n, 31, 0⟩
def MTM_ALM_CTL_O_REPEAT (n : Nat) : Field := ⟨0x10140C + 0x10 * n, 31, 16⟩
def MTM_ALM_CTL_O_ARG (n : Nat) : Field := ⟨0x10140C + 0x10 * n, 15, 8⟩
def MTM_ALM_CTL_O_ACTION (n : Nat) : Field := ⟨0x10140C + 0x10 * n, 7, 4⟩
def MTM_ALM_CTL_O_SKIPPED (n : Nat) : Field := ⟨0x10140C + 0x10 * n, 3, 3⟩
def MTM_ALM_CTL_O_MISSED (n : Nat) : Field := ⟨0x10140C + 0x10 * n, 2, 2⟩
def MTM_ALM_CTL_O_EN (n : Nat) : Field := ⟨0x10140C + 0x10 * n, 0, 0⟩
def MTM_ALM_OPEN_G_OPEN (n : Nat) : Wide := ⟨0x101C00 + 0x10 * n, 48⟩
def MTM_ALM_WIDTH_G_WIDTH (n : Nat) : Field := ⟨0x101C08 + 0x10 * n, 31, 0⟩
def MTM_ALM_CTL_G_REPEAT (n : Nat) : Field := ⟨0x101C0C + 0x10 * n, 31, 16⟩
def MTM_ALM_CTL_G_ARG (n : Nat) : Field := ⟨0x101C0C + 0x10 * n, 15, 8⟩
def MTM_ALM_CTL_G_ACTION (n : Nat) : Field := ⟨0x101C0C + 0x10 * n, 7, 4⟩
def MTM_ALM_CTL_G_SKIPPED (n : Nat) : Field := ⟨0x101C0C + 0x10 * n, 3, 3⟩
def MTM_ALM_CTL_G_MISSED (n : Nat) : Field := ⟨0x101C0C + 0x10 * n, 2, 2⟩
def MTM_ALM_CTL_G_EN (n : Nat) : Field := ⟨0x101C0C + 0x10 * n, 0, 0⟩
def PWR_STATE_DOM_LP : Field := ⟨0x200000, 23, 16⟩
def PWR_STATE_DOM_UP : Field := ⟨0x200000, 15, 8⟩
def PWR_STATE_RETURN : Field := ⟨0x200000, 4, 3⟩
def PWR_STATE_STATE : Field := ⟨0x200000, 1, 0⟩
def PWR_STATE_CMD_TARGET : Field := ⟨0x200004, 9, 8⟩
def PWR_STATE_CMD_RESULT : Field := ⟨0x200004, 7, 4⟩
def PWR_STATE_CMD_STATE : Field := ⟨0x200004, 3, 0⟩
def PWR_IDLE_IDLE (n : Nat) : Field := ⟨0x200014 + 0x4 * n, 23, 0⟩
def PWR_REDUCED_CHAINS_B : Field := ⟨0x200030, 11, 8⟩
def PWR_REDUCED_CHAINS_A : Field := ⟨0x200030, 7, 0⟩
def PWR_WAKE_CFG_WAKE_N_EN : Field := ⟨0x200034, 19, 19⟩
def PWR_WAKE_CFG_SG_EN : Field := ⟨0x200034, 18, 18⟩
def PWR_WAKE_CFG_SG_CH : Field := ⟨0x200034, 17, 12⟩
def PWR_WAKE_CFG_RFA : Field := ⟨0x200034, 10, 10⟩
def PWR_WAKE_CFG_RFB : Field := ⟨0x200034, 9, 8⟩
def PWR_WAKE_CFG_PORTS : Field := ⟨0x200034, 7, 0⟩
def PWR_WAIT_PEND : Field := ⟨0x200040, 31, 0⟩
def PWR_AON_CTL_BROWNOUTS : Field := ⟨0x200050, 10, 8⟩
def PWR_AON_CTL_LP_LOCK : Field := ⟨0x200050, 2, 2⟩
def PWR_AON_CTL_LP_ACTIVE : Field := ⟨0x200050, 1, 1⟩
def PWR_AON_CTL_LP_EN : Field := ⟨0x200050, 0, 0⟩
def PWR_VIN_HIGH : Field := ⟨0x200060, 18, 18⟩
def PWR_VIN_LOW : Field := ⟨0x200060, 17, 17⟩
def PWR_VIN_VALID : Field := ⟨0x200060, 16, 16⟩
def PWR_VIN_MV : Field := ⟨0x200060, 15, 0⟩
def PWR_PMBUS_CFG_EN : Field := ⟨0x200100, 31, 31⟩
def PWR_PMBUS_CFG_FAST : Field := ⟨0x200100, 30, 30⟩
def PWR_PMBUS_CFG_ADDR : Field := ⟨0x200100, 6, 0⟩
def PWR_PERMIT_CFG_WANT_B : Field := ⟨0x200104, 6, 4⟩
def PWR_PERMIT_CFG_WANT_A : Field := ⟨0x200104, 2, 0⟩
def PWR_PERMIT_STAT_LEASE_LEFT (n : Nat) : Field := ⟨0x200110 + 0x4 * n, 31, 16⟩
def PWR_PERMIT_STAT_STATE (n : Nat) : Field := ⟨0x200110 + 0x4 * n, 9, 8⟩
def PWR_PERMIT_STAT_GRANTED (n : Nat) : Field := ⟨0x200110 + 0x4 * n, 6, 4⟩
def PWR_PERMIT_STAT_PERMITTED (n : Nat) : Field := ⟨0x200110 + 0x4 * n, 2, 0⟩
def PWR_CMD_OFF_TIME : Field := ⟨0x200120, 23, 16⟩
def PWR_CMD_OP : Field := ⟨0x200120, 11, 8⟩
def PWR_CMD_RESULT : Field := ⟨0x200120, 7, 4⟩
def PWR_CMD_STATE : Field := ⟨0x200120, 3, 0⟩
def PWR_SUPPLY_STATUS_W : Field := ⟨0x200130, 15, 0⟩
def PWR_SUPPLY_VIN_W : Field := ⟨0x200134, 15, 0⟩
def PWR_SUPPLY_IIN_W : Field := ⟨0x200138, 15, 0⟩
def PWR_SUPPLY_POUT_W : Field := ⟨0x20013C, 15, 0⟩
def PWR_CNT_PERMIT_REQ : Wide := ⟨0x200300, 48⟩
def PWR_CNT_PERMIT_GRANT : Wide := ⟨0x200308, 48⟩
def PWR_CNT_PERMIT_DENIED : Wide := ⟨0x200310, 48⟩
def PWR_CNT_WAKE : Wide := ⟨0x200318, 48⟩
def PWR_CNT_BROWNOUT : Wide := ⟨0x200320, 48⟩
def ASY_STATUS_REPLACE : Field := ⟨0x300000, 31, 31⟩
def ASY_STATUS_SAFE : Field := ⟨0x300000, 30, 30⟩
def ASY_STATUS_HV_SAFE : Field := ⟨0x300000, 29, 29⟩
def ASY_STATUS_LFT_DUE : Field := ⟨0x300000, 28, 28⟩
def ASY_STATUS_LFT_OVERDUE : Field := ⟨0x300000, 27, 27⟩
def ASY_STATUS_SAFE_LEVEL : Field := ⟨0x300000, 23, 16⟩
def ASY_STATUS_FUNC_DEG : Field := ⟨0x300000, 12, 0⟩
def ASY_CFG_AUTO_RELEASE : Field := ⟨0x300004, 31, 31⟩
def ASY_CFG_OFF_TIME : Field := ⟨0x300004, 23, 16⟩
def ASY_CFG_CLEAR_S : Field := ⟨0x300004, 15, 0⟩
def ASY_CMD_FUNCTION : Field := ⟨0x300008, 19, 16⟩
def ASY_CMD_RUNG : Field := ⟨0x300008, 13, 12⟩
def ASY_CMD_OP : Field := ⟨0x300008, 11, 8⟩
def ASY_CMD_RESULT : Field := ⟨0x300008, 7, 4⟩
def ASY_CMD_STATE : Field := ⟨0x300008, 3, 0⟩
def ASY_CAUSE_CAUSE : Field := ⟨0x300010, 9, 0⟩
def ASY_CAUSE_SEEN_CAUSE : Field := ⟨0x300014, 9, 0⟩
def ASY_LFT_STAT_PASS : Field := ⟨0x300020, 31, 31⟩
def ASY_LFT_STAT_RUNNING : Field := ⟨0x300020, 30, 30⟩
def ASY_LFT_STAT_FAIL : Field := ⟨0x300020, 10, 0⟩
def ASY_LFT_LT_LT : Wide := ⟨0x300028, 64⟩
def ASY_FUNC_STATE (n : Nat) : Field := ⟨0x300100 + 0x4 * n, 31, 28⟩
def ASY_FUNC_RUNG (n : Nat) : Field := ⟨0x300100 + 0x4 * n, 26, 24⟩
def ASY_FUNC_R3_COUNT (n : Nat) : Field := ⟨0x300100 + 0x4 * n, 19, 16⟩
def ASY_FUNC_CAUSE (n : Nat) : Field := ⟨0x300100 + 0x4 * n, 15, 8⟩
def ASY_CNT_SAFE_ENTRY : Wide := ⟨0x300300, 48⟩
def ASY_CNT_RUNG1 : Wide := ⟨0x300308, 48⟩
def ASY_CNT_RUNG2 : Wide := ⟨0x300310, 48⟩
def ASY_CNT_RUNG3 : Wide := ⟨0x300318, 48⟩
def ASY_CNT_RUNG4 : Wide := ⟨0x300320, 48⟩
def ASY_CNT_HB_MISS : Wide := ⟨0x300328, 48⟩
def ASY_CNT_LFT_RUN : Wide := ⟨0x300330, 48⟩
def ASY_CNT_LFT_FAIL : Wide := ⟨0x300338, 48⟩
def ASY_WGC_CORR : Wide := ⟨0x300400, 48⟩
def ASY_WGC_UNCORR : Wide := ⟨0x300408, 48⟩
def ASY_WGC_LAST_VALID : Field := ⟨0x300410, 31, 31⟩
def ASY_WGC_LAST_TYPE : Field := ⟨0x300410, 30, 30⟩
def ASY_WGC_LAST_POS : Field := ⟨0x300410, 29, 24⟩
def ASY_WGC_LAST_SOURCE : Field := ⟨0x300410, 23, 20⟩
def ASY_WGC_LAST_ADDR_W : Field := ⟨0x300414, 31, 0⟩
def ASY_WGC_THR_THR : Field := ⟨0x300418, 31, 0⟩
def ASY_WGC_STAT_UNC_SEEN : Field := ⟨0x30041C, 1, 1⟩
def ASY_WGC_STAT_RATE_HIGH : Field := ⟨0x30041C, 0, 0⟩
def CFG_STATUS_BAD_SECTION : Field := ⟨0x400000, 23, 16⟩
def CFG_STATUS_PROG_ERR : Field := ⟨0x400000, 9, 9⟩
def CFG_STATUS_PARTIAL : Field := ⟨0x400000, 8, 8⟩
def CFG_STATUS_FALLBACK : Field := ⟨0x400000, 7, 7⟩
def CFG_STATUS_TRIAL : Field := ⟨0x400000, 6, 6⟩
def CFG_STATUS_BANK : Field := ⟨0x400000, 5, 5⟩
def CFG_STATUS_PHASE : Field := ⟨0x400000, 3, 0⟩
def CFG_BANK_RB_RUN : Field := ⟨0x400004, 23, 16⟩
def CFG_BANK_OTP_RB : Field := ⟨0x400004, 15, 8⟩
def CFG_BANK_TRIALS : Field := ⟨0x400004, 3, 2⟩
def CFG_BANK_VALID_B : Field := ⟨0x400004, 1, 1⟩
def CFG_BANK_VALID_A : Field := ⟨0x400004, 0, 0⟩
def CFG_CMD_OP : Field := ⟨0x400008, 11, 8⟩
def CFG_CMD_RESULT : Field := ⟨0x400008, 7, 4⟩
def CFG_CMD_STATE : Field := ⟨0x400008, 3, 0⟩
def CFG_SEQ_A_SEQ : Field := ⟨0x400010, 31, 0⟩
def CFG_SEQ_B_SEQ : Field := ⟨0x400014, 31, 0⟩
def CFG_CONF_SEQ_SEQ : Field := ⟨0x400018, 31, 0⟩
def CFG_NVM_PTR_BANK : Field := ⟨0x400020, 25, 25⟩
def CFG_NVM_PTR_OFFSET : Field := ⟨0x400020, 24, 0⟩
def CFG_NVM_DATA_DATA : Field := ⟨0x400024, 31, 0⟩
def PKB_STATUS_RETIRED : Field := ⟨0x1000000, 30, 20⟩
def PKB_STATUS_FREE : Field := ⟨0x1000000, 17, 0⟩
def PKB_QCMD_QUIRE : Field := ⟨0x1000008, 22, 16⟩
def PKB_QCMD_OP : Field := ⟨0x1000008, 11, 8⟩
def PKB_QCMD_RESULT : Field := ⟨0x1000008, 7, 4⟩
def PKB_QCMD_STATE : Field := ⟨0x1000008, 3, 0⟩
def PKB_CNT_TRUNC : Wide := ⟨0x1000100, 48⟩
def PKB_CNT_NOCELL : Wide := ⟨0x1000108, 48⟩
def PKB_CNT_ABORT : Wide := ⟨0x1000110, 48⟩
def PKB_CNT_EMPTY : Wide := ⟨0x1000118, 48⟩
def PKB_CNT_POISON_DROP : Wide := ⟨0x1000120, 48⟩
def PKB_CNT_HDR_POISON : Wide := ⟨0x1000128, 48⟩
def PKB_WGC_CORR : Wide := ⟨0x1000200, 48⟩
def PKB_WGC_UNCORR : Wide := ⟨0x1000208, 48⟩
def PKB_WGC_LAST_VALID : Field := ⟨0x1000210, 31, 31⟩
def PKB_WGC_LAST_TYPE : Field := ⟨0x1000210, 30, 30⟩
def PKB_WGC_LAST_POS : Field := ⟨0x1000210, 29, 24⟩
def PKB_WGC_LAST_SOURCE : Field := ⟨0x1000210, 23, 20⟩
def PKB_WGC_LAST_ADDR_W : Field := ⟨0x1000214, 31, 0⟩
def PKB_WGC_THR_THR : Field := ⟨0x1000218, 31, 0⟩
def PKB_WGC_STAT_UNC_SEEN : Field := ⟨0x100021C, 1, 1⟩
def PKB_WGC_STAT_RATE_HIGH : Field := ⟨0x100021C, 0, 0⟩
def PKB_Q_CFG_EN (n : Nat) : Field := ⟨0x1001000 + 0x20 * n, 31, 31⟩
def PKB_Q_CFG_WIDTH (n : Nat) : Field := ⟨0x1001000 + 0x20 * n, 30, 30⟩
def PKB_Q_CFG_LEVEL (n : Nat) : Field := ⟨0x1001000 + 0x20 * n, 29, 28⟩
def PKB_Q_CFG_PROD (n : Nat) : Field := ⟨0x1001000 + 0x20 * n, 20, 16⟩
def PKB_Q_CFG_CONS (n : Nat) : Field := ⟨0x1001000 + 0x20 * n, 12, 8⟩
def PKB_Q_LIMIT_QUOTA (n : Nat) : Field := ⟨0x1001004 + 0x20 * n, 31, 16⟩
def PKB_Q_LIMIT_RESERVE (n : Nat) : Field := ⟨0x1001004 + 0x20 * n, 15, 0⟩
def PKB_Q_STAT_PKTS (n : Nat) : Field := ⟨0x1001008 + 0x20 * n, 31, 18⟩
def PKB_Q_STAT_CELLS (n : Nat) : Field := ⟨0x1001008 + 0x20 * n, 17, 0⟩
def PKB_Q_CORR (n : Nat) : Wide := ⟨0x1001010 + 0x20 * n, 48⟩
def PKB_Q_UNC (n : Nat) : Wide := ⟨0x1001018 + 0x20 * n, 48⟩
def PAR_COMMIT_GO : Field := ⟨0x1100000, 8, 8⟩
def PAR_COMMIT_RESULT : Field := ⟨0x1100000, 7, 4⟩
def PAR_COMMIT_STATE : Field := ⟨0x1100000, 3, 0⟩
def PAR_EDITION_OLDEST : Field := ⟨0x1100004, 31, 16⟩
def PAR_EDITION_CURRENT : Field := ⟨0x1100004, 15, 0⟩
def PAR_ED_REF_LIVE (n : Nat) : Field := ⟨0x1100010 + 0x4 * n, 31, 31⟩
def PAR_ED_REF_REFS (n : Nat) : Field := ⟨0x1100010 + 0x4 * n, 19, 0⟩
def PAR_FRAG_STAT_HELD : Field := ⟨0x1100020, 24, 16⟩
def PAR_FRAG_STAT_ENTRIES : Field := ⟨0x1100020, 12, 0⟩
def PAR_RULE_CMD_OP : Field := ⟨0x1100030, 31, 30⟩
def PAR_RULE_CMD_TABLE : Field := ⟨0x1100030, 29, 29⟩
def PAR_RULE_CMD_INDEX : Field := ⟨0x1100030, 28, 9⟩
def PAR_RULE_CMD_RESULT : Field := ⟨0x1100030, 7, 4⟩
def PAR_RULE_CMD_STATE : Field := ⟨0x1100030, 3, 0⟩
def PAR_RULE_RES_INDEX : Field := ⟨0x1100034, 19, 0⟩
def PAR_RULE_BUF_VALUE_W (n : Nat) : Field := ⟨0x1100100 + 0x4 * n, 31, 0⟩
def PAR_RULE_BUF_MASK_W (n : Nat) : Field := ⟨0x1100140 + 0x4 * n, 31, 0⟩
def PAR_RULE_BUF_ACTION_W (n : Nat) : Field := ⟨0x1100180 + 0x4 * n, 31, 0⟩
def PAR_RULE_BUF_RANGE_UNTIL : Field := ⟨0x1100188, 31, 16⟩
def PAR_RULE_BUF_RANGE_FROM : Field := ⟨0x1100188, 15, 0⟩
def PAR_RULE_BUF_FLAGS_OPEN : Field := ⟨0x110018C, 0, 0⟩
def PAR_RULE_BUF_FLAGS_OVERRIDE : Field := ⟨0x110018C, 1, 1⟩
def PAR_RULE_BUF_FLAGS_SETTLED : Field := ⟨0x110018C, 2, 2⟩
def PAR_MAL_CFG_N (n : Nat) : Field := ⟨0x1100200 + 0x4 * n, 31, 16⟩
def PAR_MAL_CFG_QUIRE (n : Nat) : Field := ⟨0x1100200 + 0x4 * n, 14, 8⟩
def PAR_MAL_CFG_ACTION (n : Nat) : Field := ⟨0x1100200 + 0x4 * n, 1, 0⟩
def PAR_MAL_TRUNCATED : Wide := ⟨0x1100300, 48⟩
def PAR_MAL_DEPTH : Wide := ⟨0x1100308, 48⟩
def PAR_MAL_LENGTH : Wide := ⟨0x1100310, 48⟩
def PAR_MAL_FRAG_ORPHAN : Wide := ⟨0x1100318, 48⟩
def PAR_MAL_FRAG_OVERLAP : Wide := ⟨0x1100320, 48⟩
def PAR_MAL_BAD_OPTION : Wide := ⟨0x1100328, 48⟩
def PAR_MAL_PARSE_TIMEOUT : Wide := ⟨0x1100330, 48⟩
def PAR_CNT_BAD : Wide := ⟨0x1100380, 48⟩
def PAR_CNT_EXC_FULL : Wide := ⟨0x1100388, 48⟩
def PAR_CNT_FRAG_TABLE_FULL : Wide := ⟨0x1100390, 48⟩
def PAR_CNT_FRAG_RANGE_FULL : Wide := ⟨0x1100398, 48⟩
def PAR_WGC_CORR : Wide := ⟨0x1100400, 48⟩
def PAR_WGC_UNCORR : Wide := ⟨0x1100408, 48⟩
def PAR_WGC_LAST_VALID : Field := ⟨0x1100410, 31, 31⟩
def PAR_WGC_LAST_TYPE : Field := ⟨0x1100410, 30, 30⟩
def PAR_WGC_LAST_POS : Field := ⟨0x1100410, 29, 24⟩
def PAR_WGC_LAST_SOURCE : Field := ⟨0x1100410, 23, 20⟩
def PAR_WGC_LAST_ADDR_W : Field := ⟨0x1100414, 31, 0⟩
def PAR_WGC_THR_THR : Field := ⟨0x1100418, 31, 0⟩
def PAR_WGC_STAT_UNC_SEEN : Field := ⟨0x110041C, 1, 1⟩
def PAR_WGC_STAT_RATE_HIGH : Field := ⟨0x110041C, 0, 0⟩
def PAR_PROG_BAD_FWD (n : Nat) : Field := ⟨0x1102000 + 0x4 * n, 31, 31⟩
def PAR_PROG_ENTRY (n : Nat) : Field := ⟨0x1102000 + 0x4 * n, 30, 23⟩
def PAR_PROG_RAW_Q (n : Nat) : Field := ⟨0x1102000 + 0x4 * n, 14, 0⟩
def FLW_STATUS_LIMP : Field := ⟨0x1200000, 31, 31⟩
def FLW_STATUS : Field := ⟨0x1200000, 23, 0⟩
def FLW_SRAM_COUNT : Field := ⟨0x1200004, 18, 0⟩
def FLW_CTL_NAT_Q : Field := ⟨0x1200008, 22, 16⟩
def FLW_CTL_TTL_Q : Field := ⟨0x1200008, 14, 8⟩
def FLW_CTL_EXP_Q : Field := ⟨0x1200008, 6, 0⟩
def FLW_HASH_SEED_SEED : Field := ⟨0x120000C, 31, 0⟩
def FLW_REMOTE_TMO_TMO : Field := ⟨0x1200010, 15, 0⟩
def FLW_FLOW_CMD_OP : Field := ⟨0x1200020, 11, 8⟩
def FLW_FLOW_CMD_RESULT : Field := ⟨0x1200020, 7, 4⟩
def FLW_FLOW_CMD_STATE : Field := ⟨0x1200020, 3, 0⟩
def FLW_FLOW_BUF_W (n : Nat) : Field := ⟨0x1200100 + 0x4 * n, 31, 0⟩
def FLW_ROUTE_CMD_VRF : Field := ⟨0x1200200, 21, 16⟩
def FLW_ROUTE_CMD_OP : Field := ⟨0x1200200, 11, 8⟩
def FLW_ROUTE_CMD_RESULT : Field := ⟨0x1200200, 7, 4⟩
def FLW_ROUTE_CMD_STATE : Field := ⟨0x1200200, 3, 0⟩
def FLW_ROUTE_BUF_PREFIX_W (n : Nat) : Field := ⟨0x1200210 + 0x4 * n, 31, 0⟩
def FLW_ROUTE_BUF_DESC_LEN : Field := ⟨0x1200220, 7, 0⟩
def FLW_ROUTE_BUF_DESC_VRF : Field := ⟨0x1200220, 13, 8⟩
def FLW_ROUTE_BUF_DESC_V6 : Field := ⟨0x1200220, 16, 16⟩
def FLW_ROUTE_BUF_DESC_LIMP : Field := ⟨0x1200220, 17, 17⟩
def FLW_ROUTE_BUF_NH_NH : Field := ⟨0x1200224, 15, 0⟩
def FLW_CNT_NO_KEY : Wide := ⟨0x1200300, 48⟩
def FLW_CNT_TABLE_FULL : Wide := ⟨0x1200308, 48⟩
def FLW_CNT_NO_ROUTE : Wide := ⟨0x1200310, 48⟩
def FLW_CNT_TTL : Wide := ⟨0x1200318, 48⟩
def FLW_CNT_MTU : Wide := ⟨0x1200320, 48⟩
def FLW_CNT_NAT_EXHAUST : Wide := ⟨0x1200328, 48⟩
def FLW_CNT_NAT_EXC : Wide := ⟨0x1200330, 48⟩
def FLW_CNT_FRAG_NOFLOW : Wide := ⟨0x1200338, 48⟩
def FLW_CNT_REMOTE_TMO : Wide := ⟨0x1200340, 48⟩
def FLW_CNT_LIMP_DROP : Wide := ⟨0x1200348, 48⟩
def FLW_CNT_EXPORT_LOST : Wide := ⟨0x1200350, 48⟩
def FLW_WGC_CORR : Wide := ⟨0x1200400, 48⟩
def FLW_WGC_UNCORR : Wide := ⟨0x1200408, 48⟩
def FLW_WGC_LAST_VALID : Field := ⟨0x1200410, 31, 31⟩
def FLW_WGC_LAST_TYPE : Field := ⟨0x1200410, 30, 30⟩
def FLW_WGC_LAST_POS : Field := ⟨0x1200410, 29, 24⟩
def FLW_WGC_LAST_SOURCE : Field := ⟨0x1200410, 23, 20⟩
def FLW_WGC_LAST_ADDR_W : Field := ⟨0x1200414, 31, 0⟩
def FLW_WGC_THR_THR : Field := ⟨0x1200418, 31, 0⟩
def FLW_WGC_STAT_UNC_SEEN : Field := ⟨0x120041C, 1, 1⟩
def FLW_WGC_STAT_RATE_HIGH : Field := ⟨0x120041C, 0, 0⟩
def FLW_CLASS_END (n : Nat) : Field := ⟨0x1201000 + 0x8 * n, 30, 16⟩
def FLW_CLASS_IDLE (n : Nat) : Field := ⟨0x1201000 + 0x8 * n, 14, 0⟩
def FLW_CLASS_FULL (n : Nat) : Field := ⟨0x1201004 + 0x8 * n, 1, 1⟩
def FLW_CLASS_TIER_NEW (n : Nat) : Field := ⟨0x1201004 + 0x8 * n, 0, 0⟩
def FLW_VRF_CTL_GEN (n : Nat) : Field := ⟨0x1202000 + 0x10 * n, 7, 0⟩
def FLW_VRF_CTL_DEFAULT (n : Nat) : Field := ⟨0x1202000 + 0x10 * n, 8, 8⟩
def FLW_VRF_POOL_BASE_W (n : Nat) : Field := ⟨0x1202004 + 0x10 * n, 31, 0⟩
def FLW_VRF_POOL_POOL_LOG2 (n : Nat) : Field := ⟨0x1202008 + 0x10 * n, 3, 0⟩
def FLW_VRF_POOL_PORT_LO (n : Nat) : Field := ⟨0x1202008 + 0x10 * n, 31, 16⟩
def FLW_PFX64_W (n : Nat) : Field := ⟨0x1203000 + 0x4 * n, 31, 0⟩
def FLW_NH_MTU (n : Nat) : Field := ⟨0x1240000 + 0x8 * n, 31, 16⟩
def FLW_NH_QBASE (n : Nat) : Field := ⟨0x1240000 + 0x8 * n, 14, 0⟩
def FLW_NH_VALID (n : Nat) : Field := ⟨0x1240004 + 0x8 * n, 31, 31⟩
def FLW_NH_REWRITE (n : Nat) : Field := ⟨0x1240004 + 0x8 * n, 19, 0⟩
def SCH_WHEEL_STAT_MAIN : Field := ⟨0x1300000, 17, 0⟩
def SCH_OVF_STAT_OVF : Field := ⟨0x1300004, 17, 0⟩
def SCH_NODE_CMD_KIND : Field := ⟨0x1300010, 31, 30⟩
def SCH_NODE_CMD_OP : Field := ⟨0x1300010, 29, 28⟩
def SCH_NODE_CMD_INDEX : Field := ⟨0x1300010, 23, 8⟩
def SCH_NODE_CMD_RESULT : Field := ⟨0x1300010, 7, 4⟩
def SCH_NODE_CMD_STATE : Field := ⟨0x1300010, 3, 0⟩
def SCH_NODE_BUF_CFG_W (n : Nat) : Field := ⟨0x1300020 + 0x4 * n, 31, 0⟩
def SCH_NODE_BUF_STAT_W (n : Nat) : Field := ⟨0x130002C + 0x4 * n, 31, 0⟩
def SCH_ROOT_EN (n : Nat) : Field := ⟨0x1300100 + 0x8 * n, 31, 31⟩
def SCH_ROOT_SHAPED (n : Nat) : Field := ⟨0x1300100 + 0x8 * n, 30, 30⟩
def SCH_ROOT_SHAPER (n : Nat) : Field := ⟨0x1300100 + 0x8 * n, 15, 0⟩
def SCH_ROOT_PAUSED (n : Nat) : Field := ⟨0x1300104 + 0x8 * n, 16, 16⟩
def SCH_ROOT_PFC (n : Nat) : Field := ⟨0x1300104 + 0x8 * n, 15, 8⟩
def SCH_ROOT_ADJ (n : Nat) : Field := ⟨0x1300104 + 0x8 * n, 7, 0⟩
def SCH_CNT_TAIL_DROP : Wide := ⟨0x1300300, 48⟩
def SCH_CNT_NOQUEUE : Wide := ⟨0x1300308, 48⟩
def SCH_CNT_CLASS_LOWERED : Wide := ⟨0x1300310, 48⟩
def SCH_CNT_WIFI_UNUSED : Wide := ⟨0x1300318, 48⟩
def SCH_CNT_CELL_EMPTY : Wide := ⟨0x1300320, 48⟩
def SCH_CNT_CELL_BUDGET : Wide := ⟨0x1300328, 48⟩
def SCH_CNT_CELL_RETURN : Wide := ⟨0x1300330, 48⟩
def SCH_CNT_FAR : Wide := ⟨0x1300338, 48⟩
def SCH_WGC_CORR : Wide := ⟨0x1300400, 48⟩
def SCH_WGC_UNCORR : Wide := ⟨0x1300408, 48⟩
def SCH_WGC_LAST_VALID : Field := ⟨0x1300410, 31, 31⟩
def SCH_WGC_LAST_TYPE : Field := ⟨0x1300410, 30, 30⟩
def SCH_WGC_LAST_POS : Field := ⟨0x1300410, 29, 24⟩
def SCH_WGC_LAST_SOURCE : Field := ⟨0x1300410, 23, 20⟩
def SCH_WGC_LAST_ADDR_W : Field := ⟨0x1300414, 31, 0⟩
def SCH_WGC_THR_THR : Field := ⟨0x1300418, 31, 0⟩
def SCH_WGC_STAT_UNC_SEEN : Field := ⟨0x130041C, 1, 1⟩
def SCH_WGC_STAT_RATE_HIGH : Field := ⟨0x130041C, 0, 0⟩
def PLE_CTL_NAT_MOVE : Field := ⟨0x1400000, 8, 8⟩
def PLE_CTL_LOG_EN : Field := ⟨0x1400000, 4, 4⟩
def PLE_CTL_TIER_EN : Field := ⟨0x1400000, 3, 0⟩
def PLE_STATUS_OPEN_MOVES : Field := ⟨0x1400004, 22, 16⟩
def PLE_STATUS_PINS : Field := ⟨0x1400004, 12, 0⟩
def PLE_STATE_LEAD_OK : Field := ⟨0x1400008, 28, 28⟩
def PLE_STATE_LIMP : Field := ⟨0x1400008, 27, 27⟩
def PLE_STATE_BIAS : Field := ⟨0x1400008, 25, 16⟩
def PLE_STATE_LOAD : Field := ⟨0x1400008, 9, 0⟩
def PLE_WEIGHT_W3_W0 (n : Nat) : Field := ⟨0x1400100 + 0x8 * n, 31, 0⟩
def PLE_WEIGHT_W7_W4 (n : Nat) : Field := ⟨0x1400104 + 0x8 * n, 31, 0⟩
def PLE_HYST_K (n : Nat) : Field := ⟨0x1400140 + 0x8 * n, 31, 24⟩
def PLE_HYST_HYST (n : Nat) : Field := ⟨0x1400140 + 0x8 * n, 23, 0⟩
def PLE_HYST_HOLD (n : Nat) : Field := ⟨0x1400144 + 0x8 * n, 23, 0⟩
def PLE_T1_LQ_FULL : Field := ⟨0x1400200, 31, 16⟩
def PLE_T1_LQ_MIN : Field := ⟨0x1400200, 15, 6⟩
def PLE_T1_SPREAD_SPREAD : Field := ⟨0x1400204, 23, 0⟩
def PLE_T2_SRAM_LO : Field := ⟨0x1400210, 25, 16⟩
def PLE_T2_SRAM_HI : Field := ⟨0x1400210, 9, 0⟩
def PLE_T2_THR_THR : Field := ⟨0x1400214, 23, 0⟩
def PLE_T2_ACT_LOCAL_MIN : Field := ⟨0x1400218, 25, 16⟩
def PLE_T2_ACT_ACT_FULL : Field := ⟨0x1400218, 15, 0⟩
def PLE_T2_BUDGET_OWN : Field := ⟨0x140021C, 24, 16⟩
def PLE_T2_BUDGET_TIER : Field := ⟨0x140021C, 12, 0⟩
def PLE_T3_BACKOFF_MAX : Field := ⟨0x1400220, 31, 16⟩
def PLE_T3_BACKOFF : Field := ⟨0x1400220, 15, 0⟩
def PLE_T3_RATE : Field := ⟨0x1400224, 6, 0⟩
def PLE_PIN_CMD_OP : Field := ⟨0x1400300, 9, 8⟩
def PLE_PIN_CMD_RESULT : Field := ⟨0x1400300, 7, 4⟩
def PLE_PIN_CMD_STATE : Field := ⟨0x1400300, 3, 0⟩
def PLE_PIN_BUF_KEY_W (n : Nat) : Field := ⟨0x1400310 + 0x4 * n, 31, 0⟩
def PLE_PIN_BUF_DESC_OBJ : Field := ⟨0x1400338, 0, 0⟩
def PLE_PIN_BUF_DESC_LEVEL : Field := ⟨0x1400338, 2, 1⟩
def PLE_PIN_BUF_DESC_UNIT : Field := ⟨0x1400338, 8, 4⟩
def PLE_PIN_BUF_DESC_DEVICE : Field := ⟨0x1400338, 21, 16⟩
def PLE_PIN_BUF_DESC_STATE : Field := ⟨0x1400338, 25, 24⟩
def PLE_CNT_MOVE_DONE : Wide := ⟨0x1400400, 48⟩
def PLE_CNT_MOVE_CANCEL : Wide := ⟨0x1400408, 48⟩
def PLE_CNT_FENCE_TIMEOUT : Wide := ⟨0x1400410, 48⟩
def PLE_CNT_FENCE_DROP : Wide := ⟨0x1400418, 48⟩
def PLE_CNT_TIER_REFUSED : Wide := ⟨0x1400420, 48⟩
def PLE_CNT_WINDOW_STALL : Wide := ⟨0x1400428, 48⟩
def PLE_CNT_STEER_SENT : Wide := ⟨0x1400430, 48⟩
def PLE_CNT_STEER_FAIL : Wide := ⟨0x1400438, 48⟩
def PLE_WGC_CORR : Wide := ⟨0x1400500, 48⟩
def PLE_WGC_UNCORR : Wide := ⟨0x1400508, 48⟩
def PLE_WGC_LAST_VALID : Field := ⟨0x1400510, 31, 31⟩
def PLE_WGC_LAST_TYPE : Field := ⟨0x1400510, 30, 30⟩
def PLE_WGC_LAST_POS : Field := ⟨0x1400510, 29, 24⟩
def PLE_WGC_LAST_SOURCE : Field := ⟨0x1400510, 23, 20⟩
def PLE_WGC_LAST_ADDR_W : Field := ⟨0x1400514, 31, 0⟩
def PLE_WGC_THR_THR : Field := ⟨0x1400518, 31, 0⟩
def PLE_WGC_STAT_UNC_SEEN : Field := ⟨0x140051C, 1, 1⟩
def PLE_WGC_STAT_RATE_HIGH : Field := ⟨0x140051C, 0, 0⟩
def PLE_DLOG_HEAD_WRAPPED : Field := ⟨0x1400600, 31, 31⟩
def PLE_DLOG_HEAD_NEXT : Field := ⟨0x1400600, 11, 0⟩
def PLE_DLOG_W (n : Nat) : Field := ⟨0x1410000 + 0x4 * n, 31, 0⟩
def CIP_STATUS_RNG_FAIL : Field := ⟨0x1500000, 9, 9⟩
def CIP_STATUS_ERASING : Field := ⟨0x1500000, 8, 8⟩
def CIP_STATUS_QUAR : Field := ⟨0x1500000, 2, 0⟩
def CIP_ALARM_CAUSE : Field := ⟨0x1500004, 5, 0⟩
def CIP_CM_SHUFFLE_EN : Field := ⟨0x1500008, 1, 1⟩
def CIP_CM_DUMMY_EN : Field := ⟨0x1500008, 0, 0⟩
def CIP_ROOT_SEL_BANK : Field := ⟨0x1500010, 3, 0⟩
def CIP_ROOT_STAT_BAD : Field := ⟨0x1500014, 15, 8⟩
def CIP_ROOT_STAT_PROG : Field := ⟨0x1500014, 7, 0⟩
def CIP_ROOT_CMD_BANK : Field := ⟨0x1500018, 14, 14⟩
def CIP_ROOT_CMD_SLOT : Field := ⟨0x1500018, 13, 12⟩
def CIP_ROOT_CMD_OP : Field := ⟨0x1500018, 11, 8⟩
def CIP_ROOT_CMD_RESULT : Field := ⟨0x1500018, 7, 4⟩
def CIP_ROOT_CMD_STATE : Field := ⟨0x1500018, 3, 0⟩
def CIP_ROOT_BUF_W (n : Nat) : Field := ⟨0x1500020 + 0x4 * n, 31, 0⟩
def CIP_KEY_CMD_INDEX : Field := ⟨0x1500040, 27, 16⟩
def CIP_KEY_CMD_KEY256 : Field := ⟨0x1500040, 14, 14⟩
def CIP_KEY_CMD_SLOT : Field := ⟨0x1500040, 13, 12⟩
def CIP_KEY_CMD_OP : Field := ⟨0x1500040, 11, 8⟩
def CIP_KEY_CMD_RESULT : Field := ⟨0x1500040, 7, 4⟩
def CIP_KEY_CMD_STATE : Field := ⟨0x1500040, 3, 0⟩
def CIP_KEY_BUF_KEY_W (n : Nat) : Field := ⟨0x1500080 + 0x4 * n, 31, 0⟩
def CIP_KEY_BUF_LABEL_W (n : Nat) : Field := ⟨0x15000A0 + 0x4 * n, 31, 0⟩
def CIP_KEY_BUF_DESC_LEN : Field := ⟨0x15000E0, 6, 0⟩
def CIP_KEY_BUF_DESC_LEVEL : Field := ⟨0x15000E0, 9, 8⟩
def CIP_RING_BASE_BASE (n : Nat) : Wide := ⟨0x1500100 + 0x10 * n, 64⟩
def CIP_RING_CFG_EN (n : Nat) : Field := ⟨0x1500108 + 0x10 * n, 31, 31⟩
def CIP_RING_CFG_LEVEL (n : Nat) : Field := ⟨0x1500108 + 0x10 * n, 29, 28⟩
def CIP_RING_CFG_HOST (n : Nat) : Field := ⟨0x1500108 + 0x10 * n, 8, 8⟩
def CIP_RING_CFG_SIZE (n : Nat) : Field := ⟨0x1500108 + 0x10 * n, 3, 0⟩
def CIP_RING_IDX_PROD (n : Nat) : Field := ⟨0x150010C + 0x10 * n, 7, 0⟩
def CIP_RING_IDX_CONS (n : Nat) : Field := ⟨0x150010C + 0x10 * n, 23, 16⟩
def CIP_CNT_JOBS : Wide := ⟨0x1500300, 48⟩
def CIP_CNT_AUTH : Wide := ⟨0x1500308, 48⟩
def CIP_CNT_LEN : Wide := ⟨0x1500310, 48⟩
def CIP_CNT_MISMATCH : Wide := ⟨0x1500318, 48⟩
def CIP_CNT_ERASE : Wide := ⟨0x1500320, 48⟩
def CIP_CNT_ABORTED : Wide := ⟨0x1500328, 48⟩
def CIP_CNT_DERIVE : Wide := ⟨0x1500330, 48⟩
def CIP_CNT_UNWRAP : Wide := ⟨0x1500338, 48⟩
def CIP_WGC_CORR : Wide := ⟨0x1500400, 48⟩
def CIP_WGC_UNCORR : Wide := ⟨0x1500408, 48⟩
def CIP_WGC_LAST_VALID : Field := ⟨0x1500410, 31, 31⟩
def CIP_WGC_LAST_TYPE : Field := ⟨0x1500410, 30, 30⟩
def CIP_WGC_LAST_POS : Field := ⟨0x1500410, 29, 24⟩
def CIP_WGC_LAST_SOURCE : Field := ⟨0x1500410, 23, 20⟩
def CIP_WGC_LAST_ADDR_W : Field := ⟨0x1500414, 31, 0⟩
def CIP_WGC_THR_THR : Field := ⟨0x1500418, 31, 0⟩
def CIP_WGC_STAT_UNC_SEEN : Field := ⟨0x150041C, 1, 1⟩
def CIP_WGC_STAT_RATE_HIGH : Field := ⟨0x150041C, 0, 0⟩
def RFA_CTL_CHAIN_EN : Field := ⟨0x2000000, 15, 8⟩
def RFA_STATE_LINK0 : Field := ⟨0x2000004, 2, 0⟩
def RFA_STATE_CMD_LINK : Field := ⟨0x2000008, 12, 12⟩
def RFA_STATE_CMD_TARGET : Field := ⟨0x2000008, 11, 8⟩
def RFA_STATE_CMD_RESULT : Field := ⟨0x2000008, 7, 4⟩
def RFA_STATE_CMD_STATE : Field := ⟨0x2000008, 3, 0⟩
def RFA_CHAN_CSA_COUNT (n : Nat) : Field := ⟨0x2000010 + 0x8 * n, 31, 24⟩
def RFA_CHAN_PRIMARY (n : Nat) : Field := ⟨0x2000010 + 0x8 * n, 15, 12⟩
def RFA_CHAN_WIDTH (n : Nat) : Field := ⟨0x2000010 + 0x8 * n, 10, 8⟩
def RFA_CHAN_CHANNEL (n : Nat) : Field := ⟨0x2000010 + 0x8 * n, 7, 0⟩
def RFA_CHAN_PUNCTURE (n : Nat) : Field := ⟨0x2000014 + 0x8 * n, 15, 0⟩
def RFA_CLASS_STAT_CAPS0 : Field := ⟨0x2000020, 7, 4⟩
def RFA_CLASS_STAT_USABLE0 : Field := ⟨0x2000020, 2, 0⟩
def RFA_DPD_STAT_CLASS (n : Nat) : Field := ⟨0x2000028 + 0x4 * n, 15, 0⟩
def RFA_MISMATCH_VSWR (n : Nat) : Field := ⟨0x2000040 + 0x4 * n, 19, 8⟩
def RFA_MISMATCH_STATE (n : Nat) : Field := ⟨0x2000040 + 0x4 * n, 1, 0⟩
def RFA_CAL_CMD_LINK : Field := ⟨0x2000080, 12, 12⟩
def RFA_CAL_CMD_OP : Field := ⟨0x2000080, 11, 8⟩
def RFA_CAL_CMD_RESULT : Field := ⟨0x2000080, 7, 4⟩
def RFA_CAL_CMD_STATE : Field := ⟨0x2000080, 3, 0⟩
def RFA_HOLD_MAX_MAX : Field := ⟨0x2000084, 15, 0⟩
def RFA_ANT_GAIN : Field := ⟨0x2000090, 7, 0⟩
def RFA_GRANT_CMD_OP : Field := ⟨0x2000100, 11, 8⟩
def RFA_GRANT_CMD_RESULT : Field := ⟨0x2000100, 7, 4⟩
def RFA_GRANT_CMD_STATE : Field := ⟨0x2000100, 3, 0⟩
def RFA_GRANT_CFG_ACTIVE : Field := ⟨0x2000104, 31, 31⟩
def RFA_GRANT_CFG_FALLBACK : Field := ⟨0x2000104, 16, 16⟩
def RFA_GRANT_CFG_EARLY : Field := ⟨0x2000104, 15, 0⟩
def RFA_GRANT_EXP_EXPIRY : Wide := ⟨0x2000108, 64⟩
def RFA_GRANT_ENT_EN (n : Nat) : Field := ⟨0x2000200 + 0x8 * n, 31, 31⟩
def RFA_GRANT_ENT_CH_HI (n : Nat) : Field := ⟨0x2000200 + 0x8 * n, 15, 8⟩
def RFA_GRANT_ENT_CH_LO (n : Nat) : Field := ⟨0x2000200 + 0x8 * n, 7, 0⟩
def RFA_GRANT_ENT_EIRP (n : Nat) : Field := ⟨0x2000204 + 0x8 * n, 15, 8⟩
def RFA_GRANT_ENT_PSD (n : Nat) : Field := ⟨0x2000204 + 0x8 * n, 7, 0⟩
def RFA_CNT_TX_LATE : Wide := ⟨0x2000300, 48⟩
def RFA_CNT_HOLD_EXPIRED : Wide := ⟨0x2000308, 48⟩
def RFA_CNT_CLAMPED : Wide := ⟨0x2000310, 48⟩
def RFA_CNT_CAL_SEGMENTS : Wide := ⟨0x2000318, 48⟩
def RFA_CNT_MISMATCH : Wide := ⟨0x2000320, 48⟩
def RFA_WGC_CORR : Wide := ⟨0x2000400, 48⟩
def RFA_WGC_UNCORR : Wide := ⟨0x2000408, 48⟩
def RFA_WGC_LAST_VALID : Field := ⟨0x2000410, 31, 31⟩
def RFA_WGC_LAST_TYPE : Field := ⟨0x2000410, 30, 30⟩
def RFA_WGC_LAST_POS : Field := ⟨0x2000410, 29, 24⟩
def RFA_WGC_LAST_SOURCE : Field := ⟨0x2000410, 23, 20⟩
def RFA_WGC_LAST_ADDR_W : Field := ⟨0x2000414, 31, 0⟩
def RFA_WGC_THR_THR : Field := ⟨0x2000418, 31, 0⟩
def RFA_WGC_STAT_UNC_SEEN : Field := ⟨0x200041C, 1, 1⟩
def RFA_WGC_STAT_RATE_HIGH : Field := ⟨0x200041C, 0, 0⟩
def RFA_BSS_EN (n : Nat) : Field := ⟨0x2001000 + 0x8 * n, 31, 31⟩
def RFA_BSS_TX (n : Nat) : Field := ⟨0x2001000 + 0x8 * n, 29, 29⟩
def RFA_BSS_MAC_HI (n : Nat) : Field := ⟨0x2001000 + 0x8 * n, 15, 0⟩
def RFA_BSS_MAC_LO (n : Nat) : Field := ⟨0x2001004 + 0x8 * n, 31, 0⟩
def RFB_CTL_CHAIN_EN : Field := ⟨0x2100000, 11, 8⟩
def RFB_CTL_SPLIT : Field := ⟨0x2100000, 0, 0⟩
def RFB_STATE_LINK1 : Field := ⟨0x2100004, 6, 4⟩
def RFB_STATE_LINK0 : Field := ⟨0x2100004, 2, 0⟩
def RFB_STATE_CMD_LINK : Field := ⟨0x2100008, 12, 12⟩
def RFB_STATE_CMD_TARGET : Field := ⟨0x2100008, 11, 8⟩
def RFB_STATE_CMD_RESULT : Field := ⟨0x2100008, 7, 4⟩
def RFB_STATE_CMD_STATE : Field := ⟨0x2100008, 3, 0⟩
def RFB_CHAN_CSA_COUNT (n : Nat) : Field := ⟨0x2100010 + 0x8 * n, 31, 24⟩
def RFB_CHAN_PRIMARY (n : Nat) : Field := ⟨0x2100010 + 0x8 * n, 15, 12⟩
def RFB_CHAN_WIDTH (n : Nat) : Field := ⟨0x2100010 + 0x8 * n, 10, 8⟩
def RFB_CHAN_CHANNEL (n : Nat) : Field := ⟨0x2100010 + 0x8 * n, 7, 0⟩
def RFB_CHAN_PUNCTURE (n : Nat) : Field := ⟨0x2100014 + 0x8 * n, 15, 0⟩
def RFB_CLASS_STAT_CAPS1 : Field := ⟨0x2100020, 23, 20⟩
def RFB_CLASS_STAT_USABLE1 : Field := ⟨0x2100020, 18, 16⟩
def RFB_CLASS_STAT_CAPS0 : Field := ⟨0x2100020, 7, 4⟩
def RFB_CLASS_STAT_USABLE0 : Field := ⟨0x2100020, 2, 0⟩
def RFB_DPD_STAT_CLASS (n : Nat) : Field := ⟨0x2100028 + 0x4 * n, 15, 0⟩
def RFB_MISMATCH_VSWR (n : Nat) : Field := ⟨0x2100040 + 0x4 * n, 19, 8⟩
def RFB_MISMATCH_STATE (n : Nat) : Field := ⟨0x2100040 + 0x4 * n, 1, 0⟩
def RFB_CAL_CMD_LINK : Field := ⟨0x2100080, 12, 12⟩
def RFB_CAL_CMD_OP : Field := ⟨0x2100080, 11, 8⟩
def RFB_CAL_CMD_RESULT : Field := ⟨0x2100080, 7, 4⟩
def RFB_CAL_CMD_STATE : Field := ⟨0x2100080, 3, 0⟩
def RFB_HOLD_MAX_MAX : Field := ⟨0x2100084, 15, 0⟩
def RFB_CNT_TX_LATE : Wide := ⟨0x2100300, 48⟩
def RFB_CNT_HOLD_EXPIRED : Wide := ⟨0x2100308, 48⟩
def RFB_CNT_CLAMPED : Wide := ⟨0x2100310, 48⟩
def RFB_CNT_CAL_SEGMENTS : Wide := ⟨0x2100318, 48⟩
def RFB_CNT_MISMATCH : Wide := ⟨0x2100320, 48⟩
def RFB_WGC_CORR : Wide := ⟨0x2100400, 48⟩
def RFB_WGC_UNCORR : Wide := ⟨0x2100408, 48⟩
def RFB_WGC_LAST_VALID : Field := ⟨0x2100410, 31, 31⟩
def RFB_WGC_LAST_TYPE : Field := ⟨0x2100410, 30, 30⟩
def RFB_WGC_LAST_POS : Field := ⟨0x2100410, 29, 24⟩
def RFB_WGC_LAST_SOURCE : Field := ⟨0x2100410, 23, 20⟩
def RFB_WGC_LAST_ADDR_W : Field := ⟨0x2100414, 31, 0⟩
def RFB_WGC_THR_THR : Field := ⟨0x2100418, 31, 0⟩
def RFB_WGC_STAT_UNC_SEEN : Field := ⟨0x210041C, 1, 1⟩
def RFB_WGC_STAT_RATE_HIGH : Field := ⟨0x210041C, 0, 0⟩
def RFB_BSS_EN (n : Nat) : Field := ⟨0x2101000 + 0x8 * n, 31, 31⟩
def RFB_BSS_LINK (n : Nat) : Field := ⟨0x2101000 + 0x8 * n, 30, 30⟩
def RFB_BSS_MAC_HI (n : Nat) : Field := ⟨0x2101000 + 0x8 * n, 15, 0⟩
def RFB_BSS_MAC_LO (n : Nat) : Field := ⟨0x2101004 + 0x8 * n, 31, 0⟩
def RFC_CTL_RX_PORT : Field := ⟨0x2200000, 8, 8⟩
def RFC_STATE_STATE : Field := ⟨0x2200004, 2, 0⟩
def RFC_STATE_CMD_TARGET : Field := ⟨0x2200008, 11, 8⟩
def RFC_STATE_CMD_RESULT : Field := ⟨0x2200008, 7, 4⟩
def RFC_STATE_CMD_STATE : Field := ⟨0x2200008, 3, 0⟩
def RFC_SPAN_LO_SIDE : Field := ⟨0x2200010, 31, 31⟩
def RFC_SPAN_SPACING : Field := ⟨0x2200010, 30, 30⟩
def RFC_SPAN_CENTRE : Field := ⟨0x2200010, 19, 0⟩
def RFC_SPAN_ACT_LO_SIDE : Field := ⟨0x2200014, 31, 31⟩
def RFC_SPAN_ACT_SPACING : Field := ⟨0x2200014, 30, 30⟩
def RFC_SPAN_ACT_CENTRE : Field := ⟨0x2200014, 19, 0⟩
def RFC_CMD_PORT : Field := ⟨0x2200018, 12, 12⟩
def RFC_CMD_OP : Field := ⟨0x2200018, 11, 8⟩
def RFC_CMD_RESULT : Field := ⟨0x2200018, 7, 4⟩
def RFC_CMD_STATE : Field := ⟨0x2200018, 3, 0⟩
def RFC_CAL_CFG_CYCLE : Field := ⟨0x2200020, 6, 4⟩
def RFC_CAL_CFG_SLOT : Field := ⟨0x2200020, 3, 0⟩
def RFC_CAL_STAT_DUE : Field := ⟨0x2200024, 31, 31⟩
def RFC_CAL_STAT_TEMP : Field := ⟨0x2200024, 23, 16⟩
def RFC_CAL_STAT_LOW_RUN : Field := ⟨0x2200024, 9, 8⟩
def RFC_CAL_STAT_IMG_DB : Field := ⟨0x2200024, 7, 0⟩
def RFC_TX_CFG_PREAMBLE : Field := ⟨0x2200030, 23, 16⟩
def RFC_TX_CFG_MAX : Field := ⟨0x2200030, 7, 0⟩
def RFC_PORT_STAT_SERIES (n : Nat) : Field := ⟨0x2200040 + 0x4 * n, 31, 26⟩
def RFC_PORT_STAT_SHUNT (n : Nat) : Field := ⟨0x2200040 + 0x4 * n, 25, 20⟩
def RFC_PORT_STAT_VSWR (n : Nat) : Field := ⟨0x2200040 + 0x4 * n, 19, 8⟩
def RFC_PORT_STAT_FAILS (n : Nat) : Field := ⟨0x2200040 + 0x4 * n, 7, 4⟩
def RFC_PORT_STAT_TUNED (n : Nat) : Field := ⟨0x2200040 + 0x4 * n, 2, 2⟩
def RFC_PORT_STAT_CUT (n : Nat) : Field := ⟨0x2200040 + 0x4 * n, 1, 1⟩
def RFC_PORT_STAT_TUNE_FAULT (n : Nat) : Field := ⟨0x2200040 + 0x4 * n, 0, 0⟩
def RFC_CH_LOST_LOST : Wide := ⟨0x2200060, 64⟩
def RFC_CH_CFG_EN (n : Nat) : Field := ⟨0x2200100 + 0x4 * n, 31, 31⟩
def RFC_CH_CFG_LATE (n : Nat) : Field := ⟨0x2200100 + 0x4 * n, 30, 30⟩
def RFC_CH_CFG_VALID (n : Nat) : Field := ⟨0x2200100 + 0x4 * n, 19, 16⟩
def RFC_CH_CFG_PROFILES (n : Nat) : Field := ⟨0x2200100 + 0x4 * n, 15, 0⟩
def RFC_CNT_SYNC : Wide := ⟨0x2200300, 48⟩
def RFC_CNT_FCS_BAD : Wide := ⟨0x2200308, 48⟩
def RFC_CNT_PHR_BAD : Wide := ⟨0x2200310, 48⟩
def RFC_CNT_CAPTURE_RESTART : Wide := ⟨0x2200318, 48⟩
def RFC_CNT_CAPTURE_ABORT : Wide := ⟨0x2200320, 48⟩
def RFC_CNT_RX_ABORT_TX : Wide := ⟨0x2200328, 48⟩
def RFC_CNT_RX_ABORT_OTHER : Wide := ⟨0x2200330, 48⟩
def RFC_CNT_TX_LATE : Wide := ⟨0x2200338, 48⟩
def RFC_CNT_TX_REDUCED : Wide := ⟨0x2200340, 48⟩
def RFC_CNT_TUNE_FAULT : Wide := ⟨0x2200348, 48⟩
def RFC_WGC_CORR : Wide := ⟨0x2200400, 48⟩
def RFC_WGC_UNCORR : Wide := ⟨0x2200408, 48⟩
def RFC_WGC_LAST_VALID : Field := ⟨0x2200410, 31, 31⟩
def RFC_WGC_LAST_TYPE : Field := ⟨0x2200410, 30, 30⟩
def RFC_WGC_LAST_POS : Field := ⟨0x2200410, 29, 24⟩
def RFC_WGC_LAST_SOURCE : Field := ⟨0x2200410, 23, 20⟩
def RFC_WGC_LAST_ADDR_W : Field := ⟨0x2200414, 31, 0⟩
def RFC_WGC_THR_THR : Field := ⟨0x2200418, 31, 0⟩
def RFC_WGC_STAT_UNC_SEEN : Field := ⟨0x220041C, 1, 1⟩
def RFC_WGC_STAT_RATE_HIGH : Field := ⟨0x220041C, 0, 0⟩
def WMA_CTL_DTIM : Field := ⟨0x2300000, 23, 16⟩
def WMA_CTL_BI : Field := ⟨0x2300000, 15, 0⟩
def WMA_STATUS_BH_UP : Field := ⟨0x2300004, 23, 16⟩
def WMA_STATUS_STAS : Field := ⟨0x2300004, 10, 0⟩
def WMA_STA_CMD_INDEX : Field := ⟨0x2300010, 25, 16⟩
def WMA_STA_CMD_OP : Field := ⟨0x2300010, 11, 8⟩
def WMA_STA_CMD_RESULT : Field := ⟨0x2300010, 7, 4⟩
def WMA_STA_CMD_STATE : Field := ⟨0x2300010, 3, 0⟩
def WMA_KEY_CMD_INDEX : Field := ⟨0x2300018, 29, 20⟩
def WMA_KEY_CMD_SLOT : Field := ⟨0x2300018, 19, 16⟩
def WMA_KEY_CMD_TXSLOT : Field := ⟨0x2300018, 15, 15⟩
def WMA_KEY_CMD_CIPHER : Field := ⟨0x2300018, 14, 12⟩
def WMA_KEY_CMD_OP : Field := ⟨0x2300018, 11, 8⟩
def WMA_KEY_CMD_RESULT : Field := ⟨0x2300018, 7, 4⟩
def WMA_KEY_CMD_STATE : Field := ⟨0x2300018, 3, 0⟩
def WMA_STA_BUF_ADDR_HI_ADDR : Field := ⟨0x2300020, 15, 0⟩
def WMA_STA_BUF_ADDR_LO_ADDR : Field := ⟨0x2300024, 31, 0⟩
def WMA_STA_BUF_LINKS_LINKS : Field := ⟨0x2300028, 2, 0⟩
def WMA_STA_BUF_LINKS_BSS : Field := ⟨0x2300028, 14, 3⟩
def WMA_STA_BUF_LINKS_MLD : Field := ⟨0x2300028, 15, 15⟩
def WMA_STA_BUF_LINKS_BACKHAUL : Field := ⟨0x2300028, 16, 16⟩
def WMA_STA_BUF_SCHED_CLIENT : Field := ⟨0x230002C, 12, 0⟩
def WMA_BA_CFG_TIMEOUT : Field := ⟨0x2300040, 14, 0⟩
def WMA_KEY_BUF_KEY_W (n : Nat) : Field := ⟨0x2300080 + 0x4 * n, 31, 0⟩
def WMA_KEY_BUF_PN_W : Field := ⟨0x23000A0, 31, 0⟩
def WMA_KEY_BUF_PN_W_HI : Field := ⟨0x23000A4, 15, 0⟩
def WMA_BH_PEER_EN (n : Nat) : Field := ⟨0x2300100 + 0x4 * n, 31, 31⟩
def WMA_BH_PEER_UP (n : Nat) : Field := ⟨0x2300100 + 0x4 * n, 30, 30⟩
def WMA_BH_PEER_DEVICE (n : Nat) : Field := ⟨0x2300100 + 0x4 * n, 25, 20⟩
def WMA_BH_PEER_BSS (n : Nat) : Field := ⟨0x2300100 + 0x4 * n, 19, 16⟩
def WMA_BH_PEER_STA (n : Nat) : Field := ⟨0x2300100 + 0x4 * n, 9, 0⟩
def WMA_CNT_DUP : Wide := ⟨0x2300300, 48⟩
def WMA_CNT_REPLAY : Wide := ⟨0x2300308, 48⟩
def WMA_CNT_MIC_FAIL : Wide := ⟨0x2300310, 48⟩
def WMA_CNT_RX_NOCELL : Wide := ⟨0x2300318, 48⟩
def WMA_CNT_REORDER_TMO : Wide := ⟨0x2300320, 48⟩
def WMA_CNT_REORDER_FORCED : Wide := ⟨0x2300328, 48⟩
def WMA_CNT_RESP_LATE : Wide := ⟨0x2300330, 48⟩
def WMA_CNT_TRIG_NORESP : Wide := ⟨0x2300338, 48⟩
def WMA_CNT_STA_FULL : Wide := ⟨0x2300340, 48⟩
def WMA_CNT_UNKNOWN_TA : Wide := ⟨0x2300348, 48⟩
def WMA_CNT_PN_EXHAUST : Wide := ⟨0x2300350, 48⟩
def WMA_WGC_CORR : Wide := ⟨0x2300400, 48⟩
def WMA_WGC_UNCORR : Wide := ⟨0x2300408, 48⟩
def WMA_WGC_LAST_VALID : Field := ⟨0x2300410, 31, 31⟩
def WMA_WGC_LAST_TYPE : Field := ⟨0x2300410, 30, 30⟩
def WMA_WGC_LAST_POS : Field := ⟨0x2300410, 29, 24⟩
def WMA_WGC_LAST_SOURCE : Field := ⟨0x2300410, 23, 20⟩
def WMA_WGC_LAST_ADDR_W : Field := ⟨0x2300414, 31, 0⟩
def WMA_WGC_THR_THR : Field := ⟨0x2300418, 31, 0⟩
def WMA_WGC_STAT_UNC_SEEN : Field := ⟨0x230041C, 1, 1⟩
def WMA_WGC_STAT_RATE_HIGH : Field := ⟨0x230041C, 0, 0⟩
def SGM_CTL_MGMT_Q : Field := ⟨0x2400000, 30, 24⟩
def SGM_CTL_RX_Q : Field := ⟨0x2400000, 22, 16⟩
def SGM_CTL_KEYGEN : Field := ⟨0x2400000, 15, 8⟩
def SGM_CTL_RETRIES : Field := ⟨0x2400000, 3, 0⟩
def SGM_STATUS_SAFE : Field := ⟨0x2400004, 31, 31⟩
def SGM_STATUS_LEVEL : Field := ⟨0x2400004, 30, 24⟩
def SGM_STATUS_PEND : Field := ⟨0x2400004, 23, 23⟩
def SGM_STATUS_PLAN : Field := ⟨0x2400004, 20, 13⟩
def SGM_STATUS_NODES : Field := ⟨0x2400004, 12, 0⟩
def SGM_TIMING_KEEPALIVE : Field := ⟨0x2400008, 31, 24⟩
def SGM_TIMING_DUP_AGE : Field := ⟨0x2400008, 23, 16⟩
def SGM_TIMING_GUARD : Field := ⟨0x2400008, 15, 0⟩
def SGM_BEACON_LEVEL : Field := ⟨0x240000C, 31, 24⟩
def SGM_BEACON_PROFILE : Field := ⟨0x240000C, 23, 20⟩
def SGM_BEACON_PORT : Field := ⟨0x240000C, 19, 19⟩
def SGM_BEACON_CHANNEL : Field := ⟨0x240000C, 5, 0⟩
def SGM_CMD_OP : Field := ⟨0x2400010, 11, 8⟩
def SGM_CMD_RESULT : Field := ⟨0x2400010, 7, 4⟩
def SGM_CMD_STATE : Field := ⟨0x2400010, 3, 0⟩
def SGM_EUI_EUI : Wide := ⟨0x2400020, 64⟩
def SGM_ADDR_ADDR : Field := ⟨0x2400028, 15, 0⟩
def SGM_CTX_PREFIX : Wide := ⟨0x2400030, 64⟩
def SGM_NODE_CMD_INDEX : Field := ⟨0x2400040, 27, 16⟩
def SGM_NODE_CMD_OP : Field := ⟨0x2400040, 11, 8⟩
def SGM_NODE_CMD_RESULT : Field := ⟨0x2400040, 7, 4⟩
def SGM_NODE_CMD_STATE : Field := ⟨0x2400040, 3, 0⟩
def SGM_NODE_BUF_EUI_W : Wide := ⟨0x2400050, 64⟩
def SGM_NODE_BUF_ADDR_ADDR : Field := ⟨0x2400058, 15, 0⟩
def SGM_NODE_BUF_ADDR_CLASS : Field := ⟨0x2400058, 16, 16⟩
def SGM_NODE_BUF_ADDR_ANNOUNCE : Field := ⟨0x2400058, 17, 17⟩
def SGM_NODE_BUF_ADDR_STATE : Field := ⟨0x2400058, 19, 18⟩
def SGM_NODE_BUF_ADDR_GEN : Field := ⟨0x2400058, 31, 24⟩
def SGM_NODE_BUF_CELL_BLOCK : Field := ⟨0x240005C, 6, 0⟩
def SGM_NODE_BUF_CELL_CHANNEL : Field := ⟨0x240005C, 13, 8⟩
def SGM_NODE_BUF_CELL_PROFILE : Field := ⟨0x240005C, 19, 16⟩
def SGM_NODE_BUF_SETS_SETS : Field := ⟨0x2400060, 15, 0⟩
def SGM_NODE_BUF_SETS_PERIOD : Field := ⟨0x2400060, 18, 16⟩
def SGM_NODE_BUF_SETS_PHASE : Field := ⟨0x2400060, 29, 24⟩
def SGM_NODE_BUF_SCHED_CLIENT : Field := ⟨0x2400064, 12, 0⟩
def SGM_NODE_BUF_DRIFT_D : Field := ⟨0x2400068, 31, 0⟩
def SGM_NODE_BUF_MOVE_DEVICE : Field := ⟨0x240006C, 5, 0⟩
def SGM_NODE_BUF_MOVE_CENTRE : Field := ⟨0x240006C, 25, 6⟩
def SGM_SUB_LO_LO (n : Nat) : Field := ⟨0x2400200 + 0x10 * n, 19, 0⟩
def SGM_SUB_LO_MODE (n : Nat) : Field := ⟨0x2400200 + 0x10 * n, 30, 30⟩
def SGM_SUB_LO_EN (n : Nat) : Field := ⟨0x2400200 + 0x10 * n, 31, 31⟩
def SGM_SUB_HI_HI (n : Nat) : Field := ⟨0x2400204 + 0x10 * n, 19, 0⟩
def SGM_SUB_BUDGET_B (n : Nat) : Field := ⟨0x2400208 + 0x10 * n, 23, 0⟩
def SGM_SUB_BUDGET_WINDOW (n : Nat) : Field := ⟨0x2400208 + 0x10 * n, 31, 24⟩
def SGM_SUB_USED_U (n : Nat) : Field := ⟨0x240020C + 0x10 * n, 23, 0⟩
def SGM_CNT_DUP : Wide := ⟨0x2400300, 48⟩
def SGM_CNT_MIC_FAIL : Wide := ⟨0x2400308, 48⟩
def SGM_CNT_REPLAY : Wide := ⟨0x2400310, 48⟩
def SGM_CNT_UNKNOWN : Wide := ⟨0x2400318, 48⟩
def SGM_CNT_WRONG_CELL : Wide := ⟨0x2400320, 48⟩
def SGM_CNT_RX_NOCELL : Wide := ⟨0x2400328, 48⟩
def SGM_CNT_TX_FAIL : Wide := ⟨0x2400330, 48⟩
def SGM_CNT_ACK_SKIP : Wide := ⟨0x2400338, 48⟩
def SGM_CNT_ADRIFT : Wide := ⟨0x2400340, 48⟩
def SGM_CNT_LOST : Wide := ⟨0x2400348, 48⟩
def SGM_CNT_JOIN_REQ : Wide := ⟨0x2400350, 48⟩
def SGM_WGC_CORR : Wide := ⟨0x2400400, 48⟩
def SGM_WGC_UNCORR : Wide := ⟨0x2400408, 48⟩
def SGM_WGC_LAST_VALID : Field := ⟨0x2400410, 31, 31⟩
def SGM_WGC_LAST_TYPE : Field := ⟨0x2400410, 30, 30⟩
def SGM_WGC_LAST_POS : Field := ⟨0x2400410, 29, 24⟩
def SGM_WGC_LAST_SOURCE : Field := ⟨0x2400410, 23, 20⟩
def SGM_WGC_LAST_ADDR_W : Field := ⟨0x2400414, 31, 0⟩
def SGM_WGC_THR_THR : Field := ⟨0x2400418, 31, 0⟩
def SGM_WGC_STAT_UNC_SEEN : Field := ⟨0x240041C, 1, 1⟩
def SGM_WGC_STAT_RATE_HIGH : Field := ⟨0x240041C, 0, 0⟩
def SGM_BLOCK_EN (n : Nat) : Field := ⟨0x2401000 + 0x8 * n, 31, 31⟩
def SGM_BLOCK_KIND (n : Nat) : Field := ⟨0x2401000 + 0x8 * n, 27, 24⟩
def SGM_BLOCK_FIRST (n : Nat) : Field := ⟨0x2401000 + 0x8 * n, 22, 16⟩
def SGM_BLOCK_LEN (n : Nat) : Field := ⟨0x2401000 + 0x8 * n, 12, 8⟩
def SGM_BLOCK_CHANNEL (n : Nat) : Field := ⟨0x2401000 + 0x8 * n, 5, 0⟩
def SGM_BLOCK_PROFILE (n : Nat) : Field := ⟨0x2401004 + 0x8 * n, 19, 16⟩
def SGM_BLOCK_SET (n : Nat) : Field := ⟨0x2401004 + 0x8 * n, 11, 8⟩
def SGM_BLOCK_ACK (n : Nat) : Field := ⟨0x2401004 + 0x8 * n, 6, 0⟩
def SGM_BLOCK_ACT_EN (n : Nat) : Field := ⟨0x2401800 + 0x8 * n, 31, 31⟩
def SGM_BLOCK_ACT_KIND (n : Nat) : Field := ⟨0x2401800 + 0x8 * n, 27, 24⟩
def SGM_BLOCK_ACT_FIRST (n : Nat) : Field := ⟨0x2401800 + 0x8 * n, 22, 16⟩
def SGM_BLOCK_ACT_LEN (n : Nat) : Field := ⟨0x2401800 + 0x8 * n, 12, 8⟩
def SGM_BLOCK_ACT_CHANNEL (n : Nat) : Field := ⟨0x2401800 + 0x8 * n, 5, 0⟩
def SGM_BLOCK_ACT_PROFILE (n : Nat) : Field := ⟨0x2401804 + 0x8 * n, 19, 16⟩
def SGM_BLOCK_ACT_SET (n : Nat) : Field := ⟨0x2401804 + 0x8 * n, 11, 8⟩
def SGM_BLOCK_ACT_ACK (n : Nat) : Field := ⟨0x2401804 + 0x8 * n, 6, 0⟩
def ETH_PORT_CFG_EN (n : Nat) : Field := ⟨0x3000000 + 0x10000 * n, 31, 31⟩
def ETH_PORT_CFG_MODE (n : Nat) : Field := ⟨0x3000000 + 0x10000 * n, 30, 28⟩
def ETH_PORT_CFG_FEC (n : Nat) : Field := ⟨0x3000000 + 0x10000 * n, 27, 27⟩
def ETH_PORT_CFG_MAXLEN (n : Nat) : Field := ⟨0x3000000 + 0x10000 * n, 13, 0⟩
def ETH_PORT_STAT_LINK (n : Nat) : Field := ⟨0x3000004 + 0x10000 * n, 31, 31⟩
def ETH_PORT_STAT_SPEED (n : Nat) : Field := ⟨0x3000004 + 0x10000 * n, 30, 28⟩
def ETH_PORT_STAT_LPI_TX (n : Nat) : Field := ⟨0x3000004 + 0x10000 * n, 27, 27⟩
def ETH_PORT_STAT_LPI_RX (n : Nat) : Field := ⟨0x3000004 + 0x10000 * n, 26, 26⟩
def ETH_PORT_STAT_VERIFY (n : Nat) : Field := ⟨0x3000004 + 0x10000 * n, 25, 24⟩
def ETH_PORT_STAT_PREEMPT (n : Nat) : Field := ⟨0x3000004 + 0x10000 * n, 23, 23⟩
def ETH_PORT_STAT_PAUSED (n : Nat) : Field := ⟨0x3000004 + 0x10000 * n, 22, 22⟩
def ETH_PORT_STAT_PFC (n : Nat) : Field := ⟨0x3000004 + 0x10000 * n, 15, 8⟩
def ETH_PORT_MAC_MAC_HI (n : Nat) : Field := ⟨0x3000008 + 0x10000 * n, 15, 0⟩
def ETH_PORT_MAC_MAC_LO (n : Nat) : Field := ⟨0x300000C + 0x10000 * n, 31, 0⟩
def ETH_PORT_Q_EXP_Q (n : Nat) : Field := ⟨0x3000010 + 0x10000 * n, 14, 8⟩
def ETH_PORT_Q_RX_Q (n : Nat) : Field := ⟨0x3000010 + 0x10000 * n, 6, 0⟩
def ETH_PORT_PREEMPT_EN (n : Nat) : Field := ⟨0x3000014 + 0x10000 * n, 31, 31⟩
def ETH_PORT_PREEMPT_VERIFY_EN (n : Nat) : Field := ⟨0x3000014 + 0x10000 * n, 30, 30⟩
def ETH_PORT_PREEMPT_ADDFRAG (n : Nat) : Field := ⟨0x3000014 + 0x10000 * n, 29, 28⟩
def ETH_PORT_PREEMPT_VERIFY_MS (n : Nat) : Field := ⟨0x3000014 + 0x10000 * n, 15, 8⟩
def ETH_PORT_PREEMPT_EXPRESS (n : Nat) : Field := ⟨0x3000014 + 0x10000 * n, 7, 0⟩
def ETH_PORT_EEE_EN (n : Nat) : Field := ⟨0x3000018 + 0x10000 * n, 31, 31⟩
def ETH_PORT_EEE_IDLE (n : Nat) : Field := ⟨0x3000018 + 0x10000 * n, 23, 12⟩
def ETH_PORT_EEE_TW (n : Nat) : Field := ⟨0x3000018 + 0x10000 * n, 11, 0⟩
def ETH_PORT_FC_MODE (n : Nat) : Field := ⟨0x300001C + 0x10000 * n, 31, 30⟩
def ETH_PORT_FC_TX_PRI (n : Nat) : Field := ⟨0x300001C + 0x10000 * n, 23, 16⟩
def ETH_PORT_FC_QUANTA (n : Nat) : Field := ⟨0x300001C + 0x10000 * n, 15, 0⟩
def ETH_PORT_FC_THR_XOFF (n : Nat) : Field := ⟨0x3000020 + 0x10000 * n, 31, 16⟩
def ETH_PORT_FC_THR_XON (n : Nat) : Field := ⟨0x3000020 + 0x10000 * n, 15, 0⟩
def ETH_PORT_PTP_TX_EN (n : Nat) : Field := ⟨0x3000024 + 0x10000 * n, 31, 31⟩
def ETH_PORT_PTP_ONESTEP (n : Nat) : Field := ⟨0x3000024 + 0x10000 * n, 30, 30⟩
def ETH_TS_FIFO_VALID (n : Nat) : Field := ⟨0x300003C + 0x10000 * n, 31, 31⟩
def ETH_TS_FIFO_DOMAIN (n : Nat) : Field := ⟨0x3000038 + 0x10000 * n, 27, 20⟩
def ETH_TS_FIFO_MSGTYPE (n : Nat) : Field := ⟨0x3000038 + 0x10000 * n, 19, 16⟩
def ETH_TS_FIFO_SEQ (n : Nat) : Field := ⟨0x3000038 + 0x10000 * n, 15, 0⟩
def ETH_TS_FIFO_LT (n : Nat) : Wide := ⟨0x3000030 + 0x10000 * n, 64⟩
def ETH_MACSEC_EN (n : Nat) : Field := ⟨0x3000040 + 0x10000 * n, 31, 31⟩
def ETH_MACSEC_VALIDATE (n : Nat) : Field := ⟨0x3000040 + 0x10000 * n, 30, 29⟩
def ETH_MACSEC_XPN (n : Nat) : Field := ⟨0x3000040 + 0x10000 * n, 28, 28⟩
def ETH_MACSEC_KEY256 (n : Nat) : Field := ⟨0x3000040 + 0x10000 * n, 27, 27⟩
def ETH_MACSEC_CONF (n : Nat) : Field := ⟨0x3000040 + 0x10000 * n, 26, 26⟩
def ETH_MACSEC_INC_SCI (n : Nat) : Field := ⟨0x3000040 + 0x10000 * n, 25, 25⟩
def ETH_MACSEC_TX_AN (n : Nat) : Field := ⟨0x3000040 + 0x10000 * n, 1, 0⟩
def ETH_MACSEC_WIN_WINDOW (n : Nat) : Field := ⟨0x3000044 + 0x10000 * n, 31, 0⟩
def ETH_MACSEC_SCI_SCI (n : Nat) : Wide := ⟨0x3000048 + 0x10000 * n, 64⟩
def ETH_SA_CMD_AN (n : Nat) : Field := ⟨0x3000060 + 0x10000 * n, 17, 16⟩
def ETH_SA_CMD_SC (n : Nat) : Field := ⟨0x3000060 + 0x10000 * n, 15, 12⟩
def ETH_SA_CMD_OP (n : Nat) : Field := ⟨0x3000060 + 0x10000 * n, 11, 8⟩
def ETH_SA_CMD_RESULT (n : Nat) : Field := ⟨0x3000060 + 0x10000 * n, 7, 4⟩
def ETH_SA_CMD_STATE (n : Nat) : Field := ⟨0x3000060 + 0x10000 * n, 3, 0⟩
def ETH_SA_BUF_W0 (n : Nat) : Field := ⟨0x3000080 + 0x10000 * n, 31, 0⟩
def ETH_SA_BUF_W1 (n : Nat) : Field := ⟨0x3000084 + 0x10000 * n, 31, 0⟩
def ETH_SA_BUF_W2 (n : Nat) : Field := ⟨0x3000088 + 0x10000 * n, 31, 0⟩
def ETH_SA_BUF_W3 (n : Nat) : Field := ⟨0x300008C + 0x10000 * n, 31, 0⟩
def ETH_SA_BUF_W4 (n : Nat) : Field := ⟨0x3000090 + 0x10000 * n, 31, 0⟩
def ETH_SA_BUF_W5 (n : Nat) : Field := ⟨0x3000094 + 0x10000 * n, 31, 0⟩
def ETH_SA_BUF_W6 (n : Nat) : Field := ⟨0x3000098 + 0x10000 * n, 31, 0⟩
def ETH_SA_BUF_W7 (n : Nat) : Field := ⟨0x300009C + 0x10000 * n, 31, 0⟩
def ETH_SA_BUF_W8 (n : Nat) : Field := ⟨0x30000A0 + 0x10000 * n, 31, 0⟩
def ETH_SA_BUF_W9 (n : Nat) : Field := ⟨0x30000A4 + 0x10000 * n, 31, 0⟩
def ETH_SA_BUF_W10 (n : Nat) : Field := ⟨0x30000A8 + 0x10000 * n, 31, 0⟩
def ETH_SA_BUF_W11 (n : Nat) : Field := ⟨0x30000AC + 0x10000 * n, 31, 0⟩
def ETH_SA_BUF_W12 (n : Nat) : Field := ⟨0x30000B0 + 0x10000 * n, 31, 0⟩
def ETH_SA_BUF_W13 (n : Nat) : Field := ⟨0x30000B4 + 0x10000 * n, 31, 0⟩
def ETH_SA_BUF_W14 (n : Nat) : Field := ⟨0x30000B8 + 0x10000 * n, 31, 0⟩
def ETH_SA_BUF_W15 (n : Nat) : Field := ⟨0x30000BC + 0x10000 * n, 31, 0⟩
def ETH_CNT_RX_OK (n : Nat) : Wide := ⟨0x3000100 + 0x10000 * n, 48⟩
def ETH_CNT_RX_FCS (n : Nat) : Wide := ⟨0x3000108 + 0x10000 * n, 48⟩
def ETH_CNT_RX_RUNT (n : Nat) : Wide := ⟨0x3000110 + 0x10000 * n, 48⟩
def ETH_CNT_RX_OVERSIZE (n : Nat) : Wide := ⟨0x3000118 + 0x10000 * n, 48⟩
def ETH_CNT_RX_NOCELL (n : Nat) : Wide := ⟨0x3000120 + 0x10000 * n, 48⟩
def ETH_CNT_RX_OVERRUN (n : Nat) : Wide := ⟨0x3000128 + 0x10000 * n, 48⟩
def ETH_CNT_TX_OK (n : Nat) : Wide := ⟨0x3000130 + 0x10000 * n, 48⟩
def ETH_CNT_TX_OVERSIZE (n : Nat) : Wide := ⟨0x3000138 + 0x10000 * n, 48⟩
def ETH_CNT_TX_LINKDOWN (n : Nat) : Wide := ⟨0x3000140 + 0x10000 * n, 48⟩
def ETH_CNT_NO_NBR (n : Nat) : Wide := ⟨0x3000148 + 0x10000 * n, 48⟩
def ETH_CNT_PAUSE_RX (n : Nat) : Wide := ⟨0x3000150 + 0x10000 * n, 48⟩
def ETH_CNT_PAUSE_TX (n : Nat) : Wide := ⟨0x3000158 + 0x10000 * n, 48⟩
def ETH_CNT_CTRL_DROP (n : Nat) : Wide := ⟨0x3000160 + 0x10000 * n, 48⟩
def ETH_CNT_FRAG_ERR (n : Nat) : Wide := ⟨0x3000168 + 0x10000 * n, 48⟩
def ETH_CNT_TS_LOST (n : Nat) : Wide := ⟨0x3000170 + 0x10000 * n, 48⟩
def ETH_CNT_MACSEC_DROP (n : Nat) : Wide := ⟨0x3000178 + 0x10000 * n, 48⟩
def ETH_CNT_MACSEC_REPLAY (n : Nat) : Wide := ⟨0x3000180 + 0x10000 * n, 48⟩
def ETH_CNT_PN_EXHAUST (n : Nat) : Wide := ⟨0x3000188 + 0x10000 * n, 48⟩
def ETH_WGC_CORR : Wide := ⟨0x3000400, 48⟩
def ETH_WGC_UNCORR : Wide := ⟨0x3000408, 48⟩
def ETH_WGC_LAST_VALID : Field := ⟨0x3000410, 31, 31⟩
def ETH_WGC_LAST_TYPE : Field := ⟨0x3000410, 30, 30⟩
def ETH_WGC_LAST_POS : Field := ⟨0x3000410, 29, 24⟩
def ETH_WGC_LAST_SOURCE : Field := ⟨0x3000410, 23, 20⟩
def ETH_WGC_LAST_ADDR_W : Field := ⟨0x3000414, 31, 0⟩
def ETH_WGC_THR_THR : Field := ⟨0x3000418, 31, 0⟩
def ETH_WGC_STAT_UNC_SEEN : Field := ⟨0x300041C, 1, 1⟩
def ETH_WGC_STAT_RATE_HIGH : Field := ⟨0x300041C, 0, 0⟩
def ETH_NBR_VALID (n : Nat) : Field := ⟨0x3008000 + 0x8 * n, 31, 31⟩
def ETH_NBR_TAG (n : Nat) : Field := ⟨0x3008000 + 0x8 * n, 30, 30⟩
def ETH_NBR_VID (n : Nat) : Field := ⟨0x3008000 + 0x8 * n, 27, 16⟩
def ETH_NBR_DMAC_HI (n : Nat) : Field := ⟨0x3008000 + 0x8 * n, 15, 0⟩
def ETH_NBR_DMAC_LO (n : Nat) : Field := ⟨0x3008004 + 0x8 * n, 31, 0⟩
def DRC_STATUS_FROZEN : Field := ⟨0x4000000, 31, 31⟩
def DRC_STATUS_TRAINED : Field := ⟨0x4000000, 30, 30⟩
def DRC_STATUS_RETRAINING : Field := ⟨0x4000000, 11, 8⟩
def DRC_STATUS_RATE2X : Field := ⟨0x4000000, 7, 0⟩
def DRC_CTL_SCRUB : Field := ⟨0x4000004, 31, 24⟩
def DRC_CTL_AGE : Field := ⟨0x4000004, 11, 0⟩
def DRC_CMD_CHANNEL : Field := ⟨0x4000008, 13, 12⟩
def DRC_CMD_OP : Field := ⟨0x4000008, 11, 8⟩
def DRC_CMD_RESULT : Field := ⟨0x4000008, 7, 4⟩
def DRC_CMD_STATE : Field := ⟨0x4000008, 3, 0⟩
def DRC_CH_STAT_TEMP (n : Nat) : Field := ⟨0x4000010 + 0x4 * n, 31, 24⟩
def DRC_CH_STAT_TRAIN_TEMP (n : Nat) : Field := ⟨0x4000010 + 0x4 * n, 23, 16⟩
def DRC_CH_STAT_OWED1 (n : Nat) : Field := ⟨0x4000010 + 0x4 * n, 15, 12⟩
def DRC_CH_STAT_OWED0 (n : Nat) : Field := ⟨0x4000010 + 0x4 * n, 11, 8⟩
def DRC_CH_STAT_UTIL (n : Nat) : Field := ⟨0x4000010 + 0x4 * n, 7, 2⟩
def DRC_CH_STAT_GUARD (n : Nat) : Field := ⟨0x4000010 + 0x4 * n, 1, 1⟩
def DRC_CH_STAT_LOAD (n : Nat) : Field := ⟨0x4000010 + 0x4 * n, 0, 0⟩
def DRC_SRC_CLASS (n : Nat) : Field := ⟨0x4000040 + 0x4 * n, 1, 0⟩
def DRC_FREEZE_CFG_HOLD : Field := ⟨0x4000100, 15, 0⟩
def DRC_FREEZE_CAUSE_CAUSE : Field := ⟨0x4000110, 31, 29⟩
def DRC_FREEZE_CAUSE_SOURCE : Field := ⟨0x4000110, 28, 24⟩
def DRC_FREEZE_CAUSE_CLASS : Field := ⟨0x4000110, 23, 22⟩
def DRC_FREEZE_CAUSE_CHANNEL : Field := ⟨0x4000110, 21, 20⟩
def DRC_FREEZE_CAUSE_SUB : Field := ⟨0x4000110, 19, 19⟩
def DRC_FREEZE_CAUSE_BANK : Field := ⟨0x4000110, 18, 15⟩
def DRC_FREEZE_CAUSE_ROW : Field := ⟨0x4000110, 14, 0⟩
def DRC_FREEZE_LT_LT : Wide := ⟨0x4000118, 64⟩
def DRC_FREEZE_ADDR_ADDR : Wide := ⟨0x4000120, 64⟩
def DRC_FREEZE_SYN_SYN : Field := ⟨0x4000128, 31, 0⟩
def DRC_FREEZE_Q_READS (n : Nat) : Field := ⟨0x4000130 + 0x4 * n, 31, 24⟩
def DRC_FREEZE_Q_WRITES (n : Nat) : Field := ⟨0x4000130 + 0x4 * n, 23, 16⟩
def DRC_FREEZE_Q_GUARD_STEPS (n : Nat) : Field := ⟨0x4000130 + 0x4 * n, 15, 8⟩
def DRC_FREEZE_Q_DRAINING (n : Nat) : Field := ⟨0x4000130 + 0x4 * n, 0, 0⟩
def DRC_CNT_AGED : Wide := ⟨0x4000300, 48⟩
def DRC_CNT_WQ_FULL : Wide := ⟨0x4000308, 48⟩
def DRC_CNT_FORWARD : Wide := ⟨0x4000310, 48⟩
def DRC_CNT_POSTPONED : Wide := ⟨0x4000318, 48⟩
def DRC_CNT_CATCHUP : Wide := ⟨0x4000320, 48⟩
def DRC_CNT_TEMPER : Wide := ⟨0x4000328, 48⟩
def DRC_CNT_RETRAIN : Wide := ⟨0x4000330, 48⟩
def DRC_WGC_CORR : Wide := ⟨0x4000400, 48⟩
def DRC_WGC_UNCORR : Wide := ⟨0x4000408, 48⟩
def DRC_WGC_LAST_VALID : Field := ⟨0x4000410, 31, 31⟩
def DRC_WGC_LAST_TYPE : Field := ⟨0x4000410, 30, 30⟩
def DRC_WGC_LAST_POS : Field := ⟨0x4000410, 29, 24⟩
def DRC_WGC_LAST_SOURCE : Field := ⟨0x4000410, 23, 20⟩
def DRC_WGC_LAST_ADDR_W : Field := ⟨0x4000414, 31, 0⟩
def DRC_WGC_THR_THR : Field := ⟨0x4000418, 31, 0⟩
def DRC_WGC_STAT_UNC_SEEN : Field := ⟨0x400041C, 1, 1⟩
def DRC_WGC_STAT_RATE_HIGH : Field := ⟨0x400041C, 0, 0⟩
def CPU_CTL_HALTED : Field := ⟨0x5000000, 13, 8⟩
def CPU_CTL_RUN : Field := ⟨0x5000000, 3, 0⟩
def CPU_VBASE_BASE : Field := ⟨0x5000004, 31, 10⟩
def CPU_SWI_SET : Field := ⟨0x5000008, 3, 0⟩
def CPU_SWI_PEND_PEND : Field := ⟨0x500000C, 3, 0⟩
def CPU_CORE_STAT_MODE (n : Nat) : Field := ⟨0x5000010 + 0x10 * n, 7, 0⟩
def CPU_CORE_STAT_CODE (n : Nat) : Field := ⟨0x5000010 + 0x10 * n, 12, 8⟩
def CPU_CORE_STAT_SLOT (n : Nat) : Field := ⟨0x5000010 + 0x10 * n, 13, 13⟩
def CPU_CORE_EPC_EPC (n : Nat) : Field := ⟨0x5000014 + 0x10 * n, 31, 0⟩
def CPU_CORE_EADDR_EADDR (n : Nat) : Field := ⟨0x5000018 + 0x10 * n, 31, 0⟩
def CPU_SLOT_CODE_BASE_W (n : Nat) : Field := ⟨0x5000100 + 0x20 * n, 31, 0⟩
def CPU_SLOT_CODE_LEN_W (n : Nat) : Field := ⟨0x5000104 + 0x20 * n, 31, 0⟩
def CPU_SLOT_DATA_BASE_W (n : Nat) : Field := ⟨0x5000108 + 0x20 * n, 31, 0⟩
def CPU_SLOT_DATA_LEN_W (n : Nat) : Field := ⟨0x500010C + 0x20 * n, 31, 0⟩
def CPU_SLOT_DRAM_BASE_W (n : Nat) : Field := ⟨0x5000110 + 0x20 * n, 12, 0⟩
def CPU_SLOT_DRAM_LEN_W (n : Nat) : Field := ⟨0x5000114 + 0x20 * n, 13, 0⟩
def CPU_SLOT_CTL_EN (n : Nat) : Field := ⟨0x5000118 + 0x20 * n, 31, 31⟩
def CPU_SLOT_CTL_LEVEL (n : Nat) : Field := ⟨0x5000118 + 0x20 * n, 29, 28⟩
def CPU_SLOT_CTL_BUDGET (n : Nat) : Field := ⟨0x5000118 + 0x20 * n, 15, 0⟩
def CPU_CNT_PAIR_STALL (n : Nat) : Wide := ⟨0x5000300 + 0x20 * n, 48⟩
def CPU_CNT_SPILL (n : Nat) : Wide := ⟨0x5000308 + 0x20 * n, 48⟩
def CPU_CNT_EXC (n : Nat) : Wide := ⟨0x5000310 + 0x20 * n, 48⟩
def CPU_WGC_CORR : Wide := ⟨0x5000400, 48⟩
def CPU_WGC_UNCORR : Wide := ⟨0x5000408, 48⟩
def CPU_WGC_LAST_VALID : Field := ⟨0x5000410, 31, 31⟩
def CPU_WGC_LAST_TYPE : Field := ⟨0x5000410, 30, 30⟩
def CPU_WGC_LAST_POS : Field := ⟨0x5000410, 29, 24⟩
def CPU_WGC_LAST_SOURCE : Field := ⟨0x5000410, 23, 20⟩
def CPU_WGC_LAST_ADDR_W : Field := ⟨0x5000414, 31, 0⟩
def CPU_WGC_THR_THR : Field := ⟨0x5000418, 31, 0⟩
def CPU_WGC_STAT_UNC_SEEN : Field := ⟨0x500041C, 1, 1⟩
def CPU_WGC_STAT_RATE_HIGH : Field := ⟨0x500041C, 0, 0⟩
def PRF_CTL_GUEST_READ : Field := ⟨0x6000000, 31, 31⟩
def PRF_CTL_LOG_STOP : Field := ⟨0x6000000, 1, 1⟩
def PRF_CTL_OVF_IRQ : Field := ⟨0x6000000, 0, 0⟩
def PRF_SNAP_GO : Field := ⟨0x6000004, 8, 8⟩
def PRF_SNAP_RESULT : Field := ⟨0x6000004, 7, 4⟩
def PRF_SNAP_STATE : Field := ⟨0x6000004, 3, 0⟩
def PRF_FREEZE_FREEZE : Field := ⟨0x6000008, 0, 0⟩
def PRF_OVF (n : Nat) : Field := ⟨0x6000020 + 0x4 * n, 31, 0⟩
def PRF_OVF_5 : Field := ⟨0x6000034, 23, 0⟩
def PRF_GUEST_MASK (n : Nat) : Field := ⟨0x6000040 + 0x4 * n, 31, 0⟩
def PRF_GUEST_MASK_5 : Field := ⟨0x6000054, 23, 0⟩
def PRF_SAMPLE_CFG_EN : Field := ⟨0x6000100, 31, 31⟩
def PRF_SAMPLE_CFG_WRAP : Field := ⟨0x6000100, 30, 30⟩
def PRF_SAMPLE_CFG_VENDOR : Field := ⟨0x6000100, 29, 29⟩
def PRF_SAMPLE_CFG_ENGINES : Field := ⟨0x6000100, 22, 16⟩
def PRF_SAMPLE_CFG_PERIOD : Field := ⟨0x6000100, 15, 0⟩
def PRF_SAMPLE_LAT_MIN_LAT : Field := ⟨0x6000104, 15, 0⟩
def PRF_SAMPLE_HEAD_WRAPPED : Field := ⟨0x6000108, 31, 31⟩
def PRF_SAMPLE_HEAD_NEXT : Field := ⟨0x6000108, 13, 0⟩
def PRF_LOG_STAT_WRAPPED : Field := ⟨0x6000110, 31, 31⟩
def PRF_LOG_STAT_STOPPED : Field := ⟨0x6000110, 30, 30⟩
def PRF_LOG_STAT_NEXT : Field := ⟨0x6000110, 13, 0⟩
def PRF_LOG_LOST : Wide := ⟨0x6000118, 48⟩
def PRF_WGC_CORR : Wide := ⟨0x6000400, 48⟩
def PRF_WGC_UNCORR : Wide := ⟨0x6000408, 48⟩
def PRF_WGC_LAST_VALID : Field := ⟨0x6000410, 31, 31⟩
def PRF_WGC_LAST_TYPE : Field := ⟨0x6000410, 30, 30⟩
def PRF_WGC_LAST_POS : Field := ⟨0x6000410, 29, 24⟩
def PRF_WGC_LAST_SOURCE : Field := ⟨0x6000410, 23, 20⟩
def PRF_WGC_LAST_ADDR_W : Field := ⟨0x6000414, 31, 0⟩
def PRF_WGC_THR_THR : Field := ⟨0x6000418, 31, 0⟩
def PRF_WGC_STAT_UNC_SEEN : Field := ⟨0x600041C, 1, 1⟩
def PRF_WGC_STAT_RATE_HIGH : Field := ⟨0x600041C, 0, 0⟩
def PRF_EVSEL_PORT (n : Nat) : Field := ⟨0x6001000 + 0x4 * n, 10, 8⟩
def PRF_EVSEL_EVENT (n : Nat) : Field := ⟨0x6001000 + 0x4 * n, 7, 0⟩
def PRF_CNT (n : Nat) : Wide := ⟨0x6002000 + 0x8 * n, 48⟩
def PRF_SHADOW (n : Nat) : Wide := ⟨0x6004000 + 0x8 * n, 48⟩
def PRF_LOG_W (n : Nat) : Field := ⟨0x6010000 + 0x4 * n, 31, 0⟩
def PRF_SAMPLE_W (n : Nat) : Field := ⟨0x60A0000 + 0x4 * n, 31, 0⟩
def SHF_CFG_EN : Field := ⟨0x7000000, 31, 31⟩
def SHF_CFG_DEPUTY : Field := ⟨0x7000000, 29, 24⟩
def SHF_CFG_ID : Field := ⟨0x7000000, 21, 16⟩
def SHF_CFG_PORTS : Field := ⟨0x7000000, 15, 8⟩
def SHF_CFG_BH : Field := ⟨0x7000000, 7, 0⟩
def SHF_MGMT_EN : Field := ⟨0x7000004, 3, 3⟩
def SHF_MGMT_PORT : Field := ⟨0x7000004, 2, 0⟩
def SHF_STATUS_ROLE : Field := ⟨0x7000008, 31, 30⟩
def SHF_STATUS_ACTING : Field := ⟨0x7000008, 29, 29⟩
def SHF_STATUS_CONFLICT : Field := ⟨0x7000008, 28, 28⟩
def SHF_STATUS_NUMBER : Field := ⟨0x7000008, 21, 16⟩
def SHF_STATUS_ALIAS_V : Field := ⟨0x7000008, 15, 15⟩
def SHF_STATUS_ALIAS : Field := ⟨0x7000008, 5, 0⟩
def SHF_TERM_TERM : Field := ⟨0x700000C, 31, 0⟩
def SHF_MEMBERS_REACH : Wide := ⟨0x7000010, 64⟩
def SHF_CMD_OP : Field := ⟨0x7000020, 11, 8⟩
def SHF_CMD_RESULT : Field := ⟨0x7000020, 7, 4⟩
def SHF_CMD_STATE : Field := ⟨0x7000020, 3, 0⟩
def SHF_ROUTE_REACH (n : Nat) : Field := ⟨0x7000100 + 0x4 * n, 31, 31⟩
def SHF_ROUTE_HOPS (n : Nat) : Field := ⟨0x7000100 + 0x4 * n, 19, 16⟩
def SHF_ROUTE_NEXT (n : Nat) : Field := ⟨0x7000100 + 0x4 * n, 13, 8⟩
def SHF_ROUTE_KIND (n : Nat) : Field := ⟨0x7000100 + 0x4 * n, 7, 7⟩
def SHF_ROUTE_LINK (n : Nat) : Field := ⟨0x7000100 + 0x4 * n, 2, 0⟩
def SHF_CNT_AUTH : Wide := ⟨0x7000300, 48⟩
def SHF_CNT_REPLAY : Wide := ⟨0x7000308, 48⟩
def SHF_CNT_HOPS : Wide := ⟨0x7000310, 48⟩
def SHF_CNT_UNREACHABLE : Wide := ⟨0x7000318, 48⟩
def SHF_CNT_REMOTE : Wide := ⟨0x7000320, 48⟩
def SHF_WGC_CORR : Wide := ⟨0x7000400, 48⟩
def SHF_WGC_UNCORR : Wide := ⟨0x7000408, 48⟩
def SHF_WGC_LAST_VALID : Field := ⟨0x7000410, 31, 31⟩
def SHF_WGC_LAST_TYPE : Field := ⟨0x7000410, 30, 30⟩
def SHF_WGC_LAST_POS : Field := ⟨0x7000410, 29, 24⟩
def SHF_WGC_LAST_SOURCE : Field := ⟨0x7000410, 23, 20⟩
def SHF_WGC_LAST_ADDR_W : Field := ⟨0x7000414, 31, 0⟩
def SHF_WGC_THR_THR : Field := ⟨0x7000418, 31, 0⟩
def SHF_WGC_STAT_UNC_SEEN : Field := ⟨0x700041C, 1, 1⟩
def SHF_WGC_STAT_RATE_HIGH : Field := ⟨0x700041C, 0, 0⟩
def HIF_STATUS_ROLE : Field := ⟨0x7100000, 31, 30⟩
def HIF_STATUS_LINK : Field := ⟨0x7100000, 29, 29⟩
def HIF_STATUS_WIDTH : Field := ⟨0x7100000, 28, 26⟩
def HIF_STATUS_GEN : Field := ⟨0x7100000, 25, 23⟩
def HIF_STATUS_REMOTE_ERR : Field := ⟨0x7100000, 0, 0⟩
def HIF_DWIN_BASE : Field := ⟨0x7100010, 8, 0⟩
def HIF_MSG_CFG_BASE : Field := ⟨0x7100020, 31, 8⟩
def HIF_MSG_CFG_SIZE : Field := ⟨0x7100020, 3, 0⟩
def HIF_MSG_IDX_LOST : Field := ⟨0x7100024, 31, 24⟩
def HIF_MSG_IDX_HEAD : Field := ⟨0x7100024, 23, 12⟩
def HIF_MSG_IDX_TAIL : Field := ⟨0x7100024, 11, 0⟩
def HIF_DOORBELL_VALUE : Field := ⟨0x7100030, 31, 0⟩
def HIF_DB_LAST_LAST : Field := ⟨0x7100034, 31, 0⟩
def HIF_HOST_DB_VALUE : Field := ⟨0x7100038, 31, 0⟩
def HIF_APER_EN (n : Nat) : Field := ⟨0x7100100 + 0x4 * n, 31, 31⟩
def HIF_APER_DEVICE (n : Nat) : Field := ⟨0x7100100 + 0x4 * n, 29, 24⟩
def HIF_APER_WINDOW (n : Nat) : Field := ⟨0x7100100 + 0x4 * n, 11, 0⟩
def FLD_STATUS_BUS_LOW : Field := ⟨0x8000000, 21, 18⟩
def FLD_STATUS_REPLACE : Field := ⟨0x8000000, 17, 17⟩
def FLD_STATUS_FAULT : Field := ⟨0x8000000, 16, 16⟩
def FLD_STATUS_IN : Field := ⟨0x8000000, 15, 0⟩
def FLD_DALI_CFG_EN (n : Nat) : Field := ⟨0x8000100 + 0x10 * n, 31, 31⟩
def FLD_DALI_CFG_START_EN (n : Nat) : Field := ⟨0x8000100 + 0x10 * n, 30, 30⟩
def FLD_DALI_CFG_START (n : Nat) : Field := ⟨0x8000100 + 0x10 * n, 29, 23⟩
def FLD_DALI_CFG_ECHO_PERIOD (n : Nat) : Field := ⟨0x8000100 + 0x10 * n, 22, 16⟩
def FLD_DALI_CFG_ECHO_WAIT (n : Nat) : Field := ⟨0x8000100 + 0x10 * n, 15, 0⟩
def FLD_DALI_CMD_PRIO (n : Nat) : Field := ⟨0x8000104 + 0x10 * n, 14, 12⟩
def FLD_DALI_CMD_OP (n : Nat) : Field := ⟨0x8000104 + 0x10 * n, 11, 8⟩
def FLD_DALI_CMD_RESULT (n : Nat) : Field := ⟨0x8000104 + 0x10 * n, 7, 4⟩
def FLD_DALI_CMD_STATE (n : Nat) : Field := ⟨0x8000104 + 0x10 * n, 3, 0⟩
def FLD_DALI_TX_FRAME (n : Nat) : Field := ⟨0x8000108 + 0x10 * n, 23, 0⟩
def FLD_DALI_RX_VALID (n : Nat) : Field := ⟨0x800010C + 0x10 * n, 31, 31⟩
def FLD_DALI_RX_DATA (n : Nat) : Field := ⟨0x800010C + 0x10 * n, 7, 0⟩
def FLD_ECHO_MASK_MASK (n : Nat) : Wide := ⟨0x8000200 + 0x8 * n, 64⟩
def FLD_PWM_EN (n : Nat) : Field := ⟨0x8000300 + 0x8 * n, 31, 31⟩
def FLD_PWM_INVERT (n : Nat) : Field := ⟨0x8000300 + 0x8 * n, 30, 30⟩
def FLD_PWM_START (n : Nat) : Field := ⟨0x8000300 + 0x8 * n, 22, 16⟩
def FLD_PWM_FREQ (n : Nat) : Field := ⟨0x8000300 + 0x8 * n, 14, 0⟩
def FLD_PWM_DUTY (n : Nat) : Field := ⟨0x8000304 + 0x8 * n, 31, 16⟩
def FLD_PWM_SAFE (n : Nat) : Field := ⟨0x8000304 + 0x8 * n, 15, 0⟩
def FLD_WGC_CORR : Wide := ⟨0x8000400, 48⟩
def FLD_WGC_UNCORR : Wide := ⟨0x8000408, 48⟩
def FLD_WGC_LAST_VALID : Field := ⟨0x8000410, 31, 31⟩
def FLD_WGC_LAST_TYPE : Field := ⟨0x8000410, 30, 30⟩
def FLD_WGC_LAST_POS : Field := ⟨0x8000410, 29, 24⟩
def FLD_WGC_LAST_SOURCE : Field := ⟨0x8000410, 23, 20⟩
def FLD_WGC_LAST_ADDR_W : Field := ⟨0x8000414, 31, 0⟩
def FLD_WGC_THR_THR : Field := ⟨0x8000418, 31, 0⟩
def FLD_WGC_STAT_UNC_SEEN : Field := ⟨0x800041C, 1, 1⟩
def FLD_WGC_STAT_RATE_HIGH : Field := ⟨0x800041C, 0, 0⟩
def FLD_GPIO_CFG_MODE (n : Nat) : Field := ⟨0x8000500 + 0x4 * n, 31, 30⟩
def FLD_GPIO_CFG_OUT (n : Nat) : Field := ⟨0x8000500 + 0x4 * n, 29, 29⟩
def FLD_GPIO_CFG_ACT_HIGH (n : Nat) : Field := ⟨0x8000500 + 0x4 * n, 28, 28⟩
def FLD_GPIO_CFG_STUCK_S (n : Nat) : Field := ⟨0x8000500 + 0x4 * n, 27, 16⟩
def FLD_GPIO_CFG_STATE (n : Nat) : Field := ⟨0x8000500 + 0x4 * n, 9, 8⟩
def FLD_GPIO_CFG_DEGLITCH (n : Nat) : Field := ⟨0x8000500 + 0x4 * n, 7, 0⟩
def FLD_WAKE_CFG_OUT : Field := ⟨0x8000540, 29, 29⟩
def FLD_WAKE_CFG_ACT_HIGH : Field := ⟨0x8000540, 28, 28⟩
def FLD_WAKE_CFG_STUCK_S : Field := ⟨0x8000540, 27, 16⟩
def FLD_WAKE_CFG_STATE : Field := ⟨0x8000540, 9, 8⟩
def FLD_WAKE_CFG_DEGLITCH : Field := ⟨0x8000540, 7, 0⟩
def FLD_CNT_DALI_TX : Wide := ⟨0x8000600, 48⟩
def FLD_CNT_COLLISION : Wide := ⟨0x8000608, 48⟩
def FLD_CNT_ECHO_MISS : Wide := ⟨0x8000610, 48⟩
def FLD_CNT_IN_EVENTS : Wide := ⟨0x8000618, 48⟩

end Sys2Proof.Machine
end

