-- ==== Sys2Proof/Machine/State.lean ====
section
/-! DEFINITION. The state of the block as plain data, the reasons a step can stop, and the state after reset. Every CSR of
spec/01 to spec/21 stands in `State.regs` (Machine/RegMap.lean gives each one's address, fields and reset value); the
other fields hold what the spec gives the units behind their registers. A field's default value is its reset value. -/

namespace Sys2Proof.Machine

/-! ### Mains time (spec/02) -/

/-- A change of level at a ball (R31): its reference time, MT there, and the corrections of MT that were in progress there (R41):
what was still to be slewed, and the ticks still to be held. -/
structure RefEdge where
  time : Nat
  mt : Nat
  corr : Int := 0
  hold : Nat := 0
  deriving DecidableEq, Repr

/-- One mains reference input and its conditioning (R31 to R34). Its state GOOD, STUCK, CHATTER or RANGE stands in
`MTM_REF_STAT`. Reset: level low, no edge seen. -/
structure RefIn where
  /-- The level at the ball. -/
  raw : Bool := false
  /-- The last accepted level (R31). -/
  level : Bool := false
  /-- The change whose 200 µs deglitch runs (R31). -/
  change : Option RefEdge := none
  /-- The time carried by the last accepted edge, or reset (R32). -/
  lastEdge : Nat := 0
  /-- The time of the last accepted rising edge, if any (R34). -/
  lastRise : Option Nat := none
  /-- Accepted falling edges since the last rising edge (R32). -/
  falls : Nat := 0
  /-- Times of the last accepted edges, newest first, at most five (R33). -/
  recent : List Nat := []
  /-- Consecutive good cycles towards leaving STUCK (R32). -/
  goodCycles : Nat := 0
  /-- Consecutive periods outside 42.5 Hz to 67.5 Hz (R34). -/
  outPeriods : Nat := 0
  /-- Consecutive periods inside it (R34). -/
  inPeriods : Nat := 0
  /-- The last periods in ns, newest first, at most eight (R42). -/
  periods : List Nat := []
  /-- End of the chatter period (R33). -/
  chatterEnd : Option Nat := none
  /-- Cycles for which the input has been GOOD (R37). -/
  goodFor : Nat := 0
  /-- Offset learning (R35): the first difference, the sum of differences from it, and how many. -/
  learnBase : Nat := 0
  learnSum : Int := 0
  learnCount : Nat := 0
  /-- The offset stored in the learned-data area of the NVM (R36), if one is. -/
  stored : Option Nat := none
  deriving DecidableEq, Repr

/-- The registers of an alarm as they stood when EN was set (R52). -/
structure Armed where
  width : Nat
  ctl : Word
  deriving DecidableEq, Repr

/-- The mains-time unit behind its registers (R29 to R53). -/
structure Mtm where
  /-- Mains time, 48 bits: cycle number and phase (R29). Reset 0 (R42). -/
  mt : Nat := 0
  /-- Fraction of a tick run since the last one, in units of the tick rate (R29, R41). -/
  acc : Nat := 0
  /-- Ticks' worth by which the present cycle is shortened (positive) or lengthened (R41). -/
  cycleAdj : Int := 0
  /-- Error still to be slewed, in ticks (R41). -/
  slew : Int := 0
  /-- Error of the pending step (R41). -/
  stepErr : Int := 0
  /-- Ticks for which MT holds at phase 65,535 of this cycle (R41: a step backward). -/
  holdTicks : Nat := 0
  /-- The pending step is the one of the first source selection (R42). -/
  firstStep : Bool := false
  a : RefIn := {}
  b : RefIn := {}
  c : RefIn := {}
  /-- Cycles for which the phase error has stayed within ±64 ticks (R34). -/
  lockCycles : Nat := 0
  /-- Reference time of the start of the holdover (R38, R40). -/
  holdSince : Option Nat := none
  /-- Reference time of the start of free holdover, from which the error bound counts (R39). -/
  freeSince : Option Nat := none
  /-- `MT_HOLD_SLOT` has been logged in this holdover (R39). -/
  slotLogged : Bool := false
  /-- Remainder of the LT rate adjustment (R45). -/
  ltAcc : Int := 0
  /-- What the loads and steps of LT since the last cold reset add up to (R46). -/
  ltJump : Nat := 0
  /-- `MTM_FREQ` when the last input left GOOD (R38). -/
  heldFreq : Nat := 0
  /-- LT has been loaded since the last cold reset (R46). -/
  ltLoaded : Bool := false
  /-- The device is the lead, and it is so by takeover: as it last took or lost that role, through OFF and a warm reset (R35, R45,
  R434, R446). Before an image says otherwise it forms a one-device shelf. -/
  leads : Bool := true
  acts : Bool := false
  /-- Last TIME message of the lead: its MT, its LT, its frequency, and whether its MT is valid (R38, R43, R442). -/
  leadMt : Nat := 0
  leadLt : Nat := 0
  leadFreq : Nat := 0
  leadValid : Bool := false
  /-- A cycle adoption waits for the next boundary (R43). -/
  adoptPend : Bool := false
  /-- Times of the steps made within the last hour (R417, R492). -/
  steps : List Nat := []
  /-- A cycle mismatch has been reported and has not ended (R43, R492). -/
  mismatch : Bool := false
  /-- The registers of the armed alarms when EN was set (R52). -/
  armed : Map Armed := []
  deriving DecidableEq, Repr

/-! ### Event log and performance counters (spec/21) -/

/-- One log entry (R473). -/
structure LogEntry where
  lt : Nat
  mt : Nat
  unit : UnitId
  unsync : Bool
  mtInvalid : Bool
  staged : Bool
  lostBefore : Bool
  code : Ev
  seq : Nat
  args : List Nat
  deriving DecidableEq, Repr

/-- The event log (R473 to R477). Reset: empty. -/
structure LogSt where
  /-- The ring, by position. -/
  ring : Map LogEntry := []
  /-- The staging buffer of the AON domain, oldest first (R476). -/
  staging : List LogEntry := []
  /-- The sequence number each unit's next entry takes (R473). -/
  seq : Map Nat := []
  /-- Units whose last entries were dropped (R476, R477). -/
  dropped : List UnitId := []
  deriving DecidableEq, Repr

/-- A sampling record (R472). -/
structure SampleRec where
  lt : Nat
  engine : Engine
  word : RetiredWord
  deriving DecidableEq, Repr

/-- Sampling of one engine (R470). -/
structure Sampler where
  /-- Words retired since the last candidate. -/
  count : Nat := 0
  /-- The next retired word is the candidate. -/
  candidate : Bool := false
  deriving DecidableEq, Repr

/-- Counters and sampling (R466 to R472). Reset: counters 0, buffer empty. -/
structure Prf where
  /-- The live counters, numbered 8 × u + k (R466). -/
  cnt : Map Nat := []
  /-- Their shadows (R468). -/
  shadow : Map Nat := []
  /-- The sampling buffer, by index (R471). -/
  samples : Map SampleRec := []
  /-- Sampling of each engine, by engine number (R470). -/
  samplers : Map Sampler := []
  deriving DecidableEq, Repr

/-! ### Start-up and configuration (spec/03) -/

/-- What CFG reads of one bank's header (R59 to R62). -/
structure BankHdr where
  valid : Bool := false
  seq : Nat := 0
  rollback : Nat := 0
  deriving DecidableEq, Repr

/-! The recovery ladder stands here because the learned-data area holds ladders. -/

/-- The recovery ladder of one function (R428 to R431). `ASY_FUNC_f` reports it. -/
structure Ladder where
  /-- The rung that runs, 1 to 4. -/
  rung : Option Nat := none
  /-- It was forced (R431). -/
  forced : Bool := false
  /-- When the running rung started. -/
  since : Nat := 0
  /-- The rung that ended last with the function in service, and until when a recurrence escalates it (R428). -/
  window : Option (Nat × Nat) := none
  /-- A fault reported during a warm reset, judged at full service: the rung it starts at (R430). -/
  judge : Option Nat := none
  /-- The ladder is exhausted (R429). -/
  out : Bool := false
  /-- Rung 4 was unavailable: degraded until power is cycled (R432). -/
  noCycle : Bool := false
  /-- Times of the function's counted warm resets within 24 h (R428). -/
  resets : List Nat := []
  deriving DecidableEq, Repr

/-- The learned-data area of one image source (R58), whose layout the spec does not give: the bank record (R65), the learned
offsets (R36), the replacement request (R426), what is written before rung 4 (R432), the boot epoch (R439), the lead term (R446)
and SGM's frame counter (R312). Reset: nothing stored. -/
structure Learned where
  trials : Nat := 0
  confSeq : Nat := 0
  ofsA : Option Nat := none
  ofsB : Option Nat := none
  ofsC : Option Nat := none
  replace : Option Nat := none
  causes : Nat := 0
  ladders : Map Ladder := []
  epoch : Nat := 0
  term : Nat := 0
  ctr : Nat := 0
  deriving DecidableEq, Repr

/-- The start-up and configuration unit behind its registers. Reset: before 12 V is valid, NOR erased, nothing in the
learned-data area (DESIGN CHOICE, log entry 8). -/
structure Cfg where
  /-- Steps of R72 completed since the last reset: 0 before step 1, 10 at full service. -/
  stage : Nat := 0
  /-- In-package and external NOR contents that are not 0xFF, by byte address (R57, R58), as the complement of each byte. -/
  nor : Memory := []
  norExt : Memory := []
  /-- The learned-data area in use is the external NOR's (R57, R58): its contents stand in the fields below and in those of the
  units that use them. The other source's area. -/
  learnedExt : Bool := false
  learned : Learned := {}
  /-- The straps have been sampled since the cold reset (R70); TEST_MODE as sampled (R490). -/
  strapped : Bool := false
  testMode : Bool := false
  /-- Both headers have been read in this boot; the headers (R65). -/
  hdrRead : Bool := false
  hdrA : BankHdr := {}
  hdrB : BankHdr := {}
  /-- TRIALS and CONF_SEQ of the bank record, kept in NVM (R65). -/
  trials : Nat := 0
  confSeq : Nat := 0
  /-- OTP rollback count (R65). -/
  otp : Nat := 0
  /-- Bank that failed a deferred section, recorded in AON (R66): false A, true B; this boot treats it as invalid. -/
  failedBank : Option Bool := none
  /-- The banks that may be booted, preferred first (R65, R66); whether the running bank is on a trial boot is
  `CFG_STATUS.TRIAL`. -/
  candidates : List Bool := []
  /-- First run of the Assay self-test failed; it failed again, and start-up has stopped (R74). -/
  bistFailed : Bool := false
  bistDead : Bool := false
  /-- Steps logged as `BOOT_LATE` in this boot (R74). -/
  late : List Nat := []
  /-- CALIBRATION section authenticated (R491). -/
  calOk : Bool := false
  /-- Boot in NO_IMAGE (R68). -/
  noImage : Bool := false
  /-- The folio store (R64), what the FIRMWARE section loads, and the deferred sections. -/
  folios : List FolioData := []
  code : List CodeSeg := []
  deferred : Option DeferredLoad := none
  /-- The bank an erase runs on (R69). -/
  erasing : Option Bool := none
  /-- Cycle number at whose start the pending folio switch takes effect (R78). -/
  switchCycle : Option Nat := none
  /-- Quires that wait to drain before their new configuration is written (R79). -/
  reconfig : List Nat := []
  /-- This boot follows an OFF or warm reset taken in STANDBY (R493). -/
  resumeStandby : Bool := false
  /-- The last loaded entry of each vendor alarm (R76), and those to be enabled at step 6. -/
  vendorAlarms : Map AlarmEntry := []
  alarmsDue : List Nat := []
  /-- This boot follows a warm device reset (R76). -/
  warm : Bool := false
  /-- Reference time at which the boot started (R72). -/
  bootStart : Nat := 0
  deriving DecidableEq, Repr

/-! ### Power (spec/17) -/

/-- The condition of a sleeping domain (R399, R400). -/
inductive DomSt where
  | unpowered | up | low | waking
  deriving DecidableEq, Repr

/-- A device state transition that runs (R404). -/
structure Transition where
  /-- Target, coded as R403. -/
  target : Nat
  deriving DecidableEq, Repr

/-- A permit request that runs (R411). -/
structure PermitReq where
  tag : Nat
  cls : Nat
  t0 : Nat
  polls : Nat
  deriving DecidableEq, Repr

/-- A grant in force (R411). -/
structure Grant where
  cls : Nat
  asked : Nat
  t0 : Nat
  lease : Nat
  deriving DecidableEq, Repr

/-- The permit machine of one radio (R410 to R414). Reset: no grant. -/
structure Permit where
  req : Option PermitReq := none
  grant : Option Grant := none
  /-- End of RETRY (R411). -/
  retryEnd : Option Nat := none
  /-- The permitted class has been lowered while the grant stays in force (R412). -/
  lowered : Bool := false
  /-- A release waits for the TXOP report (R414). -/
  release : Bool := false
  /-- The class last asked for (R410). -/
  lastAsked : Nat := 0
  /-- The class a predistortion calibration asks for (R233), 0 for none. -/
  calAsk : Nat := 0
  /-- TXOPs granted at the grant's class that have not ended (R414). -/
  txops : Nat := 0
  deriving DecidableEq, Repr

/-- One PMBus transaction that PWR has written, as the supply saw it (R408). -/
structure PmbWrite where
  page : Option Nat
  code : Nat
  data : Nat
  deriving DecidableEq, Repr

/-- An operation whose PMBus transaction was NACKed and waits 100 µs for its one retry (R409). -/
inductive PmbOp where
  | request (r : Radio)
  | poll (r : Radio)
  | monitor
  | powerCycle
  deriving DecidableEq, Repr

/-- The power unit behind its registers. Reset: only AON powered. -/
structure Pwr where
  /-- The sleeping domains, by bit number of R399. -/
  doms : Map DomSt := []
  /-- Time since which a domain's idle condition has held (R400). -/
  idleSince : Map Nat := []
  transition : Option Transition := none
  permA : Permit := {}
  permB : Permit := {}
  /-- The highest class that the MAX, MISMATCH and REG caps allow on any link of radio A (0) and radio B (1); 7 until a
  radio reports less (R229, R410). -/
  caps : Map Nat := []
  /-- The tag the next request takes (R408). -/
  nextTag : Nat := 0
  /-- The page last written (R408); none after a cold reset. -/
  page : Option Nat := none
  /-- Writes made on the PMBus, newest first (R408). -/
  writes : List PmbWrite := []
  nackPend : Option PmbOp := none
  /-- Start of the brown-out window (R407). -/
  brownStart : Option Nat := none
  /-- Cold reset held after an input fail (R398). -/
  held : Bool := false
  deriving DecidableEq, Repr

/-! ### Assay (spec/18) -/

/-- A fault condition that stands: its monitor and function. -/
structure Standing where
  monitor : Monitor
  func : Func
  deriving DecidableEq, Repr

/-- Assay behind its registers. Reset: no fault, watchdog disarmed. -/
structure Asy where
  /-- Monitors run (R417: from step 6). -/
  armed : Bool := false
  standing : List Standing := []
  ladders : Map Ladder := []
  /-- The HV-die watchdog is armed (R419). -/
  watchdog : Bool := false
  /-- Since when no cause has been set (R423). -/
  quietSince : Option Nat := none
  /-- The safe outputs have been applied (R420, R421). -/
  applied : Bool := false
  /-- Device state that a temperature fault left (R421). -/
  tempReturn : Option Nat := none
  /-- Time of the last rung 4 (R432). -/
  lastRung4 : Option Nat := none
  /-- Rung-4 record kept in the learned-data area: causes and functions on a ladder (R432). -/
  savedCauses : Nat := 0
  /-- Rung-4 record: the ladders (R432). -/
  savedLadders : Map Ladder := []
  /-- Replacement request kept in the learned-data area, with its cause (R426). -/
  replaceNvm : Option Nat := none
  /-- When the latent-fault self-test became due (R424). -/
  lftDueAt : Option Nat := none
  /-- Times of the DRAM freezes within 24 h (R371). -/
  freezes : List Nat := []
  /-- The first freeze of the window, whose HOLD runs (R371). -/
  freezeHold : Option Nat := none
  /-- Missed heartbeats of each unit, by unit number (R417). -/
  missed : Map Nat := []
  /-- Uncorrectable errors reported by each unit, by unit number (R110). -/
  reports : Map Nat := []
  deriving DecidableEq, Repr

/-! ### Field I/O (spec/20) -/

/-- What a DALI frame is for (R453 to R458). -/
inductive DaliKind where
  | level | soft | echo (gear : Nat)
  deriving DecidableEq, Repr

/-- A forward frame (R453). -/
structure DaliFrame where
  kind : DaliKind
  bits : Nat
  data : Nat
  prio : Nat
  deriving DecidableEq, Repr

/-- What a port does. -/
inductive DaliPhase where
  | idle | sending | answer
  deriving DecidableEq, Repr

/-- One DALI port (R452 to R458). Reset: silent, bus idle. -/
structure DaliPort where
  queue : List DaliFrame := []
  phase : DaliPhase := .idle
  /-- Since when the bus is idle. -/
  idleSince : Nat := 0
  /-- End of the last forward frame's stop condition. -/
  frameEnd : Nat := 0
  /-- Collisions of the frame at the head of the queue. -/
  collisions : Nat := 0
  /-- The safe-level broadcast waits, or is being sent (R420). -/
  safePend : Bool := false
  safeSending : Bool := false
  /-- Collisions in a row of the safe-level broadcast (R453). -/
  safeCollisions : Nat := 0
  /-- The commanded arc level of each gear (R458). -/
  commanded : Map Nat := []
  /-- Consecutive echo mismatches of each gear. -/
  misses : Map Nat := []
  /-- When the next echo query of each gear is due. -/
  echoDue : Map Nat := []
  deriving DecidableEq, Repr

/-- How a PWM output is driven (R460). -/
inductive PwmDrive where
  | released | strap | run | safe
  deriving DecidableEq, Repr

/-- One PWM output (R459). Reset: released. -/
structure PwmOut where
  drive : PwmDrive := .released
  /-- The settings in effect in the present period. -/
  enabled : Bool := false
  invert : Bool := false
  freq : Nat := 0
  duty : Nat := 0
  /-- Consecutive periods in which the released output read low. -/
  lowReads : Nat := 0
  /-- The scheduled level in percent (R456). -/
  scheduled : Nat := 0
  deriving DecidableEq, Repr

/-- A slow input or GPIO (R461 to R464). Reset: level low, no pulse. -/
structure Gpio where
  /-- The accepted level. -/
  level : Bool := false
  /-- The level that has held for the deglitch time; it differs from the accepted level only in a chatter hold. -/
  seen : Bool := false
  /-- Times of accepted edges, newest first, at most nine. -/
  edges : List Nat := []
  /-- End of the chatter hold. -/
  chatterEnd : Option Nat := none
  /-- Since when the asserted level has been held. -/
  assertedSince : Option Nat := none
  /-- End of a running pulse. -/
  pulseEnd : Option Nat := none
  /-- The level that a running pulse drives. -/
  out : Bool := false
  deriving DecidableEq, Repr

/-- Field I/O behind its registers. -/
structure FieldIo where
  dali : Map DaliPort := []
  pwm : Map PwmOut := []
  gpio : Map Gpio := []
  /-- The luminaire schedule table, in the AON domain (R455, R76). -/
  schedule : Map SchedEntry := []
  /-- Scheduled level of each sub-GHz set in percent (R423, R456). -/
  setLevel : Map Nat := []
  /-- Scheduled DALI level of each port in percent (R456). -/
  daliLevel : Map Nat := []
  /-- The levels at which the HV die holds the outputs in a brown-out: PWM outputs, FAULT_N, REPLACE_N (R407). -/
  latched : Option (Map PwmOut × Bool × Bool) := none
  /-- Safe broadcast level stored in the HV die, and its safe duties written (R419). -/
  hvLevel : Option Nat := none
  deriving DecidableEq, Repr

/-! ### Test access port (spec/22) -/

/-- The instruction of the test access port (R489). -/
inductive TapInstr where
  | bypass | idcode | sample | extest | clamp | highz
  deriving DecidableEq, Repr

/-- The test access port. Reset: IDCODE (PRESUMED: IEEE 1149.1's reset instruction where one exists). -/
structure Tap where
  instr : TapInstr := .idcode
  /-- The word the selected data register holds. -/
  data : Word := 0xB0640F2B
  /-- Boundary cells captured or preloaded. -/
  cells : List Bool := []
  /-- The boundary cells drive the balls, or the balls are released (R490). -/
  driving : Bool := false
  released : Bool := false
  deriving DecidableEq, Repr

/-! ### Bodkin cores (spec/16) -/

/-- One address generator (R385). -/
structure AddrGen where
  base : Word := 0
  len : Nat := 0
  step : Nat := 0
  idx : Nat := 0
  ctl : Nat := 0
  deriving DecidableEq, Repr

/-- What a short operation does that the other slot can depend on (R382): entries it pops and pushes, the address generator it
names, the memory access it makes, and its use of the return stack. -/
structure OpTraits where
  pops : Bool := false
  pushes : Bool := false
  ag : Option Nat := none
  load : Bool := false
  store : Bool := false
  writesR : Bool := false
  readsR : Bool := false
  deriving DecidableEq, Repr

/-- One Bodkin core (R372 to R393). Reset: stacks empty, Vendor mode, every special register 0. -/
structure Core where
  /-- The word address of the word in progress (R381). -/
  pc : Word := 0
  /-- Slot A of that word has executed: what it did. -/
  slotA : Option OpTraits := none
  /-- The operand stack entries held on the core, top first, at most 16 (R378). -/
  stack : List Word := []
  /-- The return stack entries held on the core, top first (R379). -/
  rstack : List Word := []
  sp : Word := 0
  spBase : Word := 0
  spLimit : Word := 0
  rsp : Word := 0
  rspBase : Word := 0
  rspLimit : Word := 0
  dwin : Word := 0
  /-- MODE: level, program slot, EXC (R380). -/
  level : Level := .vendor
  slot : Nat := 0
  exc : Bool := false
  epc : Word := 0
  ecause : Word := 0
  eaddr : Word := 0
  irqEn : Word := 0
  /-- Pending bits of sources 0 to 10 (R390). -/
  pend : Word := 0
  ags : Map AddrGen := []
  /-- Stalled in a load of `PWR_WAIT`, whose value the top entry takes when the load returns (R401). -/
  waiting : Bool := false
  deriving DecidableEq, Repr

/-- The Bodkin cluster behind its registers. -/
structure Cpu where
  cores : Map Core := []
  /-- Local SRAM of cores 0 to 3, and of the safety pair under number 4 (R372). -/
  local0 : Memory := []
  local1 : Memory := []
  local2 : Memory := []
  local3 : Memory := []
  localS : Memory := []
  deriving DecidableEq, Repr

/-! ### Packet memory (spec/04) -/

/-- The decision of a first fragment, and the action that ends a pass (R117, R124). -/
inductive Verdict where
  /-- FORWARD with its action word. -/
  | forward (action : Nat)
  | drop
  | exception (quire : Nat)
  | raw
  deriving DecidableEq, Repr

/-- What a program's FRAG operation reports (R124, R395). -/
structure FragReport where
  v6 : Bool
  src : List Byte
  dst : List Byte
  ident : Nat
  proto : Nat
  offset : Nat
  len : Nat
  more : Bool
  deriving DecidableEq, Repr

/-- A packet of the packet memory, with what the datapath carries with it. -/
structure Packet where
  /-- The quire that charges its cells (R91, R119). -/
  quire : Nat
  /-- The quire it was written to (R97: byte 4 of the header slot). -/
  ingress : Nat
  /-- Its data bytes (R85). -/
  data : List Byte := []
  /-- The 16 bytes of producer metadata, bytes 16 to 31 of the header slot (R97). -/
  info : List Byte := []
  cells : Nat := 0
  /-- The indices of its cells, in the order that the link table chains them (R89). -/
  chain : List Nat := []
  /-- Words whose tag carries POISON 1 (R86, R107), by number, the header slot being word 0. -/
  badWords : List Nat := []
  good : Bool := false
  bad : Bool := false
  trunc : Bool := false
  /-- STATUS.POISON: poisoned before completion. -/
  statusPoison : Bool := false
  /-- Poisoned, in the cell-chain descriptor (R107). -/
  poison : Bool := false
  ltFirst : Nat := 0
  /-- Start offset of its present pass (R113, R118). -/
  start : Nat := 0
  /-- Passes begun, 0 to 4 (R118). -/
  passes : Nat := 0
  /-- Entry edition, and whether its reference is held (R129, R131). -/
  edition : Option Nat := none
  /-- The program entry of its next pass (R112). -/
  entry : Nat := 0
  /-- The layer table of its last pass: type codes and window offsets (R114). -/
  layers : List (Nat × Nat) := []
  /-- Padding bytes found by LENCHK, removed for FORWARD (R123). -/
  padding : Nat := 0
  /-- The number of its entry: packets are numbered as they become visible (R24, R96). -/
  entered : Nat := 0
  /-- The outermost IP header that a pass has recorded: type code and byte of the packet (R118, R340). -/
  head : Option (Nat × Nat) := none
  /-- Byte ranges that DECAP_RECIRC has passed over, in order: removed at the rewrite for egress (R117, R118). -/
  removed : List (Nat × Nat) := []
  /-- It is sent again and not charged again (R163). -/
  charged : Bool := false
  /-- Its reports as a first fragment, whose decision its final outcome is (R124). -/
  frags : List FragReport := []
  /-- PARAM of its FORWARD action (R135), none for a poisoned packet (R115). -/
  param : Option Nat := none
  /-- A fragment that is not the first, one that is (R151). -/
  laterFrag : Bool := false
  firstFrag : Bool := false
  /-- TTL decremented by FLW (R147). -/
  routed : Bool := false
  /-- The next hop's egress rewrite entry (R147). -/
  rewrite : Option Nat := none
  /-- The NAT translation that egress applies (R148 to R150): address and port; inbound entries translate the
  destination; NAT64. -/
  nat : Option (Nat × Nat) := none
  natRev : Bool := false
  nat64 : Bool := false
  /-- The original IPv6 source for an inbound NAT64 packet, and the /96 prefix of `FLW_PFX64` (R150). -/
  natV6 : Option Nat := none
  natPfx : Nat := 0
  deriving DecidableEq, Repr

/-- One quire (R90 to R100). -/
structure Quire where
  /-- The packet being written. -/
  opened : Option Nat := none
  /-- Beats are discarded up to END (R94). -/
  discard : Bool := false
  /-- Visible packets, oldest first (R96, R98). -/
  visible : List Nat := []
  /-- The current packet and the number of data words read (R98). -/
  current : Option (Nat × Nat) := none
  /-- Cells in use (R91). -/
  used : Nat := 0
  /-- Cells of its reserve (R91). -/
  reserve : Nat := 0
  deriving DecidableEq, Repr

/-- The packet memory behind its registers. Reset: empty. -/
structure Pkb where
  /-- Packets by handle; handles are the MODEL's. -/
  pkts : Map Packet := []
  next : Nat := 0
  quires : Map Quire := []
  /-- The last word a consumer read (R98), and its word tag (R86). -/
  readWord : List Byte := []
  readTag : Nat := 0
  /-- Packets that have become visible in an ingress quire (R96). -/
  shown : Nat := 0
  /-- Cells that are retired (R108). -/
  retired : List Nat := []
  deriving DecidableEq, Repr

/-- The correction counting of every unit's WGC block (R110, R111), by unit number. -/
structure Wgc where
  /-- Corrections in the present one-second window. -/
  count : Map Nat := []
  /-- When the present window opened. -/
  opens : Map Nat := []
  /-- When `WGC_UNCORR` was last logged, and the errors left unlogged since. -/
  logged : Map Nat := []
  unlogged : Map Nat := []
  deriving DecidableEq, Repr

/-! ### Parsing and classification (spec/05) -/

/-- A rule of either table: value and mask (64 bytes for a ternary rule; the 48-byte key for an exact one), its action word
and its edition range (R129 to R133). -/
structure Rule where
  value : List Byte
  mask : List Byte := []
  action : Nat := 0
  fromEd : Nat := 0
  untilEd : Nat := 0
  opened : Bool := true
  override : Bool := false
  /-- Its FROM lies before every live edition (R132). -/
  settled : Bool := false
  /-- Packets counted as its hits (R115, R124). -/
  hits : Nat := 0
  deriving DecidableEq, Repr

/-- An entry of the fragment table (R124 to R128). -/
structure FragEntry where
  v6 : Bool
  src : List Byte
  dst : List Byte
  ident : Nat
  proto : Nat
  /-- Start of the HOLDING window, or of the ACTIVE window with the decision (R124, R125). -/
  since : Nat
  decision : Option Verdict := none
  /-- The rule whose hit the first fragment was: its table and index (R124). -/
  rule : Option (Bool × Nat) := none
  /-- Separate byte ranges seen (R126). -/
  ranges : List (Nat × Nat) := []
  /-- A ninth range was needed: nothing is checked any more (R126). -/
  unchecked : Bool := false
  /-- The end given by the fragment with M 0 (R127). -/
  final : Option Nat := none
  /-- Fragments held, oldest first: packet, first byte, end, M 0 (R125). -/
  held : List (Nat × Nat × Nat × Bool) := []
  /-- The edition on which the entry holds a reference (R131). -/
  edition : Option Nat := none
  deriving DecidableEq, Repr

/-- A parse engine that runs a pass (R112 to R114, R394). -/
structure PeCtx where
  pkt : Nat
  /-- Word index of the word in progress in program memory. -/
  pc : Nat := 0
  slotA : Option OpTraits := none
  stack : List Word := []
  rstack : List Word := []
  layers : List (Nat × Nat) := []
  /-- The ternary and the exact key (R116). -/
  tkey : List Byte := []
  ekey : List Byte := []
  cycles : Nat := 0
  /-- Padding found by LENCHK, which has run (R123). -/
  lenchk : Option Nat := none
  frag : Option FragReport := none
  /-- DONE has issued the final lookup, with this default action word (R116). -/
  final : Option Nat := none
  deriving DecidableEq, Repr

/-- The parser behind its registers. Reset: no rule, no program. -/
structure Par where
  /-- The 2 MiB program memory (R112). -/
  prog : Memory := []
  /-- The entry table: word indices (R112). -/
  entries : Map Nat := []
  /-- The engines that failed their self-test, as a mask: out of service (R22). -/
  lost : Nat := 0
  /-- Busy engines. -/
  engines : Map PeCtx := []
  /-- Packets that wait for a later pass, oldest first (R118). -/
  recirc : List Nat := []
  ternary : Map Rule := []
  exact : Map Rule := []
  /-- References on live editions, by edition number (R131). -/
  refs : Map Nat := []
  /-- Packets that wait for earlier ones of their ingress quire, by number of entry: each with its verdict, none for a poisoned
  one (R24). -/
  outs : List (Nat × Nat × Option Verdict) := []
  /-- The fragment table, by entry. -/
  frags : Map FragEntry := []
  /-- Malformed packets of each class since reset or since its configuration was written (R121). -/
  malSeen : Map Nat := []
  deriving DecidableEq, Repr

/-! ### Flow table and routing (spec/06) -/

/-- A flow entry (R136). -/
structure Flow where
  /-- Bytes 0 to 38, with EXT at 0x00 (R137). -/
  key : List Byte
  /-- 1 PINNED, 2 WARM, 3 REMOTE. -/
  tier : Nat
  pin : Bool := false
  nat : Bool := false
  rev : Bool := false
  ended : Bool := false
  sat : Bool := false
  param : Nat := 0
  ed : Nat := 0
  last : Nat := 0
  nh : Nat := 0xFFFF
  gen : Nat := 0
  xlatAddr : Nat := 0
  xlatPort : Nat := 0
  pkts : Nat := 0
  bytes : Nat := 0
  /-- EXT bytes 8 to 23 of an IPv4 entry: the original IPv6 source (R150). -/
  ext : Nat := 0
  deriving DecidableEq, Repr

/-- A route (R144). -/
structure Route where
  vrf : Nat
  v6 : Bool
  len : Nat
  prefix_ : Nat
  nh : Nat
  limp : Bool
  deriving DecidableEq, Repr

/-- Where a packet stands in FLW. -/
inductive FlwStage where
  /-- It has arrived and waits for the lookup. -/
  | arrived
  /-- A fence of placement holds it (R204). -/
  | fenced
  /-- It waits for the DRAM bucket (R140). -/
  | dram
  /-- It waits for the route lookup: whether it uses a flow entry (R146), and the next hop and the VRF's generation as they were
  when the lookup was issued (R145). -/
  | route (entry : Bool) (nh : Option Nat) (gen : Nat)
  /-- It waits for a remote lookup's answer (R154). -/
  | remote
  /-- Its queue is decided; it leaves behind the earlier packets of its flow (R24, R154). -/
  | out (queue : Nat)
  deriving DecidableEq, Repr

/-- A packet in FLW. -/
structure FlwPkt where
  pkt : Nat
  stage : FlwStage := .arrived
  key : List Byte := []
  /-- PARAM that decides the packet's class and TC (R143). -/
  param : Nat := 0
  /-- Deadline of its remote lookup, and whether WAIT has restarted it (R154, R204). -/
  deadline : Nat := 0
  waited : Bool := false
  /-- The device its lookup went to, the identifier of the request, and whether a REDIRECT has sent it on (R210). -/
  owner : Nat := 0
  req : Nat := 0
  redirected : Bool := false
  /-- The DRAM request that reads its bucket (R140). -/
  dreq : Nat := 0
  deriving DecidableEq, Repr

/-- FLW behind its registers. Reset: empty. -/
structure Flw where
  /-- The SRAM tier, by bucket × 8 + way, and the DRAM tier (R138, R139). -/
  sram : Map Flow := []
  warm : Map Flow := []
  routes : List Route := []
  limpRoutes : List Route := []
  /-- Packets in FLW, in order of arrival. -/
  wait : List FlwPkt := []
  nextReq : Nat := 0
  /-- COMMITs of each VRF since the start of the present sweep pass (R146). -/
  commits : Map Nat := []
  /-- Packets each flow has had in the present tier 2 period, with the device they came from: none for this one (R185,
  R193). -/
  seen : List (List Byte × Option Nat × Nat) := []
  deriving DecidableEq, Repr

/-! ### Scheduling (spec/07) -/

/-- A node: the words of `SCH_NODE_BUF` and its state (R159). -/
structure SchNode where
  w0 : Word := 0
  w1 : Word := 0
  w2 : Word := 0
  /-- The packets of a queue, oldest first (R161). -/
  fifo : List Nat := []
  drops : Nat := 0
  deficit : Int := 0
  ulDeficit : Nat := 0
  /-- ASLEEP of a client (R165). -/
  asleep : Bool := false
  deriving DecidableEq, Repr

/-- A shaper (R169). -/
structure Shaper where
  rate : Nat := 0
  burst : Nat := 0
  /-- Tokens, in 1/256 byte. -/
  tokens : Int := 0
  /-- Reference time of the last refill. -/
  last : Nat := 0
  /-- RATE and BURST that wait for the next refill (R170). -/
  wait : Option (Nat × Nat) := none
  fault : Bool := false
  deriving DecidableEq, Repr

/-- A shaper on the timing wheel (R166, R167). -/
structure WheelEnt where
  shaper : Nat
  /-- Its exact slot. -/
  due : Nat
  /-- Its slot on the overflow wheel, if it is there. -/
  past : Option Nat := none
  far : Bool := false
  /-- Its eligible time, which the slot contains (R166). -/
  eligible : Nat := due
  deriving DecidableEq, Repr

/-- An entry of an active list (R162). -/
structure ActEnt where
  node : Nat
  fresh : Bool
  deriving DecidableEq, Repr

/-- One entry of a Wi-Fi grant (R175). -/
structure GrantEnt where
  client : Nat
  /-- TID for DL, access category for UL. -/
  tid : Nat
  queue : Nat := 0
  allowance : Nat
  deriving DecidableEq, Repr

/-- A Wi-Fi grant (R175, R179). -/
structure WifiGrant where
  ul : Bool
  /-- The payload airtime asked for. -/
  airtime : Nat
  cls : Nat
  entries : List GrantEnt
  deriving DecidableEq, Repr

/-- SCH behind its registers. Reset: no node, no shaper. -/
structure Sch where
  queues : Map SchNode := []
  clients : Map SchNode := []
  groups : Map SchNode := []
  shapers : Map Shaper := []
  /-- The wheel, in the order of placement. -/
  wheel : List WheelEnt := []
  /-- Active lists, by list number (R162). -/
  act : Map (List ActEnt) := []
  /-- The grants made and not yet used up, by root. -/
  grants : Map WifiGrant := []
  /-- UL demand in bytes, by client × 4 + access category (R178). -/
  demand : Map Nat := []
  /-- Queues that placement refuses at a root (R177). -/
  refused : List (Nat × Nat) := []
  deriving DecidableEq, Repr

/-! ### Placement (spec/08) -/

/-- What a fence holds, in the order it reached FLW (R204): a packet, or another device's remote lookup. -/
inductive FenceItem where
  | packet (p : FlwPkt)
  | lookup (src req : Nat) (key : List Byte) (ed param len : Nat) (redirected : Bool)
  deriving DecidableEq, Repr

/-- A move in which this device is the new owner, and its fence (R204 to R209). -/
structure MoveIn where
  id : Nat
  /-- The keys fenced: the flow's, and its partner's once MOVE_DATA has named it (R194). -/
  keys : List (List Byte)
  other : Nat
  opened : Nat
  data : Bool := false
  drained : Bool := false
  held : List FenceItem := []
  deriving DecidableEq, Repr

/-- A move in which this device is the old owner (R205, R207). -/
structure MoveOut where
  id : Nat
  other : Nat
  snapshot : Flow
  partner : Option Flow
  since : Nat
  /-- Packets looked up in the entry before the commit point that are still in FLW. -/
  before : List Nat
  drainSent : Bool := false
  acked : Bool := false
  deriving DecidableEq, Repr

/-- The hysteresis of one object of one tier (R186). -/
structure Hyst where
  tier : Nat
  obj : List Byte
  /-- The candidate that has scored above the incumbent, and on how many consecutive evaluations. -/
  cand : Nat := 0
  runs : Nat := 0
  /-- The consecutive evaluations on which each candidate has scored above the incumbent (R186). -/
  counts : Map Nat := []
  /-- Its last change. -/
  changed : Option Nat := none
  deriving DecidableEq, Repr

/-- A link of a client (R188). -/
structure LinkSt where
  awake : Bool := false
  lq : Nat := 0
  usable : Bool := false
  deriving DecidableEq, Repr

/-- Tier 1's record of a (client, TID) (R187 to R190). -/
structure TidSt where
  /-- Buffer size of its transmit block ack agreement; 0 for none. -/
  size : Nat := 0
  split : Bool := false
  anchor : Option Nat := none
  /-- The links that tier 1's last decision allows a SPLIT TID (R184, R189). -/
  mask : Option (List Nat) := none
  /-- A candidate that has won and waits for the outstanding MPDUs. -/
  next : Option Nat := none
  /-- The next sequence number, and MPDUs outstanding, oldest first: sequence number, link root and packet. -/
  sn : Nat := 0
  out : List (Nat × Nat × Nat) := []
  /-- MPDUs that failed and wait for their retransmission: sequence number and packet. -/
  retry : List (Nat × Nat) := []
  /-- The window condition has failed (R189). -/
  stalled : Bool := false
  deriving DecidableEq, Repr

/-- A pin (R202, R203): `PLE_PIN_BUF`'s key bytes and fields. -/
structure Pin where
  flow : Bool
  key : List Byte
  level : Nat
  unit : Nat := 0
  device : Nat := 0
  unmet : Bool := false
  /-- The pin came from the lead or is stored there for the shelf. -/
  shared : Bool := false
  deriving DecidableEq, Repr

/-- Why a client is steered, as the decision log records it (R211): by a pin or by its scores. -/
structure SteerWhy where
  forced : Bool := false
  scoreFrom : Int := 0
  scoreTo : Int := 0
  deriving DecidableEq, Repr

/-- Steering of a client (R197, R198). -/
structure Steer where
  mac : Nat
  /-- The request in progress: target device, unit, and when it was sent. -/
  open_ : Option (Nat × Nat × Nat) := none
  /-- The client has answered with status 0 (R286). -/
  accepted : Bool := false
  /-- Seconds of the present backoff, and when it ends. -/
  backoff : Nat := 0
  until_ : Nat := 0
  why : SteerWhy := {}
  deriving DecidableEq, Repr

/-- The latest load report of a member (R200). -/
structure LoadRep where
  load : Nat
  limp : Bool
  since : Nat
  clients : List (Nat × Nat) := []
  nodes : List Nat := []
  deriving DecidableEq, Repr

/-- PLE behind its registers. -/
structure Ple where
  movesIn : List MoveIn := []
  movesOut : List MoveOut := []
  nextMove : Nat := 0
  /-- Hints received, to be taken up at the next tier 2 evaluation (R193). -/
  hints : List (Nat × List Byte) := []
  /-- MOVE_REQs sent and granted in the present period (R196). -/
  reqs : Nat := 0
  grants : Nat := 0
  /-- Forced demotion is in progress (R192). -/
  forcing : Bool := false
  hyst : List Hyst := []
  links : Map LinkSt := []
  tids : Map TidSt := []
  pins : List Pin := []
  /-- Shelf pins stored on this device as the lead, or mirrored to it as the deputy (R203). -/
  shelfPins : List Pin := []
  steers : Map Steer := []
  /-- Load reports by member, and the biases of tier 4 in force (R200, R201). -/
  loads : Map LoadRep := []
  bias : Map Nat := []
  lastTier4 : Nat := 0
  /-- The decision log: the records by index (R211). -/
  dlog : Map (List Byte) := []
  /-- AIR of the link roots, and the DRAM input of the latest tier 2 evaluation (R185). -/
  air : Map Nat := []
  dram : Nat := 0
  /-- Latest evaluations of the tiers 1 to 4 and the latest load report sent. -/
  evals : Map Nat := []
  deriving DecidableEq, Repr

/-! ### Radios A and B (spec/09) -/

/-- An MPDU of a PPDU: its client, TID, sequence number and packet (R189, R272). -/
structure TxMpdu where
  client : Nat
  tid : Nat
  sn : Nat
  pkt : Nat
  /-- Its octets as sent, without FCS (R278, R282). -/
  bytes : List Byte := []
  /-- It is group-addressed: nobody acknowledges it. -/
  group : Bool := false
  /-- A word of its packet was uncorrectable while it was sent: it ends with an invalid FCS (R107). -/
  bad : Bool := false
  deriving DecidableEq, Repr

/-- A user of a trigger frame (R271): its client, access category, bytes granted and RU. -/
structure TrigUser where
  client : Nat
  ac : Nat
  bytes : Nat
  ru : Nat
  /-- It has sent no TB PPDU. -/
  silent : Bool := false
  deriving DecidableEq, Repr

/-- A response that WMA issues inside SIFS (R268): ACK, BlockAck, multi-STA BlockAck, CTS, or the TB PPDU that answers a trigger of a
backhaul peer (R287). -/
inductive RespKind where
  | ack | blockAck | multiSta | cts | tb
  deriving DecidableEq, Repr

/-- A response that is due: to an address, with what it acknowledges (address, TID, sequence number), and its start-by deadline in LT
(R269). -/
structure WifiResp where
  kind : RespKind
  dest : Nat
  acked : List (Nat × Nat × Nat) := []
  deadline : Nat
  deriving DecidableEq, Repr

/-- A transmit command (R224 to R228). -/
structure TxCmd where
  id : Nat
  cls : Nat
  /-- Its length in ns. -/
  len : Nat
  /-- Start-by deadline in LT. -/
  deadline : Option Nat := none
  /-- When it was held (R225). -/
  since : Nat := 0
  /-- The response it carries (R269). -/
  reply : Option WifiResp := none
  mpdus : List TxMpdu := []
  /-- The users of a trigger frame (R271). -/
  users : List TrigUser := []
  /-- The grant that it was made under, and whether the link was in a TXOP of the device's own before it (R270). -/
  grant : Option WifiGrant := none
  own : Bool := false
  /-- It starts no earlier: SIFS after the response before it (R270). -/
  notBefore : Nat := 0
  deriving DecidableEq, Repr

/-- A command that waits for a link's transition or PPDU to end (R221). -/
inductive LinkCmd where
  /-- A state command: 0 OFF, 1 SLEEP, 2 IDLE, 3 RX. -/
  | go (target : Nat)
  /-- A channel change (R239). -/
  | channel
  /-- A full calibration (R222). -/
  | cal
  /-- A transmit command that the link is not settling for: it starts when the PPDU, the transition or the calibration segment
  before it ends (R221, R224). -/
  | tx (c : TxCmd)
  /-- The move of radio B's 5 GHz channel that a change of SPLIT comes with, behind a PPDU (R213). -/
  | split
  deriving DecidableEq, Repr

/-- A transition in progress (R219): the state it ends in, when, and whether it ends in a full calibration first. -/
structure RfTrans where
  target : Nat
  ends : Nat
  settles : Bool
  deriving DecidableEq, Repr

/-- A channel: `RFx_CHAN_l`'s two words (R239). -/
structure Chan where
  w0 : Word := 0
  w1 : Word := 0
  deriving DecidableEq, Repr

/-- A link (R212, R218). -/
structure RfLink where
  /-- R218's code. -/
  state : Nat := 0
  trans : Option RfTrans := none
  /-- In CAL: the state it ends in, and whether `RFx_CAL_CMD` asked for it. -/
  calTarget : Option (Nat × Bool) := none
  queue : List LinkCmd := []
  held : List TxCmd := []
  /-- The PPDU on the air: its command, the class it is sent at, and when it started. -/
  tx : Option (TxCmd × Nat × Nat) := none
  /-- Its PPDUs of the last 10 ms: start and end (R231). -/
  duty : List (Nat × Nat) := []
  /-- The channel in use, the one staged, and the beacons left before the move (R239). -/
  chan : Chan := {}
  staged : Option Chan := none
  count : Nat := 5
  /-- The count that each BSS's last beacon announced, by BSS (R239). -/
  csa : Map Nat := []
  /-- Channels with a stored correction (R222), as word 0's CHANNEL and WIDTH. -/
  stored : List Nat := []
  /-- The link's TXOP: the class of its grant, and the instant by which it has ended (R180). -/
  txop : Option (Nat × Nat) := none
  /-- The class background calibration works on (R233). -/
  work : Option Nat := none
  nextId : Nat := 0
  /-- What the radio returned to WMA, newest first: command and status (R227); receptions cut (R221). -/
  reports : List (Nat × Nat) := []
  aborts : Nat := 0
  deriving DecidableEq, Repr

/-- A chain (R223, R231, R234). -/
structure Chain where
  /-- Its predistortion tables by class: HEAVY, and the temperature of the stamp. -/
  tables : Map (Bool × Int) := []
  temp : Int := 25
  iqTemp : Int := 25
  /-- The LNA's temperature, and that of the last IQ calibration (R222). -/
  lna : Int := 25
  iqLna : Int := 25
  iqDue : Bool := false
  /-- Segments done for the class in work. -/
  done : Nat := 0
  /-- The segment in progress, and the start of the last. -/
  seg : Option Nat := none
  lastSeg : Option Nat := none
  /-- The last 8 VSWR measurements in 1/16, newest first. -/
  vswr : List Nat := [16, 16, 16, 16, 16, 16, 16, 16]
  lastProbe : Nat := 0
  deriving DecidableEq, Repr

/-- A coordination grant entry (R236, R237). -/
structure CoordEnt where
  lo : Nat
  hi : Nat
  eirp : Int
  psd : Int
  deriving DecidableEq, Repr

/-- An entry of `RFx_BSS_n` (R240). -/
structure BssEnt where
  en : Bool := false
  link : Nat := 0
  tx : Bool := false
  mac : Nat := 0
  deriving DecidableEq, Repr

/-- A radio behind its registers. -/
structure Rf where
  links : Map RfLink := []
  chains : Map Chain := []
  /-- The BSSs in force on links that are not OFF (R240). -/
  bss : Map BssEnt := []
  /-- When a permit for a calibration was last asked for (R233). -/
  asked : Nat := 0
  /-- The active coordination grant (R236), its expiry in LT, and whether `GRANT_EXPIRING` has been logged. -/
  coord : Option (List CoordEnt × Nat) := none
  warned : Bool := false
  /-- A change of SPLIT by a folio switch that waits for the 5 GHz link's move (R213). -/
  splitNext : Option Bool := none
  deriving DecidableEq, Repr

/-! ### Radio C (spec/10) -/

/-- What a frame of SGM's is (R297, R298, R305, R306): its part after its end. -/
inductive SgmTx where
  | beacon
  /-- The frame of a GACK block, with the partners and the sequence numbers that it acknowledges. -/
  | gack (acked : List (Nat × Nat))
  | safe
  /-- An Imm-Ack: the partner and the sequence number it acknowledges. -/
  | ack (node seq : Nat)
  /-- A unicast DOWN frame: node, queue, packet and sequence number (R297), and the window of its block in MT. -/
  | down (node queue pkt seq opens closes : Nat)
  /-- A group DOWN frame: its queue and packet. -/
  | group (queue pkt : Nat)
  /-- A frame that SGM's own rows did not make. -/
  | other
  deriving DecidableEq, Repr

/-- A transmit command of radio C (R255). -/
structure RfcTx where
  id : Nat
  channel : Nat
  profile : Nat
  port : Nat
  /-- 0.5 dBm. -/
  level : Int
  /-- LT of the first preamble symbol. -/
  start : Nat
  deadline : Bool
  psdu : List Byte
  /-- Data whitening (R255). -/
  dw : Bool := false
  /-- Preamble lengthened for an ADRIFT partner, in ns (R294). -/
  extra : Nat := 0
  /-- It ends with an invalid FCS (R107). -/
  badFcs : Bool := false
  what : SgmTx
  deriving DecidableEq, Repr

/-- A frame being received (R246 to R251). -/
structure RxFrame where
  profile : Nat
  port : Nat
  rssi : Int
  fofs : Nat
  mt : Nat
  lt : Nat
  /-- What MT's count held beyond whole ticks at that instant (`Mtm.acc`). -/
  acc : Nat
  /-- DW and LENGTH, once the PHR has been decoded. -/
  phr : Option (Bool × Nat) := none
  deriving DecidableEq, Repr

/-- A channel (R245, R250). -/
structure RfcChan where
  /-- The rate-set entry of the preamble held. -/
  pre : Option Nat := none
  frame : Option RxFrame := none
  /-- The configuration that its current frame goes on under. -/
  old : Option Word := none
  deriving DecidableEq, Repr

/-- A receive report (R252). -/
structure RxReport where
  channel : Nat
  profile : Nat
  port : Nat
  status : Nat
  dw : Bool
  length : Nat
  rssi : Int
  fofs : Nat
  mt : Nat
  lt : Nat
  acc : Nat
  /-- LT of the frame's last symbol. -/
  last : Nat
  psdu : List Byte
  deriving DecidableEq, Repr

/-- Radio C behind its registers. -/
structure Rfc where
  state : Nat := 0
  /-- A transition in progress: target and end. -/
  trans : Option (Nat × Nat) := none
  queue : List Nat := []
  /-- The end of a span change, and whether `RFC_CMD` waits for it (R243). -/
  retune : Option (Nat × Bool) := none
  chans : Map RfcChan := []
  /-- Commands that have not started (R256), and the frame on the air: its command, start in reference time, on-air time in
  ns and level used. -/
  txq : List RfcTx := []
  tx : Option (RfcTx × Nat × Nat × Int) := none
  /-- The end in LT, channel and port of the last frame. -/
  lastTx : Option (Nat × Nat × Nat) := none
  /-- The LT from which a frame may start after what commands were held for (R256). -/
  freeAt : Nat := 0
  /-- The work of a calibration slot: the ends of its image calibration and of all of it, in reference time (R258, R261). -/
  work : Option (Nat × Nat) := none
  /-- MT of the last calibration slot opened (R258). -/
  slotAt : Option Nat := none
  nextId : Nat := 0
  /-- Reports that SGM has not handled, oldest first, and the ends of the latest frames, newest first: channel, SYNC_LT and
  last symbol in LT. -/
  reports : List RxReport := []
  recent : List (Nat × Nat × Nat) := []
  /-- Answers to transmit commands, newest first: status, level used and on-air time in µs (R255). -/
  answers : List (Nat × Int × Nat) := []
  /-- Spans with a stored image correction; tuner settings by port and span (R258, R260). -/
  stored : List Nat := []
  tuned : List (Nat × Nat × Nat × Nat) := []
  /-- Ports whose tune pass is due; VSWR history; centre in kHz of the last channel and last slot frame
  transmitted in, by port. -/
  tuneDue : List Nat := []
  vswr : Map (List Nat) := []
  lastCentre : Map Nat := []
  lastFrame : Map Nat := []
  temp : Int := 25
  deriving DecidableEq, Repr

/-! ### Wi-Fi MAC services (spec/11) -/

/-- What the protection of a received MPDU has come to, under the key it started with (R283, R285): none; a key slot that is empty; or the
generation of its key and its packet number, with a MIC that is right or not. -/
inductive RxCheck where
  | clear
  | noKey
  | key (gen pn : Nat) (good : Bool)
  deriving DecidableEq, Repr

/-- A received MPDU that is held for reordering (R273, R274): its packets, not yet visible, and what the checks after
reordering need (R285). -/
structure HeldMpdu where
  sn : Nat
  pkts : List (Nat × Nat)
  lost : Nat := 0
  check : RxCheck := .clear
  since : Nat := 0
  deriving DecidableEq, Repr

/-- A receive block ack agreement (R272, R273). -/
structure RxBa where
  size : Nat
  win : Nat
  held : List HeldMpdu := []
  deriving DecidableEq, Repr

/-- A station (R265). -/
structure Station where
  mac : Nat
  links : Nat
  bss : Nat
  mld : Bool
  backhaul : Bool
  client : Nat
  /-- It signals power management 1; it has sent a frame with power management 0 since its last service period began or ended
  (R279; log entry 247). -/
  pm : Bool := false
  active : Bool := false
  /-- Its TWT agreements, 0 to 3, each with its latest service period in LT: start and end (R280). -/
  twts : Map (Nat × Nat) := []
  /-- Awake for one frame after a PS-Poll (1), or for a service period after a U-APSD trigger (2) (R279). -/
  poll : Nat := 0
  /-- DEL waits for its outstanding MPDUs (R267). -/
  deleting : Bool := false
  ba : Map RxBa := []
  /-- Last accepted sequence number by TID, 16 for non-QoS and management frames (R275). -/
  last : Map Nat := []
  /-- Last accepted packet number by the generation of the key × 32 + TID (R283, R285). -/
  rxPn : Map Nat := []
  /-- Pairwise key ID used for transmission (R283). -/
  txSlot : Nat := 0
  /-- The device that has steered it here (R198). -/
  origin : Option Nat := none
  deriving DecidableEq, Repr

/-- What WMA keeps beside a key that CIP has wrapped: its cipher, its transmit packet number, and its generation, one for each key
installed (R282 to R284). -/
structure WmaKey where
  cipher : Nat
  pn : Nat
  gen : Nat := 0
  deriving DecidableEq, Repr

/-- The key that an MPDU was protected with when it was first sent, which a retransmission keeps with its packet number (R283, R284); no
octets where an erase has taken it. -/
structure TxSeal where
  cipher : Nat
  keyId : Nat
  pn : Nat
  key : List Byte
  /-- A derived key, which is derived again after an erase (R329). -/
  derived : Bool := false
  deriving DecidableEq, Repr

/-- A broadcast TWT schedule of a BSS (R280): the stations that follow it, and its latest service period in LT. -/
structure BcastTwt where
  members : List Nat
  start : Nat
  ends : Nat
  deriving DecidableEq, Repr

/-- A BSS transition management request sent (R197, R286): the client, its only preferred candidate (target device, unit and BSSID), and
the disassociation-imminent bit. -/
structure BtmSent where
  mac : Nat
  device : Nat
  unit : Nat
  bssid : Nat
  imminent : Bool := false
  deriving DecidableEq, Repr

/-- A beacon as sent (R268): the TIM bits, the CSA count, whether it was a DTIM beacon, the BSS colour, and where the BSS has a BIGTK the
packet number and MIC that protect it (R282). -/
structure BeaconSent where
  tim : List Nat
  csa : Option Nat
  dtim : Bool
  mac : Nat
  /-- The address it is sent from: on radio A, the transmitted BSSID's (R240). -/
  sender : Nat := mac
  colour : Nat
  mic : Option (Nat × List Byte) := none
  deriving DecidableEq, Repr

/-- A client that another device steers here (R286): that device, the BSSID, and the PMKSA (identifier and key) of a client that uses
SAE. -/
structure Steered where
  src : Nat
  bssid : Nat
  pmksa : Option (Nat × Nat)
  deriving DecidableEq, Repr

/-- WMA behind its registers. -/
structure Wma where
  stations : Map Station := []
  /-- Clients that another device steers here, by MAC address (R286). -/
  steered : Map Steered := []
  /-- Keys by the index of their entry in the wrapped-key table (R324). -/
  keys : Map WmaKey := []
  /-- How many keys have been installed (R283), and the stations with keys that firmware deauthenticates after an erase (R282). -/
  installs : Nat := 0
  deauth : List Nat := []
  /-- MPDUs taken for the next PPDU of a root, and the key of each protected one by its packet (R283, R284). -/
  building : Map (List TxMpdu) := []
  seals : Map TxSeal := []
  /-- The next sequence number of group frames by radio × 16 + BSS. -/
  groupSn : Map Nat := []
  /-- By link root: MPDUs of the PPDU being received that its response acknowledges (address, TID, sequence number), and responses
  that are due, oldest first (R268, R269). -/
  acking : Map (List (Nat × Nat × Nat)) := []
  responses : Map (List WifiResp) := []
  /-- The users of the last trigger frame of a link root (R271). -/
  triggers : Map (List TrigUser) := []
  /-- Probe requests to be answered from firmware's templates: radio × 16 + BSS, and address, newest first (R268). -/
  probes : List (Nat × Nat) := []
  /-- Broadcast TWT schedules, by (radio × 16 + BSS) × 8 + number (R280). -/
  bcast : Map BcastTwt := []
  /-- The last beacon of each BSS, by radio × 16 + BSS, and the DTIM counts. -/
  beacons : Map BeaconSent := []
  dtim : Map Nat := []
  /-- The next target beacon time of each BSS (R268). -/
  tbtt : Map Nat := []
  /-- The group client node of each BSS, by radio × 16 + BSS, and those awake for the frames after a DTIM beacon (R281). -/
  groupNode : Map Nat := []
  groupOpen : List Nat := []
  /-- Answers to association requests: address, status code and links granted, newest first (R266). -/
  answers : List (Nat × Nat × Nat) := []
  /-- BSS transition requests sent, newest first (R197, R286). -/
  btm : List BtmSent := []
  /-- Last frame heard from each backhaul peer, and the last attempt to rejoin (R288). -/
  bhHeard : Map Nat := []
  bhTried : Map Nat := []
  /-- The entry last held for each backhaul peer, which the joining side makes again, and the packet number of its key, which is the
  same key each time (R287, R288). -/
  bhEntry : Map Station := []
  bhPn : Map Nat := []
  deriving DecidableEq, Repr

/-! ### Sub-GHz MAC (spec/12) -/

/-- A partner (R296, R301 to R303). -/
structure Node where
  eui : Nat
  addr : Nat
  battery : Bool
  block : Nat
  channel : Nat
  profile : Nat
  sets : Nat
  period : Nat
  phase : Nat
  client : Nat
  /-- 0 TRACKED, 1 ADRIFT, 2 LOST. -/
  state : Nat := 0
  gen : Nat := 0
  drift : Int := 0
  /-- A first sample has set D (battery), or a frame has been accepted. -/
  sampled : Bool := false
  /-- LT of the SFD of the last device frame known to have reached it, and one that becomes it with the next new frame,
  with the sequence number it acknowledged. -/
  anchor : Option Nat := none
  pending : Option (Nat × Nat) := none
  lastCtr : Option Nat := none
  /-- Accepted sequence numbers with the count of slot frames at that time, newest first (R296). -/
  history : List (Nat × Nat) := []
  misses : Nat := 0
  /-- The count of slot frames at the start of its present keep-alive period, and whether a frame was accepted in it (R302). -/
  added : Nat := 0
  heard : Bool := false
  /-- The number of its ADD: an entry of that index made later is another partner (R296). -/
  born : Nat := 0
  deriving DecidableEq, Repr

/-- A pending plan (R291): the slot frame whose beacons announce it. -/
structure PendPlan where
  announced : Bool := false
  deriving DecidableEq, Repr

/-- A frame that SCH has given for a DOWN block (R182). -/
structure CellFrame where
  queue : Nat
  pkt : Nat
  /-- The slot frame of its block. -/
  frame : Nat
  deriving DecidableEq, Repr

/-- A unicast DOWN frame that waits for its acknowledgement (R297): node and the number of its ADD, queue, packet, end and SFD in LT,
channel, profile and sequence number, and the window of its block in MT. -/
structure DownWait where
  node : Nat
  born : Nat
  queue : Nat
  pkt : Nat
  ends : Nat
  sfd : Nat
  channel : Nat
  profile : Nat
  seq : Nat
  opens : Nat
  closes : Nat
  deriving DecidableEq, Repr

/-- The sub-GHz MAC behind its registers. -/
structure Sgm where
  /-- Reassignments agreed over SMP, newest first: EUI-64, short address, old and new device (R308). -/
  agreed : List (Nat × Nat × Nat × Nat) := []
  /-- SAFE_LEVEL is to be sent (R306, R420), in this many blocks yet. -/
  safePend : Bool := false
  safeLeft : Nat := 0
  /-- Group level commands handed over by FLD, oldest first: listener sets and level in percent (R456). -/
  groupCmds : List (Nat × Nat) := []
  /-- An adoption of the lead's cycle number has ended the slot frame in progress (R43, R292). -/
  frameEnds : Bool := false
  /-- Its plan is suspended in STANDBY (R404). -/
  suspended : Bool := false
  /-- The slot frame that runs (`MT[47:19]`): none where the next one begins with a number that an adoption has set (R292). -/
  frame : Option Nat := none
  /-- The slot frames that have ended since SGM's reset, whatever their numbers (R296, R302). -/
  frames : Nat := 0
  /-- The ticks of MT that steps have skipped, newest first: from and up to (R292). -/
  skips : List (Nat × Nat) := []
  pend : Option PendPlan := none
  nodes : Map Node := []
  /-- Accepted cells of the slot frame: block and channel, and the partner and its sequence number (R298). -/
  gathered : List (Nat × Nat × Nat × Nat) := []
  /-- Frames given for DOWN blocks, by block; blocks asked for, with their slot frame. -/
  given : Map CellFrame := []
  asked : List (Nat × Nat) := []
  /-- Blocks whose frame has been sent in this slot frame. -/
  done : List Nat := []
  downs : List DownWait := []
  /-- Attempts made of a DOWN frame, by packet (R297). -/
  tries : Map Nat := []
  /-- JOIN entries: node and beacons left (R307). MOVE entries: node, beacons left, new device and centre (R308). -/
  joins : List (Nat × Nat) := []
  moves : List (Nat × Nat × Nat × Nat) := []
  /-- Entries as they were before node-table commands: LT of the command, index, entry (R296). -/
  olds : List (Nat × Nat × Option Node) := []
  /-- The ADDs made so far. -/
  births : Nat := 0
  /-- Time on air in µs, by second of LT without its loads and steps, sub-band and the channel's centre in kHz; a centre of 0 stands for
  every channel of the sub-band (R46, R309). -/
  duty : List (Nat × Nat × Nat × Nat) := []
  /-- Device sequence number and frame counter; the counter stored in the learned-data area; transmission stopped at its
  end, and the generation it stopped in (R312). -/
  seq : Nat := 0
  ctr : Nat := 0
  ctrNvm : Nat := 0
  stopped : Option Nat := none
  deriving DecidableEq, Repr

/-! ### Cipher engine (spec/13) -/

/-- An entry of the wrapped-key table (R324): its key as the key wrap leaves it (40 bytes for KEY256, else 24), and its LEVEL (0 Vendor,
1 Operator, 2 Guest). VALID is that the table lists the entry; its owner is its index's. -/
structure CipKey where
  wrapped : List Byte
  level : Nat
  deriving DecidableEq, Repr

/-- An unwrapped key in the session-key cache (R324). -/
structure CipSession where
  index : Nat
  key : List Byte
  deriving DecidableEq, Repr

/-- What tags a derived key (R323). -/
structure CipTag where
  slot : Nat
  bank : Nat
  label : List Byte
  bits : Nat
  deriving DecidableEq, Repr

/-- A derived key in its cache: to be removed once no running job uses it (R323). -/
structure CipDerived where
  tag : CipTag
  key : List Byte
  evict : Bool := false
  deriving DecidableEq, Repr

/-- A derivation that runs (R323): its end, and whether its key will be cached. -/
structure CipDeriv where
  tag : CipTag
  ends : Nat
  keep : Bool := true
  deriving DecidableEq, Repr

/-- A ring job that has been read (R317 to R319). -/
structure CipJob where
  ring : Nat
  /-- Its count value, and its pair where it runs on one. -/
  count : Nat
  pair : Option Nat
  desc : List Byte
  key : List Byte
  /-- The ring's LEVEL as it was read, which every memory access of the job carries (R318). -/
  level : Nat := 0
  /-- The code that it ends with, once it has ended or that is decided; its STATUS may still wait for an earlier job's (R318). -/
  code : Option Nat
  /-- The derivation it waits for, and the derived key it uses. -/
  waits : Option CipTag := none
  uses : Option CipTag := none
  deriving DecidableEq, Repr

/-- An inline job that waits (R314, R323, R329). -/
structure CipInline where
  unit : UnitId
  key : InlineKey
  waits : Option CipTag := none
  deriving DecidableEq, Repr

/-- A received frame whose job waits while CIP starts none (R326, R329): an MPDU; a report of radio C; an SMP frame and the link that it
came on; a STEER whose PMK is wrapped: its source, client, BSSID, PMKID and wrapped PMK. -/
inductive CipFrame where
  | wifi (x : WifiRx)
  | sgm (r : RxReport)
  | smp (link : Nat) (frame : List Byte)
  | steer (src mac bssid pmkid wrapped : Nat)
  deriving DecidableEq, Repr

/-- A key command that arrived during an erase (R329). -/
inductive CipKeyOp where
  | install (index : Nat) (k256 : Bool)
  | remove (index : Nat)
  | derive (index : Nat) (k256 : Bool) (slot : Nat) (level : Level)
  | evict (slot : Nat)
  | erase
  /-- A unit's own entry: its command register, the entry and the key (R354). -/
  | unit (cmd index : Nat) (key : List Byte)
  /-- A key of WMA, with its cipher and initial packet number (R283). -/
  | wifi (cmd index : Nat) (key : List Byte) (cipher pn : Nat)
  deriving DecidableEq, Repr

/-- The cipher engine behind its registers. Reset: no key; the OTP roots are not programmed (DESIGN CHOICE, log entry 48). -/
structure Cip where
  table : Map CipKey := []
  /-- The caches, most recently used first (R323, R324). -/
  derived : List CipDerived := []
  session : List CipSession := []
  derivs : List CipDeriv := []
  jobs : List CipJob := []
  /-- The count value that each ring reads next, and the ring that was served last (R314). -/
  next : Map Nat := []
  last : Nat := 7
  inlines : List CipInline := []
  /-- Received frames whose jobs wait, in arrival order (R314, R329). -/
  frames : List CipFrame := []
  keyOps : List CipKeyOp := []
  /-- The banks in use, one bit a slot: `CIP_ROOT_SEL` as the last start-up's folio gave it (R322; log entry 236). -/
  banks : Nat := 0
  /-- OTP root keys, by 2 × slot + bank (R322). -/
  roots : Map (List Byte) := []
  /-- The end of the erase that runs, and its causes. -/
  eraseEnd : Option Nat := none
  causes : Nat := 0
  deriving DecidableEq, Repr

/-! ### Wired ports (spec/14) -/

/-- A frame in a transmit buffer, after rewrite and checksums (R340 to R342): without FCS, with the PCP of its queue, and for a
forwarded packet of a wired port its RX_LT (R353). -/
structure EthFrame where
  data : List Byte
  pcp : Nat
  rxLt : Option Nat := none
  deriving DecidableEq, Repr

/-- A frame on the wire: its bytes without FCS, when this fragment began and ends, the octets sent in earlier fragments. -/
structure EthCur where
  data : List Byte
  pcp : Nat
  start : Nat
  ends : Nat
  before : Nat := 0
  preemptable : Bool := false
  ctrl : Bool := false
  /-- It ends with a deliberately invalid FCS (R107). -/
  badFcs : Bool := false
  deriving DecidableEq, Repr

/-- A piece that has left a port: port, first octet's number, bytes, whether it ends the frame (R342, R344), or a verify
mPacket (R343). -/
structure EthSent where
  port : Nat
  start : Nat
  offset : Nat
  data : List Byte
  last : Bool
  verify : Bool := false
  /-- Its FCS is deliberately invalid (R107). -/
  badFcs : Bool := false
  deriving DecidableEq, Repr

/-- A frame in reassembly (R345): its number, the fragment count that comes next, its octets so far, and RX_LT of its first fragment. -/
structure EthAsm where
  frame : Nat
  count : Nat
  data : List Byte
  stamp : Nat
  deriving DecidableEq, Repr

/-- A whole received frame (R335): whether it is express, its octets without FCS, whether the FCS is good, RX_LT, and what the reads of
its words in the receive buffer find (R105). -/
structure EthHeld where
  express : Bool
  data : List Byte
  fcs : Bool
  stamp : Nat
  errs : List WordErr := []
  deriving DecidableEq, Repr

/-- A wired port behind its registers. -/
structure EthPort where
  /-- The frame in reassembly (R345), and the received frames that wait for WIRE or for CIP, oldest first (R326, R350). -/
  asm : Option EthAsm := none
  hold : List EthHeld := []
  buffer : List EthFrame := []
  /-- Generated control frames that wait (R348). -/
  ctrl : List (List Byte) := []
  cur : Option EthCur := none
  /-- The preempted frame (R344). -/
  cut : Option EthCur := none
  /-- When the next frame may start: the gap after the last, or a wake from LPI. -/
  free : Nat := 0
  /-- Ends of the pauses: priorities 0 to 7 of PFC, 8 for PAUSE; and quanta that wait for the end of a frame (R346, R347). -/
  pauses : Map Nat := []
  pend : Map Nat := []
  /-- XOFF has been reached, and when the pause frame was last generated (R348). -/
  xoff : Bool := false
  pausedAt : Nat := 0
  /-- Since when the transmit side has been idle (R349). -/
  idleSince : Nat := 0
  /-- The verify process: its last mPacket and its attempts (R343). -/
  verifyAt : Nat := 0
  tries : Nat := 0
  /-- The timestamp FIFO, oldest first: LT, sequenceId, messageType, domainNumber (R352). -/
  stamps : List (Nat × Nat × Nat × Nat) := []
  deriving DecidableEq, Repr

/-- A MACsec association beside its key (R354 to R356): the next PN, and the lowest that INSTALL accepts. -/
structure EthSa where
  salt : List Byte
  ssci : Nat
  next : Nat
  low : Nat
  deriving DecidableEq, Repr

/-- The wired ports behind their registers. -/
structure Eth where
  ports : Map EthPort := []
  /-- Associations by 64 × port + 4 × channel + AN, and the SCI of each channel by 16 × port + channel. -/
  sas : Map EthSa := []
  scis : Map Nat := []
  /-- What has left the ports, newest first. -/
  sent : List EthSent := []
  deriving DecidableEq, Repr

/-! ### DRAM controller (spec/15) -/

/-- A request, or the part of one that one channel serves (R360, R361): its number in the order of issue, source, class at
issue, DRAM address, words, and the data of a write. -/
structure DrcReq where
  id : Nat
  source : Nat
  cls : Nat
  addr : Nat
  words : Nat
  data : Option (List Byte)
  since : Nat
  aged : Bool := false
  deriving DecidableEq, Repr

/-- A request that has completed: with an error, or with the data of a read. -/
structure DrcDone where
  id : Nat
  source : Nat
  ok : Bool
  data : List Byte
  deriving DecidableEq, Repr

/-- A channel. -/
structure DrcCh where
  reads : List DrcReq := []
  writes : List DrcReq := []
  /-- Requests of sources that a full write queue stalls, in their order. -/
  stalled : List DrcReq := []
  /-- A drain is in progress; writes of its present batch; the read between two batches has been issued. -/
  drain : Bool := false
  batch : Nat := 0
  gapUsed : Bool := true
  /-- Due instants of the refreshes owed, oldest first, and the next point of the grid, by subchannel (R367). -/
  owed0 : List Nat := []
  owed1 : List Nat := []
  grid0 : Nat := 0
  grid1 : Nat := 0
  /-- The 100 ms temper pass: its last due time, and one is due (R364). -/
  temperAt : Nat := 0
  temperDue : Bool := false
  /-- A temper pass at load is due since, and its 50 ms have passed (R365). -/
  loadDue : Option Nat := none
  loadForced : Bool := false
  /-- A full retrain is due (R366). -/
  retrain : Bool := false
  tempAt : Nat := 0
  deriving DecidableEq, Repr

/-- The DRAM controller behind its registers. -/
structure Drc where
  chans : Map DrcCh := []
  next : Nat := 0
  /-- Requests completed, newest first. -/
  done : List DrcDone := []
  /-- The scrubber: the next word, and when it last read one (R363). -/
  scrubWord : Nat := 0
  scrubTime : Nat := 0
  deriving DecidableEq, Repr

/-! ### Shelf and host interface (spec/19) -/

/-- A frame that this device sends (R439): type, destination (none: every member), originator's level, payload bytes,
sequence, term and LT. -/
structure SmpSent where
  typ : Nat
  dst : Option Nat
  level : Nat
  payload : List Nat
  epoch : Nat
  ctr : Nat
  term : Nat
  lt : Nat
  /-- Hops remaining: 8 where the frame originates here (R438). -/
  hops : Nat
  src : Nat
  /-- The one link it goes out on, for HELLO (R437) and for a frame that floods (R438). -/
  link : Option Nat := none
  /-- A PMK that CIP has still to wrap and append to the payload (R286). -/
  pmk : List Byte := []
  deriving DecidableEq, Repr

/-- A neighbour as heard on one shelf link (R437). -/
structure Neighbour where
  member : Nat
  /-- It has listed this device's number. -/
  hearsUs : Bool
  lastHello : Nat
  deriving DecidableEq, Repr

/-- One neighbour entry of an LSA (R441). -/
structure LsaEdge where
  member : Nat
  backhaul : Bool
  deriving DecidableEq, Repr

/-- The newest LSA of a member. -/
structure LsaRec where
  seq : Nat
  edges : List LsaEdge
  deriving DecidableEq, Repr

/-- The replay state of one source (R440): highest SEQ accepted and the window below it. -/
structure Replay where
  epoch : Nat
  top : Nat
  seen : List Nat
  deriving DecidableEq, Repr

/-- A remote register access that waits for its answer (R443). -/
structure RemoteAcc where
  reqId : Nat
  device : Nat
  addr : Nat
  write : Bool
  data : Nat
  req : Req
  since : Nat
  deriving DecidableEq, Repr

/-- The shelf unit behind its registers. Reset: alone, nothing heard. -/
structure Shf where
  /-- The neighbour heard on each shelf link (wired ports 0 to 7, backhaul links 8 to 15). -/
  links : Map Neighbour := []
  lsas : Map LsaRec := []
  lsaSeq : Nat := 0
  /-- The device has joined its shelf (R72); when it last sent HELLO and its LSA; an adjacency has changed since (R437). -/
  joined : Bool := false
  helloAt : Nat := 0
  lsaAt : Nat := 0
  lsaDue : Bool := false
  /-- The cycle whose phase 0 TIME was last sent for (R442). -/
  timeCycle : Option Nat := none
  /-- The number of the device that answers for member 0 by takeover (R446). -/
  leadAt : Option Nat := none
  replay : Map Replay := []
  /-- Boot epoch, kept in the learned-data area, and the frame counter (R439, R440). -/
  epoch : Nat := 0
  ctr : Nat := 0
  /-- Frames sent, newest first. -/
  sent : List SmpSent := []
  /-- Frames held after a route change, oldest first, and the end of each destination's hold (R438). -/
  held : List SmpSent := []
  holdEnd : Map Nat := []
  /-- Frames that wait for CIP to compute their tags, oldest first (R326, R329, R440). -/
  tagging : List SmpSent := []
  /-- Frames delivered to this device: type and payload, newest first. -/
  delivered : List (Nat × Nat × List Nat) := []
  /-- Remote accesses outstanding, oldest first, and those that wait (R444). -/
  outstanding : List RemoteAcc := []
  waiting : List RemoteAcc := []
  nextReq : Nat := 0
  /-- When a frame of member 0 was last heard (R446). -/
  lastLead : Nat := 0
  /-- Lead term kept in the learned-data area (R446). -/
  termNvm : Nat := 0
  /-- Of two devices with one number, this one goes quiet (R435). -/
  quiet : Bool := false
  /-- It has yielded, and the reset that it makes for that runs (R447). -/
  yielded : Bool := false
  /-- The number answered after yielding (R447). -/
  returnedAs : Option Nat := none
  deriving DecidableEq, Repr

/-- The host interface behind its registers. -/
structure Hif where
  /-- How often each MSI-X vector has been raised (R451). -/
  vectors : Map Nat := []
  /-- BAR2 is open to the host (R446, R448). -/
  bar2 : Bool := false
  /-- The MSI-X table in BAR4 (R450). -/
  table : Memory := []
  /-- The bytes that the last host read of BAR4 returned (the MODEL's observation). -/
  readBytes : List Byte := []
  /-- The last completion of a host access was poisoned (R450). -/
  poisoned : Bool := false
  deriving DecidableEq, Repr

/-! ### The whole block -/

/-- The state. -/
structure State where
  /-- The commands that wait, first in, first out. -/
  pending : List Instr := []
  /-- The CSR words that differ from their reset value, by absolute address (R26). -/
  regs : Map Word := []
  /-- The holding copies of R6, by address of the upper word. -/
  hold : Map Word := []
  /-- What the last register read returned (the MODEL's observation port for reads). -/
  readData : Word := 0
  /-- Time by the 76.8 MHz reference, in ns, from the model's first instant: what durations inside the device are timed by
  (R46). -/
  now : Nat := 0
  /-- Local time, 64 bits of ns (R45). -/
  lt : Nat := 0
  /-- The MODEL's own counter of free values drawn so far (DESIGN CHOICE, log entry 2). -/
  freeCtr : Nat := 0
  /-- The 8 MiB shared SRAM, by offset (R372, R373). -/
  shared : Memory := []
  /-- Table SRAM words found uncorrectable (R109), by unit, memory within the unit (SOURCE) and entry: absent until they
  are written again. -/
  bad : List (UnitId × Nat × Nat) := []
  /-- The cells of DRAM, the rows of check bytes and training patterns among them, by the address of their place (R358, R359, R373;
  what no write has reached reads 0x00, log entry 3). -/
  dram : Memory := []
  /-- Mains time. -/
  mtm : Mtm := {}
  /-- The event log. -/
  log : LogSt := {}
  /-- Counters and sampling. -/
  prf : Prf := {}
  /-- Start-up and configuration. -/
  cfg : Cfg := {}
  /-- Power. -/
  pwr : Pwr := {}
  /-- Assay. -/
  asy : Asy := {}
  /-- Field I/O. -/
  fld : FieldIo := {}
  /-- Test access port. -/
  tap : Tap := {}
  /-- Bodkin cores. -/
  cpu : Cpu := {}
  /-- Shelf. -/
  shf : Shf := {}
  /-- Host interface. -/
  hif : Hif := {}
  /-- Sub-GHz MAC. -/
  sgm : Sgm := {}
  /-- Radio C. -/
  rfc : Rfc := {}
  /-- Packet memory. -/
  pkb : Pkb := {}
  /-- WGC error counting. -/
  wgc : Wgc := {}
  /-- Parsing and classification. -/
  par : Par := {}
  /-- Flow table and routing. -/
  flw : Flw := {}
  /-- Scheduling. -/
  sch : Sch := {}
  /-- Placement. -/
  ple : Ple := {}
  /-- Radio A. -/
  rfa : Rf := {}
  /-- Radio B. -/
  rfb : Rf := {}
  /-- Wi-Fi MAC services. -/
  wma : Wma := {}
  /-- Cipher engine. -/
  cip : Cip := {}
  /-- Wired ports. -/
  eth : Eth := {}
  /-- DRAM controller. -/
  drc : Drc := {}
  deriving DecidableEq, Repr

/-- Why the block stops with a fault. No command of this block ends in one: every row's effect, or its lack of one, is
a next state. -/
inductive Fault where
  /-- Raised by nothing: the spec gives every command an effect or says that it has none. Safe. -/
  | none
  deriving DecidableEq, Repr

/-- Why a command is refused. -/
inductive Refusal where
  /-- Raised by `exec` for a command whose meaning is not modelled yet. Safe. -/
  | notModelled (mnemonic : String)
  deriving DecidableEq, Repr

/-- The state after reset: every field at its default above, no command waiting, every register at the reset value of
the register map. -/
def State.reset : State := {}

end Sys2Proof.Machine
end

