-- ==== Sys2Proof/Machine/Ops.lean ====
section
/-! DEFINITION. The operations every unit shares: registers, free values, time, power domains, the event log, counters,
interrupts, and the gate that every command register puts before its action. -/

namespace Sys2Proof.Machine

/-! ### Registers -/

/-- The register row that holds an address of a unit, with the word number within the register (R26). -/
def regFind (a : Nat) : List RegDesc → Option (RegDesc × Nat)
  | [] => none
  | r :: t =>
    let d := a - r.base
    if decide (r.base ≤ a) && decide (d / r.stride < r.count) && decide (d % r.stride < 4 * r.words) then
      some (r, d % r.stride / 4)
    else if r.count = 1 && decide (r.base ≤ a) && decide (d < 4 * r.words) then some (r, d / 4)
    else regFind a t

/-- The unit whose 1 MiB window holds an address (R26, R27). -/
def unitAt (a : Nat) : Option UnitId := UnitId.all.find? (fun u => a / 0x100000 == u.base / 0x100000)

/-- The register that occupies an address, if one does (R7, R27). -/
def regAt (a : Nat) : Option (UnitId × RegDesc × Nat) :=
  match unitAt a with
  | none => none
  | some u => (regFind (a / 4 * 4) (regsOf u)).map (fun p => (u, p.1, p.2))

/-- The bits that a field has in word `w` of its register: the part of its value and the mask. -/
def fieldMask (f : FieldDesc) (w : Nat) : Nat :=
  let hi := min f.hi (32 * w + 31)
  let lo := max f.lo (32 * w)
  if lo ≤ hi then (2 ^ (hi - lo + 1) - 1) * 2 ^ (lo - 32 * w) else 0

/-- A field's reset bits in word `w` of its register. -/
def fieldReset (f : FieldDesc) (w : Nat) : Nat := (f.rst * 2 ^ f.lo / 2 ^ (32 * w)) % 2 ^ 32

/-- The reset value of word `w` of a register: its fields' reset values, reserved bits 0 (R4). -/
def regResetWord (r : RegDesc) (w : Nat) : Word :=
  BitVec.ofNat 32 (r.fields.foldl (fun n f => n ||| (fieldReset f w &&& fieldMask f w)) 0)

/-- The value of a register word after reset (Reset columns; IMG fields at their pre-image values, R73). -/
def regReset (a : Nat) : Word :=
  match regAt a with
  | some (_, r, w) => regResetWord r w
  | none => 0

/-- The stored value of the register word at an address. -/
def State.rd (s : State) (a : Nat) : Word := (s.regs.look a).getD (regReset a)

/-- The state with a register word stored. -/
def State.wr (s : State) (a : Nat) (v : Word) : State :=
  { s with regs := if v = regReset a then s.regs.del a else s.regs.put a v }

/-- The bits [hi:lo] of a word, as a number. -/
def bitsOf (w : Word) (hi lo : Nat) : Nat := w.toNat / 2 ^ lo % 2 ^ (hi - lo + 1)

/-- The word with its bits [hi:lo] replaced by the low bits of a number. -/
def withBits (w : Word) (hi lo n : Nat) : Word :=
  let m := 2 ^ (hi - lo + 1)
  BitVec.ofNat 32 (w.toNat - bitsOf w hi lo * 2 ^ lo + n % m * 2 ^ lo)

/-- The value of a field. -/
def State.f (s : State) (x : Field) : Nat := bitsOf (s.rd x.addr) x.hi x.lo

/-- The state with a field written. -/
def State.set (s : State) (x : Field) (n : Nat) : State := s.wr x.addr (withBits (s.rd x.addr) x.hi x.lo n)

/-- A one-bit field read as a truth value. -/
def State.on (s : State) (x : Field) : Bool := decide (s.f x ≠ 0)

/-- The state with a one-bit field set. -/
def State.up (s : State) (x : Field) : State := s.set x 1

/-- The state with a field cleared. -/
def State.down (s : State) (x : Field) : State := s.set x 0

/-- The state with a one-bit field written. -/
def State.put (s : State) (x : Field) (b : Bool) : State := s.set x b.toNat

/-- A value that occupies two words, low word first (R6). -/
def State.w (s : State) (x : Wide) : Nat :=
  ((s.rd x.addr).toNat + 2 ^ 32 * (s.rd (x.addr + 4)).toNat) % 2 ^ x.bits

/-- The state with a two-word value written. -/
def State.setW (s : State) (x : Wide) (n : Nat) : State :=
  let v := n % 2 ^ x.bits
  (s.wr x.addr (BitVec.ofNat 32 v)).wr (x.addr + 4) (BitVec.ofNat 32 (v / 2 ^ 32))

/-- `f s` where the condition holds, else `s`. -/
def State.when (s : State) (c : Bool) (f : State → State) : State := if c then f s else s

/-- `f s` where the option holds a value, else `s`. -/
def State.with? {α : Type} (s : State) (o : Option α) (f : State → α → State) : State :=
  match o with
  | some a => f s a
  | none => s

/-- A chain of one effect per element of a list, in its order. -/
def State.each {α : Type} (s : State) (l : List α) (f : State → α → State) : State := l.foldl f s

/-! ### Uncorrectable entries (R109) -/

/-- A word of a table SRAM is uncorrectable, so its entry counts as absent (R109). -/
def State.isBad (s : State) (u : UnitId) (source index : Nat) : Bool := s.bad.contains (u, source, index)

/-- Writing a word makes an uncorrectable entry good again (R109, R173). -/
def State.unbad (s : State) (u : UnitId) (source index : Nat) : State :=
  { s with bad := s.bad.filter fun b => decide (b ≠ (u, source, index)) }

/-! ### Free values -/

/-- The next free value (log entry 2). -/
def State.free (s : State) (t : FreeTag) : Nat := Config.free t s.freeCtr

/-- The state after a free value has been drawn. -/
def State.drawn (s : State) : State := { s with freeCtr := s.freeCtr + 1 }

/-! ### Time -/

/-- Ticks of MT per second: `MTM_FREQ` is in 1/65,536 Hz and a cycle has 65,536 ticks (R29). -/
def State.tickRate (s : State) : Nat := s.f MTM_FREQ_FREQ

/-- The units of `mtm.acc` that make one tick, in the present cycle: a cycle that is slewed by `cycleAdj` ticks' worth
lasts 65,536 − cycleAdj of its own nominal ticks (R41). -/
def State.tickUnit (s : State) : Nat := 1000000000 * (65536 - s.mtm.cycleAdj).toNat

/-- The state `d` ns later by the reference (R45, R46). LT and MT run from step 2 of start-up (R72). LT runs with its rate
offset. MT runs at `MTM_FREQ`, and holds at phase 65,535 until the row that reports the cycle boundary (DESIGN CHOICE, log
entry 5); the time that it holds there counts towards a stretch (R41). -/
def State.advance (s : State) (d : Nat) : State :=
  let ltAcc := s.mtm.ltAcc + d * sx 24 (s.f MTM_LT_ADJ_RATE)
  let extra := ltAcc / 16000000000
  let acc := s.mtm.acc + d * s.tickRate * 65536
  let unit := s.tickUnit
  let ticks := acc / unit
  let phase := s.mtm.mt % 65536
  let n := if phase + ticks < 65536 then ticks else 65535 - phase
  let excess := phase + ticks - 65535
  if s.cfg.stage < 2 then { s with now := s.now + d }
  else { s with
    now := s.now + d
    lt := (s.lt + ((d : Int) + extra).toNat) % 2 ^ 64
    mtm.ltAcc := ltAcc - extra * 16000000000
    mtm.mt := s.mtm.mt + n
    mtm.holdTicks := s.mtm.holdTicks - excess
    mtm.acc := if excess ≤ s.mtm.holdTicks then acc % unit else s.mtm.acc }

/-- The state at reference time `t`, where that lies ahead (DESIGN CHOICE, log entry 6: a row that reports the end of a
time the device measures happens at that end). -/
def State.reach (s : State) (t : Nat) : State := s.advance (t - s.now)

/-- The ns until MT has run `n` further ticks. -/
def State.nsForTicks (s : State) (n : Nat) : Nat :=
  if s.tickRate = 0 then 0
  else (n * s.tickUnit - s.mtm.acc + s.tickRate * 65536 - 1) / (s.tickRate * 65536)

/-- One expected cycle in ns (R31). -/
def State.expectedCycle (s : State) : Nat :=
  if s.tickRate = 0 then 0 else 65536 * 1000000000 / s.tickRate

/-- MT `a` is not before MT `b`: the sign of their difference modulo 2⁴⁸ (R30). -/
def mtLe (b a : Nat) : Bool := decide ((a + 2 ^ 48 - b) % 2 ^ 48 < 2 ^ 47)

/-- Whether MT lies in the half-open window [opens, opens + width) (R48, R30). -/
def inWindow (mt opens width : Nat) : Bool := decide ((mt + 2 ^ 48 - opens) % 2 ^ 48 < width)

/-- A capture of MT and LT into `MTM_SNAP_MT` and `MTM_SNAP_LT` (R47). -/
def State.snapTimes (s : State) : State := (s.setW MTM_SNAP_MT_VALUE s.mtm.mt).setW MTM_SNAP_LT_VALUE s.lt

/-! ### Power domains -/

/-- The domain of a unit; none for the always-on domain (subsystem table of spec/01). -/
def unitDom : UnitId → Option Dom
  | .top | .mtm | .pwr | .asy | .cfg | .fld => none
  | .pkb | .par | .flw | .sch | .ple | .cip | .wma | .prf | .shf | .hif => some .core
  | .rfa => some .rfa
  | .rfb => some .rfb
  | .rfc | .sgm => some .rfc
  | .eth => some .wire
  | .drc => some .mem
  | .cpu => some .cpu

/-- The condition of a domain (R399); unpowered before start-up. -/
def State.dom (s : State) (d : Dom) : DomSt := s.pwr.doms.lookD d.num .unpowered

/-- The state with a domain's condition set, and `PWR_STATE.DOM_LP` and `DOM_UP` following it (AON, bit 0, stays up). -/
def State.setDom (s : State) (d : Dom) (c : DomSt) : State :=
  let s := { s with pwr.doms := s.pwr.doms.put d.num c, pwr.idleSince := s.pwr.idleSince.put d.num s.now }
  (s.set ⟨PWR_STATE_DOM_LP.addr, 16 + d.num, 16 + d.num⟩ (decide (c = .low)).toNat).set
    ⟨PWR_STATE_DOM_UP.addr, 8 + d.num, 8 + d.num⟩ (decide (c ≠ .unpowered)).toNat

/-- The CORE domain is up, so that the event log's ring and the counters run (R466, R476). -/
def State.coreUp (s : State) : Bool := decide (s.dom .core = .up) && decide (8 ≤ s.cfg.stage)

/-- The device is in OFF and no event has begun to end that (R9, R403). -/
def State.isOff (s : State) : Bool := decide (s.f PWR_STATE_STATE = 3) && s.pwr.transition.isNone

/-- The unit's domain is unpowered (R9). -/
def State.unitDark (s : State) (u : UnitId) : Bool :=
  match unitDom u with
  | some d => decide (s.dom d = .unpowered)
  | none => false

/-- The unit's READY bit (R26, R28). -/
def State.ready (s : State) (u : UnitId) : Bool :=
  decide (s.f ⟨TOP_UNIT_READY_READY.addr, u.num, u.num⟩ ≠ 0)

/-- The state with a unit's READY bit written. -/
def State.setReady (s : State) (u : UnitId) (b : Bool) : State :=
  s.set ⟨TOP_UNIT_READY_READY.addr, u.num, u.num⟩ b.toNat

/-! ### Counters -/

/-- The lowest offset of a unit's counter tables, its WGC block excluded (R466), and the first offset past them. -/
def counterBase : UnitId → Option Nat
  | .pwr | .asy | .par | .flw | .sch | .cip | .rfa | .rfb | .rfc | .wma | .sgm | .drc | .cpu | .shf => some 0x300
  | .pkb | .eth => some 0x100
  | .ple => some 0x400
  | .fld => some 0x600
  | .top | .mtm | .cfg | .prf | .hif => none

/-- Live counter `i` holds a value (R466). -/
def State.prfStore (s : State) (i v : Nat) : State := { s with prf.cnt := s.prf.cnt.put i v }

/-- A counter's overflow interrupts the application cores, where that is enabled (R467). -/
def State.prfIrq (s : State) : State :=
  if s.on PRF_CTL_OVF_IRQ then
    { s with cpu.cores := s.cpu.cores.map (fun c => if c.1 < 4 then (c.1, { c.2 with pend := c.2.pend ||| 0x200#32 }) else c) }
  else s

/-- Live counter `i` counts `n` events; past 48 bits it wraps and its overflow bit is set (R467). -/
def State.prfAdd (s : State) (i n : Nat) : State :=
  let v := s.prf.cnt.lookD i 0 + n
  let s := s.prfStore i (v % 2 ^ 48)
  if 2 ^ 48 ≤ v then (s.set ⟨0x6000020 + 4 * (i / 32), i % 32, i % 32⟩ 1).prfIrq else s

/-- The PRF counters of a unit that have selected an event count it `n` times (R466, R467). `port` is the port of an
ETH counter. Nothing counts while the counters are frozen (R468) or CORE is not up (R466). -/
def State.prfCount (s : State) (u : UnitId) (event : Nat) (port : Option Nat) (n : Nat) : State :=
  if s.on PRF_FREEZE_FREEZE || !s.coreUp then s
  else s.each (List.range 8) fun s k =>
    let i := 8 * u.num + k
    if s.f (PRF_EVSEL_EVENT i) = event && (port.isNone || port = some (s.f (PRF_EVSEL_PORT i))) then s.prfAdd i n else s

/-- The state with a 48-bit counter incremented `n` times; it wraps, and the PRF counters that select it count (R466). -/
def State.bump (s : State) (c : Wide) (n : Nat := 1) : State :=
  let s := s.setW c (s.w c + n)
  match unitAt c.addr with
  | none => s
  | some u =>
    let off := c.addr - u.base
    let port := if u = .eth then some (off / 0x10000) else none
    let off := if u = .eth then off % 0x10000 else off
    match counterBase u with
    | none => s
    | some b => if b ≤ off && off - b < 8 * 112 then s.prfCount u (0x10 + (off - b) / 8) port n else s

/-! ### Interrupts -/

/-- The state with an interrupt source pending on every application core (R390). -/
def State.irq (s : State) (source : Nat) : State :=
  { s with cpu.cores := (List.range 4).foldl (fun m c =>
      let k := m.lookD c {}
      m.put c { k with pend := k.pend ||| BitVec.ofNat 32 (2 ^ source) }) s.cpu.cores }

/-! ### Waking a domain -/

/-- A domain wakes on a demand and is ready when its wake ends (R400): the access that demands it stalls until then. -/
def State.wake (s : State) (d : Dom) : State :=
  match s.dom d with
  | .low => (s.setDom d .up).bump PWR_CNT_WAKE
  | .waking => s.setDom d .up
  | .up => { s with pwr.idleSince := s.pwr.idleSince.put d.num s.now }
  | .unpowered => s

/-- A demand for the domain of a unit (R8, R400). -/
def State.demand (s : State) (u : UnitId) : State :=
  match unitDom u with
  | some d => if s.dom d = .low then (s.wake d).prfCount u 2 none 1 else s.wake d
  | none => s

/-- An action of a unit's hardware: none while its domain is unpowered, and its domain wakes (R8, R9). -/
def State.datapath (s : State) (u : UnitId) (f : State → State) : State := if s.unitDark u then s else f (s.demand u)

/-! ### The event log -/

/-- Units that stage their entries in AON (R476). -/
def unitAon (u : UnitId) : Bool := (unitDom u).isNone

/-- An entry dropped: counted in `PRF_LOG_LOST`, and its unit's next entry carries LOST_BEFORE (R476, R477). -/
def State.logDrop (s : State) (u : UnitId) : State :=
  { s.setW PRF_LOG_LOST (s.w PRF_LOG_LOST + 1) with log.dropped := u :: s.log.dropped }

/-- An entry stands in the ring at its next place, marked where entries of its unit were dropped before (R477). -/
def State.ringPut (s : State) (e : LogEntry) : State :=
  { s with
    log.ring := s.log.ring.put (s.f PRF_LOG_STAT_NEXT) { e with lostBefore := e.lostBefore || s.log.dropped.contains e.unit }
    log.dropped := s.log.dropped.filter (fun u => decide (u ≠ e.unit)) }

/-- The ring is full (R477). -/
def State.ringFull (s : State) : Bool := decide (16384 ≤ s.log.ring.length)

/-- The ring takes an entry (R477). -/
def State.ringPush (s : State) (e : LogEntry) : State :=
  if s.ringFull && s.on PRF_CTL_LOG_STOP then (s.up PRF_LOG_STAT_STOPPED).logDrop e.unit
  else (if s.ringFull then (s.ringPut e).up PRF_LOG_STAT_WRAPPED else s.ringPut e).set PRF_LOG_STAT_NEXT
    ((s.f PRF_LOG_STAT_NEXT + 1) % 16384)

/-- An entry stands at the end of the staging buffer (R476). -/
def State.stagePut (s : State) (e : LogEntry) : State :=
  { s with
    log.staging := s.log.staging ++ [{ e with lostBefore := s.log.dropped.contains e.unit, staged := true }]
    log.dropped := s.log.dropped.filter (fun u => decide (u ≠ e.unit)) }

/-- The staging buffer takes an entry; at 128 entries it demands a wake of CORE (R476). -/
def State.stagePush (s : State) (e : LogEntry) : State :=
  if 256 ≤ s.log.staging.length then s.logDrop e.unit
  else if 127 ≤ s.log.staging.length then (s.stagePut e).wake .core
  else s.stagePut e

/-- The entry of an event `d` ns after its cause (R473, R475). -/
def State.logEntry (s : State) (d : Nat) (u : UnitId) (e : Ev) (args : List Nat) : LogEntry :=
  { lt := (s.lt + d) % 2 ^ 64, mt := s.mtm.mt, unit := u, unsync := !s.on MTM_STATUS_LT_SYNC,
    mtInvalid := !s.on MTM_STATUS_VALID, staged := false, lostBefore := false, code := e,
    seq := s.log.seq.lookD u.num 0, args := args }

/-- A unit's next sequence number is taken (R473). -/
def State.seqNext (s : State) (u : UnitId) : State :=
  { s with log.seq := s.log.seq.put u.num ((s.log.seq.lookD u.num 0 + 1) % 65536) }

/-- The entry goes to the staging buffer where its unit stages or CORE is not up, else to the ring (R476, R477). -/
def State.logStore (s : State) (u : UnitId) (e : LogEntry) : State :=
  if unitAon u || !s.coreUp then s.stagePush e else s.ringPush e

/-- A unit logs an event `d` ns after its cause (R473, R475). Every entry takes the unit's next sequence number, whether
or not it is kept. -/
def State.logAt (s : State) (d : Nat) (u : UnitId) (e : Ev) (args : List Nat) : State :=
  ((s.seqNext u).prfCount u 6 none 1).logStore u (s.logEntry d u e args)

/-- A unit logs an event at its own instant. -/
def State.ev (s : State) (u : UnitId) (e : Ev) (args : List Nat := []) : State := s.logAt 0 u e args

/-- A unit logs an event in reaction to another unit's: 1 ns after it (R475). -/
def State.evR (s : State) (u : UnitId) (e : Ev) (args : List Nat := []) : State := s.logAt 1 u e args

/-! ### Exceptions of the Bodkin cores (R387 to R389) -/

/-- The number of a level in MODE, ECAUSE and SMP frames (R380, R439). -/
def levelNum : Level → Nat
  | .vendor => 0 | .operator => 1 | .guest => 2

/-- The level of a number; the reserved 3 acts as Guest (DEDUCED from `CPU_SLOT_n.LEVEL`, log entry 56). -/
def levelOf (n : Nat) : Level := match n % 4 with | 0 => .vendor | 1 => .operator | _ => .guest

/-- The number under which a core is held: the lockstep pair is one (R393, log entry 55). -/
def coreKey (c : Nat) : Nat := if c = 5 then 4 else c

/-- The cores that a held number stands for. -/
def coreNums (c : Nat) : List Nat := if c = 4 then [4, 5] else [c]

/-- A core. -/
def State.core (s : State) (c : Nat) : Core := s.cpu.cores.lookD c {}

/-- The state with a core changed. -/
def State.editCore (s : State) (c : Nat) (f : Core → Core) : State :=
  { s with cpu.cores := s.cpu.cores.put c (f (s.core c)) }

/-- The HALTED bit of a core (R389). -/
def haltBit (c : Nat) : Field := ⟨CPU_CTL_HALTED.addr, 8 + c, 8 + c⟩

/-- A core halts (R389, R393). -/
def State.coreHalt (s : State) (c : Nat) : State := s.each (coreNums c) fun s n => s.up (haltBit n)

/-- A core runs: an application core by its RUN bit, the safety pair while ASY is ready; neither while it is halted. -/
def State.coreRuns (s : State) (c : Nat) : Bool :=
  !s.on (haltBit c) &&
    (if c < 4 then decide (s.f CPU_CTL_RUN / 2 ^ c % 2 = 1) && !s.unitDark .cpu else s.ready .asy)

/-- What entry to Vendor mode does to a core (R388): EPC, ECAUSE and EADDR are stored, MODE is Vendor with EXC 1, and the core
goes to `CPU_VBASE` + `offset`. -/
def State.coreEnter (s : State) (c : Nat) (cause : Nat) (eaddr : Word) (offset : Nat) : State :=
  s.editCore c fun k =>
    { k with
      epc := k.pc
      ecause := BitVec.ofNat 32 (cause + levelNum k.level * 2 ^ 6 + k.slot * 2 ^ 8)
      eaddr := eaddr
      level := .vendor
      slot := 0
      exc := true
      slotA := none
      pc := BitVec.ofNat 32 ((s.f CPU_VBASE_BASE * 1024 + offset) / 4) }

/-- A core takes an exception (R388), or halts on a double fault (R389). EADDR is the faulting data address or the SYS
immediate; for a cause with neither its value is free (log entry 57). -/
def State.coreRaise (s : State) (c code : Nat) (ea : Option Nat) : State :=
  let k := s.core c
  if k.exc then ((s.coreHalt c).editCore c fun k => { k with slotA := none }).ev .cpu Ev.CPU_DOUBLE_FAULT [c]
  else
    let slotB := k.slotA.isSome.toNat
    let eaddr := BitVec.ofNat 32 (ea.getD (s.free .eaddr))
    let s := s.when ea.isNone State.drawn
    let s := s.coreEnter c (code + slotB * 2 ^ 5) eaddr (32 * code)
    s.each (coreNums c) fun s n =>
      let s := (s.set (CPU_CORE_STAT_CODE n) code).set (CPU_CORE_STAT_SLOT n) slotB
      ((s.set (CPU_CORE_EPC_EPC n) k.pc.toNat).set (CPU_CORE_EADDR_EADDR n) eaddr.toNat).bump (CPU_CNT_EXC n)

/-! ### Command registers -/

/-- A requester's identity as the log's arguments carry it (R27): path, and core or device number. -/
def reqId (r : Req) : List Nat :=
  match r.path with
  | .host => [0, 0]
  | .maint => [1, 0]
  | .shelf d => [2, d.toNat]
  | .core c => [3, c.val]

/-- A command register: its address and the level its command fields need. STATE is in bits [3:0] and RESULT in [7:4]
(R14). -/
structure CmdReg where
  addr : Nat
  unit : UnitId
  level : Level

/-- The STATE field of a command register (R14). -/
def cmdState (a : Nat) : Field := ⟨a, 3, 0⟩
/-- The RESULT field of a command register (R14). -/
def cmdResult (a : Nat) : Field := ⟨a, 7, 4⟩

/-- The command register reports STATE and RESULT (R14: 0 IDLE, 1 RUNNING, 2 DONE, 3 ERROR). -/
def State.cmdIs (s : State) (a state result : Nat) : State := (s.set (cmdState a) state).set (cmdResult a) result

/-- The command ends with DONE and a result (R14). -/
def State.cmdDone (s : State) (a : Nat) (result : Nat := 0) : State := s.cmdIs a 2 result

/-- The command ends with ERROR and a result (R14). -/
def State.cmdError (s : State) (a result : Nat) : State := s.cmdIs a 3 result

/-- The command cannot start for a reason of its own: RESULT reads BUSY (R14). -/
def State.cmdBusy (s : State) (a : Nat) : State := s.set (cmdResult a) 1

/-- A write that R17 denies: logged with the requester's identity; a Bodkin core's raises PRIV on that core. -/
def State.denied (s : State) (u : UnitId) (r : Req) (addr : Nat) : State :=
  let s := s.ev u Ev.ACCESS_DENIED (addr :: reqId r)
  match r.path with
  | .core c => s.when (s.coreRuns (coreKey c.val)) (·.coreRaise (coreKey c.val) 1 (some (0x10000000 + addr)))
  | _ => s

/-- What R9, R28, R17 and R8 put before a write of one register: an unpowered unit, a unit that is not ready (Operator
and Guest), a level that may not write; in OFF no path but the maintenance port reaches the device (R9); otherwise the unit's domain wakes and the write proceeds. -/
def State.gate (s : State) (u : UnitId) (need : Level) (addr : Nat) (r : Req) (f : State → State) : State :=
  if s.isOff && decide (r.path ≠ .maint) then s
  else if s.unitDark u then s.ev u Ev.UNIT_NOT_READY (addr :: reqId r)
  else
    let s := (s.demand u).prfCount u 5 none 1
    if !s.ready u && r.level ≠ .vendor then s.ev u Ev.UNIT_NOT_READY (addr :: reqId r)
    else if !r.level.covers need then s.denied u r addr
    else f s

/-- A write of a command register: the gate, then BUSY while an action runs (R14), then the action. -/
def State.command (s : State) (c : CmdReg) (r : Req) (f : State → State) : State :=
  s.gate c.unit c.level c.addr r fun s => if s.f (cmdState c.addr) = 1 then s.cmdBusy c.addr else f s

end Sys2Proof.Machine
end

