-- ==== Sys2Proof/Machine/CipKeys.lean ====
section
/-! DEFINITION. The keys of the cipher engine (spec/13): roots, derived keys and the wrapped-key table, and what every unit's inline
jobs share. -/

namespace Sys2Proof.Machine

/-! ### Roots and derived keys (R320 to R323) -/

/-- The bank of a slot that is in use: a change of `CIP_ROOT_SEL` takes effect only at a reset (R322). -/
def State.rootBank (s : State) (slot : Nat) : Nat := s.cip.banks / 2 ^ slot % 2

/-- A slot's selected bank can be derived from: programmed, not bad; the IMAGE slot only until `TOP_LOCK.BOOT` (R322). -/
def State.rootOk (s : State) (slot : Nat) : Bool :=
  let b := 2 * slot + s.rootBank slot
  (s.f CIP_ROOT_STAT_PROG).testBit b && !(s.f CIP_ROOT_STAT_BAD).testBit b && !(decide (slot = 3) && s.on TOP_LOCK_BOOT)

/-- The tag of a derived key, and its value. -/
def State.cipTag (s : State) (slot bits : Nat) (label : List Byte) : CipTag :=
  { slot := slot, bank := s.rootBank slot, label := label, bits := bits }
def State.derivedKey (s : State) (t : CipTag) : List Byte :=
  deriveKey (s.cip.roots.lookD (2 * t.slot + t.bank) (List.replicate 32 0)) t.label t.bits

/-- The reserved labels of R320. -/
def reservedLabel (l : List Byte) : Bool :=
  [[0x53, 0x4E], [0x53, 0x47], [0x53, 0x42], [0x49, 0x4D, 0x41, 0x47, 0x45],
   [0x4B, 0x45, 0x59, 0x54, 0x41, 0x42, 0x4C, 0x45], [0x42, 0x41, 0x43, 0x4B, 0x48, 0x41, 0x55, 0x4C]].any
    fun (p : List Byte) => decide (l.take p.length = p)

/-- A derived key is asked for: a hit moves it to the front, a miss starts its derivation or shares one that runs (R323).
The result says what has to be waited for. -/
def State.deriveAsk (s : State) (t : CipTag) : State × Option CipTag :=
  match s.cip.derived.find? fun d => decide (d.tag = t) && !d.evict with
  | some d => ({ s with cip.derived := d :: s.cip.derived.filter fun (x : CipDerived) => decide (x ≠ d) }, none)
  | none =>
    if s.cip.derivs.any fun d => decide (d.tag = t) then (s, some t)
    else (({ s with cip.derivs := s.cip.derivs ++ [{ tag := t, ends := s.now + 2400 }] } : State).bump CIP_CNT_DERIVE, some t)

/-- A derived key is in use by a running job. -/
def State.derivedUsed (s : State) (t : CipTag) : Bool := s.cip.jobs.any fun j => decide (j.uses = some t)

/-- A derived key enters the cache, in place of the least recently used one that no running job uses. -/
def State.derivedPut (s : State) (t : CipTag) : State :=
  let l := s.cip.derived
  let l := if l.length < 256 then l else
    match l.reverse.find? fun d => !s.derivedUsed d.tag with
    | some d => l.filter fun (x : CipDerived) => decide (x ≠ d)
    | none => l.dropLast
  { s with cip.derived := { tag := t, key := s.derivedKey t } :: l }

/-- Evicted keys that no running job uses are gone. -/
def State.evictSettle (s : State) : State :=
  { s with cip.derived := s.cip.derived.filter fun (d : CipDerived) => !d.evict || s.derivedUsed d.tag }

/-- A derived key that one of the device's units uses at once, through the cache (R323): none from a bank that is not programmed or is
refused (R319, R322). A miss is counted and its key is cached; the 2.4 µs of its derivation are not modelled here. A derivation that
runs is shared. -/
def State.deriveNow (s : State) (t : CipTag) : State × Option (List Byte) :=
  if !s.rootOk t.slot then (s, none)
  else match s.cip.derived.find? fun d => decide (d.tag = t) && !d.evict with
  | some d => ({ s with cip.derived := d :: s.cip.derived.filter fun (x : CipDerived) => decide (x ≠ d) }, some d.key)
  | none =>
    if s.cip.derivs.any fun d => decide (d.tag = t) then (s, some (s.derivedKey t))
    else ((s.bump CIP_CNT_DERIVE).derivedPut t, some (s.derivedKey t))

/-- The keys of a slot leave the cache, each once no running job uses it; a derivation that runs completes for its job and is not
cached (R323). -/
def State.evictKeys (s : State) (slot : Nat) : State :=
  let s := { s with
    cip.derived := s.cip.derived.map fun (d : CipDerived) => if d.tag.slot = slot then { d with evict := true } else d
    cip.derivs := s.cip.derivs.map fun (d : CipDeriv) => if d.tag.slot = slot then { d with keep := false } else d }
  s.evictSettle

/-! ### The wrapped-key table (R324) -/

/-- The tag of the wrapping key: slot DEVICE, label "KEYTABLE", 256 bits (R322). -/
def State.kekTag (s : State) : CipTag := s.cipTag 0 256 [0x4B, 0x45, 0x59, 0x54, 0x41, 0x42, 0x4C, 0x45]

/-- An entry becomes not valid (R324, R325). -/
def State.cipRemove (s : State) (i : Nat) : State :=
  { s with cip.table := s.cip.table.del i, cip.session := s.cip.session.filter fun (x : CipSession) => decide (x.index ≠ i) }

/-- An entry takes a key, wrapped under the "KEYTABLE" key; none is written where that cannot be derived. -/
def State.cipInstall (s : State) (i : Nat) (key : List Byte) (level : Nat) : State :=
  let s := s.cipRemove i
  match s.deriveNow s.kekTag with
  | (s, none) => s
  | (s, some kek) => ({ s with cip.table := s.cip.table.put i { wrapped := keyWrap kek key, level := level } } : State).unbad .cip 1 i

/-- The key of a table entry, through the session-key cache of 512 (R324): none where the entry is not valid. A miss unwraps the entry
and is counted; one that fails its integrity check or whose word is uncorrectable becomes not valid and is logged. -/
def State.tableUse (s : State) (i : Nat) : State × Option (List Byte) :=
  let keep (s : State) (k : CipSession) : State :=
    { s with cip.session := (k :: s.cip.session.filter fun (x : CipSession) => decide (x.index ≠ i)).take 512 }
  match s.cip.session.find? fun k => decide (k.index = i), s.cip.table.look i with
  | some k, _ => (keep s k, some k.key)
  | none, none => (s, none)
  | none, some e =>
    let bad := s.isBad .cip 1 i
    let (s, kek) := (s.bump CIP_CNT_UNWRAP).deriveNow s.kekTag
    match kek.bind fun k => if bad then none else keyUnwrap k e.wrapped with
    | some key => (keep s { index := i, key := key }, some key)
    | none => ((s.cipRemove i).ev .cip Ev.CIP_KEY_CORRUPT [i], none)

/-- An inline job ends: it is counted, and in `CIP_CNT_AUTH` where its verification failed (R316). -/
def State.inlineEnd (s : State) (ok : Bool) : State := (s.bump CIP_CNT_JOBS).when (!ok) (·.bump CIP_CNT_AUTH)

/-- An inline frame is discarded, its job ended by an erase or for want of a pair (R329, R330). -/
def State.inlineLost (s : State) : State := (s.bump CIP_CNT_JOBS).bump CIP_CNT_ABORTED

/-! ### Service of inline jobs (R326, R329, R330) -/

/-- CIP starts no job now: an erase runs, or the entropy source has failed. -/
def State.cipHeld (s : State) : Bool := s.on CIP_STATUS_ERASING || s.on CIP_STATUS_RNG_FAIL

/-- No pair is in service. -/
def State.noLane (s : State) : Bool := decide (s.f CIP_STATUS_QUAR = 7)

end Sys2Proof.Machine
end

