-- ==== Sys2Proof/Machine/Smp.lean ====
section
/-! DEFINITION. Frames of the shelf management protocol that this device originates, and the host message ring
(spec/19, R434 to R451): the operations other units report through. -/

namespace Sys2Proof.Machine

/-- The number this device answers to (R434, R447). -/
def State.shelfId (s : State) : Nat := s.f SHF_STATUS_NUMBER

/-- The device is the lead: of a one-device shelf, by its number, or by takeover (R434, R446). A returned lead is none, nor is it once
it is deputy under the alias (R447). Mains time keeps the role where SHF's registers are reset (log entry 199). -/
def State.isLead (s : State) : Bool := s.mtm.leads

/-- The state with an MSI-X vector raised (R451). -/
def State.msix (s : State) (v : Nat) : State :=
  { s with hif.vectors := s.hif.vectors.put v (s.hif.vectors.lookD v 0 + 1) }

/-- Whether the device, which has joined its shelf, may send frames other than HELLO (R72, R434, R435, R447). -/
def State.smpTalks (s : State) : Bool :=
  s.on SHF_CFG_EN && s.shf.joined && !s.shf.quiet && decide (s.f SHF_STATUS_ROLE ≠ 3)

/-- The next SEQ: the frame counter, whose wrap increments the boot epoch (R439, R440). -/
def State.smpSeq (s : State) : State :=
  if s.shf.ctr + 1 < 2 ^ 20 then { s with shf.ctr := s.shf.ctr + 1 }
  else { s with shf.ctr := 0, shf.epoch := (s.shf.epoch + 1) % 4096 }

/-- The frame that this device would originate. -/
def State.smpFrame (s : State) (typ : Nat) (dst : Option Nat) (level : Nat) (payload : List Nat) : SmpSent :=
  { typ := typ, dst := dst, level := level, payload := payload, epoch := s.shf.epoch, ctr := s.shf.ctr,
    term := s.f SHF_TERM_TERM, lt := s.lt, hops := 8, src := s.shelfId }

/-- A member that the routes reach (R437). -/
def State.reaches (s : State) (n : Nat) : Bool := s.on (SHF_ROUTE_REACH (n % 64))

/-- The tag of the SMP key (R440). -/
def State.smpTag (s : State) : CipTag := s.cipTag 1 128 [0x42, 0x41, 0x43, 0x4B, 0x48, 0x41, 0x55, 0x4C, 0xFF, 0xFF]

/-- CIP computes a frame's tag and the frame goes out on its link, with the PMK of a STEER wrapped (R286, R440): it is discarded where no
pair is in service (R330), waits while CIP starts no job (R326, R329), and is not sent where its key cannot be derived (DESIGN CHOICE,
log entry 242). -/
def State.smpGo (s : State) (f : SmpSent) : State :=
  if s.noLane then s.inlineLost
  else if s.cipHeld then { s with shf.tagging := s.shf.tagging ++ [f] }
  else match s.deriveNow s.smpTag with
  | (s, none) => s.inlineEnd true
  | (s, some key) =>
    let f := if f.pmk = [] then f else { f with payload := f.payload ++ (keyWrap key f.pmk).map (·.toNat), pmk := [] }
    { s.inlineEnd true with shf.sent := f :: s.shf.sent }

/-- A frame goes out, or is held while its destination's route hold runs (R438). One to a member that no route reaches has
no link to go out on. -/
def State.smpOut (s : State) (f : SmpSent) : State :=
  if (match f.dst with | some d => !s.reaches d | none => false) then s
  else match f.dst.bind s.shf.holdEnd.look with
  | some t => if s.now < t then { s with shf.held := s.shf.held ++ [f] } else s.smpGo f
  | none => s.smpGo f

/-- The device originates an SMP frame of a type at a level (R439, R441). A one-device shelf sends none (R434). -/
def State.smpSendAt (s : State) (level typ : Nat) (dst : Option Nat) (payload : List Nat) : State :=
  if s.smpTalks then (s.smpOut (s.smpFrame typ dst level payload)).smpSeq else s

/-- The device sends HELLO on one link (R437): also while it is quiet or returned (R435, R447). -/
def State.smpHello (s : State) (link : Nat) (payload : List Nat) : State :=
  if s.on SHF_CFG_EN && s.shf.joined then
    (s.smpGo { s.smpFrame 1 none 0 payload with link := some link }).smpSeq
  else s

/-- The device originates a STEER with a PMK that CIP wraps under the SMP key (R286, R441). -/
def State.smpSteer (s : State) (dst : Nat) (payload : List Nat) (pmk : List Byte) : State :=
  if s.smpTalks then (s.smpOut { s.smpFrame 0x40 (some dst) 0 payload with pmk := pmk }).smpSeq else s

/-- The device originates an SMP frame at Vendor level, as its hardware does. -/
def State.smpSend (s : State) (typ : Nat) (dst : Option Nat) (payload : List Nat) : State :=
  s.smpSendAt 0 typ dst payload

/-- The 24 header bytes of a frame as the host message ring shows them (R439, R445). -/
def smpHeader (f : SmpSent) : List Byte :=
  natLe 1 (1 + (if f.dst.isNone then 32 else 0)) ++ natLe 1 f.typ ++ natLe 1 f.src ++ natLe 1 (f.dst.getD 0) ++
    natLe 1 f.hops ++ natLe 1 f.level ++ natLe 2 f.payload.length ++ natLe 4 (f.epoch * 2 ^ 20 + f.ctr) ++
    natLe 4 f.term ++ natLe 8 f.lt

/-- Entries of the host message ring (R445): 0 while the ring is disabled. -/
def State.msgRingSize (s : State) : Nat :=
  let n := s.f HIF_MSG_CFG_SIZE
  if n = 0 then 0 else 2 ^ max 4 (min n 10)

/-- The lead writes a message into the host message ring and raises vector 0; a full ring drops it (R445). -/
def State.hostMessage (s : State) (f : SmpSent) : State :=
  let size := s.msgRingSize
  let head := s.f HIF_MSG_IDX_HEAD
  let next := (head + 1) % max size 1
  if size = 0 then s
  else if next = s.f HIF_MSG_IDX_TAIL % size then s.set HIF_MSG_IDX_LOST (min 255 (s.f HIF_MSG_IDX_LOST + 1))
  else
    let body := (smpHeader f ++ (f.payload.map (BitVec.ofNat 8)).take 40)
    let entry := body ++ List.replicate (64 - body.length) 0
    let a := s.f HIF_MSG_CFG_BASE * 256 + 64 * head
    ({ s with shared := s.shared.setBytes (a % 2 ^ 23) entry }.set HIF_MSG_IDX_HEAD next).msix 0

/-- A message of types 0x50 to 0x53: the lead writes it to its host; another member sends it to member 0 (R442, R445). -/
def State.report (s : State) (typ : Nat) (payload : List Nat) : State :=
  if s.isLead then s.hostMessage (s.smpFrame typ (some 0) 0 payload) else s.smpSend typ (some 0) payload

end Sys2Proof.Machine
end

