-- ==== Sys2Proof/Machine/FieldOps.lean ====
section
/-! DEFINITION. Operations of Field I/O that other units use (spec/20): DALI frames and levels, PWM outputs, luminaire
schedule entries, pulses, and the safe outputs. -/

namespace Sys2Proof.Machine

/-! ### Levels -/

/-- The arc level of a level of `p` percent (R455): n = round(1 + (253/3) × (log10 p + 1)), halves up, decided in whole
numbers: n ≤ x + 1/2 exactly when (10 p)^506 ≥ 10^(6 n − 9). -/
def arcLevel (p : Nat) : Nat :=
  let p := min p 100
  if p = 0 then 0
  else ((List.range 254).filter (fun k => decide (10 ^ (6 * (k + 1)) ≤ ((10 * p) ^ 253) ^ 2 * 10 ^ 9))).length

/-- The duty of a schedule level of `l` percent (R459). -/
def levelDuty (l : Nat) : Nat := min l 100 * 65535 / 100

/-- The broadcast DAPC frame of an arc level (R455). -/
def dapcFrame (arc : Nat) : Nat := 0xFE * 256 + arc

/-- A PWM frequency as it acts (R459): outside 100 Hz to 25 kHz it acts as the nearer end. -/
def pwmFreq (f : Nat) : Nat := max 100 (min f 25000)

/-- Reference counts in one PWM period: round(76,800,000 / FREQ), halves up (R459). -/
def pwmPeriod (freq : Nat) : Nat := (2 * 76800000 + pwmFreq freq) / (2 * pwmFreq freq)

/-- Reference counts for which the output is released in a period (R459). -/
def pwmReleased (freq duty : Nat) : Nat := pwmPeriod freq * duty / 65535

/-- The safe state is in force (R420). -/
def State.safe (s : State) : Bool := s.on ASY_STATUS_SAFE

/-! ### DALI ports -/

/-- A DALI port. -/
def State.daliP (s : State) (p : Nat) : DaliPort := s.fld.dali.lookD p {}

/-- The state with a DALI port changed. -/
def State.editDali (s : State) (p : Nat) (f : DaliPort → DaliPort) : State :=
  { s with fld.dali := s.fld.dali.put p (f (s.daliP p)) }

/-- The port's software command ends with a state and a result (R14, R453). -/
def State.daliResult (s : State) (p state result : Nat) : State := s.cmdIs (FLD_DALI_CMD_STATE p).addr state result

/-- A port takes a frame at the end of its queue of 16; a frame that finds it full is refused and logged (R454). -/
def State.daliEnqueue (s : State) (p : Nat) (f : DaliFrame) : State :=
  if 16 ≤ (s.daliP p).queue.length then
    (s.when (decide (f.kind = .soft)) (·.daliResult p 3 5)).ev .fld Ev.FLD_DALI_FULL [p, f.data]
  else s.editDali p fun d => { d with queue := d.queue ++ [f] }

/-- The gears that a level frame of 16 bits reaches, and its arc level: DAPC to all gear or to one short address
(R455, R458). -/
def levelTarget (f : DaliFrame) : Option (Option Nat × Nat) :=
  let adr := f.data / 256 % 256
  let arc := f.data % 256
  if f.bits ≠ 16 then none
  else if adr = 0xFE then some (none, arc)
  else if adr % 2 = 0 && decide (adr < 128) then some (some (adr / 2), arc)
  else none

/-- Whether a software frame commands a level (R421): direct arc power control, or an arc power control command (opcodes
0x00 to 0x1F, PRESUMED from IEC 62386-102). -/
def isLevelFrame (f : DaliFrame) : Bool :=
  let adr := f.data / 256 % 256
  decide (f.bits = 16) &&
    (decide (adr % 2 = 0) || (decide (f.data % 256 < 0x20) && (decide (adr < 160) || decide (0xFC ≤ adr))))

/-- A level frame has been sent to gear: their commanded level changes, a waiting query is dropped and its wait restarts
(R458). -/
def State.levelSent (s : State) (p : Nat) (target : Option Nat) (arc : Nat) : State :=
  let mask := s.w (FLD_ECHO_MASK_MASK p)
  let waitMs := max 1 (s.f (FLD_DALI_CFG_ECHO_WAIT p))
  let gears := (List.range 64).filter fun g => mask / 2 ^ g % 2 = 1 && (target.isNone || target = some g)
  s.editDali p fun d =>
    { d with
      commanded := gears.foldl (fun m g => m.put g arc) d.commanded
      echoDue := gears.foldl (fun m g => m.put g (s.now + waitMs * 1000000)) d.echoDue
      queue := d.queue.filter fun f => match f.kind with | .echo g => !gears.contains g | _ => true }

/-- A port queues the broadcast frame of a level of `pct` percent at priority 2 (R453, R455, R456). -/
def State.daliLevel (s : State) (p pct : Nat) : State :=
  s.daliEnqueue p { kind := .level, bits := 16, data := dapcFrame (arcLevel pct), prio := 2 }

/-! ### PWM outputs -/

/-- A PWM output. -/
def State.pwmO (s : State) (p : Nat) : PwmOut := s.fld.pwm.lookD p {}

/-- The state with a PWM output changed. -/
def State.editPwm (s : State) (p : Nat) (f : PwmOut → PwmOut) : State :=
  { s with fld.pwm := s.fld.pwm.put p (f (s.pwmO p)) }

/-! ### Schedule entries and pulses -/

/-- Luminaire schedule entry `n` runs (R456): its ports send its level, its outputs take its duty, its sets are handed to
SGM, and the scheduled levels follow. While SAFE is set it only updates the scheduled levels. In NO_IMAGE no schedule runs
(R68). -/
def State.scheduleRun (s : State) (n : Nat) : State :=
  if s.cfg.noImage then s
  else if s.isBad .fld 0 n then s.evR .fld Ev.FLD_SCHED_BAD [n]
  else match s.fld.schedule.look n with
  | none => s
  | some e =>
    let lvl := min e.level.toNat 100
    let s := s.each ((List.range 4).filter fun p => e.ports.getLsbD p) fun s p =>
      let s := { s with fld.daliLevel := s.fld.daliLevel.put p lvl }
      s.when (!s.safe && s.on (FLD_DALI_CFG_EN p)) (·.daliLevel p lvl)
    let s := s.each ((List.range 4).filter fun p => e.pwms.getLsbD p) fun s p =>
      let s := s.editPwm p fun o => { o with scheduled := lvl }
      s.when (!s.safe) (·.set (FLD_PWM_DUTY p) (levelDuty lvl))
    let s := { s with fld.setLevel := ((List.range 16).filter fun k => e.sets.getLsbD k).foldl (fun m k => m.put k lvl) s.fld.setLevel }
    s.when (!s.safe && decide (e.sets ≠ 0)) fun s =>
      { s with sgm.groupCmds := s.sgm.groupCmds ++ [(e.sets.toNat, lvl)] }

/-- A GPIO or WAKE_N (number 16). -/
def State.gpioN (s : State) (n : Nat) : Gpio := s.fld.gpio.lookD n {}

/-- The state with a GPIO changed. -/
def State.editGpio (s : State) (n : Nat) (f : Gpio → Gpio) : State :=
  { s with fld.gpio := s.fld.gpio.put n (f (s.gpioN n)) }

/-- A PULSE action on a GPIO: it drives the opposite of OUT for 1 ms, a second pulse restarts the 1 ms, and a GPIO that
is not an output ignores it (R461). -/
def State.pulse (s : State) (n : Nat) : State :=
  let mode := s.f (FLD_GPIO_CFG_MODE n)
  if mode = 1 || mode = 2 then
    s.editGpio n fun g => { g with
      out := if g.pulseEnd.isSome then g.out else !s.on (FLD_GPIO_CFG_OUT n)
      pulseEnd := some (s.now + 1000000) }
  else s.evR .fld Ev.FLD_PULSE_IGNORED [n]

/-! ### The safe outputs -/

/-- FAULT_N asserted or released (R465). -/
def State.faultN (s : State) (b : Bool) : State := s.put FLD_STATUS_FAULT b

/-- Every PWM output takes its safe duty at once and starts a new period (R420, R459). -/
def State.pwmSafe (s : State) : State :=
  s.each (List.range 4) fun s p => s.editPwm p fun o =>
    { o with drive := .safe, enabled := true, duty := s.f (FLD_PWM_SAFE p), invert := s.on (FLD_PWM_INVERT p)
             freq := s.f (FLD_PWM_FREQ p) }

/-- Every DALI port ends the frame it is sending, its queued frames are discarded with RESULT SAFE, and each enabled
port owes the safe-level broadcast (R420, R454). -/
def State.daliSafe (s : State) : State :=
  s.each (List.range 4) fun s p =>
    let soft := (s.daliP p).queue.any fun f => decide (f.kind = .soft)
    let s := s.when (soft && decide (s.f (cmdState (FLD_DALI_CMD_STATE p).addr) = 1)) (·.daliResult p 3 6)
    s.editDali p fun d =>
      { d with
        queue := []
        idleSince := if d.phase = .sending then s.now else d.idleSince
        phase := .idle
        collisions := 0
        safePend := s.on (FLD_DALI_CFG_EN p)
        safeCollisions := 0 }

end Sys2Proof.Machine
end

