-- ==== Sys2Proof/Machine/Reset.lean ====
section
/-! DEFINITION. Resets and image loads that several units take part in: a unit's own reset (R428 rung 2), the warm device
reset (R71, R76, R80, R493), the cold reset (R76, R432), and the writing of IMG fields from a folio (R73, R78). -/

namespace Sys2Proof.Machine

/-- The mask of a register word's IMG bits. -/
def imgMask (r : RegDesc) (w : Nat) : Nat := r.fields.foldl (fun n f => if f.img then n ||| fieldMask f w else n) 0

/-- A word of `RFC_SPAN` whose centre lies outside its range (R241). -/
def spanDenied (v : Word) : Bool := decide (bitsOf v 19 0 < 785400 ∨ 953600 < bitsOf v 19 0)

/-- A write of a register's word by CFG: the span and the preemption of a port are checked as in any write (R241, R337), for R79 lifts
only R90 and R334. -/
def State.imgStore (s : State) (a : Nat) (v : Word) : State :=
  let p := a / 0x10000 % 16
  if a = RFC_SPAN_CENTRE.addr ∧ spanDenied v then s.ev .rfc Ev.RF_CHAN_DENIED [bitsOf v 19 0]
  else if a = (ETH_PORT_PREEMPT_EN p).addr ∧ p < 8 ∧ v.getLsbD 31 ∧ s.f (ETH_PORT_Q_EXP_Q p) = s.f (ETH_PORT_Q_RX_Q p) then
    s.ev .eth Ev.ETH_CFG_INVALID [p]
  else s.wr a v

/-- CFG writes one word of a folio: its IMG fields only. -/
def State.loadWord (s : State) (x : FolioWord) : State :=
  match regAt x.addr.toNat with
  | some (_, r, w) =>
    let m := BitVec.ofNat 32 (imgMask r w)
    s.imgStore x.addr.toNat ((s.rd x.addr.toNat &&& ~~~m) ||| (x.value &&& m))
  | none => s

/-- The folio store's folio of a number. -/
def State.folio (s : State) (n : Nat) : Option FolioData := s.cfg.folios[n]?

/-- A folio word that start-up and a folio switch do not write: the duty of a PWM output, which follows START and the schedule
(DEDUCED, log entry 53). -/
def isDuty (a : Nat) : Bool := (List.range 4).any fun p => decide ((FLD_PWM_DUTY p).addr = a)

/-- CFG writes one word of a folio; of a duty word, SAFE alone. -/
def State.folioWord (s : State) (x : FolioWord) : State :=
  if isDuty x.addr.toNat then s.wr x.addr.toNat ((s.rd x.addr.toNat &&& 0xFFFF0000) ||| (x.value &&& 0x0000FFFF)) else s.loadWord x

/-- A radio's links take the channels of their registers (R239: a link that is OFF takes its channel at once). -/
def State.loadChans (s : State) (u : UnitId) : State :=
  match u with
  | .rfa => { s with rfa.links := s.rfa.links.put 0 { s.rfa.links.lookD 0 {} with
      chan := { w0 := s.rd ((RFB_CHAN_CHANNEL 0).addr - 0x100000), w1 := s.rd ((RFB_CHAN_CHANNEL 0).addr - 0x100000 + 4) } } }
  | .rfb => s.each [0, 1] fun s l => { s with rfb.links := s.rfb.links.put l { s.rfb.links.lookD l {} with
      chan := { w0 := s.rd (RFB_CHAN_CHANNEL l).addr, w1 := s.rd ((RFB_CHAN_CHANNEL l).addr + 4) } } }
  | _ => s

/-- The FIRMWARE section is loaded into the memories it names (R64). -/
def State.loadCode (s : State) (c : CodeSeg) : State :=
  let a := c.offset.toNat
  match c.memory.val with
  | 0 => { s with cpu.local0 := s.cpu.local0.setBytes a c.bytes }
  | 1 => { s with cpu.local1 := s.cpu.local1.setBytes a c.bytes }
  | 2 => { s with cpu.local2 := s.cpu.local2.setBytes a c.bytes }
  | 3 => { s with cpu.local3 := s.cpu.local3.setBytes a c.bytes }
  | 4 => { s with cpu.localS := s.cpu.localS.setBytes a c.bytes }
  | _ => { s with shared := s.shared.setBytes a c.bytes }

/-- The word address of `CPU_VBASE`. -/
def State.vbase (s : State) : Nat := s.f CPU_VBASE_BASE * 1024

/-- An application core starts, or starts again, at `CPU_VBASE` (R389). -/
def State.coreStart (s : State) (c : Nat) : State :=
  let s := s.down (haltBit c)
  { s with cpu.cores := s.cpu.cores.put c { pc := BitVec.ofNat 32 (s.vbase / 4), pend := (s.cpu.cores.lookD c {}).pend } }

/-- The application cores of RUN start with the firmware loaded. -/
def State.coresStart (s : State) : State :=
  let s := s.each s.cfg.code State.loadCode
  s.each ((List.range 4).filter fun c => (s.f CPU_CTL_RUN).testBit c) State.coreStart

/-- A rule of the EDITION section, visible from the first edition on (R129). -/
def ruleOfData (number : Nat) (r : RuleData) (n : Nat) : Rule :=
  { value := (r.value ++ List.replicate n 0).take n, mask := (r.mask ++ List.replicate n 0).take n
    action := r.action.toNat, fromEd := number, untilEd := 0, opened := true, override := r.override }

/-- An exact rule takes a free place of its two buckets (R133). -/
def State.exactLoad (s : State) (r : Rule) : State :=
  let b0 := Config.exactBucket r.value false % 131072
  let b1 := Config.exactBucket r.value true % 131072
  let places := ((List.range 8).map (8 * b0 + ·) ++ (List.range 8).map (8 * b1 + ·)).filter fun i => !s.par.exact.has i
  if places.isEmpty then s
  else { s.drawn with par.exact := s.par.exact.put (places.getD (s.free .exactWay % places.length) 0) r }

/-- The PARSE and EDITION sections are loaded into PAR (R64): the program memory, the entry table, and the rules of the first
edition. -/
def State.loadPar (s : State) : State :=
  match s.cfg.deferred with
  | none => s
  | some d =>
    let s := if d.parse then
        { s with
          par.prog := d.program.foldl (fun m (x : ProgSeg) => m.setBytes x.addr.toNat x.bytes) s.par.prog
          par.entries := ((List.range 256).zip d.entries).foldl (fun m (e : Nat × BitVec 19) => m.put e.1 e.2.toNat) s.par.entries }
      else s
    if d.edition then
      let n := d.number.toNat
      let s := (s.set PAR_EDITION_OLDEST n).set PAR_EDITION_CURRENT n
      let s := { s with par.ternary := d.ternary.foldl (fun m (r : RuleData) => m.put r.index.toNat (ruleOfData n r 64)) s.par.ternary }
      s.each d.exact fun s r => s.exactLoad (ruleOfData n r 48)
    else s

/-- The tree and the shapers that a folio builds (R159). A shaper starts with T 0 (DESIGN CHOICE, log entry 214). -/
def State.loadTree (s : State) (f : FolioData) : State :=
  let s := s.each f.nodes fun s x =>
    let put (m : Map SchNode) (a b c : Word) : Map SchNode :=
      m.put x.num.toNat { m.lookD x.num.toNat {} with w0 := x.w0 &&& a, w1 := x.w1 &&& b, w2 := x.w2 &&& c }
    match x.kind.val with
    | 0 => { s with sch.queues := put s.sch.queues 0xFF001FFF 0xFFFFF 0xFFFFFFFF }
    | 1 => { s with sch.clients := put s.sch.clients 0xB7FFFFFF 0xFFFFF 0xFFFF }
    | _ => { s with sch.groups := put s.sch.groups 0xB800FFFF 0xFFFFF 0xFFFF }
  s.each f.shapers fun s x => { s with
    sch.shapers := s.sch.shapers.put x.num.toNat { rate := x.rate.toNat, burst := x.burst.toNat % 2 ^ 24, last := s.now } }

/-- CFG writes the IMG fields of a unit from a folio, and what the image loads into the unit. -/
def State.loadUnit (s : State) (u : UnitId) (f : FolioData) : State :=
  let s := s.each (f.words.filter fun x => decide (unitAt x.addr.toNat = some u)) State.folioWord
  match u with
  | .cpu => s.coresStart
  | .asy => s.each (s.cfg.code.filter fun c => decide (c.memory.val = 4)) State.loadCode
  | .par => s.loadPar
  | .sch => s.loadTree f
  | _ => s.loadChans u

/-- The registers of a unit return to their reset values. -/
def State.regsReset (s : State) (u : UnitId) : State :=
  { s with
    regs := s.regs.filter fun e => decide (unitAt e.1 ≠ some u)
    hold := s.hold.filter fun e => decide (unitAt e.1 ≠ some u) }

/-- SGM's frame counter after a start-up: the stored one plus 65,536, at most its end (R312). -/
def Sgm.ctrResume (x : Sgm) : Nat := min (2 ^ 32 - 1) (x.ctrNvm + 65536)

/-- What a reset leaves SGM: its counter and the generation it stopped in, and what it has yet to send of a safe state, which is
Assay's and goes on (R306, R312). -/
def Sgm.reset (x : Sgm) : Sgm :=
  { ctr := x.ctrResume, ctrNvm := x.ctrResume, stopped := x.stopped, safePend := x.safePend, safeLeft := x.safeLeft }

/-- What a unit holds behind its registers returns to its reset contents. What lies in OTP or in the learned-data area stays,
and so do the MODEL's records of what has left the device and PKB's retired cells, which a warm device reset returns (R108). SGM's frame counter resumes past the stored one (R312), and the
place of each quire's reserve stays with its configuration (R91). The safety pair belongs to ASY; a reset of CPU, as of the device,
starts it again where it is halted (R389). -/
def State.clearUnit (s : State) (u : UnitId) : State :=
  match u with
  | .cpu =>
    let stay := !s.on (haltBit 4)
    { s with cpu.cores := s.cpu.cores.filter fun (c : Nat × Core) => decide (4 ≤ c.1) && stay }
  | .shf => { s with shf := { epoch := s.shf.epoch, ctr := s.shf.ctr, termNvm := s.shf.termNvm, sent := s.shf.sent,
                                yielded := s.shf.yielded } }
  | .hif => { s with hif := { vectors := s.hif.vectors } }
  | .sgm => { s with sgm := s.sgm.reset }
  | .prf => { s with prf := {} }
  | .pkb => { s with pkb := { next := s.pkb.next, retired := s.pkb.retired, quires := s.pkb.quires.map fun (q : Nat × Quire) =>
      (q.1, ({ reserve := q.2.reserve } : Quire)) } }
  | .par => { s with par := { lost := s.par.lost } }
  | .flw => { s with flw := { nextReq := s.flw.nextReq } }
  | .sch => { s with sch := {} }
  | .ple => { s with ple := { nextMove := s.ple.nextMove } }
  | .cip => { s with cip := { roots := s.cip.roots, banks := s.cip.banks } }
  | .rfa => { s with rfa := {} }
  | .rfb => { s with rfb := {} }
  | .rfc => { s with rfc := { temp := s.rfc.temp } }
  | .wma => { s with wma := {} }
  | .eth => { s with eth := { sent := s.eth.sent } }
  | .drc => { s with drc := { done := s.drc.done, next := s.drc.next } }
  | .asy =>
    let s := { s with cpu.cores := s.cpu.cores.filter fun (c : Nat × Core) => decide (c.1 < 4) }
    (s.down (haltBit 4)).down (haltBit 5)
  | .top | .mtm | .pwr | .cfg | .fld => s

/-- The cells in use by every quire. -/
def State.cellsUsed (s : State) : Nat := s.pkb.quires.foldl (fun n q => n + q.2.used) 0

/-- `PKB_STATUS` follows the cells: RETIRED saturates at 2,047 (R108). -/
def State.poolSync (s : State) : State :=
  (s.set PKB_STATUS_RETIRED (min 2047 s.pkb.retired.length)).set PKB_STATUS_FREE
    (196608 - s.pkb.retired.length - s.cellsUsed)

/-- `SGM_STATUS` shows the safe state as before a reset: it is Assay's, and every beacon carries it until it ends (R306). -/
def State.safeShown (s old : State) : State :=
  (s.put SGM_STATUS_SAFE (old.on SGM_STATUS_SAFE)).set SGM_STATUS_LEVEL (old.f SGM_STATUS_LEVEL)

/-- A unit is reset on its own (R428 rung 2): an always-on unit keeps its registers. PKB's retired cells and Limp mode last until
a device reset (R108, R158), as do CIP's quarantined pairs (R327) and what its OTP holds of the root banks (R332); a failure of the
entropy source erases nothing, and what waits for the source goes on waiting (R326; log entry 241). -/
def State.unitReset (s : State) (u : UnitId) : State :=
  let old := s
  let s := s.clearUnit u
  let s := s.when (!unitAon u) (·.regsReset u)
  match u with
  | .pkb => s.poolSync
  | .flw => s.put FLW_STATUS_LIMP (old.on FLW_STATUS_LIMP)
  | .sgm => s.safeShown old
  | .cip =>
    let s := { s with cip := { old.cip with jobs := [], next := [], last := 7 } }
    [CIP_STATUS_QUAR.addr, CIP_ALARM_CAUSE.addr, CIP_ROOT_STAT_PROG.addr].foldl (fun s a => s.wr a (old.rd a)) s
  | _ => s

/-- The units outside the always-on domain. -/
def lostUnits : List UnitId := UnitId.all.filter fun u => !unitAon u

/-- Every unit outside the always-on domain is reset. The event log keeps its place in PRF's registers (R473), and CIP's root
status is that of the OTP. Words found uncorrectable in their memories are gone with the contents. -/
def State.clearDomains (s : State) : State :=
  let stat := s.rd PRF_LOG_STAT_NEXT.addr
  let lost := s.w PRF_LOG_LOST
  let roots := s.rd CIP_ROOT_STAT_PROG.addr
  let old := s
  let s := s.each lostUnits fun s u => (s.clearUnit u).regsReset u
  let s := { s with
    bad := s.bad.filter fun (b : UnitId × Nat × Nat) => unitAon b.1
    pkb.retired := [], cip.banks := 0 }
  (((s.wr PRF_LOG_STAT_NEXT.addr stat).setW PRF_LOG_LOST lost).wr CIP_ROOT_STAT_PROG.addr roots).safeShown old

/-- The active folio after a reset (R71, R80): the one set for it, else the one that was active. -/
def State.takeNextFolio (s : State) : State :=
  if s.on TOP_FOLIO_STAT_NEXT_VALID then
    (s.set TOP_FOLIO_STAT_ACTIVE (s.f TOP_FOLIO_STAT_NEXT)).down TOP_FOLIO_STAT_NEXT_VALID
  else s

/-- A reset discards a pending folio switch (R80). -/
def State.dropSwitch (s : State) : State :=
  let s := { s with cfg.switchCycle := none, cfg.reconfig := [] }
  (s.when (s.on TOP_FOLIO_STAT_PEND_VALID) (·.cmdError TOP_FOLIO_SEL_STATE.addr 5)).down TOP_FOLIO_STAT_PEND_VALID

/-- A device state transition that runs when a warm reset occurs is abandoned (R493). -/
def State.abortTransition (s : State) : State :=
  match s.pwr.transition with
  | some _ => { s with pwr.transition := none }.cmdError PWR_STATE_CMD_STATE.addr 4
  | none => s

/-- Steps of R72 are complete up to `n`, and `CFG_STATUS.PHASE` says so. -/
def State.stageIs (s : State) (n : Nat) : State := { s with cfg.stage := n }.set CFG_STATUS_PHASE (n - 1)

/-- Step 3 (R72): the domains power up (DESIGN CHOICE, log entry 54: every domain with CORE), the boot epoch is incremented and
the lead term loaded (R440, R446), and CFG begins to read the headers. -/
def State.stepThree (s : State) : State :=
  let s := s.each Dom.all fun s d => s.setDom d .up
  let s := { s with shf.epoch := (s.shf.epoch + 1) % 4096, shf.ctr := 0 }
  (s.set SHF_TERM_TERM s.shf.termNvm).stageIs 3

/-- Start-up begins again at step 3 (R76, R404): every unit outside the always-on domain is reset, and its domain powered
unless `off`; in test mode start-up stops before step 3 (R490). -/
def State.restart (s : State) (off : Bool) : State :=
  let state := s.f PWR_STATE_STATE
  let s := s.takeNextFolio.clearDomains
  let s := s.each Dom.all fun s d => s.setDom d .unpowered
  let s := s.each lostUnits fun s u => s.setReady u false
  let s := s.down TOP_LOCK_BOOT
  let s := s.cmdIs TOP_RESET_STATE.addr 0 0
  let s := (s.down CFG_STATUS_FALLBACK).down CFG_STATUS_PARTIAL
  let s := (s.down TOP_FOLIO_STAT_SUBST).set TOP_FOLIO_STAT_AVAIL 0
  let s := { s with
    cfg.warm := true
    cfg.noImage := false
    cfg.bistDead := false
    cfg.calOk := false
    cfg.deferred := none
    cfg.late := []
    cfg.bootStart := s.now
    cfg.resumeStandby := decide (state = 2)
    cfg.hdrRead := false
    cfg.candidates := [] }
  let s := s.stageIs 2
  if off || s.cfg.testMode then s else s.stepThree

/-- The warm device reset (R76, R493): steps 3 to 10 run again, and the always-on domain and the field outputs keep their
state. A running transition is abandoned and a pending folio switch discarded. In OFF it acts on the always-on domain only. -/
def State.warmReset (s : State) : State :=
  let off := decide (s.f PWR_STATE_STATE = 3)
  ((s.abortTransition.dropSwitch).restart off).ev .top Ev.BOOT_WARM

/-- The cold reset (R76): everything but the NVM, the OTP and what the learned-data area keeps returns to its reset contents,
and every step runs. `vin` says that the 12 V input is still valid, so that step 1 is done. -/
def State.coldReset (s : State) (vin : Bool) : State :=
  let r : State :=
    { pending := s.pending
      now := s.now
      freeCtr := s.freeCtr
      mtm := { a := { stored := s.mtm.a.stored }, b := { stored := s.mtm.b.stored }, c := { stored := s.mtm.c.stored } }
      cfg := { nor := s.cfg.nor, norExt := s.cfg.norExt, trials := s.cfg.trials, confSeq := s.cfg.confSeq, otp := s.cfg.otp,
               learned := s.cfg.learned, learnedExt := s.cfg.learnedExt, bootStart := s.now, stage := if vin then 1 else 0 }
      asy := { replaceNvm := s.asy.replaceNvm, savedCauses := s.asy.savedCauses, savedLadders := s.asy.savedLadders,
               ladders := s.asy.savedLadders, lastRung4 := s.asy.lastRung4 }
      shf := { epoch := s.shf.epoch, termNvm := s.shf.termNvm }
      sgm := { ctr := s.sgm.ctrResume, ctrNvm := s.sgm.ctrResume }
      cip := { roots := s.cip.roots }
      pwr := { held := !vin }
      tap := s.tap }
  let r := r.wr CIP_ROOT_STAT_PROG.addr (s.rd CIP_ROOT_STAT_PROG.addr)
  (r.put PWR_VIN_VALID vin).set PWR_VIN_MV (s.f PWR_VIN_MV)

end Sys2Proof.Machine
end

