-- ==== Sys2Proof/Machine/PowerOps.lean ====
section
/-! DEFINITION. Power operations that other units use (spec/17): the PMBus, the permitted class of a radio and its grant,
device state transitions, and what start and end of service do to the domains. -/

namespace Sys2Proof.Machine

/-! ### PMBus (R408, R409) -/

/-- PWR writes a command on the PMBus: before a paged command it writes PAGE where the page last written differs (R408). -/
def State.pmbWrite (s : State) (page : Option Nat) (code data : Nat) : State :=
  match page with
  | none => { s with pwr.writes := { page := none, code := code, data := data } :: s.pwr.writes }
  | some p =>
    let pre := if s.pwr.page = some p then [] else [{ page := none, code := 0, data := p : PmbWrite }]
    { s with pwr.page := some p, pwr.writes := { page := some p, code := code, data := data } :: pre ++ s.pwr.writes }

/-! ### Permits (R410 to R414) -/

/-- The permit machine of a radio. -/
def State.permit (s : State) (r : Radio) : Permit := match r with | .a => s.pwr.permA | .b => s.pwr.permB

/-- The state with a radio's permit machine changed. -/
def State.editPermit (s : State) (r : Radio) (f : Permit → Permit) : State :=
  match r with
  | .a => { s with pwr.permA := f s.pwr.permA }
  | .b => { s with pwr.permB := f s.pwr.permB }

/-- The end of a grant: [t0, t0 + LEASE × 100 ms) (R411). -/
def grantEnd (g : Grant) : Nat := g.t0 + g.lease * 100000000

/-- The permitted class of a radio (R398, R403, R410 to R414): the granted class while the grant is in force and nothing
has lowered it, else 4; 4 while the PMBus is unused, the input is Low, or the device is not in FULL. -/
def State.permitted (s : State) (r : Radio) : Nat :=
  if !s.on PWR_PMBUS_CFG_EN || s.on PWR_VIN_LOW || decide (s.f PWR_STATE_STATE ≠ 0) then 4
  else match (s.permit r).grant with
    | some g => if (s.permit r).lowered || decide (grantEnd g ≤ s.now) then 4 else g.cls
    | none => 4

/-- The STATE field of `PWR_PERMIT_STAT_r`: 0 NONE, 1 REQUESTING, 2 GRANTED, 3 RETRY. -/
def permitState (p : Permit) : Nat :=
  if p.req.isSome then 1 else if p.retryEnd.isSome then 3 else if p.grant.isSome then 2 else 0

/-- `PWR_PERMIT_STAT_r` follows the radio's permit machine. -/
def State.permitSync (s : State) (r : Radio) : State :=
  let p := s.permit r
  let s := s.set (PWR_PERMIT_STAT_PERMITTED r.num) (s.permitted r)
  let s := s.set (PWR_PERMIT_STAT_GRANTED r.num) (match p.grant with | some g => g.cls | none => 0)
  s.set (PWR_PERMIT_STAT_STATE r.num) (permitState p)

/-- Both radios' permit registers follow their machines. -/
def State.permitsSync (s : State) : State := (s.permitSync .a).permitSync .b

/-- The target class T of a radio (R410): the lower of WANT and the highest class its caps allow, raised to the class a
predistortion calibration asks for. -/
def State.permitTarget (s : State) (r : Radio) : Nat :=
  let want := match r with | .a => s.f PWR_PERMIT_CFG_WANT_A | .b => s.f PWR_PERMIT_CFG_WANT_B
  max (min want (s.pwr.caps.lookD r.num 7)) (s.permit r).calAsk

/-- PWR writes a release, which takes the next TAG; the grant is gone (R408, R414). -/
def State.permitRelease (s : State) (r : Radio) : State :=
  let s := s.pmbWrite (some r.num) 0xD0 (s.pwr.nextTag * 8)
  let s := { s with pwr.nextTag := (s.pwr.nextTag + 1) % 8 }
  (s.editPermit r fun p => { p with grant := none, release := false, lowered := false }).permitSync r

/-- A grant is to be released: at once where no TXOP of its class remains, else at the report of the last one or at the
grant's end (R414). -/
def State.permitGiveUp (s : State) (r : Radio) : State :=
  match (s.permit r).grant with
  | none => s
  | some _ =>
    if (s.permit r).txops = 0 then s.permitRelease r
    else (s.editPermit r fun p => { p with release := true, lowered := true }).permitSync r

/-- A request ends as a denial (R411): the permitted class becomes 4, the radio enters RETRY for 1 s, the event is
logged with its reason (1 DENIED, 2 CLASS, 3 LEASE, 4 TIMEOUT, 5 FAILED) and counted, and a grant still in force is
given up (R414). -/
def State.permitDenied (s : State) (r : Radio) (reason : Nat) : State :=
  let s := s.editPermit r fun p =>
    { p with req := none, retryEnd := some (s.now + 1000000000), lowered := p.grant.isSome }
  let s := (s.ev .pwr Ev.PWR_PERMIT_DENIED [r.num, reason]).bump PWR_CNT_PERMIT_DENIED
  (s.permitGiveUp r).permitSync r

/-- The device enters REDUCED, STANDBY or OFF: a running request ends at once with a release directly after it, and a
grant is given up (R414). -/
def State.permitsDrop (s : State) : State :=
  [Radio.a, Radio.b].foldl (fun s r =>
    match (s.permit r).req with
    | some _ => (s.editPermit r fun p => { p with req := none }).permitRelease r
    | none => s.permitGiveUp r) s

/-! ### The power-cycle command (R415) -/

/-- PWR logs the power cycle and writes MFR_POWER_CYCLE with its key and off time (R415). -/
def State.powerCycleWrite (s : State) (offTime : Nat) : State :=
  (s.ev .pwr Ev.PWR_POWER_CYCLE [offTime]).pmbWrite none 0xD2 (0xA5 + 256 * offTime)

/-! ### Device states (R403 to R406) -/

/-- The low-power mode of the AON regulator is in force exactly while LP_EN is 1, the device is in STANDBY or OFF and
LP_LOCK is 0 (R406). -/
def State.aonSync (s : State) : State :=
  s.put PWR_AON_CTL_LP_ACTIVE
    (s.on PWR_AON_CTL_LP_EN && decide (2 ≤ s.f PWR_STATE_STATE) && !s.on PWR_AON_CTL_LP_LOCK)

/-- Every sleeping domain wakes (R404). -/
def State.wakeAll (s : State) : State := s.each Dom.all fun s d => if s.dom d = .low then s.wake d else s

/-- Radio A's links are commanded to OFF (R403, R404). -/
def State.radioAOff (s : State) : State :=
  { s with rfa.links := s.rfa.links.map fun (e : Nat × RfLink) =>
      if e.2.state = 0 then e else (e.1, { e.2 with queue := e.2.queue ++ [.go 0] }) }

/-- Service stops for STANDBY or OFF (R404): the sub-GHz plan is suspended and radio A's links go to OFF. The BSSs are
stopped by firmware through WMA's own commands. -/
def State.stopService (s : State) : State := ({ s with sgm.suspended := true } : State).radioAOff

/-- A transition to a device state starts (R404). Entry to STANDBY or OFF keeps the state held before it in RETURN; where
the device is already in STANDBY, RETURN stays (DEDUCED, log entry 14). -/
def State.beginTransition (s : State) (target : Nat) : State :=
  let cur := s.f PWR_STATE_STATE
  let s := { s with pwr.transition := some { target := target } }
  if 2 ≤ target then
    let s := s.when (decide (cur < 2)) (·.set PWR_STATE_RETURN cur)
    s.stopService.permitsDrop
  else if target = 1 then
    (s.when (decide (s.f PWR_REDUCED_CHAINS_A = 0)) State.radioAOff).permitsDrop
  else s

/-- Every non-AON domain is unpowered and its state is lost (R403). -/
def State.unpower (s : State) : State :=
  let s := s.clearDomains
  let s := (s.wr PRF_LOG_STAT_NEXT.addr 0).setW PRF_LOG_LOST 0
  let s := { s with log := {}, shared := [], dram := [], cpu := {} }
  let s := s.each Dom.all fun s d => s.setDom d .unpowered
  s.set TOP_UNIT_READY_READY (s.f TOP_UNIT_READY_READY &&& 0x40001F)

end Sys2Proof.Machine
end

