-- ==== Sys2Proof/Machine/Assay.lean ====
section
/-! DEFINITION. Assay (spec/18): monitors and their faults, the safe state, the recovery ladder, replacement and the
latent-fault self-test. -/

namespace Sys2Proof.Machine

/-! ### The monitor table (R417) -/

/-- The class of a monitor's fault (R417). -/
inductive FaultClass where
  | dangerous | degraded | info
  deriving DecidableEq, Repr

/-- The class of each row of R417. -/
def monitorClass : Monitor → FaultClass
  | .refClock | .asyOsc | .aonRails | .tempCrit | .hbFldMtm | .lockstep | .asySram | .hvWatchdog => .dangerous
  | .derivedClocks | .otherRails | .tempHigh | .hbOther | .appCore | .wgcRate | .packetMemory | .cipherAlarm
  | .cipherTamper | .entropy | .cipherFault | .dramFreeze | .mainsPlaus | .daliBus | .commandEcho | .radioDegr
  | .partialImage => .degraded
  | .supply | .safeDelay => .info

/-- The class as a FAULT message carries it: 0 dangerous, 1 degraded, 2 info. -/
def FaultClass.num : FaultClass → Nat
  | .dangerous => 0 | .degraded => 1 | .info => 2

/-- The rung at which a monitor's fault enters the ladder (R417); none where the Entry column says None, and for a DRAM
freeze, which R371 governs. -/
def monitorEntry : Monitor → Option Nat
  | .refClock | .asyOsc | .aonRails | .hvWatchdog | .packetMemory | .cipherFault => some 3
  | .derivedClocks | .otherRails | .hbFldMtm | .hbOther | .appCore | .lockstep | .asySram | .wgcRate | .entropy => some 2
  | .tempHigh | .tempCrit | .cipherAlarm | .cipherTamper | .dramFreeze | .mainsPlaus | .daliBus | .commandEcho
  | .radioDegr | .supply | .safeDelay | .partialImage => none

/-- The bit of `ASY_CAUSE` that a dangerous fault sets. -/
def causeBit : Monitor → Func → Option Nat
  | .refClock, _ => some 0
  | .asyOsc, _ => some 1
  | .aonRails, _ => some 2
  | .tempCrit, _ => some 3
  | .hbFldMtm, .luminaire => some 4
  | .hbFldMtm, _ => some 5
  | .lockstep, _ => some 6
  | .asySram, _ => some 7
  | .hvWatchdog, _ => some 8
  | _, _ => none

/-- The monitor runs (R417): the clock and rail monitors from step 2, the others once armed at step 6; none in test mode
(R490). -/
def State.monitors (s : State) (m : Monitor) : Bool :=
  !s.cfg.testMode && (s.asy.armed || match m with
    | .refClock | .asyOsc | .derivedClocks | .aonRails | .otherRails => decide (2 ≤ s.cfg.stage)
    | _ => false)

/-- The function a monitor's row of R417 names; the reporter's where the row says Owner or several. -/
def monitorFunc (m : Monitor) (f : Func) : Func :=
  match m with
  | .refClock => .time
  | .asyOsc | .aonRails | .lockstep | .asySram | .hvWatchdog => .assay
  | .tempHigh | .tempCrit | .supply => .power
  | .appCore => .cpu
  | .packetMemory => .datapath
  | .cipherAlarm | .cipherTamper | .entropy | .cipherFault => .cipher
  | .dramFreeze => .dram
  | .mainsPlaus => .time
  | .daliBus | .commandEcho => .luminaire
  | .safeDelay => .subghz
  | .hbFldMtm => if f = .time then .time else .luminaire
  | .derivedClocks | .otherRails | .hbOther | .wgcRate | .radioDegr | .partialImage => f

/-- The function of a unit (R416). -/
def unitFunc : UnitId → Func
  | .fld => .luminaire | .mtm => .time | .rfc | .sgm => .subghz | .rfa => .radioA | .rfb => .radioB
  | .pkb | .par | .flw | .sch | .ple => .datapath | .cip => .cipher | .eth => .wired | .drc => .dram
  | .cpu => .cpu | .shf | .hif => .shelf | .pwr => .power | .asy => .assay
  | .top | .cfg => .assay | .wma => .radioA | .prf => .assay

/-- The units of a function that a rung 2 re-initialises (R416, R428). -/
def funcUnits : Func → List UnitId
  | .luminaire => [.fld] | .time => [.mtm] | .subghz => [.rfc, .sgm] | .radioA => [.rfa] | .radioB => [.rfb]
  | .datapath => [.pkb, .par, .flw, .sch, .ple] | .cipher => [.cip] | .wired => [.eth] | .dram => [.drc]
  | .cpu => [.cpu] | .shelf => [.shf, .hif] | .power => [.pwr] | .assay => []

/-! ### Function status -/

/-- The ladder of a function. -/
def State.ladder (s : State) (f : Func) : Ladder := s.asy.ladders.lookD f.num {}

/-- The state with a function's ladder changed. -/
def State.editLadder (s : State) (f : Func) (g : Ladder → Ladder) : State :=
  { s with asy.ladders := s.asy.ladders.put f.num (g (s.ladder f)) }

/-- A degraded or dangerous fault of the function stands. -/
def State.faultStands (s : State) (f : Func) : Bool :=
  s.asy.standing.any fun x => decide (x.func = f) && decide (monitorClass x.monitor ≠ .info)

/-- The bit of a function in `ASY_STATUS.FUNC_DEG`. -/
def degBit (f : Func) : Field := ⟨ASY_STATUS_FUNC_DEG.addr, f.num, f.num⟩

/-- Counted warm resets of the ladder within the last 24 h (R428). -/
def recentResets (s : State) (l : Ladder) : List Nat := l.resets.filter fun t => decide (s.now < t + 86400000000000)

/-- `ASY_FUNC_f` follows the function's ladder: OUT, LADDER, DEGRADED or OK, and the resets of the 24 h window. -/
def State.funcSync (s : State) (f : Func) : State :=
  let l := s.ladder f
  let st := if l.out then 3 else if l.rung.isSome then 1 else if s.on (degBit f) then 2 else 0
  (s.set (ASY_FUNC_STATE f.num) st).set (ASY_FUNC_R3_COUNT f.num) (min 15 (recentResets s l).length)

/-- A function's FUNC_DEG bit clears when no degraded fault of it remains and no rung of its ladder runs (R492); an
exhausted function stays degraded (R429, R432). -/
def State.degSettle (s : State) (f : Func) : State :=
  let l := s.ladder f
  (s.when (!s.faultStands f && l.rung.isNone && !l.out && !l.noCycle) (·.down (degBit f))).funcSync f

/-! ### Replacement (R426) -/

/-- Assay requests replacement for a cause (R426): REPLACE_N, the status bit and the learned-data area, the log and the
shelf message. -/
def State.replace (s : State) (cause : Nat) : State :=
  let s := { s with asy.replaceNvm := some cause }
  let s := (s.up ASY_STATUS_REPLACE).up FLD_STATUS_REPLACE
  (s.evR .asy Ev.ASY_REPLACE [cause]).report 0x52 [cause]

/-! ### The safe state (R420 to R423) -/

/-- The active folio's safe level (R421). -/
def State.folioSafeLevel (s : State) : Nat :=
  match s.folio (s.f TOP_FOLIO_STAT_ACTIVE) with
  | some f => f.safeLevel.toNat
  | none => 0

/-- A safe level exists: the folio has been written and the outputs are under control (R421). -/
def State.safeLevelExists (s : State) : Bool := s.asy.armed && !s.cfg.noImage

/-- The safe outputs (R420 steps 2 to 4): safe duty and FAULT_N, the DALI broadcasts owed, SAFE_LEVEL frames. -/
def State.safeApply (s : State) : State :=
  let s := (s.set ASY_STATUS_SAFE_LEVEL s.folioSafeLevel).faultN true
  let s := (s.pwmSafe.logAt 2 .fld Ev.FLD_SAFE_APPLIED [s.folioSafeLevel]).daliSafe
  { (s.up SGM_STATUS_SAFE).set SGM_STATUS_LEVEL s.folioSafeLevel with
    asy.applied := true, sgm.safePend := true, sgm.safeLeft := 4 }

/-- Payload of a SAFE message (R441). -/
def State.safePayload (s : State) (enter : Bool) : List Nat :=
  [if enter then 0 else 1] ++ (natLe 2 (s.f ASY_CAUSE_CAUSE)).map (·.toNat) ++ [s.f ASY_STATUS_SAFE_LEVEL]

/-- A latent-fault test that runs is aborted; it stays due (R425). -/
def State.lftAbort (s : State) : State := s.down ASY_LFT_STAT_RUNNING

/-- The safe state begins (R420 step 1), with the outputs where a safe level exists, else FAULT_N alone (R421). -/
def State.safeBegin (s : State) : State :=
  let s := ((s.up ASY_STATUS_SAFE).bump ASY_CNT_SAFE_ENTRY).evR .asy Ev.ASY_SAFE_ENTER [s.f ASY_CAUSE_CAUSE]
  let s := if s.safeLevelExists then s.safeApply else { s.faultN true with asy.applied := false }
  s.report 0x51 (s.safePayload true)

/-- A cause of the safe state is set; the safe state begins unless it is in force (R420, R422). -/
def State.safeCause (s : State) (bit : Nat) : State :=
  let s := (s.up ⟨ASY_CAUSE_CAUSE.addr, bit, bit⟩).up ⟨ASY_CAUSE_SEEN_CAUSE.addr, bit, bit⟩
  let s := { s with asy.quietSince := none }
  let s := s.when (decide (bit ≠ 9)) State.lftAbort
  if s.safe then s else s.safeBegin

/-- A cause of the safe state is cleared; with none left the quiet time starts (R423). -/
def State.safeUncause (s : State) (bit : Nat) : State :=
  let was := s.f ASY_CAUSE_CAUSE
  let s := s.down ⟨ASY_CAUSE_CAUSE.addr, bit, bit⟩
  if s.safe && decide (was ≠ 0) && decide (s.f ASY_CAUSE_CAUSE = 0) then { s with asy.quietSince := some s.now } else s

/-- The quiet time CLEAR_S in ns; 0 acts as 1 s (R423). -/
def State.quietTime (s : State) : Nat := max 1 (s.f ASY_CFG_CLEAR_S) * 1000000000

/-- The safe state ends (R423): FAULT_N is released, the scheduled levels return on DALI, PWM and the sub-GHz sets, and
the end is logged and reported. -/
def State.safeEnd (s : State) : State :=
  let level := s.f ASY_STATUS_SAFE_LEVEL
  let s := { (s.down ASY_STATUS_SAFE).down SGM_STATUS_SAFE with
    asy.applied := false, asy.quietSince := none, sgm.safePend := false, sgm.safeLeft := 0 }
  let s := s.set SGM_STATUS_LEVEL 0
  let s := s.when (!s.cfg.noImage) (·.faultN false)
  let s := s.each (List.range 4) fun s p =>
    let s := s.set (FLD_PWM_DUTY p) (levelDuty (s.pwmO p).scheduled)
    let s := s.editPwm p fun o => { o with drive := if o.drive = .safe then .run else o.drive }
    s.editDali p fun d => { d with safePend := false, safeSending := false }
  let s := s.each (List.range 4) fun s p =>
    match s.fld.daliLevel.look p with
    | some l => s.when (s.on (FLD_DALI_CFG_EN p)) (·.daliLevel p l)
    | none => s
  let s := { s with sgm.groupCmds := s.sgm.groupCmds ++ s.fld.setLevel.map fun (e : Nat × Nat) => (2 ^ e.1, e.2) }
  let s := (s.set ASY_STATUS_SAFE_LEVEL 0).ev .asy Ev.ASY_SAFE_EXIT []
  s.report 0x51 [1, 0, 0, level]

/-! ### The recovery ladder (R428 to R432) -/

/-- The counter of a rung. -/
def rungCounter : Nat → Wide
  | 1 => ASY_CNT_RUNG1 | 2 => ASY_CNT_RUNG2 | 3 => ASY_CNT_RUNG3 | _ => ASY_CNT_RUNG4

/-- A rung is logged and counted (R429, R431). -/
def State.rungLog (s : State) (f : Func) (rung : Nat) (forced : Bool) : State :=
  let s := s.set (ASY_FUNC_RUNG f.num) rung
  (s.evR .asy Ev.ASY_RUNG [f.num, rung, s.f (ASY_FUNC_CAUSE f.num), forced.toNat]).bump (rungCounter rung)

/-- The ladder of a function stops running: its causes may clear, its degraded bit settles, and FORCE_RUNG is done. -/
def State.ladderStop (s : State) (f : Func) : State :=
  let s := s.editLadder f fun l => { l with rung := none, forced := false }
  s.degSettle f

/-- The function is exhausted: OUT, and replacement is requested (R429). -/
def State.rungExhaust (s : State) (f : Func) : State :=
  let s := s.editLadder f fun l => { l with rung := none, out := true }
  (s.replace (0x40 + f.num)).funcSync f

/-- Rung 4 is unavailable (R432): the host is asked for a power cycle, replacement is requested only where the second
need within 24 h is the reason, and the function stays degraded. A forced rung ends with LIMIT. -/
def State.rungNoCycle (s : State) (f : Func) (forced second : Bool) : State :=
  if forced then (s.editLadder f fun l => { l with rung := none, forced := false }).cmdError ASY_CMD_STATE.addr 4
  else
    let s := s.editLadder f fun l => { l with rung := none, noCycle := true }
    let s := s.when second (·.replace 0x80)
    ((s.report 0x53 [f.num])).funcSync f

/-- Rung 4 within any 24 h at most once (R432). -/
def State.rung4Spent (s : State) : Bool :=
  match s.asy.lastRung4 with
  | some t => decide (s.now < t + 86400000000000)
  | none => false

/-- A rung starts (R428, R429, R430). Rung 2 holds the function's units in reset; rung 3 is the warm device reset, shared
by the functions that need it; rung 4 records the ladder and the causes and asks the supply for a power cycle. -/
def State.rungStart (s : State) (f : Func) (rung : Nat) (forced : Bool) : State :=
  let l := s.ladder f
  let third := decide (rung = 3) && !forced && decide (2 ≤ (recentResets s l).length) && decide (f ≠ .dram)
  let rung := if third then 4 else if f = .dram then min rung 3 else rung
  let running (s : State) : State :=
    s.editLadder f fun l => { l with
      rung := some rung, forced := forced, since := s.now
      resets := if rung = 3 && !forced then s.now :: recentResets s l else l.resets }
  if 5 ≤ rung then s.rungExhaust f
  else if rung = 4 then
    if s.rung4Spent then s.rungNoCycle f forced true
    else if !s.on PWR_PMBUS_CFG_EN then s.rungNoCycle f forced false
    else
      let s := running (s.rungLog f 4 forced)
      let s := { s with
        asy.savedLadders := s.asy.ladders
        asy.savedCauses := s.f ASY_CAUSE_CAUSE
        asy.lastRung4 := if forced then s.asy.lastRung4 else some s.now }
      (s.powerCycleWrite (max 1 (s.f ASY_CFG_OFF_TIME))).funcSync f
  else
    let s := (running (s.rungLog f rung forced)).funcSync f
    if rung = 2 then
      s.each (funcUnits f) fun s u => (s.setReady u false).unitReset u
    else if rung = 3 then
      if s.cfg.warm && decide (s.cfg.stage < 10) then s else s.warmReset
    else s

/-- A fault asks for the ladder from a rung (R428, R429, R430): judged at full service while a warm reset runs; escalated
where it recurs within the window of the rung that ended last; without effect where a rung at least as high runs. -/
def State.climb (s : State) (f : Func) (entry : Nat) : State :=
  let l := s.ladder f
  if l.out then s
  else if s.cfg.warm && decide (s.cfg.stage < 10) then
    s.editLadder f fun l => { l with judge := some (max entry (l.judge.getD 0)) }
  else
    let rung := match l.window with
      | some (r, t) => if s.now < t then max entry (r + 1) else entry
      | none => entry
    match l.rung with
    | some r => if rung ≤ r then s else s.rungStart f rung false
    | none => s.rungStart f rung false

/-! ### Faults (R418) -/

/-- A temperature fault puts the device in STANDBY (critical) or REDUCED (high) (R421). -/
def State.tempAct (s : State) (m : Monitor) : State :=
  let target := if m = .tempCrit then 2 else 1
  let s := { s with asy.tempReturn := some (s.asy.tempReturn.getD (s.f PWR_STATE_STATE)) }
  if s.pwr.transition.isSome || decide (target ≤ s.f PWR_STATE_STATE) then s else s.beginTransition target

/-- A monitor reports a fault (R418): it is logged and told to the host; unless it is Info it degrades its function; a
dangerous one sets its cause of the safe state; and it climbs the ladder from its entry rung. -/
def State.asyFault (s : State) (m : Monitor) (owner : Func) : State :=
  let f := monitorFunc m owner
  if !s.monitors m then s
  else
    let cls := monitorClass m
    let s := s.evR .asy Ev.ASY_FAULT [m.row, f.num, cls.num]
    if cls = .info then s
    else
      let s := { s with asy.standing := Standing.mk m f :: s.asy.standing.filter fun x => decide (x ≠ Standing.mk m f) }
      let s := ((s.up (degBit f)).set (ASY_FUNC_CAUSE f.num) m.row).funcSync f
      let s := s.report 0x50 [f.num, m.row, cls.num, (monitorEntry m).getD 0]
      let s := s.when (decide (m = Monitor.hvWatchdog)) (·.up ASY_STATUS_HV_SAFE)
      let s := s.when (decide (m = Monitor.cipherTamper)) (·.replace m.row)
      let s := s.when (decide (m = Monitor.tempCrit) || decide (m = Monitor.tempHigh)) (·.tempAct m)
      let s := s.with? (causeBit m f) State.safeCause
      s.with? (monitorEntry m) fun s e => s.climb f e

/-- A cause clears when its condition is gone and its function's ladder has completed (R423). -/
def State.causeSettle (s : State) (f : Func) : State :=
  if (s.ladder f).rung.isSome then s
  else
    s.each [Monitor.refClock, .asyOsc, .aonRails, .tempCrit, .hbFldMtm, .lockstep, .asySram, .hvWatchdog] fun s m =>
      if decide (monitorFunc m f = f) && !s.asy.standing.contains (Standing.mk m f) then
        s.with? (causeBit m f) fun s b =>
          if s.on ⟨ASY_CAUSE_CAUSE.addr, b, b⟩ then s.safeUncause b else s
      else s

/-- A fault's condition is gone (R492): the end of a degraded fault without an entry rung is logged. -/
def State.asyFaultEnd (s : State) (m : Monitor) (owner : Func) : State :=
  let f := monitorFunc m owner
  if s.asy.standing.contains (Standing.mk m f) then
    let s := { s with asy.standing := s.asy.standing.filter fun x => decide (x ≠ Standing.mk m f) }
    let s := s.when (decide (monitorClass m = FaultClass.degraded) && (monitorEntry m).isNone) fun s =>
      s.evR .asy Ev.ASY_FAULT_END [m.row, f.num]
    (s.causeSettle f).degSettle f
  else s

/-- A rung of a function ends with the function back in service (R423, R428): its entry-rung faults are gone, the window
in which a recurrence escalates begins, its units are ready again, and its causes clear. -/
def State.rungEnd (s : State) (f : Func) : State :=
  match (s.ladder f).rung with
  | none => s
  | some r =>
    let forced := (s.ladder f).forced
    let window := if r = 2 then 10000000000 else if r = 3 then 60000000000 else if r = 4 then 600000000000 else 0
    let s := s.when (decide (r = 2)) fun s => s.each (funcUnits f) fun s u =>
      (match s.folio (s.f TOP_FOLIO_STAT_ACTIVE) with | some x => s.loadUnit u x | none => s).setReady u true
    let s := { s with asy.standing := s.asy.standing.filter fun x =>
      !(decide (x.func = f) && (monitorEntry x.monitor).isSome) }
    let s := s.editLadder f fun l => { l with
      rung := none, forced := false
      window := if forced then l.window else some (r, s.now + window) }
    let s := s.when (forced && decide (s.f ASY_CMD_STATE = 1)) (·.cmdDone ASY_CMD_STATE.addr)
    ((s.causeSettle f).degSettle f)

/-- At full service the shared warm reset ends the rung 3 of its functions, and the faults reported meanwhile are judged:
one whose condition persists is a recurrence (R428, R430). -/
def State.judgeLadders (s : State) : State :=
  s.each Func.all fun s f =>
    let l := s.ladder f
    let persists := l.judge.isSome && s.faultStands f
    let s := s.editLadder f fun l => { l with judge := none }
    let ends := match l.rung with | some r => decide (2 ≤ r) | none => false
    let s := if ends && !persists then s.rungEnd f else s
    if persists then
      match l.rung with
      | some r => s.rungStart f (r + 1) false
      | none => s.climb f (l.judge.getD 2)
    else s

/-! ### The latent-fault self-test (R424, R425) -/

/-- Every PWM output and DALI port in use is commanded to level 0 by the schedule (R424). -/
def State.daylight (s : State) : Bool :=
  (List.range 4).all fun p =>
    (!s.on (FLD_PWM_EN p) || decide ((s.pwmO p).scheduled = 0)) &&
    (!s.on (FLD_DALI_CFG_EN p) || decide (s.fld.daliLevel.look p = some 0))

/-- The self-test runs (R425). -/
def State.lftRun (s : State) : State := s.up ASY_LFT_STAT_RUNNING

/-- A SELFTEST alarm asks for the self-test: it runs while due in daylight, or overdue whatever the levels (R424). -/
def State.lftAsk (s : State) : State :=
  s.when (s.on ASY_STATUS_LFT_DUE && (s.daylight || s.on ASY_STATUS_LFT_OVERDUE)) State.lftRun

/-! ### Temperatures, heartbeats, watchdog -/

/-- The HV-die watchdog acts only while armed: the HV die holds the safe state by itself (R419). Where the safe outputs are
applied already they stay as they are, whatever folio is active by now (R82). -/
def State.hvExpire (s : State) : State :=
  if s.asy.watchdog && s.fld.hvLevel.isSome then
    let s := (s.up ASY_STATUS_HV_SAFE).when (!s.asy.applied) State.pwmSafe
    let s := (s.faultN true).daliSafe
    s.asyFault .hvWatchdog .assay
  else s

/-- Missed heartbeats that make a fault: 4 of 1 ms, or 3 of 10 ms for the firmware of the application cores (R417). -/
def missLimit (u : UnitId) : Nat := if u = .cpu then 3 else 4

/-- Assay counts no missed heartbeat for a unit whose domain sleeps or whose READY bit a ladder rung holds at 0 (R417). -/
def State.heartbeatWatched (s : State) (u : UnitId) : Bool :=
  s.asy.armed && (match unitDom u with | some d => decide (s.dom d = .up) | none => true) && s.ready u

/-! ### Meanings -/

/-- ASY_FAULT (R418): a monitor reports a fault. -/
def execAsyFault (monitor : Monitor) (func : Func) (s : State) : Host.Outcome State Fault Refusal :=
  .next (s.asyFault monitor func)

/-- ASY_FAULT_END (R492): the condition of a degraded fault without an entry rung is gone. -/
def execAsyFaultEnd (monitor : Monitor) (func : Func) (s : State) : Host.Outcome State Fault Refusal :=
  .next (s.asyFaultEnd monitor func)

/-- HEARTBEAT_TIMEOUT (R417): a unit's consecutive heartbeats have been missed; each is counted and a fault raised. -/
def execHeartbeatTimeout (u : UnitId) (s : State) : Host.Outcome State Fault Refusal :=
  .next <|
    if s.heartbeatWatched u then
      let s := s.bump ASY_CNT_HB_MISS (missLimit u)
      let m : Monitor := if u = .cpu then .appCore else if u = .fld || u = .mtm then .hbFldMtm else .hbOther
      s.asyFault m (unitFunc u)
    else s

/-- SAFE_QUIET_EXPIRE (R423): the quiet time has run; with AUTO_RELEASE the safe state ends. -/
def execSafeQuietExpire (s : State) : Host.Outcome State Fault Refusal :=
  .next <| match s.asy.quietSince with
    | some t =>
      let s := s.reach (t + s.quietTime)
      if s.safe && s.on ASY_CFG_AUTO_RELEASE then s.safeEnd else s
    | none => s

/-- The command register of Assay. -/
def asyCmd : CmdReg := ⟨ASY_CMD_STATE.addr, .asy, .operator⟩

/-- RELEASE (R423): ACTIVE while a cause other than MANUAL is set or the quiet time runs. With MANUAL alone it clears that
cause, and the quiet time starts (DEDUCED, log entry 15). -/
def State.asyReleaseOp (s : State) (req : Req) : State :=
  s.command asyCmd req fun s =>
    let causes := s.f ASY_CAUSE_CAUSE
    let quiet := match s.asy.quietSince with | some t => decide (s.now < t + s.quietTime) | none => false
    if !s.safe then s.cmdDone asyCmd.addr
    else if causes % 512 ≠ 0 || quiet then s.cmdError asyCmd.addr 2
    else if causes ≠ 0 then (s.safeUncause 9).cmdDone asyCmd.addr
    else s.safeEnd.cmdDone asyCmd.addr

/-- ENTER_SAFE (R423): the safe state with cause MANUAL. -/
def State.enterSafeOp (s : State) (req : Req) : State :=
  s.command asyCmd req fun s => (s.safeCause 9).cmdDone asyCmd.addr

/-- CLEAR_REPLACE (R426): the only end of a replacement request. -/
def State.clearReplaceOp (s : State) (req : Req) : State :=
  s.command asyCmd req fun s =>
    (({ s with asy.replaceNvm := none }.down ASY_STATUS_REPLACE).down FLD_STATUS_REPLACE).cmdDone asyCmd.addr

/-- LFT_NOW (R424): the self-test at once. -/
def State.lftNowOp (s : State) (req : Req) : State :=
  s.command asyCmd req fun s => s.lftRun.cmdDone asyCmd.addr

/-- FORCE_RUNG (R431): a rung of a function, logged with FORCED, advancing no count. DONE when the rung ends; LIMIT where
rung 4 is unavailable; INVALID for a number that names no function. -/
def State.forceRungOp (s : State) (req : Req) (func rung : Nat) : State :=
  s.command asyCmd req fun s =>
    match Func.all[func]? with
    | none => s.cmdError asyCmd.addr 3
    | some f =>
      let s := s.cmdIs asyCmd.addr 1 0
      match (s.ladder f).rung with
      | some r => if rung + 1 ≤ r then (s.rungLog f (rung + 1) true).cmdDone asyCmd.addr else s.rungStart f (rung + 1) true
      | none => s.rungStart f (rung + 1) true

/-- ASY_RELEASE (R423). -/
def execAsyRelease (req : Req) (s : State) : Host.Outcome State Fault Refusal := .next (s.asyReleaseOp req)

/-- ENTER_SAFE (R423). -/
def execEnterSafe (req : Req) (s : State) : Host.Outcome State Fault Refusal := .next (s.enterSafeOp req)

/-- CLEAR_REPLACE (R426). -/
def execClearReplace (req : Req) (s : State) : Host.Outcome State Fault Refusal := .next (s.clearReplaceOp req)

/-- LFT_NOW (R424). -/
def execLftNow (req : Req) (s : State) : Host.Outcome State Fault Refusal := .next (s.lftNowOp req)

/-- FORCE_RUNG (R431). -/
def execForceRung (req : Req) (func : BitVec 4) (rung : BitVec 2) (s : State) : Host.Outcome State Fault Refusal :=
  .next (s.forceRungOp req func.toNat rung.toNat)

/-- HV_WATCHDOG_EXPIRE (R419): no restart of the watchdog for 5 ms. -/
def execHvWatchdogExpire (s : State) : Host.Outcome State Fault Refusal := .next s.hvExpire

/-- The limit of a rung in ns (R428): 1 ms, 50 ms, 2.5 s; the off time and start-up for rung 4. -/
def State.rungLimit (s : State) (r : Nat) : Nat :=
  if r = 1 then 1000000 else if r = 2 then 50000000 else if r = 3 then 2500000000
  else max 1 (s.f ASY_CFG_OFF_TIME) * 100000000 + 2500000000

/-- RUNG_TIMEOUT (R428, R429): a rung's limit runs out without recovery and the function escalates; a forced rung only
ends (R431), and DRAM stays at rung 3. -/
def execRungTimeout (func : Func) (s : State) : Host.Outcome State Fault Refusal :=
  .next <| match (s.ladder func).rung with
    | none => s
    | some r =>
      let s := s.reach ((s.ladder func).since + s.rungLimit r)
      if (s.ladder func).forced then
        (s.ladderStop func).when (decide (s.f ASY_CMD_STATE = 1)) (·.cmdDone asyCmd.addr)
      else if func = .dram && decide (3 ≤ r) then s.ladderStop func
      else if r = 4 then s.rungExhaust func
      else s.rungStart func (r + 1) false

/-- RUNG_COMPLETE (R428, R423): a rung ends with its function back in service. -/
def execRungComplete (func : Func) (s : State) : Host.Outcome State Fault Refusal := .next (s.rungEnd func)

/-- LFT_DUE (R424): 86,400 s of LT since the last completion. -/
def execLftDue (s : State) : Host.Outcome State Fault Refusal :=
  .next <|
    if s.on ASY_STATUS_LFT_DUE then s
    else
      let last := s.w ASY_LFT_LT_LT
      let s := s.advance (last + 86400000000000 - s.lt)
      { s.up ASY_STATUS_LFT_DUE with asy.lftDueAt := some s.now }

/-- ASY_LFT_OVERDUE (R424): 24 h after it became due the test has still not run. -/
def execAsyLftOverdue (s : State) : Host.Outcome State Fault Refusal :=
  .next <| match s.asy.lftDueAt with
    | some t =>
      if s.on ASY_STATUS_LFT_DUE && !s.on ASY_STATUS_LFT_OVERDUE then
        ((s.reach (t + 86400000000000)).up ASY_STATUS_LFT_OVERDUE).ev .asy Ev.ASY_LFT_OVERDUE
      else s
    | none => s

/-- LFT_COMPLETE (R425): the running self-test ends with its failed items; a failed item requests replacement. -/
def execLftComplete (fail : BitVec 11) (s : State) : Host.Outcome State Fault Refusal :=
  .next <|
    if s.on ASY_LFT_STAT_RUNNING then
      let s := (s.down ASY_LFT_STAT_RUNNING).set ASY_LFT_STAT_FAIL fail.toNat
      let s := (s.put ASY_LFT_STAT_PASS (decide (fail = 0))).setW ASY_LFT_LT_LT s.lt
      let s := ((s.down ASY_STATUS_LFT_DUE).down ASY_STATUS_LFT_OVERDUE).bump ASY_CNT_LFT_RUN
      let s := { s with asy.lftDueAt := none }
      s.when (decide (fail ≠ 0)) fun s =>
        ((s.bump ASY_CNT_LFT_FAIL).ev .asy Ev.ASY_LFT_FAIL [fail.toNat]).replace 0x20
    else s

/-- TEMP_RECOVERED (R421): every sensor below the Tj maximum for 60 s. The temperature faults end, and the device
returns to the state that they left. -/
def execTempRecovered (s : State) : Host.Outcome State Fault Refusal :=
  .next <| match s.asy.tempReturn with
    | none => s
    | some back =>
      let s := (s.asyFaultEnd .tempCrit .power).asyFaultEnd .tempHigh .power
      let s := { s with asy.tempReturn := none }
      if s.pwr.transition.isSome || decide (back = s.f PWR_STATE_STATE) then s else s.beginTransition back

end Sys2Proof.Machine
end

