-- ==== Sys2Proof/Machine/Flags.lean ====
section
/-! DEFINITION. The block has no arithmetic flags: what a Bodkin comparison finds is an entry of the operand stack, 1 or 0
(R383, R384). -/

namespace Sys2Proof.Machine

/-- The entry that a comparison pushes. -/
def truth (b : Bool) : Word := if b then 1 else 0

/-- Zero: the condition of BR 1. -/
def isZero (w : Word) : Bool := decide (w = 0)

/-- Less, as signed numbers (LT, LTI). -/
def lessS (a b : Word) : Bool := decide (a.toInt < b.toInt)

/-- Less, as unsigned numbers (LTU, LTUI). -/
def lessU (a b : Word) : Bool := decide (a.toNat < b.toNat)

end Sys2Proof.Machine
end

