-- ==== Sys2Proof/Machine/WgcCode.lean ====
section
/-! DEFINITION. The word guard code itself (R102, R103): the Reed-Solomon code over GF(2⁸), its encoder and its decoder. -/

namespace Sys2Proof.Machine

/-- Multiplication by α = 0x02 in GF(2⁸) with p(x) = 0x11D. -/
def gfX (a : Nat) : Nat := if a < 128 then 2 * a else Nat.xor (2 * a) 0x11D

/-- The product in GF(2⁸), by `n` steps over the bits of `b`. -/
def gfMulAux : Nat → Nat → Nat → Nat
  | 0, _, _ => 0
  | n + 1, a, b => Nat.xor (if b % 2 = 1 then a else 0) (gfMulAux n (gfX a) (b / 2))

/-- The product in GF(2⁸). -/
def gfMul (a b : Nat) : Nat := gfMulAux 8 a b

/-- α to the power n. -/
def gfPow : Nat → Nat
  | 0 => 1
  | n + 1 => gfX (gfPow n)

/-- One step of the division by g(x): the remainder c0 to c3 after one more data byte. -/
def wgcStep (r : Nat × Nat × Nat × Nat) (d : Nat) : Nat × Nat × Nat × Nat :=
  let (c0, c1, c2, c3) := r
  let f := Nat.xor c0 d
  (Nat.xor c1 (gfMul f 0x0F), Nat.xor c2 (gfMul f 0x36), Nat.xor c3 (gfMul f 0x78), gfMul f 0x40)

/-- The check bytes c0 to c3 of a word's data bytes. -/
def wgcCheck (data : List Byte) : List Byte :=
  let (c0, c1, c2, c3) := data.foldl (fun r b => wgcStep r b.toNat) (0, 0, 0, 0)
  [c0, c1, c2, c3].map (BitVec.ofNat 8)

/-- The 36-byte codeword of a word, its data padded with 0x00 to 32 bytes (R93). -/
def wgcEncode (data : List Byte) : List Byte :=
  let d := data.take 32 ++ List.replicate (32 - data.length) 0
  d ++ wgcCheck d

/-- Syndrome S_k: the codeword's polynomial at α^k, byte 0 being the highest coefficient. -/
def wgcSyndrome (cw : List Byte) (k : Nat) : Nat :=
  cw.foldl (fun acc b => Nat.xor (gfMul acc (gfPow k)) b.toNat) 0

/-- What a decoder finds. -/
inductive WgcResult where
  /-- Every syndrome is 0. -/
  | correct
  /-- Codeword byte `pos` is corrected by XORing `flip` into it. -/
  | corrected (pos flip : Nat)
  | uncorrectable
  deriving DecidableEq, Repr

/-- The decoder of R103. -/
def wgcDecode (cw : List Byte) : WgcResult :=
  let s0 := wgcSyndrome cw 0
  let s1 := wgcSyndrome cw 1
  let s2 := wgcSyndrome cw 2
  let s3 := wgcSyndrome cw 3
  if s0 = 0 ∧ s1 = 0 ∧ s2 = 0 ∧ s3 = 0 then .correct
  else if s0 = 0 then .uncorrectable
  else
    match (List.range 36).find? fun p =>
      let x := gfPow p
      decide (s1 = gfMul s0 x) && decide (s2 = gfMul s1 x) && decide (s3 = gfMul s2 x) with
    | some p => .corrected (35 - p) s0
    | none => .uncorrectable

/-- A codeword as it is read: the stored one with its upsets. -/
def upsetWord (cw : List Byte) (u : List Upset) : List Byte :=
  u.foldl (fun l x => editAt l x.pos.val (fun b => b ^^^ x.flip)) cw

/-- The data bytes of a codeword after a correction. -/
def wgcData (cw : List Byte) : WgcResult → List Byte
  | .corrected p f => (editAt cw p (fun b => b ^^^ BitVec.ofNat 8 f)).take 32
  | _ => cw.take 32

end Sys2Proof.Machine
end

