-- ==== Sys2Proof/Machine/Dram.lean ====
section
/-! DEFINITION. The cells of DRAM (R358, R359): where an address lies, and the memory that holds data rows, check rows and training
rows alike. A cell is kept under the address that the mapping of R359 gives its place: a data byte under its DRAM address, a byte of the
check rows and the training rows above the last of those. -/

namespace Sys2Proof.Machine

/-- The first address past the data rows. -/
def dramLimit : Nat := 0x1C7000000

/-- The physical location of an address (R359). -/
def dramChannel (a : Nat) : Nat := Nat.xor (Nat.xor (a / 2 ^ 8 % 4) (a / 2 ^ 18 % 4)) (a / 2 ^ 26 % 4)
def dramSub (a : Nat) : Nat := Nat.xor (a / 2 ^ 10 % 2) (a / 2 ^ 20 % 2)
def dramBank (a : Nat) : Nat := Nat.xor (a / 2 ^ 14 % 16) (a / 2 ^ 21 % 16)
def dramRow (a : Nat) : Nat := a / 262144
/-- The block in its row, and the word in its block. -/
def dramBlock (a : Nat) : Nat := a / 2 ^ 11 % 8
def dramWordOf (a : Nat) : Nat := a / 2 ^ 5 % 8

/-- A cell's place: one of 4 channels of 2 subchannels of 16 banks of 32,768 rows of 2 KiB (R358). -/
structure DramLoc where
  channel : Nat
  sub : Nat
  bank : Nat
  row : Nat
  /-- The byte in the row. -/
  byte : Nat
  deriving DecidableEq, Repr

/-- The bank group of a place: bank [3:2]. -/
def DramLoc.group (p : DramLoc) : Nat := p.bank / 4

/-- The place of an address. -/
def dramLoc (a : Nat) : DramLoc :=
  { channel := dramChannel a, sub := dramSub a, bank := dramBank a, row := dramRow a, byte := dramBlock a * 256 + a % 256 }

/-- The address of a place. -/
def DramLoc.addr (p : DramLoc) : Nat :=
  p.row * 2 ^ 18 + Nat.xor p.bank (p.row / 8 % 16) * 2 ^ 14 + p.byte / 256 * 2 ^ 11 + Nat.xor p.sub (p.row / 4 % 2) * 2 ^ 10 +
    Nat.xor (Nat.xor p.channel (p.row % 4)) (p.row / 256 % 4) * 2 ^ 8 + p.byte % 256

/-- The first row of check bytes, and of the training patterns (R358). -/
def checkRow : Nat := 29120
def trainRow : Nat := 32760

/-- The place of a word's 4 check bytes: in the burst of its block, which lies in the same bank and subchannel (R359). -/
def checkLoc (a : Nat) : DramLoc :=
  { dramLoc a with
    row := checkRow + dramRow a / 8, byte := dramRow a % 8 * 256 + dramBlock a * 32 + dramWordOf a * 4 }

/-- The address of a word's check bytes. -/
def checkAddr (a : Nat) : Nat := (checkLoc a).addr

/-- The words that hold some of `n` bytes from an address. -/
def dramWords (a n : Nat) : List Nat := if n = 0 then [] else (List.range ((a % 32 + n + 31) / 32)).map fun i => a / 32 * 32 + 32 * i

/-- The codeword of the word at an address as it is stored: its data and its check bytes. -/
def Memory.codeword (m : Memory) (a : Nat) : List Byte := m.bytes a 32 ++ m.bytes (checkAddr a) 4

/-- The check bytes of a word are written for its data (R87, R102). -/
def Memory.setCheck (m : Memory) (a : Nat) : Memory := m.setBytes (checkAddr a) (wgcCheck (m.bytes a 32))

/-- Data bytes written, and the check bytes of the words they lie in (R359, R360). -/
def Memory.setDram (m : Memory) (a : Nat) (l : List Byte) : Memory :=
  (dramWords a l.length).foldl Memory.setCheck (m.setBytes a l)

end Sys2Proof.Machine
end

