-- ==== Sys2Proof/Machine/MemOps.lean ====
section
/-! DEFINITION. The data address space (R373): shared SRAM and DRAM. -/

namespace Sys2Proof.Machine

/-- A range of the data address space that lies in the shared SRAM, by its offset. -/
def inShared (a n : Nat) : Bool := decide (0x20000000 ≤ a) && decide (a + n ≤ 0x20800000)

/-- A range that lies in DRAM, by its data address. -/
def inDram (a n : Nat) : Bool := decide (0x100000000 ≤ a) && decide (a + n ≤ 0x2C7000000)

/-- DRAM can be accessed: DRC is ready and not frozen (R370, R373). -/
def State.dramUp (s : State) : Bool := s.ready .drc && !s.on DRC_STATUS_FROZEN

/-- A 32-byte word of the shared SRAM within a range is uncorrectable (R109; SOURCE 1 of CPU). -/
def State.sharedBad (s : State) (o n : Nat) : Bool :=
  s.bad.any fun (b : UnitId × Nat × Nat) =>
    decide (b.1 = .cpu ∧ b.2.1 = 1) && decide (b.2.2 * 32 < o + n) && decide (o < b.2.2 * 32 + 32)

/-- A write that covers an uncorrectable word of the shared SRAM makes it good. -/
def State.sharedPut (s : State) (o : Nat) (l : List Byte) : State :=
  { s with
    shared := s.shared.setBytes o l
    bad := s.bad.filter fun (b : UnitId × Nat × Nat) =>
      !(decide (b.1 = .cpu ∧ b.2.1 = 1) && decide (o ≤ b.2.2 * 32) && decide (b.2.2 * 32 + 32 ≤ o + l.length)) }

/-- The bytes at a data address; none where it is unmapped, uncorrectable, or in DRAM while that is frozen. -/
def State.dataRead (s : State) (a n : Nat) : Option (List Byte) :=
  if n = 0 then some []
  else if inShared a n then
    if s.sharedBad (a - 0x20000000) n then none else some (s.shared.bytes (a - 0x20000000) n)
  else if inDram a n && s.dramUp then some (s.dram.bytes (a - 0x100000000) n)
  else none

/-- Bytes written at a data address; none where they cannot be. -/
def State.dataWrite (s : State) (a : Nat) (l : List Byte) : Option State :=
  if l = [] then some s
  else if inShared a l.length then some (s.sharedPut (a - 0x20000000) l)
  else if inDram a l.length && s.dramUp then some { s with dram := s.dram.setDram (a - 0x100000000) l }
  else none

end Sys2Proof.Machine
end

