-- ==== Sys2Proof/Machine/DrcOps.lean ====
section
/-! DEFINITION. The requests of the DRAM controller (spec/15): the queues of a channel. -/

namespace Sys2Proof.Machine

/-! ### Channels -/

/-- A channel, and one changed. -/
def State.drcCh (s : State) (c : Nat) : DrcCh := s.drc.chans.lookD c {}
def State.editCh (s : State) (c : Nat) (f : DrcCh → DrcCh) : State := { s with drc.chans := s.drc.chans.put c (f (s.drcCh c)) }

/-- A request completes. -/
def State.drcEnd (s : State) (r : DrcReq) (ok : Bool) (data : List Byte) : State :=
  { s with drc.done := { id := r.id, source := r.source, ok := ok, data := data } :: s.drc.done }

/-! ### The queues (R360 to R362) -/

/-- A request stands in its channel's queue; true where the write queue has an entry for it. -/
def State.drcPlace (s : State) (c : Nat) (r : DrcReq) : State × Bool :=
  if r.data.isNone then (s.editCh c fun k => { k with reads := k.reads ++ [r] }, true)
  else if 64 ≤ (s.drcCh c).writes.length then (s, false)
  else
    (s.editCh c fun k =>
      let w := k.writes ++ [r]
      if 48 ≤ w.length ∧ !k.drain then { k with writes := w, drain := true, batch := 0, gapUsed := true } else { k with writes := w },
     true)

/-- A part of a request is queued at its channel; behind a stall of its source it waits. -/
def State.drcQueue (s : State) (r : DrcReq) : State :=
  let c := dramChannel r.addr
  let behind := (List.range 4).any fun n => (s.drcCh n).stalled.any fun k => decide (k.source = r.source)
  let stall (s : State) : State := s.editCh c fun k => { k with stalled := k.stalled ++ [r] }
  if behind then stall s
  else match s.drcPlace c r with
  | (s, true) => s
  | (s, false) => (stall s).bump DRC_CNT_WQ_FULL

/-- The parts of a request, one per block of 256 bytes. -/
def drcParts (r : DrcReq) : List DrcReq :=
  let n := min r.words (8 - r.addr / 32 % 8)
  let p : DrcReq := { r with words := n, data := r.data.map (·.take (32 * n)) }
  if n = r.words then [p]
  else [p, { r with addr := r.addr + 32 * n, words := r.words - n, data := r.data.map (·.drop (32 * n)) }]

/-- A request of a source for whole words: an address error, an error while the controller is frozen or not trained, or the
queue of its class (R360, R361). -/
def State.drcAsk (s : State) (source addr words : Nat) (data : Option (List Byte)) : State :=
  let r : DrcReq := { id := s.drc.next, source := source, cls := s.f (DRC_SRC_CLASS source), addr := addr, words := words
                      data := data.map fun d => (d ++ List.replicate (32 * words) 0).take (32 * words), since := s.now }
  let s := { s with drc.next := s.drc.next + 1 }
  if dramLimit < addr + 32 * words then (s.ev .drc Ev.DRC_BAD_ADDR [source, addr]).drcEnd r false []
  else if !s.dramUp then s.drcEnd r false []
  else s.each (drcParts r) State.drcQueue

end Sys2Proof.Machine
end

