-- ==== Sys2Proof/Machine/Wgc.lean ====
section
/-! DEFINITION. The word guard code (R104 to R111): how a unit counts and reports what its decoder finds. -/

namespace Sys2Proof.Machine

/-! ### Counting (R105, R110, R111) -/

/-- The offset of a unit's WGC block. -/
def wgcOffset : UnitId → Nat
  | .pkb => 0x200 | .ple => 0x500 | _ => 0x400

/-- Whether a unit has a WGC block. -/
def wgcHas (u : UnitId) : Bool := !([UnitId.top, .mtm, .pwr, .cfg, .hif].contains u)

/-- The LAST and LAST_ADDR registers of a unit's WGC block. -/
def State.wgcLast (s : State) (u : UnitId) (unc : Bool) (pos source addr : Nat) : State :=
  let b := u.base + wgcOffset u
  (s.wr (b + 0x10) (BitVec.ofNat 32 (2 ^ 31 + unc.toNat * 2 ^ 30 + pos % 64 * 2 ^ 24 + source % 16 * 2 ^ 20))).wr (b + 0x14)
    (BitVec.ofNat 32 addr)

/-- A unit's decoder has corrected a word. -/
def State.wgcCorr (s : State) (u : UnitId) (source pos addr : Nat) : State :=
  let c : Wide := ⟨u.base + wgcOffset u, 48⟩
  let s := ((s.setW c (s.w c + 1)).wgcLast u false pos source addr).prfCount u 3 none 1
  { s with wgc.count := s.wgc.count.put u.num (s.wgc.count.lookD u.num 0 + 1) }

/-- A unit's decoder has found an uncorrectable word: counted, logged at most once per 1 ms with the number left unlogged,
and reported to Assay, which counts the reports of each unit and to which one in its own SRAM is a dangerous fault. -/
def State.wgcUncorr (s : State) (u : UnitId) (source addr : Nat) : State :=
  let c : Wide := ⟨u.base + wgcOffset u + 8, 48⟩
  let s := ((s.setW c (s.w c + 1)).wgcLast u true 63 source addr).prfCount u 4 none 1
  let s := s.set ⟨u.base + wgcOffset u + 0x1C, 1, 1⟩ 1
  let quiet := match s.wgc.logged.look u.num with | some t => decide (s.now < t + 1000000) | none => false
  let missed := s.wgc.unlogged.lookD u.num 0
  let s :=
    if quiet then { s with wgc.unlogged := s.wgc.unlogged.put u.num (missed + 1) }
    else
      let s := s.ev u Ev.WGC_UNCORR [source, addr, missed]
      { s with wgc.logged := s.wgc.logged.put u.num s.now, wgc.unlogged := s.wgc.unlogged.put u.num 0 }
  let s := { s with asy.reports := s.asy.reports.put u.num (s.asy.reports.lookD u.num 0 + 1) }
  s.when (decide (u = UnitId.asy)) (·.asyFault .asySram .assay)

/-- A table SRAM word is read with upsets (R105, R106, R109): a single-byte error is corrected and written back; an
uncorrectable word makes its entry absent. What the decoder does depends on the upsets alone (the code is linear), so they
are decoded on the all-zero word. -/
def State.tableRead (s : State) (u : UnitId) (source index : Nat) (upset : List Upset) : State :=
  if !wgcHas u then s else
  match wgcDecode (upsetWord (wgcEncode []) upset) with
  | .correct => s
  | .corrected p _ => s.wgcCorr u source p index
  | .uncorrectable => { s.wgcUncorr u source index with bad := (u, source, index) :: s.bad }

/-- WGC_RATE_WINDOW_END: a unit's one-second window closes; more corrections than THR, where that is not 0, are a rate
fault (R110). -/
def execWgcRateWindowEnd (u : UnitId) (s : State) : Host.Outcome State Fault Refusal :=
  .next <| if !wgcHas u then s else
    let s := s.reach (s.wgc.opens.lookD u.num 0 + 1000000000)
    let n := s.wgc.count.lookD u.num 0
    let thr := (s.rd (u.base + wgcOffset u + 0x18)).toNat
    let s := { s with wgc.count := s.wgc.count.put u.num 0, wgc.opens := s.wgc.opens.put u.num s.now }
    s.when (decide (thr ≠ 0) && decide (thr < n)) fun s =>
      (s.set ⟨u.base + wgcOffset u + 0x1C, 0, 0⟩ 1).asyFault .wgcRate (unitFunc u)

end Sys2Proof.Machine
end

