-- ==== Sys2Proof/Machine/Drc.lean ====
section
/-! DEFINITION. The DRAM controller (spec/15): requests and their order, training and temper passes, refresh, and the
freeze. -/

namespace Sys2Proof.Machine

/-! ### Channels -/

/-- `OWED0` and `OWED1` follow the refreshes owed. -/
def State.owedSync (s : State) (c : Nat) : State :=
  (s.set (DRC_CH_STAT_OWED0 c) (s.drcCh c).owed0.length).set (DRC_CH_STAT_OWED1 c) (s.drcCh c).owed1.length

/-- A channel is in full retraining. -/
def State.retraining (s : State) (c : Nat) : Bool := (s.f DRC_STATUS_RETRAINING).testBit c

/-! ### Freeze (R369 to R371) -/

/-- Assay's part (R371): the first freeze of a 24-hour window waits HOLD for its warm reset, unless it is a retraining
failure; a second one, or such a failure, requests replacement. -/
def State.freezeJudge (s : State) (retrain : Bool) : State :=
  let second := s.asy.freezes.any fun t => decide (s.now < t + 86400000000000)
  let s := { s with asy.freezes := if second then s.asy.freezes else [s.now], asy.freezeHold := none }
  if second || retrain then s.replace Monitor.dramFreeze.row
  else { s with asy.freezeHold := if s.f DRC_FREEZE_CFG_HOLD = 0 then none else some s.now }

/-- The registers of a freeze: the failing word's source, class and place; without one they are free values. -/
def State.freezeCapture (s : State) (cause : Nat) (word : Option (Nat × Nat × Nat)) (syn : Option Nat) : State :=
  let x := s.free .freezeCapture
  let s := if word.isSome && syn.isSome then s else s.drawn
  let (source, cls, addr) := word.getD (x % 32, x / 32 % 4, x / 128 % dramLimit)
  let w := 2 ^ (29 + cause) + source % 32 * 2 ^ 24 + cls % 4 * 2 ^ 22 + dramChannel addr * 2 ^ 20 + dramSub addr * 2 ^ 19 +
    dramBank addr * 2 ^ 15 + dramRow addr % 2 ^ 15
  let s := (s.wr DRC_FREEZE_CAUSE_CAUSE.addr (BitVec.ofNat 32 w)).setW DRC_FREEZE_LT_LT s.lt
  let s := (s.setW DRC_FREEZE_ADDR_ADDR (addr / 32 * 32)).set DRC_FREEZE_SYN_SYN (syn.getD (x / 2 ^ 64))
  s.each (List.range 4) fun s c =>
    let k := s.drcCh c
    let v := s.free .readCentre
    let s := ((s.drawn.set (DRC_FREEZE_Q_READS c) (min 255 k.reads.length)).set (DRC_FREEZE_Q_WRITES c) (min 255 k.writes.length))
    (s.set (DRC_FREEZE_Q_GUARD_STEPS c) v).put (DRC_FREEZE_Q_DRAINING c) k.drain

/-- The controller freezes: cause 0 DATA, 1 COMMAND, 2 RETRAIN. Conditions of one instant are one freeze. -/
def State.drcFreeze (s : State) (cause : Nat) (word : Option (Nat × Nat × Nat)) (syn : Option Nat) : State :=
  if s.on DRC_STATUS_FROZEN then
    s.when (decide (s.w DRC_FREEZE_LT_LT = s.lt)) fun s =>
      s.set DRC_FREEZE_CAUSE_CAUSE (Nat.lor (s.f DRC_FREEZE_CAUSE_CAUSE) (2 ^ cause))
  else
    let s := (s.freezeCapture cause word syn).up DRC_STATUS_FROZEN
    let gone := (List.range 4).flatMap fun c => (s.drcCh c).reads ++ (s.drcCh c).writes ++ (s.drcCh c).stalled
    let s := s.each gone fun s r => s.drcEnd r false []
    let s := s.each (List.range 4) fun s c =>
      s.editCh c fun k => { k with reads := [], writes := [], stalled := [], drain := false, retrain := false }
    let s := (s.set DRC_STATUS_RETRAINING 0).setReady .drc false
    let s := s.when (decide (s.f DRC_CMD_STATE = 1)) (·.cmdError DRC_CMD_STATE.addr (if cause = 2 then 3 else 2))
    let s := s.ev .drc Ev.DRC_FREEZE [cause, s.f DRC_FREEZE_CAUSE_SOURCE, s.w DRC_FREEZE_ADDR_ADDR]
    (s.asyFault .dramFreeze .dram).freezeJudge (decide (cause = 2))

/-- FREEZE_HOLD_EXPIRE: HOLD seconds after a first freeze the warm reset runs, rung 3 of DRAM. -/
def execFreezeHoldExpire (s : State) : Host.Outcome State Fault Refusal :=
  .next <| s.with? s.asy.freezeHold fun s t =>
    if !s.on DRC_STATUS_FROZEN then { s with asy.freezeHold := none }
    else { s.reach (t + s.f DRC_FREEZE_CFG_HOLD * 1000000000) with asy.freezeHold := none }.rungStart .dram 3 false

/-- DIE_ERROR_FLAG: a die of a subchannel; no request fails. -/
def execDieErrorFlag (channel : BitVec 2) (sub : Bool) (s : State) : Host.Outcome State Fault Refusal :=
  .next <| s.datapath .drc fun s =>
    if s.on DRC_STATUS_FROZEN && decide (s.w DRC_FREEZE_LT_LT ≠ s.lt) then s
    else
      let first := !s.on DRC_STATUS_FROZEN
      (s.drcFreeze 1 none none).when first fun s =>
        (s.set DRC_FREEZE_CAUSE_CHANNEL channel.toNat).put DRC_FREEZE_CAUSE_SUB sub

/-! ### Requests and their order (R360 to R362) -/

/-- The place of a request in the order of service: SAFETY, then the aged ones, then by class; oldest first in each (R361). -/
def drcRank (r : DrcReq) : Nat := if r.cls = 0 then 0 else if r.aged then 1 else 1 + r.cls

/-- The request that is served first. -/
def drcFirst (l : List DrcReq) : Option DrcReq :=
  l.foldl (fun (m : Option DrcReq) r => match m with
    | none => some r
    | some k => if drcRank r < drcRank k ∨ (drcRank r = drcRank k ∧ r.id < k.id) then some r else some k) none

/-- Requests with no earlier one of their source in a list: a source's requests keep their order (R362). -/
def drcHeads (l before : List DrcReq) : List DrcReq :=
  l.filter fun r => !(before.any fun k => decide (k.source = r.source ∧ k.id < r.id))

/-- The next read of a channel: in a drain only a SAFETY or an aged one, between two batches. -/
def State.nextRead (s : State) (c : Nat) : Option DrcReq :=
  let k := s.drcCh c
  if s.retraining c then none
  else
    let r := drcFirst (drcHeads k.reads k.reads)
    if k.drain then (if k.batch = 0 ∧ !k.gapUsed then r.filter fun r => decide (r.cls = 0) || r.aged else none) else r

/-- The next write of a channel: in a drain, or where no read is eligible. -/
def State.nextWrite (s : State) (c : Nat) : Option DrcReq :=
  let k := s.drcCh c
  if s.retraining c then none
  else if k.drain || (s.nextRead c).isNone then drcFirst (drcHeads k.writes (k.reads ++ k.writes))
  else none

/-- DRAM_REQUEST: an address error, an error while the controller is frozen or not trained, or the queue of its class. -/
def execDramRequest (source : BitVec 5) (addr : BitVec 33) (words : BitVec 5) (data : Option (List (BitVec 8))) (s : State) :
    Host.Outcome State Fault Refusal :=
  .next <| s.datapath .drc fun s =>
    s.drcAsk source.toNat (addr.toNat / 32 * 32) (max 1 words.toNat) data

/-- REQUEST_AGED: the channel's oldest request that is not aged has waited AGE. -/
def execRequestAged (channel : BitVec 2) (s : State) : Host.Outcome State Fault Refusal :=
  .next <| s.datapath .drc fun s =>
    let c := channel.toNat
    let k := s.drcCh c
    let l := (k.reads ++ k.writes).filter fun r => !r.aged
    s.with? (l.foldl (fun (m : Option DrcReq) r => match m with
      | none => some r
      | some x => if r.since < x.since then some r else some x) none) fun s r =>
        let mark (x : DrcReq) : DrcReq := if x.id = r.id then { x with aged := true } else x
        (s.reach (r.since + 8 * max 1 (s.f DRC_CTL_AGE))).editCh c fun k =>
          { k with reads := k.reads.map mark, writes := k.writes.map mark }

/-- A word of a request, by its address, in the data of a write. -/
def drcWord (w : DrcReq) (a : Nat) : Option (List Byte) :=
  if w.addr ≤ a ∧ a < w.addr + 32 * w.words then w.data.map fun d => (d.drop (a - w.addr)).take 32 else none

/-- The newest queued data of a word from a source, before a request. -/
def forwardOf (l : List DrcReq) (source id a : Nat) : Option (List Byte) :=
  ((l.filter fun w => decide (w.source = source ∧ w.id < id)).filterMap (drcWord · a)).getLast?

/-- The address is queued for writing. -/
def State.wordQueued (s : State) (a : Nat) : Bool := (s.drcCh (dramChannel a)).writes.any fun w => (drcWord w a).isSome

/-- A corrected word: counted, and written back under source 19 unless a write of it is queued (R363). -/
def State.drcCorrect (s : State) (a pos : Nat) (data : List Byte) : State :=
  let s := s.wgcCorr .drc 0 pos (a / 32)
  if s.wordQueued a then s
  else
    let r : DrcReq := { id := s.drc.next, source := 19, cls := s.f (DRC_SRC_CLASS 19), addr := a, words := 1, data := some data
                        since := s.now }
    ({ s with drc.next := s.drc.next + 1 } : State).drcQueue r

/-- A stored word is read with upsets: its data, corrected where it can be; none where the controller has frozen on it. -/
def State.drcDecode (s : State) (source cls a : Nat) (upset : List Upset) : State × Option (List Byte) :=
  let cw := upsetWord (s.dram.codeword a) upset
  match wgcDecode cw with
  | .correct => (s, some (cw.take 32))
  | .corrected p f =>
    let d := wgcData cw (.corrected p f)
    (s.drcCorrect a p d, some d)
  | .uncorrectable =>
    let syn := wgcSyndrome cw 0 + 2 ^ 8 * wgcSyndrome cw 1 + 2 ^ 16 * wgcSyndrome cw 2 + 2 ^ 24 * wgcSyndrome cw 3
    ((s.wgcUncorr .drc 0 (a / 32)).drcFreeze 0 (some (source, cls, a)) (some syn), none)

/-- A read leaves its queue. -/
def State.drcTaken (s : State) (c : Nat) (r : DrcReq) : State :=
  let s := s.editCh c fun k => { k with
    reads := k.reads.filter fun x => decide (x ≠ r), writes := k.writes.filter fun x => decide (x ≠ r)
    gapUsed := k.gapUsed || (k.drain && r.data.isNone) }
  s.when r.aged (·.bump DRC_CNT_AGED)

/-- DRAM_READ_COMPLETE: the channel's next read; the upsets are in one of its stored words. -/
def execDramReadComplete (channel : BitVec 2) (word : BitVec 4) (upset : List Upset) (s : State) :
    Host.Outcome State Fault Refusal :=
  .next <| s.datapath .drc fun s =>
    let c := channel.toNat
    s.with? (if s.dramUp then s.nextRead c else none) fun s r =>
      let queued := (s.drcCh c).writes
      let at_ (i : Nat) : Nat := r.addr + 32 * i
      let fwd (i : Nat) : Option (List Byte) := forwardOf queued r.source r.id (at_ i)
      let s := s.when ((List.range r.words).any fun i => (fwd i).isSome) (·.bump DRC_CNT_FORWARD)
      let (s, l) := (List.range r.words).foldl (fun (x : State × Option (List Byte)) i =>
        match x.2, fwd i with
        | none, _ => x
        | some l, some d => (x.1, some (l ++ d))
        | some l, none =>
          let (s, d) := x.1.drcDecode r.source r.cls (at_ i) (if i = word.toNat then upset else [])
          (s, d.map (l ++ ·))) (s, some [])
      match l with
      | some d => (s.drcTaken c r).drcEnd r true d
      | none => s

/-- STROBE_TIMEOUT: of the channel's next read. -/
def execStrobeTimeout (channel : BitVec 2) (s : State) : Host.Outcome State Fault Refusal :=
  .next <| s.datapath .drc fun s =>
    s.with? (if s.dramUp then s.nextRead channel.toNat else none) fun s r => s.drcFreeze 1 (some (r.source, r.cls, r.addr)) none

/-- Stalled requests enter the queues, in their order, while there is an entry. -/
def unstall (c : Nat) : Nat → State → State
  | 0, s => s
  | n + 1, s =>
    match (s.drcCh c).stalled with
    | [] => s
    | r :: t => match s.drcPlace c r with
      | (s, true) => unstall c n (s.editCh c fun k => { k with stalled := t })
      | (s, false) => s

/-- WQ_ENTRY_FREED: the channel's next write is performed; a drain goes on in batches of 8 down to 16 entries. -/
def execWqEntryFreed (channel : BitVec 2) (s : State) : Host.Outcome State Fault Refusal :=
  .next <| s.datapath .drc fun s =>
    let c := channel.toNat
    s.with? (if s.dramUp then s.nextWrite c else none) fun s r =>
      let s := { s with dram := s.dram.setDram r.addr (r.data.getD []) }
      let s := (s.drcTaken c r).drcEnd r true []
      let s := s.editCh c fun k =>
        if !k.drain then k
        else if k.writes.length ≤ 16 then { k with drain := false, batch := 0, gapUsed := true }
        else if k.batch = 7 then { k with batch := 0, gapUsed := false }
        else { k with batch := k.batch + 1 }
      unstall c ((s.drcCh c).stalled.length) s

/-- DRAM_SCRUB: the next word, once per SCRUB hours each; 0 disables it (R363). -/
def execDramScrub (upset : List Upset) (s : State) : Host.Outcome State Fault Refusal :=
  .next <| s.datapath .drc fun s =>
    let h := s.f DRC_CTL_SCRUB
    if h = 0 || !s.dramUp then s
    else
      let s := s.reach (s.drc.scrubTime + h * 3600000000000 / 238551040)
      let a := 32 * s.drc.scrubWord
      let s := { s with drc.scrubTime := s.now, drc.scrubWord := (s.drc.scrubWord + 1) % 238551040 }
      (s.drcDecode 19 (s.f (DRC_SRC_CLASS 19)) a upset).1

/-! ### Temper passes and retraining (R364 to R366) -/

/-- Utilisation above 60 %, in units of 1/63. -/
def busyUtil (u : Nat) : Bool := decide (3780 < 100 * u)

/-- A channel's full retrain starts where one is due and no other runs; the lowest channel first. -/
def State.retrainStart (s : State) : State :=
  if s.f DRC_STATUS_RETRAINING ≠ 0 then s
  else s.with? ((List.range 4).find? fun c => (s.drcCh c).retrain) fun s c =>
    (s.set DRC_STATUS_RETRAINING (2 ^ c)).editCh c fun k => { k with retrain := false }

/-- A full retrain becomes due. -/
def State.retrainDue (s : State) (c : Nat) : State :=
  if s.retraining c then s else (s.editCh c fun k => { k with retrain := true }).retrainStart

/-- A temper pass runs: it stamps the load class; HEAVY ends the guard offset; too narrow an eye makes a retrain due. -/
def State.temperRun (s : State) (c util : Nat) (heavy narrow : Bool) : State :=
  let heavy := heavy || busyUtil util
  let s := (s.bump DRC_CNT_TEMPER).put (DRC_CH_STAT_LOAD c) heavy
  let s := s.editCh c fun k => { k with
    temperDue := false, loadDue := if heavy then none else k.loadDue, loadForced := !heavy && k.loadForced }
  let s := s.when heavy (·.down (DRC_CH_STAT_GUARD c))
  let mine := s.f DRC_CMD_STATE = 1 ∧ s.f DRC_CMD_OP = 2 ∧ s.f DRC_CMD_CHANNEL = c
  let s := s.when (decide mine) (·.cmdDone DRC_CMD_STATE.addr)
  s.when narrow (·.retrainDue c)

/-- TEMPER_DUE: 100 ms after the last. -/
def execTemperDue (channel : BitVec 2) (s : State) : Host.Outcome State Fault Refusal :=
  .next <| s.datapath .drc fun s =>
    if !s.dramUp then s
    else
      let c := channel.toNat
      let s := s.reach ((s.drcCh c).temperAt + 100000000)
      s.editCh c fun k => { k with temperDue := true, temperAt := s.now }

/-- LOAD_TEMPER_DUE: the channel of a LIGHT setting has been above 60 % for 10 ms. -/
def execLoadTemperDue (channel : BitVec 2) (util : BitVec 6) (s : State) : Host.Outcome State Fault Refusal :=
  .next <| s.datapath .drc fun s =>
    let c := channel.toNat
    let s := s.set (DRC_CH_STAT_UTIL c) util.toNat
    if !s.dramUp || s.on (DRC_CH_STAT_LOAD c) || !busyUtil util.toNat || (s.drcCh c).loadDue.isSome then s
    else (s.up (DRC_CH_STAT_GUARD c)).editCh c fun k => { k with loadDue := some s.now }

/-- LOAD_TEMPER_DEADLINE: 50 ms after it became due. -/
def execLoadTemperDeadline (channel : BitVec 2) (s : State) : Host.Outcome State Fault Refusal :=
  .next <| s.datapath .drc fun s =>
    let c := channel.toNat
    s.with? (s.drcCh c).loadDue fun s t => (s.reach (t + 50000000)).editCh c fun k => { k with loadForced := true }

/-- The DRC command register. -/
def drcCmd : CmdReg := ⟨DRC_CMD_STATE.addr, .drc, .operator⟩

/-- An operation of `DRC_CMD`: 1 RETRAIN, 2 TEMPER; INVALID for another one and while the controller is frozen. -/
def State.drcOp (s : State) (req : Req) (op c : Nat) : State :=
  s.command drcCmd req fun s =>
    let s := (s.set DRC_CMD_OP op).set DRC_CMD_CHANNEL c
    if s.on DRC_STATUS_FROZEN || !(decide (op = 1 ∨ op = 2)) then s.cmdError drcCmd.addr 2
    else
      let s := s.cmdIs drcCmd.addr 1 0
      if op = 1 then s.retrainDue c else s.editCh c fun k => { k with temperDue := true }

/-- DRC_RETRAIN. -/
def execDrcRetrain (req : Req) (channel : BitVec 2) (s : State) : Host.Outcome State Fault Refusal :=
  .next (s.drcOp req 1 channel.toNat)
/-- DRC_TEMPER. -/
def execDrcTemper (req : Req) (channel : BitVec 2) (s : State) : Host.Outcome State Fault Refusal :=
  .next (s.drcOp req 2 channel.toNat)

/-- RETRAIN_DONE: the channel returns to service, or the controller freezes. -/
def execRetrainDone (channel : BitVec 2) (ok : Bool) (s : State) : Host.Outcome State Fault Refusal :=
  .next <| s.datapath .drc fun s =>
    let c := channel.toNat
    if !s.retraining c then s
    else
      let s := s.bump DRC_CNT_RETRAIN
      if !ok then s.drcFreeze 2 none none
      else
        let s := (s.set DRC_STATUS_RETRAINING 0).set (DRC_CH_STAT_TRAIN_TEMP c) (s.f (DRC_CH_STAT_TEMP c))
        let heavy := busyUtil (s.f (DRC_CH_STAT_UTIL c))
        let s := s.put (DRC_CH_STAT_LOAD c) heavy
        let s := s.when heavy fun s => (s.down (DRC_CH_STAT_GUARD c)).editCh c fun k => { k with loadDue := none, loadForced := false }
        let mine := s.f DRC_CMD_STATE = 1 ∧ s.f DRC_CMD_OP = 1 ∧ s.f DRC_CMD_CHANNEL = c
        (s.when (decide mine) (·.cmdDone drcCmd.addr)).retrainStart

/-! ### Refresh (R367, R368) -/

/-- A subchannel refreshes at 2×; its interval and limit. -/
def State.rate2x (s : State) (c b : Nat) : Bool := (s.f DRC_STATUS_RATE2X).testBit (2 * c + b)
def State.tRefi (s : State) (c b : Nat) : Nat := if s.rate2x c b then 1953 else 3906
def State.owedMax (s : State) (c b : Nat) : Nat := if s.rate2x c b then 4 else 8

/-- The refreshes owed of a subchannel and its next grid point, and both changed. -/
def owedOf (k : DrcCh) (b : Nat) : List Nat := if b = 0 then k.owed0 else k.owed1
def gridOf (k : DrcCh) (b : Nat) : Nat := if b = 0 then k.grid0 else k.grid1
def putOwed (k : DrcCh) (b : Nat) (l : List Nat) : DrcCh := if b = 0 then { k with owed0 := l } else { k with owed1 := l }
def putGrid (k : DrcCh) (b g : Nat) : DrcCh := if b = 0 then { k with grid0 := g } else { k with grid1 := g }

/-- A SAFETY, REALTIME or aged request waits for a subchannel. -/
def State.subWaits (s : State) (c b : Nat) : Bool :=
  ((s.drcCh c).reads ++ (s.drcCh c).writes).any fun r => decide (dramSub r.addr = b) && (decide (r.cls < 2) || r.aged)

/-- REFRESH_DUE: at the next grid point; with the channel's utilisation, and what a temper pass finds of the eye. A refresh that
carries a temper pass is not postponed. -/
def execRefreshDue (channel : BitVec 2) (sub : Bool) (util : BitVec 6) (narrow : Bool) (s : State) :
    Host.Outcome State Fault Refusal :=
  .next <| s.datapath .drc fun s =>
    if !s.dramUp then s
    else
      let c := channel.toNat
      let b := sub.toNat
      let s := (s.reach (gridOf (s.drcCh c) b)).set (DRC_CH_STAT_UTIL c) util.toNat
      let k := s.drcCh c
      let heavy := k.loadDue.isSome && (k.loadForced || busyUtil util.toNat)
      let temper := k.temperDue || heavy
      let owed := owedOf k b ++ [gridOf k b]
      let next := gridOf k b + s.tRefi c b
      let wait := s.subWaits c b && !temper
      let owed := if wait then owed.drop (owed.length - s.owedMax c b) else []
      let s := (s.editCh c fun k => putGrid (putOwed k b owed) b next).owedSync c
      let s := s.when wait (·.bump DRC_CNT_POSTPONED)
      s.when temper (·.temperRun c util.toNat heavy narrow)

/-- REFRESH_WINDOW_CLOSE: the oldest refresh owed reaches the end of its window. -/
def execRefreshWindowClose (channel : BitVec 2) (sub : Bool) (s : State) : Host.Outcome State Fault Refusal :=
  .next <| s.datapath .drc fun s =>
    let c := channel.toNat
    let b := sub.toNat
    match owedOf (s.drcCh c) b with
    | [] => s
    | d :: t => ((s.reach (d + s.owedMax c b * s.tRefi c b)).editCh c fun k => putOwed k b t).owedSync c

/-- The rate of a subchannel after a reading of its hottest die (R367, R368). -/
def State.rateJudge (s : State) (c b : Nat) (t : Int) : State :=
  let rate := s.f DRC_STATUS_RATE2X
  let bit := 2 ^ (2 * c + b)
  if 85 ≤ t then
    if s.rate2x c b then s
    else
      let s := s.set DRC_STATUS_RATE2X (rate + bit)
      let n := (owedOf (s.drcCh c) b).length
      if 4 < n then
        ((s.bump DRC_CNT_CATCHUP n).editCh c fun k => putGrid (putOwed k b []) b (s.now + 280 * n + 1953)).owedSync c
      else s.editCh c fun k => putGrid k b (max s.now (gridOf k b - 1953))
  else if t < 83 then
    if s.rate2x c b then (s.set DRC_STATUS_RATE2X (rate - bit)).editCh c fun k => putGrid k b (gridOf k b + 1953) else s
  else s

/-- DIE_TEMP_READ: every 1 ms, the hottest die of each subchannel of a channel; 15 °C from the last full training make a
retrain due (R366). -/
def execDieTempRead (channel : BitVec 2) (temp0 temp1 : BitVec 8) (s : State) : Host.Outcome State Fault Refusal :=
  .next <| s.datapath .drc fun s =>
    if !s.dramUp then s
    else
      let c := channel.toNat
      let s := s.reach ((s.drcCh c).tempAt + 1000000)
      let s := s.editCh c fun k => { k with tempAt := s.now }
      let t := max temp0.toInt temp1.toInt
      let s := ((s.set (DRC_CH_STAT_TEMP c) (toBits 8 t)).rateJudge c 0 temp0.toInt).rateJudge c 1 temp1.toInt
      s.when (decide (15 ≤ (t - sx 8 (s.f (DRC_CH_STAT_TRAIN_TEMP c))).natAbs)) (·.retrainDue c)

end Sys2Proof.Machine
end

