-- ==== Sys2Proof/Machine/MtmOps.lean ====
section
/-! DEFINITION. Mains time (spec/02): operations that its rows, register writes and shelf messages share: the correction
of errors, cycle boundaries, holdover, and the firing of phase alarms. -/

namespace Sys2Proof.Machine

/-! ### Reference inputs -/

/-- A reference input. -/
def State.refIn (s : State) : RefId → RefIn
  | .a => s.mtm.a | .b => s.mtm.b | .c => s.mtm.c

/-- The state with a reference input changed. -/
def State.editRef (s : State) (x : RefId) (f : RefIn → RefIn) : State :=
  match x with
  | .a => { s with mtm.a := f s.mtm.a }
  | .b => { s with mtm.b := f s.mtm.b }
  | .c => { s with mtm.c := f s.mtm.c }

/-- The state of an input in `MTM_REF_STAT`: 0 GOOD, 1 STUCK, 2 CHATTER, 3 RANGE. -/
def refStat : RefId → Field
  | .a => MTM_REF_STAT_A | .b => MTM_REF_STAT_B | .c => MTM_REF_STAT_C

/-- The learned offset register of an input. -/
def learnOfs : RefId → Field
  | .a => MTM_LEARN_A_OFS | .b => MTM_LEARN_B_OFS | .c => MTM_LEARN_C_OFS

/-- Its LEARNED bit. -/
def learnFlag : RefId → Field
  | .a => MTM_LEARN_A_LEARNED | .b => MTM_LEARN_B_LEARNED | .c => MTM_LEARN_C_LEARNED

/-- The learned offset in use: 0 for A on the lead, whose phase A defines the shelf reference (R35); a deputy that acts as lead keeps
applying its own (R446). -/
def State.refOfs (s : State) (x : RefId) : Nat := if x = .a && s.isLead && !s.mtm.acts then 0 else s.f (learnOfs x)

/-- An enabled input that is GOOD (R37). -/
def State.refGood (s : State) (x : RefId) : Bool :=
  decide (s.f (refStat x) = 0) && s.on ⟨MTM_CTL_REF_EN.addr, x.num, x.num⟩

/-- The first GOOD enabled input in the order A, B, C (R37). -/
def State.firstGood (s : State) : Option RefId := [RefId.a, .b, .c].find? s.refGood

/-- The input that `MTM_STATUS.SRC` names. -/
def State.source (s : State) : Option RefId :=
  match s.f MTM_STATUS_SRC with
  | 1 => some .a | 2 => some .b | 3 => some .c | _ => none

/-- MT follows its own frequency because no input drives it: shelf or free holdover (R38). -/
def State.inHoldover (s : State) : Bool := decide (4 ≤ s.f MTM_STATUS_SRC)

/-! ### Errors (R40, R41) -/

/-- An error in ticks, in the range −32,768 to +32,767 (R40). -/
def wrapErr (e : Int) : Int := sx 16 (toBits 16 e)

/-- The ticks of a signed number of ns at the present frequency. -/
def State.ticksOf (s : State) (ns : Int) : Int := ns * s.tickRate / 1000000000

/-- The detector delay in ticks (R29: phase 0 lies this long before the accepted edge). -/
def State.delayTicks (s : State) : Int := s.ticksOf (sx 24 (s.f MTM_REF_OFFSET_DELAY))

/-- The part of the running cycle's slew that the rest of the cycle still makes (R41), in whole ticks. -/
def State.adjLeft (s : State) : Int := s.mtm.cycleAdj * (65536 - (s.mtm.mt % 65536 : Nat)) / 65536

/-- A change of level now, with the corrections that are in progress. -/
def State.edgeNow (s : State) : RefEdge :=
  { time := s.now, mt := s.mtm.mt, corr := s.mtm.slew + s.adjLeft, hold := s.mtm.holdTicks }

/-- A function of the change that each input's deglitch holds. -/
def State.editEdges (s : State) (f : RefEdge → RefEdge) : State :=
  let g (r : RefIn) : RefIn := { r with change := r.change.map f }
  { s with mtm.a := g s.mtm.a, mtm.b := g s.mtm.b, mtm.c := g s.mtm.c }

/-- What is still to be slewed after the running cycle takes a new value; an edge whose deglitch runs finds it in progress. -/
def State.slewTo (s : State) (v : Int) : State :=
  { s.editEdges fun k => { k with corr := k.corr + (v - s.mtm.slew) } with mtm.slew := v }

/-- An error is to be corrected (R41): up to 4,096 ticks by slewing, and a pending step that is not the first is
cancelled; beyond, by a step at the next reference phase-0 instant. The step of the first source selection stands. `e` is the error
as it was measured, less a hold in progress there; `corr` is what was being slewed there, which goes on and is not corrected twice. -/
def State.correctFrom (s : State) (e corr : Int) : State :=
  if s.on MTM_STATUS_STEP_PEND && s.mtm.firstStep then s
  else if -4096 ≤ e ∧ e ≤ 4096 then
    { (s.down MTM_STATUS_STEP_PEND).slewTo (s.mtm.slew + e - corr) with mtm.stepErr := 0 }
  else { (s.up MTM_STATUS_STEP_PEND).slewTo 0 with mtm.stepErr := e }

/-- An error that is measured now. -/
def State.correct (s : State) (e : Int) : State := s.correctFrom (wrapErr (e + s.mtm.holdTicks)) (s.mtm.slew + s.adjLeft)

/-- A change of a delay or of the offset in use moves the reference by `d` ticks, which is an error to correct (R41). -/
def State.refMoves (s : State) (d : Int) : State :=
  if d = 0 || s.source.isNone then s
  else
    let corr := s.mtm.slew + s.adjLeft
    s.correctFrom (wrapErr ((if s.on MTM_STATUS_STEP_PEND then s.mtm.stepErr else corr) + d)) corr

/-- A learned offset is written; a change of the one in use is corrected (R36). -/
def State.learnSet (s : State) (x : RefId) (ofs : Nat) : State :=
  let old := s.refOfs x
  let s := (s.set (learnOfs x) ofs).up (learnFlag x)
  let d := (s.refOfs x : Int) - old
  s.when (decide (s.source = some x)) (·.refMoves d)

/-! ### Holdover (R38, R39) -/

/-- The reference phase that the lead gives in shelf holdover: its MT now by its last message and LT, corrected by `MTM_LEARN_A` as
an input is by its offset (R38; DEDUCED, log entry 181). -/
def State.shelfPhase (s : State) : Int :=
  (s.mtm.leadMt : Int) + ((s.lt : Int) - s.mtm.leadLt) * s.mtm.leadFreq / 1000000000 + s.f (learnOfs .a)

/-- The error bound of free holdover, in ticks, saturating (R39). -/
def State.holdBound (s : State) : Nat :=
  match s.mtm.freeSince with
  | none => s.f MTM_HOLD_BOUND_BOUND
  | some t0 =>
    let t := s.now - t0
    min 0xFFFFFFFF (s.f MTM_HOLD_DRIFT_D * t * t * 65536 / (2 * 1000000 * 1000000000 * 1000000000))

/-- The conditions of shelf holdover (R38). -/
def State.shelfHolds (s : State) : Bool :=
  !s.isLead && s.on MTM_CTL_SHELF_HOLD && s.on MTM_STATUS_LT_SYNC && s.mtm.leadValid

/-- Holdover takes the kind that its conditions give (R38): entry, or a change of kind. Free holdover counts its bound
from here, at the frequency held when the last input left GOOD; in shelf holdover the bound stays 0 and the frequency is the
lead's. A pending step is dropped on entry to either kind. -/
def State.holdKind (s : State) : State :=
  let kind := if s.shelfHolds then 4 else 5
  if s.f MTM_STATUS_SRC = kind then s
  else
    let s := ((s.down MTM_STATUS_STEP_PEND).set MTM_STATUS_SRC kind).set MTM_HOLD_BOUND_BOUND 0
    let s := { s with
      mtm.stepErr := 0
      mtm.firstStep := false
      mtm.freeSince := if kind = 5 then some s.now else none
      mtm.slotLogged := false }
    let s := s.set MTM_FREQ_FREQ (if kind = 4 then s.mtm.leadFreq else s.mtm.heldFreq)
    s.ev .mtm Ev.MT_HOLD_ENTER [kind]

/-- What follows in MTM when the device becomes the lead or ceases to be it: on the lead `LT_SYNC` says whether LT has been loaded
(R45), and its offset of A is 0, a change that is corrected where A is in use (R35, R36); a holdover takes the kind of its new role
(R38). -/
def State.roleSync (s old : State) : State :=
  let s := s.when s.isLead (·.put MTM_STATUS_LT_SYNC s.mtm.ltLoaded)
  let s := s.when (decide (s.source = some .a)) (·.refMoves ((s.refOfs .a : Int) - old.refOfs .a))
  s.when s.inHoldover State.holdKind

/-- The source is judged after an input has left GOOD or an enable has changed (R37, R38): with VALID 1 and no enabled
input GOOD, the device enters holdover, and Assay hears of it. -/
def State.judgeSource (s : State) : State :=
  if !s.on MTM_STATUS_VALID || s.inHoldover || s.firstGood.isSome then s
  else
    let s := s.down MTM_STATUS_LOCKED
    let s := { s with mtm.lockCycles := 0, mtm.holdSince := some s.now, mtm.heldFreq := s.f MTM_FREQ_FREQ }
    s.holdKind.asyFault .mainsPlaus .time

/-- The conditions of the mains plausibility fault (R492): holdover, 4 steps within the hour, a mismatch. -/
def State.plausible (s : State) : Bool :=
  !s.inHoldover && !s.mtm.mismatch &&
    decide ((s.mtm.steps.filter fun t => decide (s.now < t + 3600000000000)).length < 4)

/-- The mains plausibility fault ends when none of its conditions holds (R492). -/
def State.plausSettle (s : State) : State := s.when s.plausible (·.asyFaultEnd .mainsPlaus .time)

/-! ### Phase alarms (R50 to R53) -/

/-- The registers of alarm `n`. -/
def almOpen (n : Nat) : Wide := ⟨0x101000 + 16 * n, 48⟩
def almWidth (n : Nat) : Field := ⟨0x101008 + 16 * n, 31, 0⟩
def almCtl (n : Nat) : Nat := 0x10100C + 16 * n
def almEn (n : Nat) : Field := ⟨almCtl n, 0, 0⟩
def almSkipped (n : Nat) : Field := ⟨almCtl n, 3, 3⟩

/-- The level of an alarm's fields. -/
def almLevel (n : Nat) : Level := if n < 64 then .vendor else if n < 192 then .operator else .guest

/-- The alarm runs with the values its registers hold now (R52). A width of 0 is treated as 1. -/
def State.almArm (s : State) (n : Nat) : State :=
  { s.up (almEn n) with
    mtm.armed := s.mtm.armed.put n { width := max 1 (s.f (almWidth n)), ctl := s.rd (almCtl n) } }

/-- The alarm is disarmed. -/
def State.almDisarm (s : State) (n : Nat) : State := { s.down (almEn n) with mtm.armed := s.mtm.armed.del n }

/-- Cycles by which Assay moves the SELFTEST alarm's open (R424): a day at 50 Hz or at 60 Hz. -/
def State.selftestCycles (s : State) : Nat := if s.f MTM_FREQ_FREQ < 55 * 65536 then 4320000 else 5184000

/-- The action of an alarm (R53). -/
def State.almAction (s : State) (n : Nat) (ctl : Word) : State :=
  let s := s.ev .mtm Ev.ALARM [n]
  let arg := bitsOf ctl 15 8
  match bitsOf ctl 7 4 with
  | 1 => s.irq 0
  | 2 => s.snapTimes
  | 3 => s.pulse (arg % 16)
  | 4 => s.scheduleRun arg
  | 5 =>
    if n < 64 then
      let s := s.lftAsk
      (s.setW (almOpen n) (s.w (almOpen n) + s.selftestCycles * 65536)).almArm n
    else s
  | _ => s

/-- Alarm `n` fires (R50, R51): PEND, SKIPPED, the re-arming or the end of EN, and its action, which a skipped window
suppresses where MISSED is 0. The SELFTEST alarm's own move follows its firing (R424). -/
def State.almFire (s : State) (n : Nat) (skipped : Bool) : State :=
  match s.mtm.armed.look n with
  | none => s
  | some a =>
    let s := (s.set ⟨0x100080 + 4 * (n / 32), n % 32, n % 32⟩ 1).put (almSkipped n) skipped
    let s := s.when skipped (·.ev .mtm Ev.ALARM_SKIPPED [n])
    let rep := bitsOf a.ctl 31 16
    let s := if rep = 0 then s.almDisarm n else s.setW (almOpen n) (s.w (almOpen n) + rep * 65536)
    if skipped && decide (bitsOf a.ctl 2 2 = 0) then s else s.almAction n a.ctl

/-- MT has skipped the ticks [lo, hi): the alarms whose whole window lies there fire, in ascending number (R49, R51, R52). A repeating
alarm that re-arms into the skipped ticks fires for its next window by its own later row, not here (DESIGN CHOICE, log entry 231: the
rules do not say when the further windows of one skip fire). -/
def State.almSkip (s : State) (lo hi : Nat) : State :=
  let n := (hi + 2 ^ 48 - lo) % 2 ^ 48
  s.each (s.mtm.armed.filter fun a =>
      decide ((s.w (almOpen a.1) + 2 ^ 48 - lo) % 2 ^ 48 + a.2.width ≤ n)) fun s a => s.almFire a.1 true

/-- The window of an alarm that has just been armed has closed already: it fires at once as skipped (R52). -/
def State.almCheck (s : State) (n : Nat) : State :=
  match s.mtm.armed.look n with
  | none => s
  | some a =>
    let past := (s.mtm.mt + 2 ^ 48 - s.w (almOpen n)) % 2 ^ 48
    if a.width ≤ past && decide (past < 2 ^ 47) then s.almFire n true else s

/-! ### Cycle boundaries (R41 to R44) -/

/-- The lead's cycle number at this device's boundary: its last published one and the cycles that have passed by LT at its
frequency, to the nearest (R43). -/
def State.leadCycle (s : State) : Nat :=
  let ticks := (s.lt - s.mtm.leadLt) * s.mtm.leadFreq / 1000000000
  (s.mtm.leadMt / 65536 + (ticks + 32768) / 65536) % 2 ^ 32

/-- The nominal frequency that `MTM_CTL.NOMINAL` gives (R42). -/
def State.nominal (s : State) : Nat := (if s.on MTM_CTL_NOMINAL then 60 else 50) * 65536

/-- A member that is to adopt takes the lead's cycle number (R43). -/
def State.adopt (s : State) : State :=
  if !s.mtm.adoptPend || s.isLead || !s.mtm.leadValid then s
  else
    let own := s.mtm.mt / 65536
    let lead := s.leadCycle
    let s := { s with mtm.adoptPend := false, mtm.mt := lead * 65536 }
    let s := (s.up MTM_STATUS_CYC_ADOPTED).ev .mtm Ev.MT_CYCLE_ADOPT [(lead + 2 ^ 32 - own) % 2 ^ 32]
    let s := s.when (!mtLe (lead * 65536) (own * 65536)) (·.almSkip (own * 65536) (lead * 65536))
    { s with
      sgm.frameEnds := true
      sgm.frames := s.sgm.frames + match s.sgm.frame with | some f => (own / 8 + 2 ^ 29 - f) % 2 ^ 29 | none => 0
      sgm.frame := if lead % 8 = 0 then none else some (lead / 8) }

/-- MT reaches phase 0 of the next cycle (R44): the wrap (R30), the nominal frequency until VALID (R42), the slew of the
new cycle (R41), and an adoption or the end of a mismatch (R43, R492). -/
def State.boundary (s : State) (acc : Nat) : State :=
  let cycle := (s.mtm.mt / 65536 + 1) % 2 ^ 32
  let adj := max (-64) (min 64 s.mtm.slew)
  let s := { s with
    mtm.mt := cycle * 65536
    mtm.acc := acc
    mtm.holdTicks := 0
    mtm.cycleAdj := adj
    mtm.slew := s.mtm.slew - adj }
  let s := s.when (decide (cycle = 0)) fun s =>
    (s.set MTM_EPOCH_WRAPS ((s.f MTM_EPOCH_WRAPS + 1) % 65536)).ev .mtm Ev.MT_WRAP
  let s := s.when (!s.on MTM_STATUS_VALID) (·.set MTM_FREQ_FREQ s.nominal)
  if s.mtm.adoptPend then s.adopt
  else if s.mtm.mismatch && decide (s.mtm.mt / 65536 = s.leadCycle) then
    { s with mtm.mismatch := false }.plausSettle
  else s

end Sys2Proof.Machine
end

