-- ==== Sys2Proof/Machine/Mtm.lean ====
section
/-! DEFINITION. Mains time (spec/02): its rows. -/

namespace Sys2Proof.Machine

/-! ### Accepted edges (R31 to R42) -/

/-- REF_INPUT_CHANGE: the level at the ball changes at a reference time, and its 200 µs deglitch starts; a change back to
the accepted level ends the deglitch (R31). MTM takes no edges before step 2 of R72. -/
def execRefInputChange (input : RefId) (level : Bool) (time : BitVec 64) (s : State) : Host.Outcome State Fault Refusal :=
  .next <|
    let s := s.reach time.toNat
    if s.cfg.stage < 2 || decide ((s.refIn input).raw = level) then s.editRef input fun r => { r with raw := level }
    else s.editRef input fun r =>
      { r with raw := level, change := if level = r.level then none else some s.edgeNow }

/-- A state of a reference input, with the counts of its conditions cleared. -/
def State.refState (s : State) (x : RefId) (st : Nat) : State :=
  (s.set (refStat x) st).editRef x fun r => { r with goodCycles := 0, outPeriods := 0, inPeriods := 0, goodFor := 0 }

/-- More than four accepted edges within one expected half cycle: CHATTER, for 10 expected cycles from the last (R33). -/
def State.refChatter (s : State) (x : RefId) (t : Nat) : State :=
  let entered := decide (s.f (refStat x) ≠ 2)
  let s := s.editRef x fun r => { r with chatterEnd := some (t + 10 * s.expectedCycle) }
  if entered then (((s.refState x 2).ev .mtm Ev.MT_REF_CHATTER [x.num])).judgeSource else s

/-- A period within 42.5 Hz to 67.5 Hz (R34). -/
def inRange (p : Nat) : Bool := decide (14815000 ≤ p ∧ p ≤ 23529000)

/-- The state of an input after a rising edge at `t` (R32, R34): the end of STUCK after 8 good cycles, RANGE after 2
periods outside, its end after 8 inside. A STUCK input whose periods lie outside the range stays STUCK (DESIGN CHOICE, log entry
198: the rule ranks only CHATTER against the others). -/
def State.refRising (s : State) (x : RefId) (t : Nat) : State :=
  let r := s.refIn x
  let period := r.lastRise.map (t - ·)
  let good := match period with | some p => inRange p | none => false
  let s := s.editRef x fun r =>
    { r with lastRise := some t, falls := 0, periods := if good then ((period.getD 0) :: r.periods).take 8 else [] }
  match s.f (refStat x) with
  | 1 =>
    let n := if good && decide (r.falls = 1) then r.goodCycles + 1 else 0
    if 8 ≤ n then (s.refState x 0).ev .mtm Ev.MT_REF_STUCK [x.num, 0]
    else s.editRef x fun r => { r with goodCycles := n }
  | 3 =>
    let n := if good then r.inPeriods + 1 else 0
    if 8 ≤ n then s.refState x 0 else s.editRef x fun r => { r with inPeriods := n }
  | _ =>
    let n := if period.isNone || good then 0 else r.outPeriods + 1
    if 2 ≤ n then ((s.refState x 3).ev .mtm Ev.MT_REF_RANGE [x.num]).judgeSource
    else s.editRef x fun r => { r with outPeriods := n }

/-- The phase of the reference at the accepted edge of an input, less the phase MT had there (R29, R40), a hold in progress being
counted as made (R41). -/
def State.edgeError (s : State) (x : RefId) (k : RefEdge) : Int :=
  wrapErr (s.refOfs x + s.delayTicks - (k.mt % 65536 : Nat) + k.hold)

/-- The loop's frequency estimate after an edge: a free value (the spec gives a bandwidth, no equation). -/
def State.loopFreq (s : State) : State := (s.set MTM_FREQ_FREQ (s.free .mtmLoop)).drawn

/-- LOCKED after 16 cycles within ±64 ticks; cleared beyond ±256 (R34). -/
def State.lockJudge (s : State) (e : Int) : State :=
  if -64 ≤ e ∧ e ≤ 64 then
    let s := { s with mtm.lockCycles := s.mtm.lockCycles + 1 }
    s.when (decide (16 ≤ s.mtm.lockCycles)) (·.up MTM_STATUS_LOCKED)
  else
    let s := { s with mtm.lockCycles := 0 }
    s.when (decide (e < -256 ∨ 256 < e)) (·.down MTM_STATUS_LOCKED)

/-- The device takes phase from an input (R37): LOCKED falls and the switch is logged. -/
def State.takeSource (s : State) (x : RefId) : State :=
  let old := s.f MTM_STATUS_SRC
  let s := { (s.set MTM_STATUS_SRC (x.num + 1)).down MTM_STATUS_LOCKED with mtm.lockCycles := 0, mtm.a.goodFor := 0 }
  s.ev .mtm Ev.MT_SRC_CHANGE [old, x.num + 1]

/-- The first source selection (R42): VALID, the mean frequency of the 8 periods that made the input GOOD, and a step
whatever the error. Where no 8 periods made it GOOD at this edge (the end of CHATTER did, or it was GOOD before it was enabled), the
mean is that of its last periods in range, at most 8, and the nominal value stays where it has none (DESIGN CHOICE, log entry 232). -/
def State.firstSelect (s : State) (x : RefId) (e : Int) : State :=
  let p := (s.refIn x).periods
  let s := (s.takeSource x).up MTM_STATUS_VALID
  let s := s.when (decide (p ≠ [])) (·.set MTM_FREQ_FREQ (p.length * 1000000000 * 65536 / p.foldl (· + ·) 0))
  { s.up MTM_STATUS_STEP_PEND with mtm.stepErr := e, mtm.slew := 0, mtm.firstStep := true }

/-- Holdover ends at the edge of a GOOD input, with its error and duration (R40). -/
def State.holdExit (s : State) (e : Int) : State :=
  let d := s.now - s.mtm.holdSince.getD s.now
  let s := s.set MTM_HOLD_BOUND_BOUND s.holdBound
  let s := s.when (s.on MTM_STATUS_CYC_AMBIG) (·.ev .mtm Ev.MT_CYCLE_UNRESOLVED [toBits 16 e])
  let s := { (s.down MTM_STATUS_CYC_AMBIG).set MTM_LAST_ERR_E (toBits 16 e) with
    mtm.holdSince := none, mtm.freeSince := none }
  (s.ev .mtm Ev.MT_HOLD_EXIT [toBits 16 e, d]).plausSettle

/-- One more sample of an input's offset (R35), at most 64. -/
def State.learnSample (s : State) (x : RefId) (phase : Nat) : State :=
  s.editRef x fun r =>
    if r.learnCount = 0 then { r with learnBase := phase, learnSum := 0, learnCount := 1 }
    else if r.learnCount < 64 then
      { r with learnSum := r.learnSum + wrapErr ((phase : Int) - r.learnBase), learnCount := r.learnCount + 1 }
    else r

/-- Offset learning at an edge (R35): B and C against MT while two inputs are GOOD; A against the shelf reference on a
device that is not the lead and does not act for it (R446). -/
def State.learnEdge (s : State) (x : RefId) (t mtEdge : Nat) : State :=
  if x = .a then
    if s.isLead || !s.on MTM_STATUS_LT_SYNC || !s.mtm.leadValid then s
    else
      let lt := s.lt - (s.now - t)
      let ticks := ((lt : Int) - s.mtm.leadLt) * s.mtm.leadFreq / 1000000000
      s.learnSample .a (toBits 16 (ticks - s.delayTicks))
  else if s.source.isSome && decide (2 ≤ ([RefId.a, .b, .c].filter s.refGood).length) then
    s.learnSample x (toBits 16 ((mtEdge : Int) - s.delayTicks))
  else s

/-- A rising edge of a GOOD input counts towards the 64 cycles for which it has been GOOD while another is selected (R37). -/
def State.goodCount (s : State) (x : RefId) : State :=
  let other := decide (s.source ≠ none) && decide (s.source ≠ some x)
  s.editRef x fun r => { r with goodFor := if other then r.goodFor + 1 else 0 }

/-- A rising edge of a GOOD enabled input (R37, R40 to R42): the first selection; or a switch to it, from holdover or from
an input that is no longer GOOD where it is the first GOOD one, or back to A after 64 good cycles; then the measurement
of the input in use. -/
def State.phaseEdge (s : State) (x : RefId) (k : RefEdge) : State :=
  let e := s.edgeError x k
  let back := decide (x = .a) && decide (64 ≤ (s.refIn .a).goodFor)
  let s := s.goodCount x
  if !s.on MTM_STATUS_VALID then s.firstSelect x e
  else
    let take := decide (s.source ≠ some x) &&
      (match s.source with
        | some y => if s.refGood y then back else decide (s.firstGood = some x)
        | none => decide (s.firstGood = some x))
    let held := s.inHoldover
    let s := s.when take (·.takeSource x)
    if s.source = some x then
      let s := s.when held (·.holdExit e)
      (s.loopFreq.lockJudge e).correctFrom e k.corr
    else s

/-- REF_EDGE_ACCEPT: 200 µs after the change that it reports, the level is accepted as an edge that carries the time of
the change (R31). -/
def execRefEdgeAccept (input : RefId) (s : State) : Host.Outcome State Fault Refusal :=
  .next <|
    match (s.refIn input).change with
    | none => s
    | some k =>
      let t := k.time
      let s := s.reach (t + 200000)
      let r := s.refIn input
      let recent := (t :: r.recent).take 5
      let half := s.expectedCycle / 2
      let chatter := decide (recent.length = 5) && decide (t - recent.getLastD 0 < half)
      let s := s.editRef input fun r => { r with level := r.raw, change := none, recent := recent, lastEdge := t }
      if chatter then s.refChatter input t
      else if s.f (refStat input) = 2 then s
      else if !r.raw then s.editRef input fun r => { r with falls := r.falls + 1 }
      else
        let s := s.refRising input t
        if s.refGood input then (s.phaseEdge input k).learnEdge input t k.mt
        else s.when (decide (s.f (refStat input) = 0)) (·.goodCount input)

/-- MT_REF_STUCK: three expected cycles have passed since the last accepted edge (R32). In CHATTER the condition changes
no state (R33). -/
def execMtRefStuck (input : RefId) (s : State) : Host.Outcome State Fault Refusal :=
  .next <|
    let s := s.reach ((s.refIn input).lastEdge + 3 * s.expectedCycle)
    if s.f (refStat input) = 0 || s.f (refStat input) = 3 then
      ((s.refState input 1).ev .mtm Ev.MT_REF_STUCK [input.num, 1]).judgeSource
    else s

/-- CHATTER_PERIOD_END: STUCK if the stuck condition holds at that instant, GOOD otherwise (R33). -/
def execChatterPeriodEnd (input : RefId) (s : State) : Host.Outcome State Fault Refusal :=
  .next <|
    match (s.refIn input).chatterEnd with
    | none => s
    | some t =>
      let s := s.reach t
      let s := s.editRef input fun r => { r with chatterEnd := none, lastRise := none, falls := 0, periods := [] }
      if (s.refIn input).lastEdge + 3 * s.expectedCycle ≤ t then
        ((s.refState input 1).ev .mtm Ev.MT_REF_STUCK [input.num, 1]).judgeSource
      else s.refState input 0

/-! ### Holdover bound (R39) -/

/-- The greatest number with `k` more low bits than `r` whose square lies below `q`. -/
def sqrtBelow (q : Nat) : Nat → Nat → Nat
  | 0, r => r
  | k + 1, r => sqrtBelow q k (if (r + 2 ^ k) * (r + 2 ^ k) < q then r + 2 ^ k else r)

/-- The least number whose square is at least `q`. -/
def sqrtUp (q : Nat) : Nat := if q = 0 then 0 else sqrtBelow q 64 0 + 1

/-- The instant at which the bound reaches a number of ticks. -/
def State.boundAt (s : State) (t0 ticks : Nat) : Nat :=
  let d := s.f MTM_HOLD_DRIFT_D * 65536
  t0 + sqrtUp ((ticks * 2 * 1000000 * 1000000000 * 1000000000 + d - 1) / d)

/-- MT_HOLD_SLOT: the bound first reaches 4,096 ticks. With a drift of 0 it never does. -/
def execMtHoldSlot (s : State) : Host.Outcome State Fault Refusal :=
  .next <|
    match s.mtm.freeSince with
    | none => s
    | some t0 =>
      if s.mtm.slotLogged || decide (s.f MTM_HOLD_DRIFT_D = 0) then s
      else
        let s := s.reach (s.boundAt t0 4096)
        { s with mtm.slotLogged := true }.ev .mtm Ev.MT_HOLD_SLOT [s.holdBound]

/-- MT_HOLD_AMBIG: the bound reaches 32,768 ticks. -/
def execMtHoldAmbig (s : State) : Host.Outcome State Fault Refusal :=
  .next <|
    match s.mtm.freeSince with
    | none => s
    | some t0 =>
      if s.on MTM_STATUS_CYC_AMBIG || decide (s.f MTM_HOLD_DRIFT_D = 0) then s
      else
        let s := s.reach (s.boundAt t0 32768)
        (s.up MTM_STATUS_CYC_AMBIG).ev .mtm Ev.MT_HOLD_AMBIG [s.holdBound]

/-! ### Steps and boundaries (R41 to R44) -/

/-- The next phase-0 instant of the reference by the input in use (R29). -/
def State.refInstant (s : State) (x : RefId) : Nat :=
  let per := s.expectedCycle
  let back := (sx 24 (s.f MTM_REF_OFFSET_DELAY)) + (s.refOfs x * per / 65536 : Nat)
  let t : Int := (s.refIn x).lastRise.getD s.now - back
  if per = 0 then s.now else (t + (((s.now : Int) - t) / per + 1) * per).toNat

/-- The lead's next phase-0 instant, for a device in shelf holdover (R38). -/
def State.shelfInstant (s : State) : Nat :=
  if s.mtm.leadFreq = 0 then s.now
  else s.now + ((65536 - (s.shelfPhase % 65536).toNat) * 1000000000 + s.mtm.leadFreq - 1) / s.mtm.leadFreq

/-- A step is counted; more than 3 within an hour are a plausibility fault (R417). -/
def State.stepCount (s : State) : State :=
  let l := s.now :: s.mtm.steps.filter fun t => decide (s.now < t + 3600000000000)
  let s := { s with mtm.steps := l }
  s.when (decide (4 ≤ l.length)) (·.asyFault .mainsPlaus .time)

/-- MT jumps to phase 0 of the next cycle: a boundary, and the phases between do not occur (R41, R44, R49). -/
def State.stepForward (s : State) : State :=
  let old := s.mtm.mt
  let s := s.editEdges fun k => { k with mt := k.mt + (65536 - old % 65536), corr := k.corr - s.adjLeft, hold := 0 }
  let s := { s with sgm.skips := ((old + 1, (old / 65536 + 1) * 65536) :: s.sgm.skips).take 16 }
  (s.boundary 0).almSkip ((old + 1) % 2 ^ 48) ((old / 65536 + 1) * 65536 % 2 ^ 48)

/-- MT holds at phase 65,535 for `n` further ticks (R41). -/
def State.stepHold (s : State) (n : Nat) : State :=
  { s.editEdges fun k => { k with hold := k.hold + n } with mtm.holdTicks := s.mtm.holdTicks + n }

/-- MT_STEP: at the reference phase-0 instant a pending step is decided on the error measured there (R41), a hold in progress being
counted as made. -/
def execMtStep (s : State) : Host.Outcome State Fault Refusal :=
  .next <|
    if !s.on MTM_STATUS_STEP_PEND then s
    else
      let s := match s.source with
        | some x => s.reach (s.refInstant x)
        | none => if s.f MTM_STATUS_SRC = 4 then s.reach s.shelfInstant else s
      let e := wrapErr ((s.mtm.holdTicks : Int) - (s.mtm.mt % 65536 : Nat))
      let first := s.mtm.firstStep
      let s := { s.down MTM_STATUS_STEP_PEND with mtm.stepErr := 0, mtm.firstStep := false }
      if !first && decide (-4096 ≤ e ∧ e ≤ 4096) then s.slewTo (e - s.adjLeft)
      else
        let s := if 0 < e then s.stepForward else s.stepHold e.natAbs
        (s.ev .mtm Ev.MT_STEP [toBits 16 e]).stepCount

/-- MT_CYCLE_BOUNDARY: MT runs to the end of its cycle, and of a hold at phase 65,535, and starts the next (R44). -/
def execMtCycleBoundary (s : State) : Host.Outcome State Fault Refusal :=
  .next <|
    let n := 65536 - s.mtm.mt % 65536 + s.mtm.holdTicks
    let d := s.nsForTicks n
    let acc := s.mtm.acc + d * s.tickRate * 65536 - n * s.tickUnit
    (s.advance d).boundary acc

/-- OFFSET_LEARN: the average over 64 cycles is complete and stored in `MTM_LEARN_x`, and in the learned-data area where
it has moved by more than 64 ticks (R35, R36). Its rounding is open. -/
def execOffsetLearn (input : RefId) (s : State) : Host.Outcome State Fault Refusal :=
  .next <|
    let r := s.refIn input
    if r.learnCount < 64 then s
    else
      let up := if r.learnSum % 64 = 0 then 0 else s.free .learnRound % 2
      let s := s.when (decide (r.learnSum % 64 ≠ 0)) State.drawn
      let ofs := toBits 16 (r.learnBase + r.learnSum / 64 + (up : Nat))
      let s := s.editRef input fun r => { r with learnCount := 0, learnSum := 0 }
      let s := s.learnSet input ofs
      let store := match r.stored with
        | none => true
        | some v => decide (64 < (wrapErr ((ofs : Int) - v)).natAbs)
      s.when store (·.editRef input fun r => { r with stored := some ofs })

/-! ### Local time (R45 to R47) -/

/-- The commands of MTM. -/
def ltLoadCmd : CmdReg := ⟨MTM_LT_LOAD_STATE.addr, .mtm, .operator⟩
def ltStepCmd : CmdReg := ⟨MTM_LT_STEP_STATE.addr, .mtm, .operator⟩
def mtSnapCmd : CmdReg := ⟨MTM_SNAP_STATE.addr, .mtm, .guest⟩

/-- GO to `MTM_LT_LOAD` (R46). -/
def State.ltLoadOp (s : State) (req : Req) : State :=
  s.command ltLoadCmd req fun s =>
    let v := s.w MTM_LT_LOAD_VAL_VALUE
    if s.mtm.ltLoaded then s.cmdError ltLoadCmd.addr 3
    else if v < s.lt then s.cmdError ltLoadCmd.addr 2
    else
      let old := s.lt
      let s := { s with lt := v, mtm.ltLoaded := true, mtm.ltAcc := 0, mtm.ltJump := s.mtm.ltJump + (v - old) }
      let s := s.ev .mtm Ev.LT_LOAD [old, v]
      (s.when s.isLead (·.up MTM_STATUS_LT_SYNC)).cmdDone ltLoadCmd.addr

/-- LT_LOAD. -/
def execLtLoad (req : Req) (s : State) : Host.Outcome State Fault Refusal := .next (s.ltLoadOp req)

/-- A write of `MTM_LT_STEP` (R45). -/
def State.ltStepOp (s : State) (req : Req) (amount : Nat) : State :=
  s.command ltStepCmd req fun s =>
    if amount = 0 then s.cmdError ltStepCmd.addr 2
    else
      let s := { s with lt := (s.lt + amount * 1000) % 2 ^ 64, mtm.ltJump := s.mtm.ltJump + amount * 1000 }
      (s.ev .mtm Ev.LT_STEP [amount]).cmdDone ltStepCmd.addr

/-- LT_STEP. -/
def execLtStep (req : Req) (amount : BitVec 24) (s : State) : Host.Outcome State Fault Refusal :=
  .next (s.ltStepOp req amount.toNat)

/-- LT_SYNC_LOST: the servo's offset leaves ±500 ns on a member other than the lead (R45); a shelf holdover becomes a free
one (R38). -/
def execLtSyncLost (s : State) : Host.Outcome State Fault Refusal :=
  .next <|
    if s.isLead || !s.on MTM_STATUS_LT_SYNC then s
    else
      let s := (s.down MTM_STATUS_LT_SYNC).ev .mtm Ev.LT_SYNC_LOST
      s.when s.inHoldover State.holdKind

/-- GO to `MTM_SNAP` (R47). -/
def State.mtSnapOp (s : State) (req : Req) : State :=
  s.command mtSnapCmd req fun s => s.snapTimes.cmdDone mtSnapCmd.addr

/-- MT_SNAP. -/
def execMtSnap (req : Req) (s : State) : Host.Outcome State Fault Refusal := .next (s.mtSnapOp req)

/-! ### Phase alarms (R50 to R53) -/

/-- ALARM: an armed alarm fires at the first MT in its window; where that lies ahead within this cycle, MT runs to it. A
window that has closed fires as skipped. A window of a later cycle does not fire yet. -/
def execAlarm (n : BitVec 8) (s : State) : Host.Outcome State Fault Refusal :=
  .next <|
    let n := n.toNat
    match s.mtm.armed.look n with
    | none => s
    | some a =>
      let opens := s.w (almOpen n)
      let s := if opens / 65536 = s.mtm.mt / 65536 then s.advance (s.nsForTicks (opens - s.mtm.mt)) else s
      let past := (s.mtm.mt + 2 ^ 48 - opens) % 2 ^ 48
      if past < a.width then s.almFire n false
      else if past < 2 ^ 47 then s.almFire n true
      else s

/-- A write of `MTM_ALM_CTL_n` (R52): arms or disarms the alarm; one that leaves EN at 1 is discarded. -/
def State.almCtlSet (s : State) (n : Nat) (v : Word) : State :=
  let old := s.rd (almCtl n)
  if old.getLsbD 0 && v.getLsbD 0 then s.ev .mtm Ev.ALARM_BUSY [n]
  else
    let s := s.wr (almCtl n) ((v &&& 0xFFFFFFF5) ||| (old &&& 8))
    if v.getLsbD 0 then (s.almArm n).almCheck n else s.almDisarm n

/-- The same, behind the gate of its register. -/
def State.almCtlOp (s : State) (req : Req) (n : Nat) (v : Word) : State :=
  let same := decide ((v &&& 0xFFFFFFF5) = (s.rd (almCtl n) &&& 0xFFFFFFF5))
  s.gate .mtm (if same then .guest else almLevel n) (almCtl n) req fun s => s.almCtlSet n v

/-- ALARM_CTL_WRITE. -/
def execAlarmCtlWrite (req : Req) (n : BitVec 8) (value : Word) (s : State) : Host.Outcome State Fault Refusal :=
  .next (s.almCtlOp req n.toNat value)

end Sys2Proof.Machine
end

