-- ==== Sys2Proof/Machine/Pkb.lean ====
section
/-! DEFINITION. The packet memory (spec/04): cells, quires, their write and read sides and their commands. -/

namespace Sys2Proof.Machine

/-! ### Cells (R88, R91) -/

/-- The cells of a packet of `l` bytes (R88). -/
def cellsFor (l : Nat) : Nat := (l + 32 + 255) / 256

/-- A quire. -/
def State.quire (s : State) (q : Nat) : Quire := s.pkb.quires.lookD q {}

/-- A packet. -/
def State.pkt (s : State) (id : Nat) : Option Packet := s.pkb.pkts.look id

/-- The state with a packet changed. -/
def State.editPkt (s : State) (id : Nat) (f : Packet → Packet) : State :=
  { s with pkb.pkts := s.pkb.pkts.edit id f }

/-- The cells of the shared pool that are free: those neither reserved, retired, nor in use beyond a reserve (R91). -/
def State.sharedFree (s : State) : Nat :=
  196608 - s.pkb.retired.length - (List.range 128).foldl (fun n q => n + max (s.quire q).used (s.quire q).reserve) 0

/-- QUOTA of quire `q` admits `n` more cells (R91, R119). -/
def State.quotaFits (s : State) (q n : Nat) : Bool := decide ((s.quire q).used + n ≤ 4 * s.f (PKB_Q_LIMIT_QUOTA q))

/-- Whether quire `q` can take `n` more cells: from its reserve, then from the shared pool, up to QUOTA (R91). -/
def State.cellsFit (s : State) (q n : Nat) : Bool :=
  let k := s.quire q
  s.quotaFits q n && decide (max (k.used + n) k.reserve - max k.used k.reserve ≤ s.sharedFree)

/-- `PKB_STATUS` and `PKB_Q_STAT_q` follow the quires. -/
def State.pkbSync (s : State) (q : Nat) : State :=
  let k := s.quire q
  let s := s.poolSync
  (s.set (PKB_Q_STAT_CELLS q) k.used).set (PKB_Q_STAT_PKTS q)
    (min 16383 (k.visible.length + (if k.current.isSome then 1 else 0)))

/-- The state with a quire changed. -/
def State.editQuire (s : State) (q : Nat) (f : Quire → Quire) : State :=
  { s with pkb.quires := s.pkb.quires.put q (f (s.quire q)) }.pkbSync q

/-- The cells that hold a packet or are retired. -/
def State.cellsTaken (s : State) : List Nat := s.pkb.retired ++ s.pkb.pkts.flatMap fun (e : Nat × Packet) => e.2.chain

/-- The first cell from `a` on, round the packet SRAM, that is not taken (R88: a cell never holds words of two packets). -/
def cellFrom (taken : List Nat) : Nat → Nat → Nat
  | 0, a => a
  | n + 1, a => if taken.contains a then cellFrom taken n ((a + 1) % 196608) else a

/-- A packet takes one more cell: the link entry of its last cell is written (R89). Which cell is open (free value). -/
def State.cellTake (s : State) (id : Nat) : State :=
  let taken := s.cellsTaken
  let c := cellFrom taken taken.length (s.free .cellIndex % 196608)
  let last := (s.pkt id).bind fun p => p.chain.getLast?
  let s := s.drawn.editPkt id fun p => { p with chain := p.chain ++ [c] }
  s.with? last fun s a => s.unbad .pkb 1 a

/-- A packet takes `n` more cells, which its quire is charged for. -/
def State.cellsTake (s : State) (q id n : Nat) : State :=
  (s.each (List.replicate n id) State.cellTake).editQuire q fun k => { k with used := k.used + n }

/-- A packet's cells are freed and the packet is gone. Cells count as used until then (DEDUCED, log entry 20). -/
def State.pktFree (s : State) (id : Nat) : State :=
  match s.pkt id with
  | none => s
  | some p => { s with pkb.pkts := s.pkb.pkts.del id }.editQuire p.quire fun k =>
      { k with used := k.used - p.cells, visible := k.visible.filter fun x => decide (x ≠ id)
               opened := if k.opened = some id then none else k.opened
               current := if k.current.map Prod.fst = some id then none else k.current }

/-- A quire refuses new packets: EN 0 (R90), or a new configuration waits (R79). -/
def State.refuses (s : State) (q : Nat) : Bool := !s.on (PKB_Q_CFG_EN q) || s.cfg.reconfig.contains q

/-- PKB takes the reserve of a quire: what remains where it cannot be met in full (R91). -/
def State.takeReserve (s : State) (q : Nat) : State :=
  let s := s.editQuire q fun k => { k with reserve := 0 }
  let want := 4 * s.f (PKB_Q_LIMIT_RESERVE q)
  let got := min want (s.sharedFree + min want (s.quire q).used)
  let s := s.editQuire q fun k => { k with reserve := got }
  s.when (decide (got < want)) (·.ev .pkb Ev.PKB_RESERVE_SHORT [q])

/-- PKB takes every reserve, in ascending quire number (R91). -/
def State.takeReserves (s : State) : State :=
  let s := { s with pkb.quires := s.pkb.quires.map fun (k : Nat × Quire) => (k.1, { k.2 with reserve := 0 }) }
  s.each ((List.range 128).filter fun q => decide (s.f (PKB_Q_LIMIT_RESERVE q) ≠ 0)) State.takeReserve

/-! ### Writing (R92 to R97) -/

/-- The packet being written is closed as ABORT: its cells are freed (R92, R96). -/
def State.quireAbort (s : State) (q : Nat) : State :=
  match (s.quire q).opened with
  | some id => (s.pktFree id).bump PKB_CNT_ABORT
  | none => s

/-- The packet being written takes bytes: cells as they fill, the whole packet dropped where none can be allocated (R94);
at 16,384 bytes it is truncated to 16,383 (R95). -/
def State.quireBytes (s : State) (q id : Nat) (bytes : List Byte) : State :=
  match s.pkt id with
  | none => s
  | some p =>
    if p.trunc then s
    else
      let data := p.data ++ bytes
      let long := decide (16384 ≤ data.length)
      let data := if long then data.take 16383 else data
      let more := cellsFor data.length - p.cells
      if !s.cellsFit q more then
        ((s.pktFree id).editQuire q fun k => { k with discard := true }).bump PKB_CNT_NOCELL
      else
        let s := s.editPkt id fun p => { p with data := data, cells := p.cells + more, trunc := long }
        (s.cellsTake q id more).when long (·.bump PKB_CNT_TRUNC)

/-- The bytes of a beat that the lanes of a quire carry (R92: 32 or 64 bits). -/
def State.lane (s : State) (q : Nat) (bytes : List Byte) : List Byte :=
  bytes.take (if s.on (PKB_Q_CFG_WIDTH q) then 8 else 4)

/-- A START beat (R92, R94). -/
def State.quireStart (s : State) (q : Nat) (info bytes : List Byte) : State :=
  let s := (s.quireAbort q).editQuire q fun k => { k with discard := false }
  if s.refuses q || !s.cellsFit q 1 then (s.editQuire q fun k => { k with discard := true }).bump PKB_CNT_NOCELL
  else
    let id := s.pkb.next
    let p : Packet := { quire := q, ingress := q, info := info, cells := 1, ltFirst := s.lt }
    let s := { s with pkb.pkts := s.pkb.pkts.put id p, pkb.next := id + 1 }
    ((s.editQuire q fun k => { k with opened := some id }).cellsTake q id 1).quireBytes q id bytes

/-- A completed packet is visible to the read side; a Bodkin consumer is interrupted (R96, R390). -/
def State.quireShow (s : State) (q id : Nat) : State :=
  let s := s.editQuire q fun k => { k with visible := k.visible ++ [id] }
  s.when (decide (s.f (PKB_Q_CFG_CONS q) = UnitId.cpu.num)) (·.irq 2)

/-- END with GOOD or BAD (R96): a packet of zero bytes is discarded; else the header slot is written and it becomes visible. -/
def State.quireClose (s : State) (q id : Nat) (good : Bool) : State :=
  match s.pkt id with
  | none => s
  | some p =>
    if p.data = [] then (s.pktFree id).bump PKB_CNT_EMPTY
    else
      let n := s.pkb.shown
      let s := { s with pkb.shown := n + 1 }.editPkt id fun p => { p with good := good, bad := !good, entered := n }
      (s.editQuire q fun k => { k with opened := if k.opened = some id then none else k.opened }).quireShow q id

/-- An END beat (R96). -/
def State.quireEnd (s : State) (q : Nat) (bytes : List Byte) (close : CloseStatus) : State :=
  let k := s.quire q
  if k.discard then s.editQuire q fun k => { k with discard := false, opened := none }
  else match k.opened with
  | none => s
  | some id =>
    let s := s.quireBytes q id bytes
    if (s.quire q).discard then s.editQuire q fun k => { k with discard := false }
    else match close with
    | .abort => s.quireAbort q
    | .good => s.quireClose q id true
    | .bad => s.quireClose q id false

/-- Word `w` of a packet is poisoned: its tag, the packet, and STATUS as well if it has not completed (R107). -/
def State.pktPoison (s : State) (id w : Nat) : State :=
  s.editPkt id fun p => { p with
    poison := true, statusPoison := p.statusPoison || (!p.good && !p.bad)
    badWords := if p.badWords.contains w then p.badWords else p.badWords ++ [w] }

/-- A whole packet written by a unit of the device, some of whose data words the unit has read as uncorrectable: their tags carry POISON,
and the packet, which has not yet completed, is poisoned in STATUS too (R104, R107). True where the quire took it (R94: the producer
learns of a refusal). -/
def State.quireWriteBad (s : State) (q : Nat) (info bytes : List Byte) (good : Bool) (bad : List Nat) : State × Bool :=
  let s := s.quireStart q info []
  match (s.quire q).opened with
  | none => (s.editQuire q fun k => { k with discard := false }, false)
  | some id =>
    let s := s.quireBytes q id bytes
    if (s.quire q).discard then (s.editQuire q fun k => { k with discard := false }, false)
    else ((s.each bad fun s w => s.pktPoison id (w + 1)).quireClose q id good, true)

/-- A whole packet written by a unit of the device. -/
def State.quireWrite (s : State) (q : Nat) (info bytes : List Byte) (good : Bool) : State × Bool :=
  s.quireWriteBad q info bytes good []

/-- QUIRE_START_BEAT. -/
def execQuireStartBeat (quire : BitVec 7) (info : BitVec 128) (data : List (BitVec 8)) (s : State) :
    Host.Outcome State Fault Refusal :=
  .next (s.datapath .pkb fun s => s.quireStart quire.toNat (natLe 16 info.toNat) (s.lane quire.toNat data))

/-- QUIRE_DATA_BEAT. -/
def execQuireDataBeat (quire : BitVec 7) (data : List (BitVec 8)) (s : State) : Host.Outcome State Fault Refusal :=
  .next <| s.datapath .pkb fun s =>
    let k := s.quire quire.toNat
    match k.opened with
    | some id => if k.discard then s else s.quireBytes quire.toNat id (s.lane quire.toNat data)
    | none => s

/-- QUIRE_END_BEAT. -/
def execQuireEndBeat (quire : BitVec 7) (data : List (BitVec 8)) (close : CloseStatus) (s : State) :
    Host.Outcome State Fault Refusal :=
  .next (s.datapath .pkb fun s => s.quireEnd quire.toNat (s.lane quire.toNat data) close)

/-! ### Reading (R97, R98, R107, R108) -/

/-- STATUS of the header slot (R97). -/
def pktStatus (p : Packet) : Nat := p.good.toNat + 2 * p.bad.toNat + 4 * p.trunc.toNat + 8 * p.statusPoison.toNat

/-- The 32 bytes of the header slot (R97). -/
def headerSlot (p : Packet) : List Byte :=
  natLe 4 (p.data.length % 16384 + pktStatus p * 2 ^ 16 + p.cells * 2 ^ 24) ++ natLe 4 (p.ingress % 128) ++
    natLe 8 p.ltFirst ++ (p.info ++ List.replicate (16 - p.info.length) 0).take 16

/-- The data words of a packet (R85). -/
def dataWords (p : Packet) : Nat := (p.data.length + 31) / 32

/-- Word `w` of a packet, its header slot being word 0 (R85, R93). -/
def pktWord (p : Packet) (w : Nat) : List Byte :=
  if w = 0 then headerSlot p else (p.data.drop (32 * (w - 1))).take 32

/-- The word tag of word `w` of a packet (R86, R93, R97). -/
def pktTag (p : Packet) (w : Nat) : Nat :=
  let eop := decide (w ≠ 0 ∧ w = dataWords p)
  128 * (decide (w = 0)).toNat + 64 * eop.toNat + 32 * (p.badWords.contains w).toNat + (if eop then p.data.length % 32 else 0)

/-- The cell of word `w` of a packet, and the word within it, as `LAST_ADDR` shows them. -/
def cellAddr (p : Packet) (w : Nat) : Nat := 8 * p.chain.getD (w / 8) 0 + w % 8

/-- The cells of a packet that a bad link has cut off are retired; 1,024 of them are a packet memory fault (R108). -/
def State.retireCells (s : State) (l : List Nat) : State :=
  let s := { s with pkb.retired := s.pkb.retired ++ l }.poolSync
  s.when (decide (1024 ≤ s.f PKB_STATUS_RETIRED)) (·.asyFault .packetMemory .datapath)

/-- A word of a packet is read from the packet SRAM and decoded: what the unit finds is counted for PKB and for the quire
that owns the cell (R105). The result is the word and whether it was uncorrectable. -/
def State.pktRead (s : State) (id w : Nat) (err : ReadErr) : State × List Byte × Bool :=
  match s.pkt id with
  | none => (s, [], false)
  | some p =>
    let cw := upsetWord (wgcEncode (pktWord p w)) err.word
    let r := if err.tags then WgcResult.uncorrectable else wgcDecode cw
    match r with
    | .correct => (s, cw.take 32, false)
    | .corrected pos flip =>
      ((s.wgcCorr .pkb 0 pos (cellAddr p w)).bump (PKB_Q_CORR p.quire), wgcData cw (.corrected pos flip), false)
    | .uncorrectable => ((s.wgcUncorr .pkb 0 (cellAddr p w)).bump (PKB_Q_UNC p.quire), cw.take 32, true)

/-- The packet whose link entry number `n` cannot be used is discarded, and the cells past that entry are retired (R108). -/
def State.linkLost (s : State) (id n : Nat) : State :=
  match s.pkt id with
  | none => s
  | some p => ((s.pktFree id).bump PKB_CNT_HDR_POISON).retireCells (p.chain.drop (n + 1))

/-- Before the first word of a later cell is read, the link entry of the cell before it is (R89): an uncorrectable one, or one
that a scrub found so (R109), loses the packet. The result says whether the packet is still there. -/
def State.linkRead (s : State) (id w : Nat) (link : List Upset) : State × Bool :=
  if w % 8 ≠ 0 || w = 0 then (s, true)
  else match s.pkt id with
  | none => (s, false)
  | some p =>
    let n := w / 8 - 1
    let entry := p.chain.getD n 0
    if s.isBad .pkb 1 entry then (s.linkLost id n, false)
    else match wgcDecode (upsetWord (wgcEncode (natLe 4 (p.chain.getD (n + 1) 0))) link) with
    | .correct => (s, true)
    | .corrected pos _ => (s.wgcCorr .pkb 1 pos (8 * entry), true)
    | .uncorrectable => ((s.wgcUncorr .pkb 1 (8 * entry)).linkLost id n, false)

/-- The header slot of a packet is read (R98): uncorrectable, the whole packet is discarded (R108). -/
def State.headerRead (s : State) (id : Nat) (err : ReadErr) : State × Bool :=
  match s.pktRead id 0 err with
  | (s, _, true) => ((s.pktFree id).bump PKB_CNT_HDR_POISON, false)
  | (s, w, false) => ({ s with pkb.readWord := w, pkb.readTag := 128 }, true)

/-- A unit of the device reads words of a packet: those that the errors name decode as R103 says, every other one as it was
written (R105). A bad data word poisons the packet (R107). The result is the packet with the data that the unit reads, or none
where PKB has discarded it (R108). -/
def State.pktScan (s : State) (id : Nat) (k : Packet) : List WordErr → State × Option Packet
  | [] => (s, some k)
  | e :: t =>
    let w := e.word.toNat
    if dataWords k < w then s.pktScan id k t
    else if w = 0 then
      match s.headerRead id e.err with
      | (s, false) => (s, none)
      | (s, true) => s.pktScan id k t
    else match s.linkRead id w e.err.link with
    | (s, false) => (s, none)
    | (s, true) => match s.pktRead id w e.err with
      | (s, l, bad) =>
        let at_ := 32 * (w - 1)
        (s.when bad (·.pktPoison id w)).pktScan id
          { k with data := putBytes k.data at_ (l.take (k.data.length - at_)), poison := k.poison || bad } t

/-- The words of a packet numbered `a` to `b`, and of these alone what the errors name. -/
def wordsIn (a b : Nat) (errs : List WordErr) : List WordErr :=
  errs.filter fun e => decide (a ≤ e.word.toNat) && decide (e.word.toNat ≤ b)

/-- The next word of a quire is read (R98) with its tag (R86): the header slot of its next packet, or the next data word of the
current one, whose last word frees it. A poisoned packet queued for a Bodkin core is discarded at its read (R107). -/
def State.quireRead (s : State) (q : Nat) (err : ReadErr) : State :=
  match (s.quire q).current with
  | none =>
    match (s.quire q).visible with
    | [] => s
    | id :: rest =>
      let poison := match s.pkt id with | some p => p.poison | none => false
      if poison && decide (s.f (PKB_Q_CFG_CONS q) = UnitId.cpu.num) then (s.pktFree id).bump PKB_CNT_POISON_DROP
      else
        let s := s.editQuire q fun k => { k with visible := rest, current := some (id, 0) }
        (s.headerRead id err).1
  | some (id, n) =>
    let (s, there) := s.linkRead id (n + 1) err.link
    if !there then s
    else
      let (s, w, bad) := s.pktRead id (n + 1) err
      let s := s.when bad (·.pktPoison id (n + 1))
      let tag := match s.pkt id with | some p => pktTag p (n + 1) | none => 0
      let s := { s with pkb.readWord := w, pkb.readTag := tag }
      let last := match s.pkt id with | some p => decide (dataWords p ≤ n + 1) | none => true
      if last then s.pktFree id else s.editQuire q fun k => { k with current := some (id, n + 1) }

/-- QUIRE_WORD_READ. -/
def execQuireWordRead (quire : BitVec 7) (err : ReadErr) (s : State) : Host.Outcome State Fault Refusal :=
  .next (s.datapath .pkb fun s => s.quireRead quire.toNat err)

/-! ### Commands (R90, R99, R100) -/

/-- The lowest level that may command a quire. -/
def State.quireLevel (s : State) (q : Nat) : Level :=
  match s.f (PKB_Q_CFG_LEVEL q) with | 1 => .operator | 2 => .guest | _ => .vendor

/-- The quire command register, for a command on quire `q`. -/
def State.qcmd (s : State) (q : Nat) : CmdReg := ⟨PKB_QCMD_STATE.addr, .pkb, s.quireLevel q⟩

/-- A quire that is disabled and holds no packet takes no command. -/
def State.quireVoid (s : State) (q : Nat) : Bool :=
  let k := s.quire q
  !s.on (PKB_Q_CFG_EN q) && k.visible.isEmpty && k.current.isNone && k.opened.isNone

/-- DROP_PKT (R99). -/
def State.dropPktOp (s : State) (req : Req) (q : Nat) : State :=
  s.command (s.qcmd q) req fun s =>
    let s := s.set PKB_QCMD_QUIRE q
    if s.quireVoid q then s.cmdError PKB_QCMD_STATE.addr 3
    else match (s.quire q).current with
    | some (id, _) => (s.pktFree id).cmdDone PKB_QCMD_STATE.addr
    | none => s.cmdError PKB_QCMD_STATE.addr 2

/-- FLUSH (R100). -/
def State.flushOp (s : State) (req : Req) (q : Nat) : State :=
  s.command (s.qcmd q) req fun s =>
    let s := s.set PKB_QCMD_QUIRE q
    if s.quireVoid q then s.cmdError PKB_QCMD_STATE.addr 3
    else
      let k := s.quire q
      let ids := (k.current.map Prod.fst).toList ++ k.visible
      (s.each ids State.pktFree).cmdDone PKB_QCMD_STATE.addr

/-- DROP_PKT. -/
def execDropPkt (req : Req) (quire : BitVec 7) (s : State) : Host.Outcome State Fault Refusal :=
  .next (s.dropPktOp req quire.toNat)

/-- FLUSH. -/
def execFlush (req : Req) (quire : BitVec 7) (s : State) : Host.Outcome State Fault Refusal :=
  .next (s.flushOp req quire.toNat)

/-- A write that clears EN of a quire (R90). -/
def State.quireDisableOp (s : State) (req : Req) (q : Nat) : State :=
  s.gate .pkb .operator (PKB_Q_CFG_EN q).addr req fun s => s.down (PKB_Q_CFG_EN q)

/-- QUIRE_DISABLE. -/
def execQuireDisable (req : Req) (quire : BitVec 7) (s : State) : Host.Outcome State Fault Refusal :=
  .next (s.quireDisableOp req quire.toNat)

end Sys2Proof.Machine
end

