-- ==== Sys2Proof/Machine/CipOps.lean ====
section
/-! DEFINITION. The cipher engine (spec/13): ring jobs and their checks, service and erase. -/

namespace Sys2Proof.Machine

/-- `CIP_KEY_BUF` and `CIP_ROOT_BUF` are cleared. -/
def State.keyBufClear (s : State) : State :=
  (s.each (List.range 25) fun s i => s.wr ((CIP_KEY_BUF_KEY_W 0).addr + 4 * i) 0)
def State.rootBufClear (s : State) : State := s.each (List.range 8) fun s i => s.wr ((CIP_ROOT_BUF_W 0).addr + 4 * i) 0

/-- Bytes of consecutive registers. -/
def State.regBytes (s : State) (a n : Nat) : List Byte :=
  ((List.range ((n + 3) / 4)).map fun i => natLe 4 (s.rd (a + 4 * i)).toNat).flatten.take n

/-! ### Serving (R313, R314, R326, R330) -/

/-- The lowest pair in service that runs no ring job. -/
def State.freePair (s : State) : Option Nat :=
  (List.range 3).find? fun p =>
    !(s.f CIP_STATUS_QUAR).testBit p && !(s.cip.jobs.any fun j => decide (j.pair = some p) && j.code.isNone)

/-- An inline job is served: without a pair it is discarded (R330), without its key it ends with KEY (R319). -/
def State.inlineServe (s : State) (j : CipInline) : State :=
  if s.noLane then s.inlineLost
  else match j.key with
  | .table i => (s.tableUse i.toNat).1.bump CIP_CNT_JOBS
  | .derived slot label k256 =>
    if j.waits.isSome || !s.rootOk slot.toNat then s.bump CIP_CNT_JOBS
    else
      let (s, w) := s.deriveAsk (s.cipTag slot.toNat (if k256 then 256 else 128) label)
      match w with
      | none => s.bump CIP_CNT_JOBS
      | some t => { s with cip.inlines := s.cip.inlines ++ [{ j with waits := some t }] }

/-- Inline jobs that waited for an erase or the entropy source start, in arrival order. -/
def State.inlineStart (s : State) : State :=
  if s.cipHeld then s
  else
    let go := s.cip.inlines.filter fun (j : CipInline) => j.waits.isNone
    let s := { s with cip.inlines := s.cip.inlines.filter fun (j : CipInline) => j.waits.isSome }
    s.each go State.inlineServe

/-! ### Erase (R328, R329) -/

/-- The number of an alarm in `CIP_ALARM.CAUSE`. -/
def alarmBit : CipAlarm → Nat
  | .tamper => 1 | .vglitch => 2 | .cglitch => 3

/-- An alarm: logged, reported, and an erase starts, or the one that runs takes its cause. Running ring jobs end with
ERASED; `n` inline jobs that run are discarded. -/
def State.cipAlarm (s : State) (bit n : Nat) : State :=
  let s := (s.set CIP_ALARM_CAUSE (Nat.lor (s.f CIP_ALARM_CAUSE) (2 ^ bit))).ev .cip Ev.CIP_ALARM [bit]
  let s := s.asyFault (if bit = 1 then .cipherTamper else .cipherAlarm) .cipher
  let s := { s with cip.causes := Nat.lor s.cip.causes (2 ^ bit) }
  if s.on CIP_STATUS_ERASING then s
  else
    let s := (s.up CIP_STATUS_ERASING).bump CIP_CNT_ABORTED n
    let w := (s.cip.inlines.filter fun (j : CipInline) => j.waits.isSome).length
    let s := s.bump CIP_CNT_ABORTED w
    { s with
      cip.eraseEnd := some (s.now + 20000)
      cip.derivs := []
      cip.inlines := s.cip.inlines.filter fun (j : CipInline) => j.waits.isNone
      cip.jobs := s.cip.jobs.map fun (j : CipJob) => if j.code.isNone then { j with code := some 9, waits := none, pair := none } else j }

/-! ### Job checks (R315, R319, R320) -/

/-- A number in a descriptor. -/
def descLe (d : List Byte) (a n : Nat) : Nat := leNat ((d.drop a).take n)

/-- IVLEN and TAGLEN that a mode allows. -/
def ivAllowed (mode n : Nat) : Bool :=
  match mode with
  | 1 | 2 | 3 | 4 => decide (n = 16)
  | 7 => decide (7 ≤ n ∧ n ≤ 13)
  | 8 => decide (n = 13)
  | 9 => decide (n = 12)
  | _ => decide (n = 0)
def tagAllowed (mode n : Nat) : Bool :=
  match mode with
  | 5 | 6 => decide (4 ≤ n ∧ n ≤ 16)
  | 7 => [4, 6, 8, 10, 12, 14, 16].contains n
  | 8 => [0, 4, 8, 16].contains n
  | 9 => [4, 8, 12, 13, 14, 15, 16].contains n
  | _ => decide (n = 0)

/-- The level of a ring, and whether it reaches a level: 0 Vendor, 1 Operator, 2 Guest; 3 acts as Vendor. -/
def State.ringLevel (s : State) (n : Nat) : Nat := let l := s.f (CIP_RING_CFG_LEVEL n); if l = 3 then 0 else l

/-- The label a descriptor names; none where it cannot be read. -/
def State.descLabel (s : State) (d : List Byte) : Option (List Byte) := s.dataRead (descLe d 56 8) (descLe d 2 2 / 4 % 128)

/-- PRIV of R319: the mode, the key source, or a reserved label lies above the ring's level. -/
def State.jobPriv (s : State) (level : Nat) (d : List Byte) : Bool :=
  let op := descLe d 0 1
  let ref := descLe d 2 2
  (decide (op % 16 = 0) && decide (level ≠ 0)) ||
    match op / 32 % 4 with
    | 1 => decide (ref < 2432) || (match s.cip.table.look ref with | some k => decide (k.level < level) | none => false)
    | 2 => decide (level = 2) || (decide (2 ≤ ref % 4) && decide (level ≠ 0)) ||
        (match s.descLabel d with | some l => reservedLabel l | none => false)
    | _ => false

/-- KEY of R319. -/
def State.jobNoKey (s : State) (d : List Byte) : Bool :=
  let ref := descLe d 2 2
  match descLe d 0 1 / 32 % 4 with
  | 1 => (s.cip.table.look ref).isNone
  | 2 => !s.rootOk (ref % 4) || decide (ref / 4 % 128 = 0) || decide (64 < ref / 4 % 128)
  | _ => false

/-- The checks that come before any memory is written (R319), in their order; none where the job may run. -/
def State.jobCode (s : State) (level : Nat) (d : List Byte) : Option Nat :=
  let op := descLe d 0 1
  let mode := op % 16
  let len := descLe d 4 2
  let aad := descLe d 6 2
  let ivlen := descLe d 9 1
  if s.jobPriv level d then some 7
  else if 10 ≤ mode ∨ op / 32 % 4 = 3 ∨ !ivAllowed mode ivlen ∨ !tagAllowed mode (descLe d 8 1) then some 5
  else if s.jobNoKey d then some 6
  else if 65535 < len + aad then some 3
  else if ((mode ≤ 1 ∨ mode = 5) ∧ len % 16 ≠ 0) ∨ (mode = 5 ∧ len = 0) ∨ (mode < 7 ∧ aad ≠ 0) then some 2
  else if mode = 7 ∧ (65280 ≤ aad ∨ 2 ^ (8 * (15 - ivlen)) ≤ len) then some 4
  else if mode = 2 then
    match s.dataRead (descLe d 40 8) 16 with
    | some iv => if 2 ^ 32 < beNat (iv.drop 12) + (len + 15) / 16 then some 4 else none
    | none => none
  else none

/-- The key a job runs with and the derived key it names, or the code that the job ends with: MEM where a key or a label is not there,
KEY where a table entry does not unwrap (R320, R324). -/
def State.jobKey (s : State) (d : List Byte) : State × Except Nat (List Byte × Option CipTag) :=
  let op := descLe d 0 1
  let k256 := decide (128 ≤ op)
  let ref := descLe d 2 2
  match op / 32 % 4 with
  | 0 =>
    match s.dataRead (descLe d 56 8) (if k256 then 32 else 16) with
    | some k => (s, .ok (k, none))
    | none => (s, .error 0xA)
  | 1 =>
    match s.tableUse ref with
    | (s, some k) => (s, .ok (k, none))
    | (s, none) => (s, .error 6)
  | _ =>
    match s.descLabel d with
    | some l => let t := s.cipTag (ref % 4) (if k256 then 256 else 128) l; (s, .ok (s.derivedKey t, some t))
    | none => (s, .error 0xA)

/-- What a job's mode computes from its inputs in memory: the output, its full tag, and the tag to verify; none where an address is not
there. -/
def State.jobCompute (s : State) (d key : List Byte) : Option (List Byte × List Byte × List Byte) :=
  let op := descLe d 0 1
  let mode := op % 16
  let dec := (op / 16 % 2 = 1 : Bool)
  let taglen := descLe d 8 1
  match s.dataRead (descLe d 16 8) (descLe d 4 2), s.dataRead (descLe d 32 8) (if mode < 7 then 0 else descLe d 6 2),
      s.dataRead (descLe d 40 8) (descLe d 9 1), s.dataRead (descLe d 48 8) (if dec then taglen else 0) with
  | some src, some aad, some iv, some given =>
    let (out, tag) := cipCompute mode dec key iv aad src taglen
    some (out, tag.take taglen, given)
  | _, _, _, _ => none

/-- The blocks of a job that left its pair before the lanes disagreed: they matched and remain valid (R327). -/
def State.jobPart (s : State) (d key : List Byte) (blocks : Nat) : State :=
  match s.jobCompute d key with
  | some (out, _, _) => (s.dataWrite (descLe d 24 8) (out.take (16 * blocks))).getD s
  | none => s

/-! ### Running a job (R316) -/

/-- A job's effect on memory and its code: MEM where an address is not there, AUTH where its tag does not verify. -/
def State.jobRun (s : State) (d key : List Byte) : State × Nat :=
  let op := descLe d 0 1
  let mode := op % 16
  let dec := (op / 16 % 2 = 1 : Bool)
  let len := descLe d 4 2
  let taglen := descLe d 8 1
  if len = 0 ∧ mode ≤ 4 then (s, 0)
  else match s.jobCompute d key with
  | none => (s, 0xA)
  | some (out, tag, given) =>
    match s.dataWrite (descLe d 24 8) out with
    | none => (s, 0xA)
    | some t =>
      if dec && decide (taglen ≠ 0) then
        if tag = given then (t, 0)
        else if 7 ≤ mode then ((s.dataWrite (descLe d 24 8) (List.replicate len 0)).getD s, 1)
        else (s, 1)
      else match t.dataWrite (descLe d 48 8) tag with
        | some t => (t, 0)
        | none => (t, 0xA)

end Sys2Proof.Machine
end

