-- ==== Sys2Proof/Machine/Edition.lean ====
section
/-! DEFINITION. Rule editions (R129 to R134): references, the draining of editions, and what becomes of rules when OLDEST
advances. -/

namespace Sys2Proof.Machine

/-- The oldest live edition and the current one. -/
def State.edOldest (s : State) : Nat := s.f PAR_EDITION_OLDEST
def State.edCurrent (s : State) : Nat := s.f PAR_EDITION_CURRENT

/-- The distance of an edition from the oldest live one, modulo 65,536 (R129). -/
def State.edDist (s : State) (e : Nat) : Nat := (e + 65536 - s.edOldest) % 65536

/-- An edition within [OLDEST, CURRENT] (R130). -/
def State.edLive (s : State) (e : Nat) : Bool := decide (s.edDist e ≤ s.edDist s.edCurrent)

/-- The pending edition (R130). -/
def State.edPending (s : State) : Nat := (s.edCurrent + 1) % 65536

/-- Whether a rule is visible in an edition (R129, R132). -/
def State.ruleVisible (s : State) (r : Rule) (e : Nat) : Bool :=
  (r.settled || decide (s.edDist r.fromEd ≤ s.edDist e)) && (r.opened || decide (s.edDist e < s.edDist r.untilEd))

/-- The references held on an edition. -/
def State.edRefs (s : State) (e : Nat) : Nat := s.par.refs.lookD e 0

/-- `PAR_ED_REF_k` follow the live editions and their references. -/
def State.edSync (s : State) : State :=
  s.each (List.range 4) fun s k =>
    let e := (s.edOldest + k) % 65536
    let live := s.edLive e
    (s.put (PAR_ED_REF_LIVE k) live).set (PAR_ED_REF_REFS k) (if live then s.edRefs e else 0)

/-- A table after OLDEST has moved from `old`: rules whose FROM it has passed are settled, and rules whose UNTIL lies at or
before it are gone (R132). -/
def rulesSettle (old new : Nat) (m : Map Rule) : Map Rule :=
  (m.filter fun (r : Nat × Rule) => r.2.opened || r.2.untilEd ≠ new).map fun (r : Nat × Rule) =>
    (r.1, if r.2.fromEd = old then { r.2 with settled := true } else r.2)

/-- OLDEST advances past every drained edition before CURRENT (R130): at most three of them. -/
def State.edDrain (s : State) : Nat → State
  | 0 => s
  | n + 1 =>
    let old := s.edOldest
    if old = s.edCurrent || s.edRefs old ≠ 0 then s
    else
      let new := (old + 1) % 65536
      let s := s.set PAR_EDITION_OLDEST new
      let s := { s with
        par.ternary := rulesSettle old new s.par.ternary
        par.exact := rulesSettle old new s.par.exact
        par.refs := s.par.refs.del old }
      s.edDrain n

/-- A reference is taken on an edition. -/
def State.edHold (s : State) (e : Nat) : State :=
  { s with par.refs := s.par.refs.put e (s.edRefs e + 1) }.edSync

/-- A reference is released, which may drain editions. -/
def State.edRelease (s : State) (e : Nat) : State :=
  ({ s with par.refs := s.par.refs.put e (s.edRefs e - 1) }.edDrain 3).edSync

/-- A packet's reference on its entry edition is released (R131). -/
def State.pktRelease (s : State) (id : Nat) : State :=
  match (s.pkt id).bind (·.edition) with
  | some e => (s.editPkt id fun p => { p with edition := none }).edRelease e
  | none => s

/-- A packet is discarded: its reference goes and its cells are freed (R131). -/
def State.pktDiscard (s : State) (id : Nat) : State := (s.pktRelease id).pktFree id

/-- A packet is relinked into an exception quire without copying its cells, or dropped where its QUOTA does not admit them
(R119); its reference is released (R131). -/
def State.toQuire (s : State) (id q : Nat) : State :=
  match s.pkt id with
  | none => s
  | some p =>
    if s.refuses q then (s.pktDiscard id).bump PKB_CNT_NOCELL
    else
      let s0 := s.editQuire p.quire fun k => { k with used := k.used - p.cells }
      if !s0.quotaFits q p.cells then (s.pktDiscard id).bump PAR_CNT_EXC_FULL
      else
        let s := s0.editPkt id fun p => { p with quire := q }
        let s := s.editQuire q fun k => { k with used := k.used + p.cells }
        (s.pktRelease id).quireShow q id

end Sys2Proof.Machine
end

