-- ==== Sys2Proof/Machine/Egress.lean ====
section
/-! DEFINITION. The bytes and the length of a forwarded packet after the rewrite of FLW (R118, R123, R147 to R150, R341),
before the header of its egress. -/

namespace Sys2Proof.Machine

/-- The big-endian number of `k` bytes at position `n`. -/
def beAt (l : List Byte) (n k : Nat) : Nat := beNat ((l.drop n).take k)

/-- A one's complement sum of the 16-bit words of bytes. -/
def onesSum : List Byte → Nat
  | a :: b :: t => a.toNat * 256 + b.toNat + onesSum t
  | [a] => a.toNat * 256
  | [] => 0

/-- The Internet checksum of a sum. -/
def onesFold (n : Nat) : Nat :=
  let n := n % 65536 + n / 65536
  let n := n % 65536 + n / 65536
  65535 - (n % 65536 + n / 65536)

/-- The layer of a code within a set that was recorded last, with its offset in the packet. -/
def lastLayer (p : Packet) (codes : List Nat) : Option (Nat × Nat) :=
  (p.layers.reverse.find? fun l => codes.contains l.1).map fun l => (l.1, p.start + l.2)

/-- The layer of IP that FLW takes the key from, and routes by: the last one recorded (R397). -/
def ipLayer (p : Packet) : Option (Nat × Nat) := lastLayer p [0x10, 0x11]

/-- The transport layer recorded last (R397). -/
def l4Layer (p : Packet) : Option (Nat × Nat) := lastLayer p [0x20, 0x21, 0x22, 0x23]

/-- The outermost IP header that the last pass recorded: type code and byte of the packet. -/
def passIp (p : Packet) : Option (Nat × Nat) :=
  (p.layers.find? fun l => l.1 = 0x10 || l.1 = 0x11).map fun l => (l.1, p.start + l.2)

/-- The outermost IP header of the packet (R340): of an earlier pass whose bytes are not removed (R117), else of the last one. -/
def outerIp (p : Packet) : Option (Nat × Nat) := p.head.or (passIp p)

/-- The bytes without the ranges that DECAP_RECIRC has passed over (R118). -/
def cutRemoved (p : Packet) (d : List Byte) : List Byte :=
  p.removed.reverse.foldl (fun (d : List Byte) r => d.take r.1 ++ d.drop r.2) d

/-- How many removed bytes lie from byte `a` of the packet to byte `b`. -/
def removedIn (p : Packet) (a b : Nat) : Nat := p.removed.foldl (fun n r => n + (min r.2 b - max r.1 a)) 0

/-- The length from the outermost IP header on, without padding (R123), and after NAT64 has changed the family (R150): an IPv4 header of
20 bytes stands for all that lies before the transport layer, a Fragment header among it. -/
def ipLength (p : Packet) : Nat :=
  match outerIp p with
  | none => p.data.length - p.start - p.padding
  | some (code, off) =>
    let n := p.data.length - p.padding - off - removedIn p off (p.data.length - p.padding)
    if !p.nat64 then n
    else match code, ipLayer p, l4Layer p with
    | 0x11, some (_, ip), some (_, l4) => n + 20 - (l4 - ip)
    | _, _, _ => n + 20

/-- TTL or hop limit decremented (R147). -/
def ttlStep (l : List Byte) (code at_ : Nat) : List Byte :=
  let n := at_ + (if code = 0x10 then 8 else 7)
  putBytes l n (natBe 1 (beAt l n 1 - 1))

/-- A NAT44 translation: source address and port, or for the inbound entry of the pair the destination's; an ICMP echo's
identifier stands for its port, and the ICMP checksum follows it (R149, R341). -/
def nat44 (l : List Byte) (ip l4 l4code addr port : Nat) (rev : Bool) : List Byte :=
  let l := putBytes l (ip + (if rev then 16 else 12)) (natBe 4 addr)
  if l4code = 0x22 then
    let old := beAt l (l4 + 4) 2
    let sum := beAt l (l4 + 2) 2
    let l := putBytes l (l4 + 4) (natBe 2 port)
    putBytes l (l4 + 2) (natBe 2 (onesFold ((65535 - sum) + (65535 - old) + port)))
  else putBytes l (l4 + (if rev then 2 else 0)) (natBe 2 port)

/-- The IPv4 header checksum recomputed (R341). -/
def sumIp (l : List Byte) (ip : Nat) : List Byte :=
  let n := 4 * (beAt l ip 1 % 16)
  let l := putBytes l (ip + 10) [0, 0]
  putBytes l (ip + 10) (natBe 2 (onesFold (onesSum ((l.drop ip).take n))))

/-- The TCP, UDP or ICMPv6 checksum recomputed over its pseudo-header; a UDP checksum of 0 over IPv4 stays 0 (R341). -/
def sumL4 (l : List Byte) (v6 : Bool) (ip l4 l4code : Nat) : List Byte :=
  let at_ := l4 + (match l4code with | 0x20 => 16 | 0x21 => 6 | _ => 2)
  let proto := match l4code with | 0x20 => 6 | 0x21 => 17 | _ => 58
  if l4code = 0x22 || (l4code = 0x21 && !v6 && beAt l at_ 2 = 0) then l
  else
    let n := l.length - l4
    let addrs := if v6 then (l.drop (ip + 8)).take 32 else (l.drop (ip + 12)).take 8
    let z := putBytes l at_ [0, 0]
    let c := onesFold (onesSum addrs + proto + n % 65536 + n / 65536 + onesSum (z.drop l4))
    putBytes z at_ (natBe 2 (if c = 0 && l4code = 0x21 then 65535 else c))

/-- The ICMP type that stands for an echo's type in the other family (R150): 128 and 129 for 8 and 0. -/
def echoOther (toV4 : Bool) (t : Nat) : Nat :=
  if toV4 then (if t = 128 then 8 else 0) else if t = 8 then 128 else 129

/-- The transport layer of a NAT64 packet: the translated port, or the identifier and the type of an echo. -/
def nat64L4 (toV4 : Bool) (l4code port : Nat) (rev : Bool) (l : List Byte) : List Byte :=
  if l4code = 0x22 ∨ l4code = 0x23 then
    putBytes (putBytes l 0 (natBe 1 (echoOther toV4 (beAt l 0 1)))) 4 (natBe 2 port)
  else putBytes l (if rev then 2 else 0) (natBe 2 port)

/-- The checksum of an ICMP message over IPv4, at its byte 2. -/
def sumIcmp (l : List Byte) : List Byte :=
  let z := putBytes l 2 [0, 0]
  putBytes z 2 (natBe 2 (onesFold (onesSum z)))

/-- A NAT64 packet (R150): the header of the other family over the transport layer, with the addresses of R150, the traffic class,
the payload's length, the hop limit and the protocol carried over, and the checksums recomputed. `l` is the packet from its IP
header on, `l4` the byte of its transport layer. -/
def nat64Bytes (toV4 : Bool) (l : List Byte) (l4 l4code addr port v6 prefix_ : Nat) (rev : Bool) : List Byte :=
  let free := Config.nat64 toV4 l
  let body := nat64L4 toV4 l4code port rev (l.drop l4)
  if toV4 then
    let proto := match l4code with | 0x23 => 1 | 0x20 => 6 | _ => 17
    let head := natBe 1 0x45 ++ natBe 1 (beAt l 0 2 / 16 % 256) ++ natBe 2 (20 + body.length) ++ natBe 2 (free % 65536) ++
      natBe 2 (free / 65536 % 4 * 0x2000) ++ natBe 1 (beAt l 7 1) ++ natBe 1 proto ++ [0, 0] ++ natBe 4 addr ++
      natBe 4 (beAt l 24 16 % 2 ^ 32)
    let d := sumIp (head ++ body) 0
    if l4code = 0x23 then d.take 20 ++ sumIcmp (d.drop 20) else sumL4 d false 0 20 l4code
  else
    let code := if l4code = 0x22 then 0x23 else l4code
    let next := if l4code = 0x22 then 58 else beAt l 9 1
    let head := natBe 4 (6 * 2 ^ 28 + beAt l 1 1 * 2 ^ 20 + free % 2 ^ 20) ++ natBe 2 body.length ++ natBe 1 next ++
      natBe 1 (beAt l 8 1) ++ natBe 16 (prefix_ * 2 ^ 32 + beAt l 12 4) ++ natBe 16 v6
    sumL4 (head ++ body) true 0 40 code

/-- The packet from its outermost IP header on, after the rewrite. -/
def ipBytes (p : Packet) : List Byte :=
  let d := p.data.take (p.data.length - p.padding)
  match outerIp p, ipLayer p with
  | some (_, outer), some (code, ip) =>
    let d := if p.routed then ttlStep d code ip else d
    let frag := p.firstFrag || p.laterFrag
    let d := match p.nat, p.nat64 with
      | some (addr, port), true =>
        let (c, l4) := (l4Layer p).getD (0, ip)
        d.take ip ++ nat64Bytes (code = 0x11) (d.drop ip) (l4 - ip) c addr port (p.natV6.getD 0) p.natPfx p.natRev
      | some (addr, port), false => (match l4Layer p with
          | some (c, l4) => nat44 d ip l4 c addr port p.natRev
          | none => d)
      | none, _ => d
    let d := if p.nat64 then d else
      let d := if code = 0x10 then sumIp d ip else d
      match l4Layer p with
      | some (c, l4) => if frag then d else sumL4 d (code = 0x11) ip l4 c
      | none => d
    (cutRemoved p d).drop (outer - removedIn p 0 outer)
  | _, _ => d.drop p.start

/-- A packet that FLW has forwarded, which its egress rewrites. -/
def forwarded (p : Packet) : Bool := p.rewrite.isSome

end Sys2Proof.Machine
end

