-- ==== Sys2Proof/Machine/Lowpan.lean ====
section
/-! DEFINITION. The compression of IPv6 and UDP headers that the sub-GHz MAC applies (R300): IPHC and NHC of RFC 6282, whose content
is PRESUMED (log entry 166). -/

namespace Sys2Proof.Machine

/-- Traffic class and flow label: the TF bits, and what is carried in line. -/
def iphcFlow (tc flow : Nat) : Nat × List Byte :=
  let dscp := tc / 4
  let ecn := tc % 4
  if flow = 0 then (if tc = 0 then (3, []) else (2, natBe 1 (64 * ecn + dscp)))
  else if dscp = 0 then (1, natBe 3 (2 ^ 22 * ecn + flow))
  else (0, natBe 4 (2 ^ 30 * ecn + 2 ^ 24 * dscp + flow))

/-- The interface identifier of a short address. -/
def shortIid (a : Nat) : Nat := 0xFFFE000000 + a % 65536

/-- A unicast address whose partner on the link has a short address: its stateful bit and mode, and what is carried in line. -/
def iphcUnicast (ctx short a : Nat) : Nat × Nat × List Byte :=
  let iid := a % 2 ^ 64
  let m : Nat × List Byte :=
    if iid = shortIid short then (3, [])
    else if iid / 65536 = 0xFFFE00 then (2, natBe 2 (iid % 65536))
    else (1, natBe 8 iid)
  if a / 2 ^ 64 = 0xFE80 * 2 ^ 48 then (0, m)
  else if a / 2 ^ 64 = ctx then (1, m)
  else (0, 0, natBe 16 a)

/-- A multicast address: its mode, and what is carried in line. -/
def iphcMulticast (a : Nat) : Nat × List Byte :=
  let fs := a / 2 ^ 112 % 256
  let low := a % 2 ^ 112
  if fs = 2 ∧ low < 2 ^ 8 then (3, natBe 1 low)
  else if low < 2 ^ 24 then (2, natBe 1 fs ++ natBe 3 low)
  else if low < 2 ^ 40 then (1, natBe 1 fs ++ natBe 5 low)
  else (0, natBe 16 a)

/-- A UDP header with its checksum in line; the length is that of the frame. -/
def nhcUdp (l : List Byte) : List Byte :=
  let src := beNat (l.take 2)
  let dst := beNat ((l.drop 2).take 2)
  let ports :=
    if src / 16 = 0xF0B ∧ dst / 16 = 0xF0B then 0xF3#8 :: natBe 1 (16 * (src % 16) + dst % 16)
    else if dst / 256 = 0xF0 then 0xF1#8 :: (natBe 2 src ++ natBe 1 (dst % 256))
    else if src / 256 = 0xF0 then 0xF2#8 :: (natBe 1 (src % 256) ++ natBe 2 dst)
    else 0xF0#8 :: l.take 4
  ports ++ (l.drop 6).take 2 ++ l.drop 8

/-- The compressed form of an IPv6 packet sent from one short address to another, with the /64 prefix of context 0; a packet of another
kind has no form in the spec, and the bytes sent for it are a free value (log entry 166). -/
def lowpan (ctx src dst : Nat) (d : List Byte) : List Byte :=
  if d.length < 40 ∨ (d.headD 0).toNat / 16 ≠ 6 then Config.compress d ctx
  else
    let b (i : Nat) : Nat := (d.getD i 0).toNat
    let body := (d.drop 40).take (beNat ((d.drop 4).take 2))
    let udp := decide (b 6 = 17) && decide (8 ≤ body.length) && decide (beNat ((body.drop 4).take 2) = body.length)
    let (tf, flow) := iphcFlow (beNat (d.take 2) / 16 % 256) (beNat ((d.drop 1).take 3) % 2 ^ 20)
    let hl := match b 7 with | 1 => 1 | 64 => 2 | 255 => 3 | _ => 0
    let sa := beNat ((d.drop 8).take 16)
    let da := beNat ((d.drop 24).take 16)
    let multi := decide (da / 2 ^ 120 = 0xFF)
    let (sac, sam, s) := if sa = 0 then (1, 0, []) else iphcUnicast ctx src sa
    let (dac, dam, t) := if multi then (0, iphcMulticast da) else iphcUnicast ctx dst da
    natBe 1 (0x60 + 8 * tf + 4 * udp.toNat + hl) ++ natBe 1 (64 * sac + 16 * sam + 8 * multi.toNat + 4 * dac + dam) ++ flow ++
      (if udp then [] else natBe 1 (b 6)) ++ (if hl = 0 then natBe 1 (b 7) else []) ++ s ++ t ++ (if udp then nhcUdp body else body)

/-- The REWRITE field of a packet for the sub-GHz MAC (R300): its node index, whether it goes to a listener set, and that set. -/
def pktRewrite (p : Packet) : Nat := p.rewrite.getD 0
def pktNode (p : Packet) : Nat := pktRewrite p % 4096
def pktGroup (p : Packet) : Bool := (pktRewrite p).testBit 12
def pktSet (p : Packet) : Nat := pktRewrite p / 2 ^ 13 % 16

/-- The frame payload that a packet makes: the Ethernet header removed, IPv6 and UDP compressed, with the prefix of `SGM_CTX`, which
holds it in network byte order, as context 0 (R300). -/
def State.lowpanBody (s : State) (p : Packet) : List Byte :=
  let dst := if pktGroup p then 0xFFFF else ((s.sgm.nodes.look (pktNode p)).map (·.addr)).getD 0xFFFF
  lowpan (beNat (natLe 8 (s.w SGM_CTX_PREFIX))) (s.f SGM_ADDR_ADDR) dst (ipBytes p)

end Sys2Proof.Machine
end

