-- ==== Sys2Proof/Machine/SchOps.lean ====
section
/-! DEFINITION. Scheduling operations (spec/07) that other units use: enqueue, eligibility, selection by deficit round
robin, shapers and the timing wheel. -/

namespace Sys2Proof.Machine

/-! ### Nodes (R159, R160) -/

/-- A queue, a client, a group; a node never written has EN 0. -/
def State.schQ (s : State) (q : Nat) : SchNode := s.sch.queues.lookD q {}
def State.schC (s : State) (c : Nat) : SchNode := s.sch.clients.lookD c {}
def State.schG (s : State) (g : Nat) : SchNode := s.sch.groups.lookD g {}
def State.shaper (s : State) (n : Nat) : Shaper := s.sch.shapers.lookD n {}

/-- The state with a node changed. -/
def State.editQ (s : State) (q : Nat) (f : SchNode → SchNode) : State :=
  { s with sch.queues := s.sch.queues.put q (f (s.schQ q)) }
def State.editC (s : State) (c : Nat) (f : SchNode → SchNode) : State :=
  { s with sch.clients := s.sch.clients.put c (f (s.schC c)) }
def State.editG (s : State) (g : Nat) (f : SchNode → SchNode) : State :=
  { s with sch.groups := s.sch.groups.put g (f (s.schG g)) }
def State.editShaper (s : State) (n : Nat) (f : Shaper → Shaper) : State :=
  { s with sch.shapers := s.sch.shapers.put n (f (s.shaper n)) }

/-- Fields of a node's words. -/
def nodeEn (n : SchNode) : Bool := n.w0.getLsbD 31
def nodePrio (n : SchNode) : Nat := bitsOf n.w0 29 28
def nodeQuantum (n : SchNode) : Nat := max 64 (bitsOf n.w1 19 0)
def nodeShaper (n : SchNode) : Nat := bitsOf n.w2 15 0
def queueClient (n : SchNode) : Nat := bitsOf n.w0 12 0
def queuePcp (n : SchNode) : Nat := bitsOf n.w0 27 25
def queueLimit (n : SchNode) : Nat := bitsOf n.w2 31 16
def queueSafe (n : SchNode) : Bool := n.w0.getLsbD 30
def clientGroup (n : SchNode) : Nat := bitsOf n.w0 25 16
def nodeRoots (n : SchNode) : Nat := bitsOf n.w0 15 0

/-- A ROOTS mask that the tree allows: link roots 8 to 10 in any number, or one other root (R160). A mask with reserved bit 14 or
15 is refused (DESIGN CHOICE, log entry 212). -/
def rootsAllowed (m : Nat) : Bool :=
  m % 2 ^ 14 = m && (decide (m &&& 0x38FF = 0) || ((List.range 14).any fun r => decide (m = 2 ^ r)))

/-- A client's mask is allowed and within its group's (R160). -/
def State.clientFits (s : State) (n : SchNode) : Bool :=
  rootsAllowed (nodeRoots n) && decide (nodeRoots n &&& nodeRoots (s.schG (clientGroup n)) = nodeRoots n)

/-- A node word that is uncorrectable disables its node (R173). -/
def State.queueBad (s : State) (q : Nat) : Bool := s.isBad .sch 0 q
def State.clientBad (s : State) (c : Nat) : Bool := s.isBad .sch 1 c
def State.groupBad (s : State) (g : Nat) : Bool := s.isBad .sch 1 (8192 + g)

/-! ### Shapers (R166 to R173) -/

/-- The bucket depth in use. -/
def shaperDepth (h : Shaper) : Nat := max 64 h.burst

/-- Tokens after an accrual until `now` (R169). -/
def shaperTokens (h : Shaper) (now : Nat) : Int :=
  if h.rate = 0 then 256 * shaperDepth h
  else min (256 * shaperDepth h : Nat) (h.tokens + (h.rate * (now - h.last) * 256 / 8000000 : Nat))

/-- The eligible time of a shaper in debt (R169). -/
def shaperDue (h : Shaper) (now : Nat) : Nat :=
  now + ((-h.tokens).toNat * 8000000 + h.rate * 256 - 1) / (h.rate * 256)

/-- The slot of 64 ns that releases an eligible time, rounded up (R166). -/
def wheelSlot (t : Nat) : Nat := (t + 63) / 64 * 64

/-- An eligible time lies beyond the span of the main wheel, as WT counts its 64 ns ticks (R166, R167). -/
def State.wheelFar (s : State) (t : Nat) : Bool := decide (s.now / 64 * 64 + 4194304 ≤ t)

/-- `SCH_WHEEL_STAT` and `SCH_OVF_STAT` follow the wheel. -/
def State.wheelSync (s : State) : State :=
  (s.set SCH_WHEEL_STAT_MAIN (s.sch.wheel.filter fun w => w.past.isNone).length).set SCH_OVF_STAT_OVF
    (s.sch.wheel.filter fun w => w.past.isSome).length

/-- A shaper is placed by its eligible time: the main wheel within its span, else the overflow wheel, whose last slot takes what
lies beyond its span (R166, R167). -/
def State.wheelPut (s : State) (n t : Nat) : State :=
  let rest := s.sch.wheel.filter fun w => decide (w.shaper ≠ n)
  let e : WheelEnt := { shaper := n, due := wheelSlot t, eligible := t }
  let e :=
    if !s.wheelFar t then e
    else
      let lastSlot := (s.now / 262144 + 4095) * 262144
      let slot := t / 262144 * 262144
      if lastSlot < slot then { e with past := some lastSlot, far := true } else { e with past := some slot }
  { s with sch.wheel := rest ++ [e] }.wheelSync

/-- A refill (R169, R170): tokens accrue at the old rate, then pending values apply. -/
def State.refill (s : State) (n : Nat) : State :=
  s.editShaper n fun h =>
    let t := shaperTokens h s.now
    let h := { h with tokens := t, last := s.now }
    match h.wait with
    | none => h
    | some (r, b) =>
      let h := { h with rate := r, burst := b, wait := none }
      { h with tokens := if r = 0 then 256 * shaperDepth h else min t (256 * shaperDepth h : Nat) }

/-- After a change of a shaper: in debt it stands on the wheel at its due time, else not at all. -/
def State.wheelJudge (s : State) (n : Nat) : State :=
  let h := s.shaper n
  if h.tokens < 0 && h.rate ≠ 0 then s.wheelPut n (shaperDue h s.now)
  else { s with sch.wheel := s.sch.wheel.filter fun w => decide (w.shaper ≠ n) }.wheelSync

/-- A charge to a shaper (R169): a refill, the debit, and the wheel where it ends in debt. -/
def State.charge (s : State) (n : Nat) (len : Int) : State :=
  let s := s.refill n
  let s := s.editShaper n fun h =>
    if h.rate = 0 then h else { h with tokens := min (256 * shaperDepth h : Nat) (h.tokens - 256 * len) }
  s.wheelJudge n

/-- A shaper lets its nodes be eligible (R165, R173). -/
def State.shaperOk (s : State) (shaped : Bool) (n : Nat) : Bool :=
  !shaped || (decide (0 ≤ (s.shaper n).tokens ∨ (s.shaper n).rate = 0) && !(s.shaper n).fault && !s.isBad .sch 2 n)

/-! ### Eligibility (R165) -/

/-- A queue has a packet that root `r` may take. -/
def State.queueOk (s : State) (r q : Nat) : Bool :=
  let n := s.schQ q
  nodeEn n && !s.queueBad q && !n.fifo.isEmpty && s.shaperOk (n.w0.getLsbD 24) (nodeShaper n) &&
    !(decide (r < 8) && (BitVec.ofNat 8 (s.f (SCH_ROOT_PFC r))).getLsbD (queuePcp n)) && !s.sch.refused.contains (q, r)

/-- The queues of a client, the clients of a group, in ascending number. -/
def State.queuesOf (s : State) (c : Nat) : List Nat :=
  (s.sch.queues.filter fun (e : Nat × SchNode) => decide (queueClient e.2 = c)).map Prod.fst
def State.clientsOf (s : State) (g : Nat) : List Nat :=
  (s.sch.clients.filter fun (e : Nat × SchNode) => decide (clientGroup e.2 = g)).map Prod.fst

/-- A client, apart from its queues, is eligible at a root. -/
def State.clientUp (s : State) (r c : Nat) : Bool :=
  let n := s.schC c
  nodeEn n && !s.clientBad c && !n.asleep && n.w0.getLsbD r && s.clientFits n && s.shaperOk (n.w0.getLsbD 26) (nodeShaper n)

/-- A group, apart from its clients, is eligible at a root. -/
def State.groupUp (s : State) (r g : Nat) : Bool :=
  let n := s.schG g
  nodeEn n && !s.groupBad g && n.w0.getLsbD r && rootsAllowed (nodeRoots n) && s.shaperOk (n.w0.getLsbD 27) (nodeShaper n)

/-- A root is eligible (R165, R174). -/
def State.rootUp (s : State) (r : Nat) : Bool :=
  s.on (SCH_ROOT_EN r) && (decide (r ≠ 10) || s.on RFB_CTL_SPLIT) && !s.on (SCH_ROOT_PAUSED r) && s.shaperOk (s.on (SCH_ROOT_SHAPED r)) (s.f (SCH_ROOT_SHAPER r))

def State.clientOk (s : State) (r c : Nat) : Bool := s.clientUp r c && (s.queuesOf c).any (s.queueOk r)
def State.groupOk (s : State) (r g : Nat) : Bool := s.groupUp r g && (s.clientsOf g).any (s.clientOk r)

/-! ### Active lists (R162, R164) -/

/-- The number of a parent's active list (R162: one per priority): level 0 holds a root's groups, 1 a group's clients, 2 a client's
queues, 3 and 4 a root's groups and a group's clients for UL grants (R178). -/
def listKey (level parent prio : Nat) : Nat := (level * 65536 + parent) * 4 + prio

/-- The node table of a parent's children. -/
def State.childNode (s : State) (level n : Nat) : SchNode :=
  match level with | 0 => s.schG n | 1 => s.schC n | _ => s.schQ n

/-- A node is eligible at a root together with every node above it (R165). -/
def State.eligible (s : State) (level r n : Nat) : Bool :=
  match level with
  | 0 => s.rootUp r && s.groupOk r n
  | 1 => s.rootUp r && s.groupUp r (clientGroup (s.schC n)) && s.clientOk r n
  | _ =>
    let c := queueClient (s.schQ n)
    s.rootUp r && s.groupUp r (clientGroup (s.schC c)) && s.clientUp r c && s.queueOk r n

/-- A node is eligible at some root: a refusal of placement or a pause at one root leaves it its place in its parent's list while
another root may take it (R162, R177; DEDUCED, log entry 213). -/
def State.eligibleAny (s : State) (level n : Nat) : Bool := (List.range 14).any fun r => s.eligible level r n

/-- The eligible children of a parent. -/
def State.kids (s : State) (level parent : Nat) : List Nat :=
  match level with
  | 0 => (s.sch.groups.map Prod.fst).filter (s.eligible 0 parent)
  | 1 => (s.clientsOf parent).filter (s.eligibleAny 1)
  | _ => (s.queuesOf parent).filter (s.eligibleAny 2)

/-- One parent's active lists follow its eligible children: those that left are out, those that joined stand at the tail
with fresh set (R164). -/
def State.listSet (s : State) (level parent : Nat) (kids : List Nat) : State :=
  s.each (List.range 4) fun s p =>
    let key := listKey level parent p
    let here := kids.filter fun k => decide (nodePrio (s.childNode (level % 3) k) = p)
    let old := (s.sch.act.lookD key []).filter fun e => here.contains e.node
    let new := here.filter fun k => !(old.any fun e => decide (e.node = k))
    let l := old ++ new.map fun k => { node := k, fresh := true }
    { s with sch.act := if l.isEmpty then s.sch.act.del key else s.sch.act.put key l }

/-- The active lists of one parent follow eligibility. -/
def State.listSync (s : State) (level parent : Nat) : State := s.listSet level parent (s.kids level parent)

/-- Every active list follows eligibility. -/
def State.schSync (s : State) : State :=
  let s := s.each (List.range 14) fun s r => s.listSync 0 r
  let s := s.each (s.sch.groups.map Prod.fst) fun s g => s.listSync 1 g
  s.each (s.sch.clients.map Prod.fst) fun s c => s.listSync 2 c

/-! ### Selection (R162, R163) -/

/-- The length of a packet at a root's egress, after the rewrite (R142, R163). -/
def State.rootLen (s : State) (r : Nat) (p : Packet) : Nat :=
  if !forwarded p then p.data.length
  else if r < 8 then ipLength p + 14 + (if s.on (ETH_NBR_TAG ((p.rewrite.getD 0) % 4096)) then 4 else 0)
  else if r < 11 then ipLength p + 8
  else if r = 11 then (s.lowpanBody p).length
  else ipLength p

/-- The charged length of a packet at a root (R163): its length after rewrite and the root's signed overhead; 0 where poisoned, or where
a retransmission has it charged already. -/
def State.chargedLen (s : State) (r : Nat) (id : Nat) : Int :=
  match s.pkt id with
  | none => 0
  | some p => if p.poison || p.charged then 0 else (s.rootLen r p : Int) + sx 8 (s.f (SCH_ROOT_ADJ r))

/-- The deficit of a child, and the state with it changed. -/
def State.deficit (s : State) (level n : Nat) : Int := (s.childNode level n).deficit
def State.editNode (s : State) (level n : Nat) (f : SchNode → SchNode) : State :=
  match level with | 0 => s.editG n f | 1 => s.editC n f | _ => s.editQ n f

/-- One pass of deficit round robin over an active list (R162): `pick` says which packet a child would give, with the state
after its own selection; `grow` gives a child its quantum and `held` reads its deficit. Children that give none stand where
they are. The result is the queue, the length and the state, with the list as it stands then. -/
def drr (grow : State → Nat → State) (held : State → Nat → Int) (pick : State → Nat → Option (Nat × Int × State)) :
    Nat → State → List ActEnt → List ActEnt → Option (Nat × Int × State × List ActEnt)
  | 0, _, _, _ => none
  | _ + 1, _, _, [] => none
  | n + 1, s, skipped, e :: t =>
    match pick s e.node with
    | none => drr grow held pick n s (e :: skipped) t
    | some _ =>
      let s := if e.fresh then grow s e.node else s
      match pick s e.node with
      | none => drr grow held pick n s (e :: skipped) t
      | some (q, len, s') =>
        if len ≤ held s' e.node then some (q, len, s', skipped.reverse ++ { e with fresh := false } :: t)
        else drr grow held pick n s skipped (t ++ [{ e with fresh := true }])

/-- A child takes its quantum, downstream. -/
def State.grow (level : Nat) (s : State) (n : Nat) : State :=
  s.editNode level n fun k => { k with deficit := k.deficit + nodeQuantum k }

/-- Turns that suffice for a list: every child whose deficit is below a packet gains at least 64 bytes a turn. -/
def drrTurns (s : State) (held : State → Nat → Int) (l : List ActEnt) : Nat :=
  (l.length + 1) * (2048 + l.foldl (fun n e => n + (-(held s e.node)).toNat / 64) 0)

/-- Selection in the lists of a parent, priority 3 first. -/
def State.pickFrom (s : State) (level parent : Nat) (grow : State → Nat → State) (held : State → Nat → Int)
    (pick : State → Nat → Option (Nat × Int × State)) : Option (Nat × Int × State) :=
  [3, 2, 1, 0].findSome? fun p =>
    let key := listKey level parent p
    let l := s.sch.act.lookD key []
    (drr grow held pick (drrTurns s held l) s [] l).map fun x =>
      (x.1, x.2.1, { x.2.2.1 with sch.act := x.2.2.1.sch.act.put key x.2.2.2 })

/-- Selection among a parent's children that are eligible at a root. -/
def State.pickList (s : State) (level r parent : Nat) (pick : State → Nat → Option (Nat × Int × State)) :
    Option (Nat × Int × State) :=
  s.pickFrom level parent (State.grow level) (fun s n => s.deficit level n) fun s n =>
    if s.eligible level r n then pick s n else none

/-- What a queue gives: its head, where `ok` allows it. -/
def State.pickQueue (s : State) (r : Nat) (ok : Nat → Nat → Bool) (q : Nat) : Option (Nat × Int × State) :=
  match (s.schQ q).fifo with
  | [] => none
  | id :: _ => if ok q id then some (q, s.chargedLen r id, s) else none

/-- Selection at root `r` (R162): the queue whose head goes, its charged length, and the state with the rotations and
quanta of the selection. `ok` says which queue heads may be taken. -/
def State.select (s : State) (r : Nat) (ok : Nat → Nat → Bool) : Option (Nat × Int × State) :=
  if !s.rootUp r then none
  else
    s.pickList 0 r r fun s g =>
      s.pickList 1 r g fun s c =>
        s.pickList 2 r c fun s q => s.pickQueue r ok q

/-- The deficits of a client and its group are 0 where no packet is left below them (R164). -/
def State.deficitAbove (s : State) (c : Nat) : State :=
  let g := clientGroup (s.schC c)
  let cEmpty := (s.queuesOf c).all fun x => (s.schQ x).fifo.isEmpty
  let s := if cEmpty then s.editC c fun k => { k with deficit := 0 } else s
  let gEmpty := (s.clientsOf g).all fun y => (s.queuesOf y).all fun x => (s.schQ x).fifo.isEmpty
  if gEmpty then s.editG g fun k => { k with deficit := 0 } else s

/-- A deficit is 0 where no packet is left below the node (R164). -/
def State.deficitClear (s : State) (q : Nat) : State :=
  let s := if (s.schQ q).fifo.isEmpty then s.editQ q fun k => { k with deficit := 0 } else s
  s.deficitAbove (queueClient (s.schQ q))

/-- The charge of a dequeued packet to every deficit and shaper of its path (R162, R169, R172). A poisoned packet is charged
nothing (R107). -/
def State.chargePath (s : State) (r q : Nat) (len : Int) : State :=
  let nq := s.schQ q
  let c := queueClient nq
  let nc := s.schC c
  let g := clientGroup nc
  let ng := s.schG g
  let s := s.editQ q fun k => { k with deficit := k.deficit - len }
  let s := s.editC c fun k => { k with deficit := k.deficit - len }
  let s := s.editG g fun k => { k with deficit := k.deficit - len }
  let s := s.when (nq.w0.getLsbD 24) (·.charge (nodeShaper nq) len)
  let s := s.when (nc.w0.getLsbD 26) (·.charge (nodeShaper nc) len)
  let s := s.when (ng.w0.getLsbD 27) (·.charge (nodeShaper ng) len)
  s.when (s.on (SCH_ROOT_SHAPED r)) (·.charge (s.f (SCH_ROOT_SHAPER r)) len)

/-- The head of a queue is dequeued at a root and charged; the result is its packet. -/
def State.dequeue (s : State) (r q : Nat) : State × Option Nat :=
  match (s.schQ q).fifo with
  | [] => (s, none)
  | id :: t =>
    let len := s.chargedLen r id
    let poison := match s.pkt id with | some p => p.poison | none => true
    let s := s.when (!poison) (·.chargePath r q len)
    let s := s.editQ q fun k => { k with fifo := t }
    ((s.deficitClear q).schSync, some id)

/-! ### Enqueue (R161) -/

/-- The cells in use by a queue's packets. -/
def State.queueCells (s : State) (q : Nat) : Nat :=
  (s.schQ q).fifo.foldl (fun n id => n + (match s.pkt id with | some p => p.cells | none => 0)) 0

/-- A packet is appended to its queue, or dropped at enqueue; either way its edition reference is released (R131, R161). -/
def State.schEnqueue (s : State) (q id : Nat) : State :=
  let s := s.pktRelease id
  let n := s.schQ q
  let nc := s.schC (queueClient n)
  let ng := s.schG (clientGroup nc)
  let cells := match s.pkt id with | some p => p.cells | none => 0
  if !nodeEn n || !nodeEn nc || !nodeEn ng || s.queueBad q || s.clientBad (queueClient n) || s.groupBad (clientGroup nc) then
    (s.pktFree id).bump SCH_CNT_NOQUEUE
  else if queueLimit n < s.queueCells q + cells then
    ((s.pktFree id).bump SCH_CNT_TAIL_DROP).editQ q fun k => { k with drops := min 0xFFFFFFFF (k.drops + 1) }
  else (s.editQ q fun k => { k with fifo := k.fifo ++ [id] }).schSync

/-- Every packet of a queue is dropped (R173, R183). -/
def State.queueFlush (s : State) (q : Nat) : State :=
  let ids := (s.schQ q).fifo
  let s := s.editQ q fun k => { k with fifo := [] }
  (((s.each ids State.pktFree).bump SCH_CNT_NOQUEUE ids.length).deficitClear q).schSync

/-! ### Changing the tree (R159, R160, R183) -/

/-- A node leaves every active list, so that it joins at the tail again (R183). -/
def State.leaveLists (s : State) (level n : Nat) : State :=
  { s with sch.act := s.sch.act.map fun (e : Nat × List ActEnt) =>
      (e.1, if e.1 / 4 / 65536 % 3 = level then e.2.filter fun x => decide (x.node ≠ n) else e.2) }

/-- A node or shaper is written, between two selections (R183): 0 a queue, 1 a client, 2 a group, else a shaper with its RATE and
BURST; false where it is refused (R160). A node that moves takes its packets with it, and the nodes that it leaves empty lose
their deficits (R164). -/
def State.nodeSet (s : State) (kind i : Nat) (w0 w1 w2 : Word) : State × Bool :=
  match kind with
  | 0 =>
    let n := s.schQ i
    let moved := decide (bitsOf w0 12 0 ≠ queueClient n)
    let s := s.when moved (·.leaveLists 2 i)
    let s := s.editQ i fun k =>
      { k with w0 := w0 &&& 0xFF001FFF, w1 := w1 &&& 0xFFFFF, w2 := w2, deficit := if moved then 0 else k.deficit }
    let s := s.when moved (·.deficitAbove (queueClient n))
    ((s.unbad .sch 0 i).schSync, true)
  | 1 =>
    let n := s.schC i
    let new := { n with w0 := w0 &&& 0xB7FFFFFF, w1 := w1 &&& 0xFFFFF, w2 := w2 &&& 0xFFFF }
    let moved := decide (clientGroup new ≠ clientGroup n ∨ nodeRoots new ≠ nodeRoots n)
    if !s.clientFits new then (s, false)
    else
      let s := s.when moved (·.leaveLists 1 i)
      let s := s.editC i fun _ => if moved then { new with deficit := 0, ulDeficit := 0 } else new
      let g := clientGroup n
      let left := (s.clientsOf g).all fun y => (s.queuesOf y).all fun x => (s.schQ x).fifo.isEmpty
      let s := s.when (moved && left) (·.editG g fun k => { k with deficit := 0 })
      ((s.unbad .sch 1 i).schSync, true)
  | 2 =>
    let new := { s.schG i with w0 := w0 &&& 0xB800FFFF, w1 := w1 &&& 0xFFFFF, w2 := w2 &&& 0xFFFF }
    if !rootsAllowed (nodeRoots new) then (s, false)
    else (((s.editG i fun _ => new).unbad .sch 1 (8192 + i)).schSync, true)
  | _ =>
    let s := s.editShaper i fun h => { h with wait := some (w0.toNat, bitsOf w1 23 0), fault := false }
    ((s.unbad .sch 2 i).schSync, true)

/-- The service periods of a station, in LT: of its own agreements, and of the broadcast schedules that it follows (R280). -/
def State.twtSpans (s : State) (i : Nat) (st : Station) : List (Nat × Nat) :=
  st.twts.map Prod.snd ++ (s.wma.bcast.filter fun (e : Nat × BcastTwt) => e.2.members.contains i).map fun e => (e.2.start, e.2.ends)

/-- A station is awake in its service periods alone: it has TWT agreements, and signals power management 1, or nothing since its last
period (R279, R280; log entry 247). -/
def State.twtBound (s : State) (i : Nat) (st : Station) : Bool := !(s.twtSpans i st).isEmpty && (st.pm || !st.active)

/-- A PPDU to a station that is awake in its service periods alone has to end before the period does (R280). -/
def State.spFits (s : State) (airtime c : Nat) : Bool :=
  s.wma.stations.all fun (e : Nat × Station) =>
    decide (e.2.client ≠ c) || !s.twtBound e.1 e.2 || decide (e.2.poll ≠ 0) ||
      (s.twtSpans e.1 e.2).any fun w => decide (w.1 ≤ s.lt) && decide (s.lt + airtime ≤ w.2)

/-- ASLEEP of a client, as WMA or SGM reports it (R165). -/
def State.clientAsleep (s : State) (c : Nat) (b : Bool) : State := (s.editC c fun k => { k with asleep := b }).schSync

end Sys2Proof.Machine
end

