-- ==== Sys2Proof/Machine/EthOps.lean ====
section
/-! DEFINITION. The wired ports (spec/14): the transmit buffer and its rewrite, frames on the wire, pauses, checksums of
received frames, and MACsec. -/

namespace Sys2Proof.Machine

/-! ### Ports -/

/-- A port. -/
def State.ethPort (s : State) (p : Nat) : EthPort := s.eth.ports.lookD p {}

/-- A port changed. -/
def State.editPort (s : State) (p : Nat) (f : EthPort → EthPort) : State :=
  { s with eth.ports := s.eth.ports.put p (f (s.ethPort p)) }

/-- Picoseconds per bit at a port's speed (R346). -/
def State.bitPs (s : State) (p : Nat) : Nat :=
  match s.f (ETH_PORT_STAT_SPEED p) with | 0 => 1000 | 1 => 400 | 2 => 200 | 3 => 100 | _ => 40

/-- The ns that a number of bits takes, rounded up. -/
def State.bitNs (s : State) (p n : Nat) : Nat := (n * s.bitPs p + 999) / 1000

/-- MAXLEN in use (R336). -/
def State.maxLen (s : State) (p : Nat) : Nat := max 64 (min 9728 (s.f (ETH_PORT_CFG_MAXLEN p)))

/-- The link of a port is up. -/
def State.linkUp (s : State) (p : Nat) : Bool := s.on (ETH_PORT_STAT_LINK p)

/-- The address of a port. -/
def State.portMac (s : State) (p : Nat) : List Byte :=
  natBe 2 (s.f (ETH_PORT_MAC_MAC_HI p)) ++ natBe 4 (s.f (ETH_PORT_MAC_MAC_LO p))

/-- MACsec protects a port (R354). -/
def State.macsecOn (s : State) (p : Nat) : Bool := decide (p < 4) && s.on (ETH_MACSEC_EN p)

/-! ### The transmit buffer (R340 to R342) -/

/-- The octets in a port's buffer, with their FCS: the frame on the wire still counts. -/
def State.bufferBytes (s : State) (p : Nat) : Nat :=
  let k := s.ethPort p
  let wire (c : Option EthCur) : Nat := match c with | some c => if c.ctrl then 0 else c.data.length + 4 | none => 0
  k.buffer.foldl (fun n f => n + f.data.length + 4) 0 + wire k.cur + wire k.cut

/-- The port reports room for a 9,728-byte frame (R174, R334). -/
def State.ethRoom (s : State) (p : Nat) : Bool := s.linkUp p && decide (s.bufferBytes p + 9728 ≤ 32768)

/-- The bytes of a packet at a wired port; none where its neighbour is not valid (R340, R341). Packets that FLW has not
forwarded are unchanged. -/
def State.wiredBytes (s : State) (p : Nat) (k : Packet) (pcp : Nat) : Option (List Byte) :=
  match k.rewrite with
  | none => some k.data
  | some r =>
    let n := r % 4096
    if !s.on (ETH_NBR_VALID n) || s.isBad .eth 2 n then none
    else
      let v6 := (match outerIp k with | some (c, _) => decide (c = 0x11) | none => false) != (k.nat64 && k.nat.isSome)
      let tag := if s.on (ETH_NBR_TAG n) then [0x81, 0x00] ++ natBe 2 (pcp * 8192 + s.f (ETH_NBR_VID n)) else []
      some (natBe 2 (s.f (ETH_NBR_DMAC_HI n)) ++ natBe 4 (s.f (ETH_NBR_DMAC_LO n)) ++ s.portMac p ++ tag ++
        (if v6 then [0x86, 0xDD] else [0x08, 0x00]) ++ ipBytes k)

/-- The octets that MACsec adds to a frame: SecTAG and ICV. -/
def State.macsecOver (s : State) (p : Nat) : Nat :=
  if s.macsecOn p then (if s.on (ETH_MACSEC_INC_SCI p) then 32 else 24) else 0

/-- The port reads a packet's words, and what it makes of them into its buffer, or discards it; its cells are freed (R105, R107,
R340 to R342). A frame is at least 60 octets without its FCS. -/
def State.ethTake (s : State) (p id pcp : Nat) (errs : List WordErr) : State :=
  s.with? (s.pkt id) fun s k0 =>
  match s.pktScan id k0 errs with
  | (s, none) => s
  | (s, some k) =>
    let wired := decide (s.f (PKB_Q_CFG_PROD k.ingress) = UnitId.eth.num)
    let bytes := s.wiredBytes p k pcp
    let s := s.pktFree id
    if k.poison then s.bump PKB_CNT_POISON_DROP
    else match bytes with
    | none => s.bump (ETH_CNT_NO_NBR p)
    | some d =>
      let d := d ++ List.replicate (60 - d.length) 0
      if s.maxLen p < d.length + 4 + s.macsecOver p then s.bump (ETH_CNT_TX_OVERSIZE p)
      else
        let f : EthFrame := { data := d, pcp := pcp, rxLt := if wired then some (leNat ((k.info.drop 8).take 8)) else none }
        s.editPort p fun x => { x with buffer := x.buffer ++ [f] }

/-- A port reads the words of a frame, each encoded over the frame's octets when the port took it (R104), from its transmit buffer
(`source` 0) or its receive and hold buffers (`source` 1) and decodes them (R105): those that the errors name as R103 says, word 0 being
the frame's first, and every other one as it was written. The result is the octets it reads, and which words were uncorrectable. -/
def State.bufferScan (s : State) (p source : Nat) (d : List Byte) (bad : List Nat) : List WordErr → State × List Byte × List Nat
  | [] => (s, d, bad)
  | e :: t =>
    let w := e.word.toNat
    if d.length ≤ 32 * w then s.bufferScan p source d bad t
    else
      let cw := upsetWord (wgcEncode ((d.drop (32 * w)).take 32)) e.err.word
      let r := if e.err.tags then WgcResult.uncorrectable else wgcDecode cw
      let place := 2 ^ 17 * p + s.free .bufferWord % 2 ^ 17
      let s := match r with
        | .correct => s
        | .corrected pos _ => s.drawn.wgcCorr .eth source pos place
        | .uncorrectable => s.drawn.wgcUncorr .eth source place
      s.bufferScan p source (putBytes d (32 * w) ((wgcData cw r).take (d.length - 32 * w)))
        (if r = .uncorrectable ∧ !bad.contains w then bad ++ [w] else bad) t

/-! ### Pauses (R346, R347) -/

/-- A port's pause state reaches SCH; every deficit is kept (R174). -/
def State.pauseReport (s : State) (p : Nat) : State :=
  ((s.put (SCH_ROOT_PAUSED p) (s.on (ETH_PORT_STAT_PAUSED p))).set (SCH_ROOT_PFC p) (s.f (ETH_PORT_STAT_PFC p))).schSync

/-- `ETH_PORT_STAT.PAUSED` and `PFC` follow the timers, and SCH follows them (R174). -/
def State.pauseSync (s : State) (p : Nat) : State :=
  let t := (s.ethPort p).pauses
  let s := (s.put (ETH_PORT_STAT_PAUSED p) (t.has 8)).set (ETH_PORT_STAT_PFC p)
    ((List.range 8).foldl (fun n i => if t.has i then n + 2 ^ i else n) 0)
  s.pauseReport p

/-- A timer is set from an instant on, or ended by a time of 0. -/
def State.pauseSet (s : State) (p i quanta at_ : Nat) : State :=
  let ends := at_ + s.bitNs p (512 * quanta)
  (s.editPort p fun x => { x with pauses := if quanta = 0 then x.pauses.del i else x.pauses.put i ends }).pauseSync p

/-- The transmit side has nothing to send. -/
def portIdle (k : EthPort) : Bool := k.buffer.isEmpty && k.ctrl.isEmpty && k.cur.isNone && k.cut.isNone

/-- The transmit side has been idle since now where it has nothing to send (R349). -/
def State.idleMark (s : State) (p : Nat) : State := s.editPort p fun x => if portIdle x then { x with idleSince := s.now } else x

/-- The frame on the wire has ended by now: it is counted, one that ended with an invalid FCS in `PKB_CNT_POISON_DROP` alone
(R107; log entry 202), the gap begins, and pauses that waited for it begin (R346). -/
def State.portSettle (s : State) (p : Nat) : State :=
  match (s.ethPort p).cur with
  | none => s
  | some c =>
    if s.now < c.ends then s
    else
      let piece : EthSent := { port := p, start := c.start, offset := c.before, data := c.data.drop c.before, last := true, badFcs := c.badFcs }
      let s := { s with eth.sent := piece :: s.eth.sent }
      let s := s.bump (if c.ctrl then ETH_CNT_PAUSE_TX p else if c.badFcs then PKB_CNT_POISON_DROP else ETH_CNT_TX_OK p)
      let wait := (s.ethPort p).pend
      let s := s.editPort p fun x => { x with cur := none, pend := [], free := c.ends + s.bitNs p 96 }
      let s := s.each wait fun s e => s.pauseSet p e.1 e.2 c.ends
      s.editPort p fun x => if portIdle x then { x with idleSince := c.ends } else x

/-- A received pause: one of 0 ends a pause at once; another begins now, or at the end of the frame on the wire. -/
def State.pauseTake (s : State) (p i quanta : Nat) : State :=
  if quanta = 0 then (s.editPort p fun x => { x with pend := x.pend.del i }).pauseSet p i 0 s.now
  else if (s.ethPort p).cur.isSome then s.editPort p fun x => { x with pend := x.pend.put i quanta }
  else s.pauseSet p i quanta s.now

/-- Flow control of a port: 0 OFF, 1 PAUSE, 2 PFC. -/
def State.fcMode (s : State) (p : Nat) : Nat := s.f (ETH_PORT_FC_MODE p) % 3

/-- A received PAUSE frame. -/
def State.pauseRx (s : State) (p quanta : Nat) : State :=
  if s.fcMode p = 1 then (s.bump (ETH_CNT_PAUSE_RX p)).pauseTake p 8 quanta else s.bump (ETH_CNT_CTRL_DROP p)

/-- A received PFC frame: each enabled priority's time. -/
def State.pfcRx (s : State) (p enable : Nat) (quanta : List Nat) : State :=
  if s.fcMode p = 2 then
    (s.bump (ETH_CNT_PAUSE_RX p)).each ((List.range 8).filter fun i => enable.testBit i) fun s i => s.pauseTake p i (quanta.getD i 0)
  else s.bump (ETH_CNT_CTRL_DROP p)

/-- The cells in use of RX_Q and EXP_Q together (R348). -/
def State.portCells (s : State) (p : Nat) : Nat :=
  let a := s.f (ETH_PORT_Q_RX_Q p)
  let b := s.f (ETH_PORT_Q_EXP_Q p)
  (s.quire a).used + (if a = b then 0 else (s.quire b).used)

/-- A pause frame is generated with a time (R348): the frame formats of IEEE 802.3 (PRESUMED, log entry 52). -/
def State.pauseMake (s : State) (p quanta : Nat) : State :=
  let pri := s.f (ETH_PORT_FC_TX_PRI p)
  let body := if s.fcMode p = 1 then natBe 2 1 ++ natBe 2 quanta
    else natBe 2 0x0101 ++ natBe 2 pri ++ (List.range 8).flatMap fun i => natBe 2 (if pri.testBit i then quanta else 0)
  let d := [0x01, 0x80, 0xC2, 0x00, 0x00, 0x01] ++ s.portMac p ++ [0x88, 0x08] ++ body
  s.editPort p fun x => { x with ctrl := x.ctrl ++ [d ++ List.replicate (60 - d.length) 0], pausedAt := s.now }

/-! ### Verification (R343) -/

/-- Preemption starts with the link: verified first where VERIFY_EN is 1. -/
def State.preemptStart (s : State) (p : Nat) : State :=
  let on := s.on (ETH_PORT_PREEMPT_EN p) && s.linkUp p
  let verify := on && s.on (ETH_PORT_PREEMPT_VERIFY_EN p)
  let s := (s.set (ETH_PORT_STAT_VERIFY p) verify.toNat).put (ETH_PORT_STAT_PREEMPT p) (on && !verify)
  s.editPort p fun x => { x with tries := 0, verifyAt := s.now }

/-! ### Received headers (R338, R339) -/

/-- The EtherType of a frame behind up to two tags, with the offset behind it and the outer TCI. -/
def etherType (d : List Byte) : Nat × Nat × Option Nat :=
  let tag (n : Nat) : Bool := decide (beAt d n 2 = 0x8100 ∨ beAt d n 2 = 0x88A8)
  if !tag 12 then (beAt d 12 2, 14, none)
  else if !tag 16 then (beAt d 16 2, 18, some (beAt d 14 2))
  else (beAt d 20 2, 22, some (beAt d 14 2))

/-- The transport of an IPv6 packet behind Hop-by-Hop, Routing and Destination Options headers that end by `stop`: protocol and offset;
none where they do not. -/
def v6Transport (d : List Byte) (stop : Nat) : Nat → Nat → Nat → Option (Nat × Nat)
  | 0, _, _ => none
  | fuel + 1, next, at_ =>
    if next = 0 ∨ next = 43 ∨ next = 60 then
      let len := 8 * (beAt d (at_ + 1) 1 + 1)
      if stop < at_ + len then none else v6Transport d stop fuel (beAt d at_ 1) (at_ + len)
    else some (next, at_)

/-- The result of a checksum over bytes: 1 GOOD, 2 BAD. -/
def sumResult (n : Nat) : Nat := if onesFold n = 0 then 1 else 2

/-- The L4 result of a packet whose transport is known. -/
def l4Result (d : List Byte) (v6 : Bool) (ip proto l4 stop : Nat) : Nat :=
  let n := stop - l4
  let addrs := if v6 then (d.drop (ip + 8)).take 32 else (d.drop (ip + 12)).take 8
  let all := onesSum addrs + proto + n % 65536 + n / 65536 + onesSum ((d.drop l4).take n)
  match proto with
  | 6 => if n < 20 then 0 else sumResult all
  | 17 => if n < 8 ∨ (beAt d (l4 + 6) 2 = 0 ∧ !v6) then 0 else sumResult all
  | 58 => if v6 && decide (4 ≤ n) then sumResult all else 0
  | _ => 0

/-- The L3 and L4 checksum results of a frame (R339): 0 NONE, 1 GOOD, 2 BAD. -/
def checkFrame (d : List Byte) : Nat × Nat :=
  let (t, ip, _) := etherType d
  if t = 0x0800 then
    let h := 4 * (beAt d ip 1 % 16)
    let stop := ip + beAt d (ip + 2) 2
    if beAt d ip 1 / 16 ≠ 4 ∨ h < 20 ∨ d.length < ip + h then (0, 0)
    else
      let l3 := sumResult (onesSum ((d.drop ip).take h))
      if d.length < stop ∨ stop < ip + h ∨ beAt d (ip + 6) 2 % 2 ^ 14 ≠ 0 then (l3, 0)
      else (l3, l4Result d false ip (beAt d (ip + 9) 1) (ip + h) stop)
  else if t = 0x86DD then
    let stop := ip + 40 + beAt d (ip + 4) 2
    if beAt d ip 1 / 16 ≠ 6 ∨ d.length < stop then (0, 0)
    else match v6Transport d (min d.length (ip + 40 + 64)) 9 (beAt d (ip + 6) 1) (ip + 40) with
    | some (proto, l4) => (0, if stop < l4 then 0 else l4Result d true ip proto l4 stop)
    | none => (0, 0)
  else (0, 0)

/-! ### MACsec (R354 to R357; the formats of IEEE 802.1AE are PRESUMED, log entry 52) -/

/-- The number of an association, its entry in the wrapped-key table, and its key where it has one. -/
def saIndex (p c a : Nat) : Nat := 64 * p + 4 * c + a
def saEntry (p c a : Nat) : Nat := 2176 + saIndex p c a
def State.saKey (s : State) (p c a : Nat) : State × Option (List Byte) :=
  if s.isBad .eth 3 (2 ^ 17 * p + (4 * c + a)) then (s, none) else s.tableUse (saEntry p c a)

/-- The initialization vector of a frame. -/
def State.saIv (s : State) (p : Nat) (k : EthSa) (sci pn : Nat) : List Byte :=
  if s.on (ETH_MACSEC_XPN p) then xorBytes (natBe 4 k.ssci ++ natBe 8 pn) k.salt
  else natLe 8 sci ++ natBe 4 pn

/-- A frame protected under the transmit association with a PN (R355). -/
def State.macsecProtect (s : State) (p : Nat) (k : EthSa) (key d : List Byte) (pn : Nat) : List Byte :=
  let sci := s.w (ETH_MACSEC_SCI_SCI p)
  let conf := s.on (ETH_MACSEC_CONF p)
  let inc := s.on (ETH_MACSEC_INC_SCI p)
  let body := d.drop 12
  let tci := s.f (ETH_MACSEC_TX_AN p) + (if conf then 12 else 0) + (if inc then 32 else 0)
  let head := d.take 12 ++ [0x88, 0xE5] ++ natBe 1 tci ++ natBe 1 (if body.length < 48 then body.length else 0) ++
    natBe 4 (pn % 2 ^ 32) ++ (if inc then natLe 8 sci else [])
  let iv := s.saIv p k sci pn
  if conf then
    let c := ctrApply key (fun i => inc32 (iv ++ [0, 0, 0, 1]) (i + 1)) body
    head ++ c ++ gcmTag key iv head c
  else head ++ body ++ gcmTag key iv (head ++ body) []

/-- How the MACsec rules of R356 dispose of a received frame: delivered with the association of a validated one, and by how many octets
what stands behind the addresses has moved; dropped by a counter; or lost for want of a pair (R330). -/
inductive MacsecRx where
  | deliver (data : List Byte) (sa : Option (Nat × Nat)) (verified : Bool) (cut : Nat)
  | drop
  | replay
  | lost
  deriving DecidableEq, Repr

/-- A frame that cannot be validated, by VALIDATE: 0 DISABLED, 1 CHECK, else STRICT. -/
def State.macsecLoose (s : State) (p : Nat) (d : List Byte) : MacsecRx :=
  if 2 ≤ s.f (ETH_MACSEC_VALIDATE p) then .drop else .deliver d none (decide (s.f (ETH_MACSEC_VALIDATE p) = 0)) 0

/-- The receive channel of a SecTAG: by its SCI, or the only one where it carries none. -/
def State.saChannel (s : State) (p : Nat) (sci : Option Nat) : Option Nat :=
  let l := (List.range' 1 15).filter fun c => s.eth.scis.has (16 * p + c)
  match sci with
  | some n => l.find? fun c => decide (s.eth.scis.look (16 * p + c) = some n)
  | none => if l.length = 1 then l.head? else none

/-- The full PN of a frame: as it stands, or with XPN the one at or above the lowest acceptable whose low half it is. -/
def State.saPn (s : State) (p : Nat) (k : EthSa) (low : Nat) : Nat :=
  if !s.on (ETH_MACSEC_XPN p) then low
  else
    let base := k.next - s.f (ETH_MACSEC_WIN_WINDOW p)
    let n := base / 2 ^ 32 * 2 ^ 32 + low
    if n + 2 ^ 31 ≤ base then n + 2 ^ 32 else n

/-- Validation of a frame with a SecTAG, and the association's next PN (R356): one whose ICV fails counts as a failed job (R316). -/
def State.macsecCheck (s : State) (p : Nat) (d : List Byte) : State × MacsecRx :=
  let tci := beAt d 14 1
  let an := tci % 4
  let inc := tci.testBit 5
  let h := if inc then 28 else 20
  let sci := if inc then some (leNat ((d.drop 20).take 8)) else none
  match s.saChannel p sci with
  | none => (s, s.macsecLoose p d)
  | some c =>
    match s.eth.sas.look (saIndex p c an), s.saKey p c an with
    | some k, (s, some key) =>
      let pn := s.saPn p k (beAt d 16 4)
      let body := (d.drop h).take (if beAt d 15 1 % 64 = 0 then d.length - h - 16 else beAt d 15 1 % 64)
      let icv := (d.drop (h + body.length)).take 16
      let conf := tci.testBit 3
      let iv := s.saIv p k (s.eth.scis.lookD (16 * p + c) 0) pn
      let aad := if conf then d.take h else d.take h ++ body
      if pn < max k.low (k.next - s.f (ETH_MACSEC_WIN_WINDOW p)) then (s, .replay)
      else if gcmTag key iv aad (if conf then body else []) = icv then
        let plain := if conf then ctrApply key (fun i => inc32 (iv ++ [0, 0, 0, 1]) (i + 1)) body else body
        ({ s.inlineEnd true with eth.sas := s.eth.sas.put (saIndex p c an) { k with next := max k.next (pn + 1) } },
          .deliver (d.take 12 ++ plain) (some (c, an)) true (h - 12))
      else (s.inlineEnd false, s.macsecLoose p d)
    | some _, (s, none) => (s.inlineEnd true, s.macsecLoose p d)
    | none, _ => (s, s.macsecLoose p d)

/-- A received frame is one that MACsec has CIP check: it carries a SecTAG, and validation is not DISABLED (R356). -/
def State.macsecJob (s : State) (p : Nat) (d : List Byte) : Bool :=
  s.macsecOn p && decide (beAt d 12 2 = 0x88E5) && decide (s.f (ETH_MACSEC_VALIDATE p) ≠ 0)

/-- What a port with MACsec does with a received frame (R335 step 3, R356); with no pair in service, one that needs CIP is lost
(R330). -/
def State.macsecRx (s : State) (p : Nat) (d : List Byte) : State × MacsecRx :=
  if !s.macsecOn p then (s, .deliver d none true 0)
  else if s.macsecJob p d then (if s.noLane then (s.inlineLost, .lost) else s.macsecCheck p d)
  else if beAt d 12 2 = 0x88E5 then (s, .deliver d none false 0)
  else if beAt d 12 2 = 0x888E then (s, .deliver d none true 0)
  else (s, s.macsecLoose p d)

/-! ### PTP (R351 to R353) -/

/-- Where the PTP event message of a frame begins, if it carries one, and whether it lies in UDP over IPv4 or IPv6: 0 for
EtherType 0x88F7. -/
def ptpEvent (d : List Byte) : Option (Nat × Nat) :=
  let (t, at_, _) := etherType d
  let far := decide (at_ = 22)
  let event (n fam : Nat) : Option (Nat × Nat) := if beAt d n 1 % 16 < 4 ∧ n + 34 ≤ d.length then some (n, fam) else none
  if far then none
  else if t = 0x88F7 then event at_ 0
  else if t = 0x0800 ∧ beAt d (at_ + 9) 1 = 17 ∧ beAt d (at_ + 6) 2 % 2 ^ 14 = 0 then
    let u := at_ + 4 * (beAt d at_ 1 % 16)
    if beAt d (u + 2) 2 = 319 then event (u + 8) 4 else none
  else if t = 0x86DD then
    match v6Transport d d.length d.length (beAt d (at_ + 6) 1) (at_ + 40) with
    | some (17, u) => if beAt d (u + 2) 2 = 319 then event (u + 8) 6 else none
    | _ => none
  else none

/-- The one-step update of a frame that leaves at an LT (R353). -/
def State.oneStep (s : State) (p : Nat) (f : EthFrame) (txLt : Nat) : List Byte :=
  match ptpEvent f.data, f.rxLt with
  | some (n, fam), some rx =>
    if !s.on (ETH_PORT_PTP_ONESTEP p) || decide (fam = 6) || s.macsecOn p then f.data
    else
      let corr := (beAt f.data (n + 8) 8 + (txLt + 2 ^ 64 - rx) % 2 ^ 64 * 65536) % 2 ^ 64
      let d := putBytes f.data (n + 8) (natBe 8 corr)
      if fam = 4 then putBytes d (n - 2) [0, 0] else d
  | _, _ => f.data

/-- The timestamp of a transmitted PTP event message (R352). -/
def State.stampTx (s : State) (p : Nat) (d : List Byte) (lt : Nat) : State :=
  match ptpEvent d with
  | some (n, _) =>
    if !s.on (ETH_PORT_PTP_TX_EN p) then s
    else if 64 ≤ (s.ethPort p).stamps.length then s.bump (ETH_CNT_TS_LOST p)
    else s.editPort p fun x => { x with stamps := x.stamps ++ [(lt, beAt d (n + 30) 2, beAt d n 1 % 16, beAt d (n + 4) 1)] }
  | none => s

end Sys2Proof.Machine
end

