-- ==== Sys2Proof/Machine/FlwKey.lean ====
section
/-! DEFINITION. Flow keys and entries (R135 to R138), and what FLW reads in a packet's headers. -/

namespace Sys2Proof.Machine

/-! ### PARAM (R135) -/

/-- The class of a PARAM. -/
def paramClass (p : Nat) : Nat := p % 256
/-- The VRF of a PARAM. -/
def paramVrf (p : Nat) : Nat := p / 2 ^ 8 % 64
/-- The NAT of a PARAM: 0 NONE, 1 NAT44, 2 NAT64; the reserved value is NONE. -/
def paramNat (p : Nat) : Nat := p / 2 ^ 16 % 4 % 3
/-- NAT of a PARAM holds the reserved value. -/
def paramBad (p : Nat) : Bool := decide (p / 2 ^ 16 % 4 = 3)
/-- NOFLOW of a PARAM. -/
def paramNoflow (p : Nat) : Bool := decide (p / 2 ^ 18 % 2 = 1)
/-- TC of a PARAM. -/
def paramTc (p : Nat) : Nat := p / 2 ^ 24 % 8

/-! ### The hash (R138) -/

/-- `n` steps of the reflected CRC-32C on its register. -/
def crcSteps : Nat → Nat → Nat
  | 0, c => c
  | n + 1, c => crcSteps n (if c % 2 = 1 then Nat.xor (c / 2) 0x82F63B78 else c / 2)

/-- CRC-32C of bytes: initial value `seed`, final XOR of all ones. The seed enters the reflected register as it stands, bit 0 of
the field first (DESIGN CHOICE, log entry 209: R138 gives no bit order for it). -/
def crc32c (seed : Nat) (l : List Byte) : Nat :=
  Nat.xor (l.foldl (fun c b => Nat.xor (crcSteps 8 (Nat.xor (c % 256) b.toNat)) (c / 256)) seed) 0xFFFFFFFF

/-- The hash H of a key. -/
def State.flowHash (s : State) (key : List Byte) : Nat := crc32c (s.f FLW_HASH_SEED_SEED) key

/-! ### The key (R136) -/

/-- The IP protocol that a transport type code stands for (R397). -/
def l4Proto : Nat → Nat
  | 0x20 => 6 | 0x21 => 17 | 0x22 => 1 | _ => 58

/-- An ICMP or ICMPv6 echo message: its type. -/
def echoType (code t : Nat) : Bool :=
  if code = 0x22 then decide (t = 0 ∨ t = 8) else decide (code = 0x23) && decide (t = 128 ∨ t = 129)

/-- An ICMP or ICMPv6 error message: its type (RFC 792, RFC 4443). -/
def errorType (code t : Nat) : Bool :=
  if code = 0x22 then [3, 4, 5, 11, 12].contains t else decide (code = 0x23) && decide (t < 128)

/-- The first byte of the transport layer: the type of an ICMP message. -/
def l4Type (p : Packet) : Nat := match l4Layer p with | some (_, l4) => beAt p.data l4 1 | none => 0

/-- PROTO of a packet: the transport layer's, or the protocol field of the IP header where no transport layer was recorded
(DESIGN CHOICE, log entry 40). -/
def protoOf (p : Packet) : Nat :=
  match l4Layer p, ipLayer p with
  | some (c, _), _ => l4Proto c
  | none, some (code, ip) => beAt p.data (ip + (if code = 0x11 then 6 else 9)) 1
  | none, none => 0

/-- PORTS of a packet, four bytes. -/
def portsOf (p : Packet) : List Byte :=
  match l4Layer p with
  | some (c, l4) =>
    if c = 0x20 ∨ c = 0x21 then natBe 4 (beAt p.data l4 4)
    else if echoType c (l4Type p) then natBe 2 (beAt p.data (l4 + 4) 2) ++ [0, 0]
    else [0, 0, 0, 0]
  | none => [0, 0, 0, 0]

/-- The 39 key bytes of a tuple; addresses of an IPv4 key in its first 8 bytes, EXT 0x00 (R137). -/
def keyOf (v6 : Bool) (src dst : Nat) (ports : List Byte) (proto vrf : Nat) : List Byte :=
  (if v6 then natBe 16 src ++ natBe 16 dst else natBe 4 src ++ natBe 4 dst ++ List.replicate 24 0) ++ ports ++
    [BitVec.ofNat 8 proto, BitVec.ofNat 8 vrf, BitVec.ofNat 8 v6.toNat]

/-- A packet's key; none for one whose last pass recorded no IP layer. -/
def flowKey (p : Packet) (vrf : Nat) : Option (List Byte) :=
  (ipLayer p).map fun (l : Nat × Nat) =>
    let v6 := decide (l.1 = 0x11)
    keyOf v6 (if v6 then beAt p.data (l.2 + 8) 16 else beAt p.data (l.2 + 12) 4)
      (if v6 then beAt p.data (l.2 + 24) 16 else beAt p.data (l.2 + 16) 4) (portsOf p) (protoOf p) vrf

/-- The fields of a key. -/
def keyV6 (k : List Byte) : Bool := decide (beAt k 38 1 % 2 = 1)
def keySrc (k : List Byte) : Nat := if keyV6 k then beAt k 0 16 else beAt k 0 4
def keyDst (k : List Byte) : Nat := if keyV6 k then beAt k 16 16 else beAt k 4 4
def keySport (k : List Byte) : Nat := beAt k 32 2
def keyDport (k : List Byte) : Nat := beAt k 34 2
def keyProto (k : List Byte) : Nat := beAt k 36 1
def keyVrf (k : List Byte) : Nat := beAt k 37 1 % 64

/-- The packet holds an IPv6 extension header other than Fragment, or IPv4 options (R150). -/
def natOptions (p : Packet) : Bool :=
  match ipLayer p with
  | some (0x10, ip) => decide (beAt p.data ip 1 % 16 ≠ 5)
  | _ => p.layers.any fun l => decide (l.1 = 0x12)

/-- A packet whose NAT R151 sends to the exception quire. -/
def natException (p : Packet) : Bool :=
  p.firstFrag || p.laterFrag ||
    (match l4Layer p with
     | some (c, _) => decide (c ≠ 0x20 ∧ c ≠ 0x21) && !echoType c (l4Type p)
     | none => true)

/-! ### Entry images (R136) -/

/-- A flow entry as 64 bytes. -/
def flowImage (f : Flow) : List Byte :=
  let key := if keyV6 f.key then f.key else f.key.take 8 ++ natBe 16 f.ext ++ (f.key.drop 24)
  key ++ natLe 1 (f.tier + 4 * f.pin.toNat + 8 * f.nat.toNat + 16 * f.rev.toNat + 32 * f.ended.toNat + 64 * f.sat.toNat) ++
    natLe 4 f.param ++ natLe 2 f.ed ++ natLe 2 f.last ++ natLe 2 f.nh ++ natLe 1 f.gen ++ [0] ++
    natBe 4 f.xlatAddr ++ natBe 2 f.xlatPort ++ natLe 6 (f.pkts + f.bytes * 2 ^ 24)

/-- The little-endian number of `k` bytes at position `n`. -/
def leAt (l : List Byte) (n k : Nat) : Nat := leNat ((l.drop n).take k)

/-- The entry of a 64-byte image. -/
def flowOf (l : List Byte) : Flow :=
  let v6 := keyV6 l
  let c := leAt l 39 1
  { key := if v6 then l.take 39 else l.take 8 ++ List.replicate 24 0 ++ (l.take 39).drop 32
    tier := c % 4, pin := c / 4 % 2 = 1, nat := c / 8 % 2 = 1, rev := c / 16 % 2 = 1, ended := c / 32 % 2 = 1
    sat := c / 64 % 2 = 1, param := leAt l 40 4, ed := leAt l 44 2, last := leAt l 46 2, nh := leAt l 48 2
    gen := leAt l 50 1, xlatAddr := beAt l 52 4, xlatPort := beAt l 56 2, pkts := leAt l 58 3, bytes := leAt l 61 3
    ext := if v6 then 0 else beAt l 8 16 }

/-- Bytes as the numbers of an SMP payload. -/
def octets (l : List Byte) : List Nat := l.map (·.toNat)

/-- The words of `FLW_FLOW_BUF` as bytes. -/
def State.flowBuf (s : State) : List Byte := (List.range 16).flatMap fun i => natLe 4 (s.f (FLW_FLOW_BUF_W i))

/-- The key in `FLW_FLOW_BUF`. -/
def State.bufKey (s : State) : List Byte := (flowOf s.flowBuf).key

/-- An entry image copied into `FLW_FLOW_BUF`. -/
def State.flowToBuf (s : State) (f : Flow) : State :=
  s.each (List.range 16) fun s i => s.set (FLW_FLOW_BUF_W i) (leAt (flowImage f) (4 * i) 4)

end Sys2Proof.Machine
end

