-- ==== Sys2Proof/Machine/FlwTable.lean ====
section
/-! DEFINITION. The flow table's places, its counters and export records, NAT pairs and routes (R139 to R150). -/

namespace Sys2Proof.Machine

/-! ### Places (R138, R139) -/

/-- The Limp mode of FLW. -/
def State.limp (s : State) : Bool := s.on FLW_STATUS_LIMP

/-- The tier of a place: SRAM or DRAM. -/
def State.tierOf (s : State) (sram : Bool) : Map Flow := if sram then s.flw.sram else s.flw.warm

/-- A key's bucket in a tier, as the index of its first way (R138). -/
def State.bucket (s : State) (sram : Bool) (key : List Byte) : Nat :=
  8 * (if sram then s.flowHash key / 2 ^ 17 else s.flowHash key % 2 ^ 20)

/-- Entries in use in every tier. -/
def State.flowCount (s : State) : Nat := s.flw.sram.length + s.flw.warm.length

/-- `FLW_STATUS.COUNT` and `FLW_SRAM_COUNT` follow the table. -/
def State.flwSync (s : State) : State := (s.set FLW_STATUS s.flowCount).set FLW_SRAM_COUNT s.flw.sram.length

/-- The entry in a place. -/
def State.flowAt (s : State) (at_ : Bool × Nat) : Option Flow := (s.tierOf at_.1).look at_.2

/-- The place where a tier holds a key, among the 8 ways of its bucket. -/
def State.flowIn (s : State) (sram : Bool) (key : List Byte) : Option (Bool × Nat) :=
  let b := s.bucket sram key
  (((List.range 8).map (b + ·)).find? fun i => ((s.tierOf sram).look i).map (·.key) == some key).map fun i => (sram, i)

/-- The place of a key: its SRAM bucket first (R140). -/
def State.flowFind (s : State) (key : List Byte) : Option (Bool × Nat) :=
  match s.flowIn true key with
  | some p => some p
  | none => s.flowIn false key

/-- The free way of a key's bucket in a tier that takes an entry: the lowest (DESIGN CHOICE, log entry 41). In Limp mode
DRAM is full (R158). -/
def State.freeWay (s : State) (sram : Bool) (key : List Byte) : Option (Bool × Nat) :=
  if s.limp && !sram then none
  else
    let b := s.bucket sram key
    (((List.range 8).map (b + ·)).find? fun i => !(s.tierOf sram).has i).map fun i => (sram, i)

/-- A place written, its TIER field following it; a REMOTE entry stays REMOTE. -/
def State.flowPut (s : State) (at_ : Bool × Nat) (f : Flow) : State :=
  let f := { f with tier := if at_.1 then 1 else if f.tier = 3 then 3 else 2 }
  let s := if at_.1 then { s with flw.sram := s.flw.sram.put at_.2 f } else { s with flw.warm := s.flw.warm.put at_.2 f }
  s.flwSync

/-- A place freed. -/
def State.flowDel (s : State) (at_ : Bool × Nat) : State :=
  let s := if at_.1 then { s with flw.sram := s.flw.sram.del at_.2 } else { s with flw.warm := s.flw.warm.del at_.2 }
  s.flwSync

/-- The entry of a key changed where it stands. -/
def State.flowEdit (s : State) (key : List Byte) (f : Flow → Flow) : State :=
  s.with? (s.flowFind key) fun s at_ =>
    if at_.1 then { s with flw.sram := s.flw.sram.edit at_.2 f } else { s with flw.warm := s.flw.warm.edit at_.2 f }

/-- The entry of a key. -/
def State.flowGet (s : State) (key : List Byte) : Option Flow := (s.flowFind key).bind s.flowAt

/-- The ageing tick: LT[45:30] (R136). -/
def State.ageTick (s : State) : Nat := s.lt / 2 ^ 30 % 65536

/-! ### NAT pairs (R148 to R150, R152) -/

/-- An ICMP or ICMPv6 key, whose identifier stands in the source port. -/
def keyIcmp (k : List Byte) : Bool := decide (keyProto k = 1 ∨ keyProto k = 58)

/-- The ports of a reply as bytes: the destination port is the translated one; an echo's identifier stands first. -/
def replyPorts (icmp : Bool) (src dst : Nat) : List Byte :=
  if icmp then natBe 2 dst ++ [0, 0] else natBe 2 src ++ natBe 2 dst

/-- The 12 bytes of `FLW_PFX64` (R150). -/
def State.prefix64 (s : State) : Nat :=
  beNat ((List.range 3).flatMap fun i => natLe 4 (s.f (FLW_PFX64_W i)))

/-- The tuple of the packets that answer an outbound key translated to an address and a port (R148). -/
def inboundKey (key : List Byte) (addr port : Nat) : List Byte :=
  let dst := if keyV6 key then keyDst key % 2 ^ 32 else keyDst key
  keyOf false dst addr (replyPorts (keyIcmp key) (keyDport key) port)
    (if keyProto key = 58 then 1 else keyProto key) (keyVrf key)

/-- The key of the other entry of a pair, from the entry's key and XLAT (R152). -/
def State.partnerKey (s : State) (f : Flow) : List Byte :=
  if !f.rev then inboundKey f.key f.xlatAddr f.xlatPort
  else
    let icmp := keyIcmp f.key
    let ports := if icmp then natBe 2 f.xlatPort ++ [0, 0] else natBe 2 f.xlatPort ++ natBe 2 (keySport f.key)
    if paramNat f.param = 2 then
      keyOf true f.ext (s.prefix64 * 2 ^ 32 + keySrc f.key) ports (if keyProto f.key = 1 then 58 else keyProto f.key)
        (keyVrf f.key)
    else keyOf false f.xlatAddr (keySrc f.key) ports (keyProto f.key) (keyVrf f.key)

/-- The other entry of a pair: the one that FLW finds by the key it builds from an entry's key and XLAT (R152), where that entry is of a
pair with this one, local or REMOTE as this one is. -/
def State.partner (s : State) (f : Flow) : Option Flow :=
  if !f.nat then none
  else (s.flowGet (s.partnerKey f)).filter fun (g : Flow) =>
    g.nat && s.partnerKey g == f.key && (decide (g.tier = 3) == decide (f.tier = 3))

/-- The k-th candidate of a key's translation: an address of the VRF's pool and a port from PORT_LO on (R149). -/
def State.natTry (s : State) (key : List Byte) (k : Nat) : Nat × Nat :=
  let v := keyVrf key
  let h := Config.natHash key v k
  let lo := max 1024 (s.f (FLW_VRF_POOL_PORT_LO v))
  let base := beNat (natLe 4 (s.f (FLW_VRF_POOL_BASE_W v)))
  (base + h / 65536 % 2 ^ min 8 (s.f (FLW_VRF_POOL_POOL_LOG2 v)), lo + h % (65536 - lo))

/-- The first of the 8 candidates whose inbound key is free (R149). -/
def State.natPick (s : State) (key : List Byte) : Option (Nat × Nat) :=
  ((List.range 8).map (s.natTry key)).find? fun c => (s.flowFind (inboundKey key c.1 c.2)).isNone

/-- The inbound entry of a pair (R148 to R150). -/
def inboundOf (f : Flow) : Flow :=
  { f with key := inboundKey f.key f.xlatAddr f.xlatPort, rev := true, nh := 0xFFFF, pkts := 0, bytes := 0, sat := false
           xlatAddr := if keyV6 f.key then 0 else keySrc f.key, xlatPort := keySport f.key
           ext := if keyV6 f.key then keySrc f.key else 0 }

/-! ### Counting and export (R142) -/

/-- A count record is written to the export quire; true where the quire took it. -/
def State.flowExport (s : State) (f : Flow) (reason : Nat) : State × Bool :=
  let bytes := flowImage f ++ natLe 8 reason ++ natLe 8 s.lt ++ List.replicate 16 0
  let info := natLe 16 (s.free .recordInfo)
  let (s, ok) := s.drawn.quireWrite (s.f FLW_CTL_EXP_Q) info bytes true
  (s.when (!ok) (·.bump FLW_CNT_EXPORT_LOST), ok)

/-- One entry freed, with a record. -/
def State.flowFree1 (s : State) (key : List Byte) (reason : Nat) : State :=
  match s.flowFind key with
  | none => s
  | some at_ =>
    match s.flowAt at_ with
    | none => s
    | some f => ((s.flowDel at_).flowExport f reason).1

/-- An entry freed, and with it the other one of its pair (R152). -/
def State.flowFree (s : State) (key : List Byte) (reason : Nat) : State :=
  match s.flowGet key with
  | none => s
  | some f =>
    let other := s.partner f
    (s.flowFree1 key reason).with? other fun s g => s.flowFree1 g.key reason

/-- A packet of an entry is counted, with its length at egress; a record goes out when the top bit of a counter becomes 1
(R142). -/
def State.flowBump (s : State) (key : List Byte) (len : Nat) : State :=
  match s.flowGet key with
  | none => s
  | some f =>
    let (s, stuck) := if f.sat then (s.flowExport f 1).map id (!·) else (s, false)
    if stuck then s
    else
      let base := if f.sat then (0, 0) else (f.pkts, f.bytes)
      let g := { f with sat := false, pkts := (base.1 + 1) % 2 ^ 24, bytes := min (2 ^ 24 - 1) (base.2 + len) }
      if g.pkts < 2 ^ 23 ∧ g.bytes < 2 ^ 23 then s.flowEdit key fun _ => g
      else
        let (s, ok) := s.flowExport g 1
        s.flowEdit key fun _ =>
          if ok then { g with pkts := 0, bytes := 0 } else { g with pkts := 2 ^ 24 - 1, bytes := 2 ^ 24 - 1, sat := true }

/-! ### Routes (R144 to R146) -/

/-- The number with the bits beyond a prefix length of `n` bits cleared. -/
def maskTo (n len v : Nat) : Nat := v / 2 ^ (n - len) * 2 ^ (n - len)

/-- The next hop of the longest matching prefix in a VRF; in Limp mode of the limp table (R144, R158). -/
def State.routeFind (s : State) (vrf : Nat) (v6 : Bool) (dst : Nat) : Option Nat :=
  let w := if v6 then 128 else 32
  let table := if s.limp then s.flw.limpRoutes else s.flw.routes
  let hits := table.filter fun r => decide (r.vrf = vrf) && r.v6 == v6 && decide (maskTo w r.len dst = r.prefix_)
  (hits.foldl (fun (m : Option Route) r => match m with
    | none => some r
    | some k => if k.len < r.len then some r else m) none).map (·.nh)

/-- An entry's cached next hop, while it holds (R146). -/
def State.cachedNh (s : State) (f : Flow) : Option Nat :=
  if f.tier = 3 ∨ f.nh = 0xFFFF ∨ f.gen ≠ s.f (FLW_VRF_CTL_GEN (keyVrf f.key)) then none else some f.nh

/-- A next hop that can be used: VALID 1, its word good, QBASE + TC within the queues (R147). -/
def State.nhUsable (s : State) (nh tc : Nat) : Bool :=
  s.on (FLW_NH_VALID nh) && !s.bad.contains (.flw, 1, nh) && decide (s.f (FLW_NH_QBASE nh) + tc ≤ 32767)

end Sys2Proof.Machine
end

