-- ==== Sys2Proof/Machine/FlwOps.lean ====
section
/-! DEFINITION. A packet's way through FLW (R140 to R155): the edition rule at an entry, creating an entry, the remote
lookup, the route stage, and the fences of placement that hold packets (R204). -/

namespace Sys2Proof.Machine

/-! ### Packets in FLW -/

/-- A packet in FLW changed. -/
def State.editWait (s : State) (id : Nat) (f : FlwPkt → FlwPkt) : State :=
  { s with flw.wait := s.flw.wait.map fun (x : FlwPkt) => if x.pkt = id then f x else x }

/-- A packet leaves FLW's list. -/
def State.unwait (s : State) (id : Nat) : State :=
  { s with flw.wait := s.flw.wait.filter fun (x : FlwPkt) => decide (x.pkt ≠ id) }

/-- The packets that may leave: those decided with no packet of their flow before them (R24, R154). -/
def leaving : List (List Byte) → List FlwPkt → List (Nat × Nat)
  | _, [] => []
  | before, x :: t =>
    match x.stage with
    | .out q => if before.contains x.key then leaving before t else (x.pkt, q) :: leaving before t
    | _ => leaving (x.key :: before) t

/-- Every packet that may leave is enqueued on its queue (R147). -/
def State.flwDrain (s : State) : State :=
  let go := leaving [] s.flw.wait
  let s := s.each go fun s g => s.unwait g.1
  s.each go fun s g => s.schEnqueue g.2 g.1

/-- A packet is dropped in FLW. -/
def State.flwDrop (s : State) (id : Nat) : State := ((s.unwait id).pktDiscard id).flwDrain

/-- A packet is sent to an exception quire of FLW; it is diverted with respect to the packets around it (R24). -/
def State.flwExc (s : State) (id q : Nat) : State := ((s.unwait id).toQuire id q).flwDrain

/-- A packet goes to the NAT exception quire (R143, R150, R151). -/
def State.natExc (s : State) (id : Nat) : State := (s.flwExc id (s.f FLW_CTL_NAT_Q)).bump FLW_CNT_NAT_EXC

/-! ### The route stage (R147) -/

/-- The length of a packet at its egress: after the rewrite, with the header of the lowest link root of its queue. -/
def State.egressLen (s : State) (id q : Nat) : Nat :=
  let roots := nodeRoots (s.schC (queueClient (s.schQ q)))
  match (List.range 12).find? fun r => roots.testBit r with
  | some r => match s.pkt id with | some p => s.rootLen r p | none => 0
  | none => match s.pkt id with | some p => ipLength p | none => 0

/-- A packet that uses an entry is counted in it (R142), a poisoned one not (R107). Of one that does not reach its egress the length
is open (free value). -/
def State.countUse (s : State) (x : FlwPkt) (uses : Bool) (len : Option Nat) : State :=
  let poison := match s.pkt x.pkt with | some p => p.poison | none => true
  if !uses || poison then s
  else match len with
  | some n => s.flowBump x.key n
  | none => s.drawn.flowBump x.key (s.free .noEgress % 2 ^ 14)

/-- A next hop of a Wi-Fi root whose station index names no station: it is treated as VALID 0, and WMA counts the packet too (R278). -/
def State.wifiHopLost (s : State) (nh tc : Nat) : Bool :=
  let w := s.f (FLW_NH_REWRITE nh)
  let roots := nodeRoots (s.schC (queueClient (s.schQ (s.f (FLW_NH_QBASE nh) + tc))))
  [8, 9, 10].any roots.testBit && !w.testBit 15 && (s.wma.stations.look (w % 1024)).isNone

/-- The checks of the route stage on a packet, with the next hop of its route. -/
def State.routeGo (s : State) (x : FlwPkt) (uses : Bool) (nh : Option Nat) : State :=
  match s.pkt x.pkt with
  | none => s.unwait x.pkt
  | some p =>
    let tc := paramTc x.param
    let lost := s.countUse x uses none
    match nh with
    | none =>
      let s := lost.bump FLW_CNT_NO_ROUTE
      if s.on (FLW_VRF_CTL_DEFAULT (keyVrf x.key)) then s.flwExc x.pkt (s.f FLW_CTL_TTL_Q) else s.flwDrop x.pkt
    | some n =>
      let ttl := match ipLayer p with
        | some (code, ip) => beAt p.data (ip + (if code = 0x10 then 8 else 7)) 1
        | none => 0
      if !s.nhUsable n tc then (lost.flwDrop x.pkt).bump FLW_CNT_NO_ROUTE
      else if s.wifiHopLost n tc then ((lost.flwDrop x.pkt).bump FLW_CNT_NO_ROUTE).bump WMA_CNT_UNKNOWN_TA
      else if ttl ≤ 1 then (lost.flwExc x.pkt (s.f FLW_CTL_TTL_Q)).bump FLW_CNT_TTL
      else if s.f (FLW_NH_MTU n) < ipLength p then (lost.flwExc x.pkt (s.f FLW_CTL_TTL_Q)).bump FLW_CNT_MTU
      else
        let q := s.f (FLW_NH_QBASE n) + tc
        let s := s.editPkt x.pkt fun p => { p with routed := true, rewrite := some (s.f (FLW_NH_REWRITE n)) }
        let s := s.countUse x uses (some (s.egressLen x.pkt q))
        (s.editWait x.pkt fun x => { x with stage := .out q }).flwDrain

/-- A packet whose entry is settled goes to the route stage: at once where the entry's next hop holds (R146), else with a lookup
that sees the routes as they are now (R145). -/
def State.toRoute (s : State) (x : FlwPkt) (uses : Bool) : State :=
  let v := keyVrf x.key
  let stage := FlwStage.route uses (s.routeFind v (keyV6 x.key) (keyDst x.key)) (s.f (FLW_VRF_CTL_GEN v))
  let s := s.editWait x.pkt fun y => { y with stage := stage, param := x.param, key := x.key }
  match if uses then (s.flowGet x.key).bind s.cachedNh else none with
  | some nh => s.routeGo x uses (some nh)
  | none => s

/-- The route lookup returns: the next hop is stored in the entry that asked for it (R146). -/
def State.routeDone (s : State) (x : FlwPkt) (uses : Bool) (nh : Option Nat) (gen : Nat) : State :=
  let s := s.when uses (·.flowEdit x.key fun f => if f.tier = 3 then f else { f with nh := nh.getD 0xFFFF, gen := gen })
  s.routeGo x uses nh

/-! ### Entries (R141, R148) -/

/-- The places for entries of one tier, in the order of their keys; a pair lives in one tier (R148). -/
def State.placeAll (s : State) (sram : Bool) : List Flow → Option State
  | [] => some s
  | f :: t => (s.freeWay sram f.key).bind fun at_ => (s.flowPut at_ { f with tier := 0 }).placeAll sram t

/-- Entries placed together: in SRAM where the class or Limp mode asks for that and there is room, else in DRAM; none where that
has no room, or the table (R141, R158). With TIER_NEW 0 a full DRAM bucket is the end of it: SRAM is not tried (DESIGN CHOICE, log
entry 210). -/
def State.flowPlace (s : State) (cls : Nat) (l : List Flow) : Option State :=
  if 8388608 < s.flowCount + l.length then none
  else match if s.limp || s.on (FLW_CLASS_TIER_NEW cls) then s.placeAll true l else none with
  | some s => some s
  | none => s.placeAll false l

/-- How making an entry ended. -/
inductive Made where
  | made | full | exhausted
  deriving DecidableEq, Repr

/-- PARAM asks for a NAT that fits the key's family (R148 to R150). -/
def natWanted (f : Flow) : Bool := decide (paramNat f.param ≠ 0 ∧ (paramNat f.param = 2 ↔ keyV6 f.key))

/-- An entry for a key, with a NAT pair where PARAM asks for one that fits the key's family (R141, R148 to R150). The
counters start as given. -/
def State.flowMake (s : State) (f : Flow) : State × Made :=
  if natWanted f then
    match s.natPick f.key with
    | none => (s, .exhausted)
    | some (a, p) =>
      let f := { f with nat := true, xlatAddr := a, xlatPort := p }
      match s.flowPlace (paramClass f.param) [f, inboundOf f] with
      | some s => (s, .made)
      | none => (s, .full)
  else match s.flowPlace (paramClass f.param) [f] with
    | some s => (s, .made)
    | none => (s, .full)

/-- A new entry. -/
def State.newFlow (s : State) (key : List Byte) (param ed : Nat) : Flow :=
  { key := key, tier := 0, param := param, ed := ed, last := s.ageTick }

/-! ### The edition rule (R143) -/

/-- Edition `e` is newer than `d`: one that is not live is older than every live one; otherwise the distances from OLDEST decide. -/
def State.edNewer (s : State) (e d : Nat) : Bool :=
  if s.edLive e = s.edLive d then decide (s.edDist d < s.edDist e) else s.edLive e

/-- What an entry does with a packet: the PARAM that decides its class and TC, the exception quire, or a drop. -/
inductive EntryUse where
  | use (param : Nat)
  | exception
  | drop
  deriving DecidableEq, Repr

/-- The packet's PARAM and edition are written into the entry where it stands; its NAT pair is freed and, if PARAM still requests
NAT, a new one is made with its inbound entry in the same tier (R143, R148). A pair that cannot be made drops the packet (R141), and the
entry stays with the new edition, its PARAM still requesting NAT and NAT 0, so that the flow's next packet of that edition is forwarded
untranslated (DESIGN CHOICE, log entry 239: no rule says what the entry then holds). -/
def State.rebind (s : State) (f : Flow) (param ed : Nat) : State × EntryUse :=
  let s := s.with? (s.partner f) fun s g => s.flowFree1 g.key 3
  let plain (g : Flow) : Flow :=
    { g with param := param, ed := ed, nat := false, rev := false, xlatAddr := 0, xlatPort := 0, ext := 0 }
  let s := s.flowEdit f.key plain
  if !natWanted (plain f) then (s, .use param)
  else match s.natPick f.key with
  | none => (s.bump FLW_CNT_NAT_EXHAUST, .drop)
  | some (a, p) =>
    let pair (g : Flow) : Flow := { g with nat := true, xlatAddr := a, xlatPort := p }
    let room := if s.flowCount < 8388608 then s.placeAll (decide (f.tier = 1)) [inboundOf (pair (plain f))] else none
    match room with
    | some s => (s.flowEdit f.key pair, .use param)
    | none => (s.bump FLW_CNT_TABLE_FULL, .drop)

/-- A packet of edition `ed` and PARAM `param` meets the entry of its key. -/
def State.edition (s : State) (f : Flow) (ed param : Nat) : State × EntryUse :=
  if ed = f.ed then (s, .use f.param)
  else if s.edNewer ed f.ed then
    if paramNat param = paramNat f.param then
      (s.flowEdit f.key fun g => { g with param := param, ed := ed }, .use param)
    else s.rebind f param ed
  else if paramNat param = paramNat f.param then (s, .use param)
  else (s, .exception)

/-- An entry and its pair are refreshed, and END is noted (R136, R152, R156). -/
def State.flowTouch (s : State) (key : List Byte) (fin : Bool) : State :=
  let t := s.ageTick
  let other := (s.flowGet key).bind s.partner
  let s := s.flowEdit key fun f => { f with last := t, ended := f.ended || fin }
  s.with? other fun s o => s.flowEdit o.key fun f => { f with last := t }

/-- One packet of a flow is seen, from a device (R185, R193). -/
def State.flowSeen (s : State) (key : List Byte) (src : Option Nat) : State :=
  match s.flw.seen.find? fun e => e.1 == key && decide (e.2.1 = src) with
  | some _ => { s with flw.seen := s.flw.seen.map fun (e : List Byte × Option Nat × Nat) =>
      if e.1 == key && decide (e.2.1 = src) then (key, src, e.2.2 + 1) else e }
  | none => { s with flw.seen := s.flw.seen ++ [(key, src, 1)] }

/-! ### Remote flows (R154) -/

/-- The bytes of a LOOKUP. -/
def lookupBytes (req : Nat) (key : List Byte) (ed param len : Nat) (redirected : Bool) : List Nat :=
  octets (natLe 4 req ++ key ++ natLe 2 ed ++ natLe 4 param ++ natLe 2 len ++ natLe 1 redirected.toNat)

/-- The entry edition that a packet carries, 0 for one without. -/
def State.pktEdition (s : State) (id : Nat) : Nat := ((s.pkt id).bind (·.edition)).getD 0

/-- A packet asks the owner of its flow. -/
def State.askOwner (s : State) (x : FlwPkt) (owner : Nat) (redirected : Bool) : State :=
  let len := match s.pkt x.pkt with | some p => ipLength p | none => 0
  let req := s.flw.nextReq
  let deadline := if x.stage = .remote then x.deadline else s.now + max 100 (s.f FLW_REMOTE_TMO_TMO) * 1000
  let s := s.editWait x.pkt fun y => { y with
    stage := .remote, key := x.key, param := x.param, owner := owner, req := req, redirected := redirected, deadline := deadline }
  { s with flw.nextReq := (req + 1) % 2 ^ 32 }.smpSend 0x38 (some owner)
    (lookupBytes req x.key (s.pktEdition x.pkt) x.param len redirected)

/-- The NAT translation that an entry gives a packet (R149, R150). -/
def State.natMark (s : State) (f : Flow) (p : Packet) : Packet :=
  { p with natPfx := s.prefix64, nat := some (f.xlatAddr, f.xlatPort), natRev := f.rev, nat64 := paramNat f.param = 2
           natV6 := if paramNat f.param = 2 && f.rev then some f.ext else none }

/-- A packet uses the entry found for it. -/
def State.useFlow (s : State) (x : FlwPkt) (f : Flow) : State :=
  let fin := match s.pkt x.pkt, (s.pkt x.pkt).bind l4Layer with
    | some p, some (0x20, l4) => decide (beAt p.data (l4 + 13) 1 % 2 = 1) || decide (beAt p.data (l4 + 13) 1 / 4 % 2 = 1)
    | _, _ => false
  if f.tier = 3 then ((s.flowTouch x.key fin).flowSeen x.key none).askOwner x (f.nh % 64) false
  else
    match s.edition f (s.pktEdition x.pkt) x.param with
    | (s, .exception) => s.natExc x.pkt
    | (s, .drop) => s.flwDrop x.pkt
    | (s, .use param) =>
      let s := (s.flowTouch x.key fin).flowSeen x.key none
      let f := (s.flowGet x.key).getD f
      let outside := match s.pkt x.pkt with | some p => natOptions p | none => false
      if f.nat && decide (paramNat f.param = 2) && outside then (s.countUse x true none).natExc x.pkt
      else (s.when f.nat (·.editPkt x.pkt (s.natMark f))).toRoute { x with param := param } true

/-- A packet whose key is in neither tier (R141). -/
def State.flowMiss (s : State) (x : FlwPkt) : State :=
  match s.flowMake (s.newFlow x.key x.param (s.pktEdition x.pkt)) with
  | (s, .made) => s.with? (s.flowGet x.key) fun s f => s.useFlow x f
  | (s, .exhausted) => (s.flwDrop x.pkt).bump FLW_CNT_NAT_EXHAUST
  | (s, .full) =>
    let s := s.bump FLW_CNT_TABLE_FULL
    if paramNat x.param = 0 && s.on (FLW_CLASS_FULL (paramClass x.param)) then s.toRoute x false else s.flwDrop x.pkt

/-- The device that steered the client of a packet here: one of WMA's, by the station of its header slot (R198, R276). -/
def State.steeredFrom (s : State) (id : Nat) : Option Nat :=
  (s.pkt id).bind fun p =>
    if s.f (PKB_Q_CFG_PROD p.ingress) = UnitId.wma.num then (s.wma.stations.look (leAt p.info 0 2)).bind (·.origin) else none

/-- A packet whose key is in neither tier. A flow of a client that another device steered here is taken for that device's: it gets a
REMOTE entry and asks that device, whose MISS makes it a flow of this one (R155, R198; DEDUCED, log entry 137). -/
def State.flowNew (s : State) (x : FlwPkt) : State :=
  let owner := if s.limp || decide (8388608 ≤ s.flowCount) then none else s.steeredFrom x.pkt
  match owner, s.freeWay false x.key with
  | some d, some at_ =>
    let f : Flow := { s.newFlow x.key x.param (s.pktEdition x.pkt) with tier := 3, nh := d % 64 }
    (s.flowPut at_ f).useFlow x f
  | _, _ => s.flowMiss x

/-! ### Fences (R204) -/

/-- The fence that holds a key. -/
def State.fence (s : State) (key : List Byte) : Option MoveIn := s.ple.movesIn.find? fun m => m.keys.contains key

/-- The packets held in every fence. -/
def State.fenced (s : State) : Nat :=
  s.ple.movesIn.foldl (fun n m => n + (m.held.filter fun h => match h with | .packet _ => true | _ => false).length) 0

/-- A fence takes an item. -/
def State.fenceHold (s : State) (id : Nat) (h : FenceItem) : State :=
  { s with ple.movesIn := s.ple.movesIn.map fun (m : MoveIn) => if m.id = id then { m with held := m.held ++ [h] } else m }

/-- The address of a key's bucket of 512 bytes in DRAM: the table stands in one piece below the limit (free value). -/
def State.bucketAddr (s : State) (key : List Byte) : Nat := 512 * (Config.flowTable % 13860864 + s.bucket false key / 8)

/-- A bucket of DRAM is read: one 512-byte request of FLW's lookups (R140). -/
def State.bucketRead (s : State) (key : List Byte) : State := s.drcAsk 5 (s.bucketAddr key) 16 none

/-- Both 256-byte blocks of a packet's DRAM request have been read. -/
def State.bucketDone (s : State) (x : FlwPkt) : Bool :=
  decide ((s.drc.done.filter fun d => d.ok && decide (d.id = x.dreq)).length = 2)

/-- A packet with its key looked up in the table: in DRAM too once that bucket has been read, or in Limp mode, where DRAM is
gone (R140, R158). -/
def State.flowSearch (s : State) (x : FlwPkt) (dram : Bool) : State :=
  match s.flowIn true x.key, dram || s.limp with
  | some at_, _ => s.with? (s.flowAt at_) fun s f => s.useFlow x f
  | none, false =>
    (s.editWait x.pkt fun y => { y with stage := .dram, key := x.key, param := x.param, dreq := s.drc.next }).bucketRead x.key
  | none, true =>
    match s.flowGet x.key with
    | some f => s.useFlow x f
    | none => s.flowNew x

/-- The lookup of a packet that reaches FLW (R135, R140, R151, R204). -/
def State.flowLookup (s : State) (x : FlwPkt) : State :=
  match s.pkt x.pkt with
  | none => s.unwait x.pkt
  | some p =>
    let s := s.when (paramBad x.param) (·.ev .flw Ev.FLW_BAD_PARAM [x.param])
    let nat := paramNat x.param
    let param := if paramBad x.param then x.param - 3 * 2 ^ 16 else x.param
    match flowKey p (paramVrf param) with
    | none => (s.flwDrop x.pkt).bump FLW_CNT_NO_KEY
    | some key =>
      let x := { x with key := key, param := param }
      let outside := decide (nat = 2) && (natOptions p || (keyV6 key && decide (keyDst key / 2 ^ 32 ≠ s.prefix64)))
      if p.poison then s.toRoute x false
      else if nat ≠ 0 ∧ (natException p ∨ outside ∨ (nat = 1 ∧ keyV6 key)) then s.natExc x.pkt
      else if p.laterFrag then (s.toRoute x false).bump FLW_CNT_FRAG_NOFLOW
      else if paramNoflow param then s.toRoute x false
      else match s.fence key with
      | some m =>
        if 1024 ≤ s.fenced then (s.flwDrop x.pkt).bump PLE_CNT_FENCE_DROP
        else (s.editWait x.pkt fun y => { y with stage := .fenced, key := x.key, param := x.param }).fenceHold m.id (.packet x)
      | none => s.flowSearch x false

/-! ### The owner's side of a remote lookup (R154, R205, R210) -/

/-- How a NAT outcome is written in LOOKUP_RESP (the codes are the MODEL's: log entry 43). -/
def outcomeCode : NatOutcome → Nat
  | .none => 0 | .outbound => 1 | .inbound => 2 | .exception => 3 | .drop => 4

/-- The answer to a remote lookup. -/
def State.lookupResp (s : State) (src req : Nat) (miss : Bool) (o : NatOutcome) (addr port : Nat) : State :=
  s.smpSend 0x39 (some src) (octets (natLe 4 req ++ natLe 1 miss.toNat ++ natLe 1 (outcomeCode o) ++ natBe 4 addr ++ natBe 2 port))

/-- An owner answers a remote lookup under R143, with LAST and the counters of its entry updated; a lookup of a flow that has
moved on is redirected, at most once. It reads the DRAM bucket where SRAM has no entry (R140). -/
def State.ownerAnswer (s : State) (src req : Nat) (key : List Byte) (ed param len : Nat) (redirected : Bool) : State :=
  let s := s.when ((s.flowIn true key).isNone && !s.limp) (·.bucketRead key)
  match s.flowGet key with
  | none => s.lookupResp src req true .none 0 0
  | some f =>
    if f.tier = 3 then
      if redirected then s.lookupResp src req true .none 0 0
      else s.smpSend 0x36 (some src) (octets key ++ [f.nh % 64])
    else
      match s.edition f ed param with
      | (s, .exception) => s.lookupResp src req false .exception 0 0
      | (s, .drop) => s.lookupResp src req false .drop 0 0
      | (s, .use _) =>
        let s := ((s.flowTouch key false).flowSeen key (some src)).flowBump key len
        let f := (s.flowGet key).getD f
        if f.nat then s.lookupResp src req false (if f.rev then .inbound else .outbound) f.xlatAddr f.xlatPort
        else s.lookupResp src req false .none 0 0

end Sys2Proof.Machine
end

