-- ==== Sys2Proof/Machine/MoveOps.lean ====
section
/-! DEFINITION. Moving a flow between devices (R204 to R211): fences, snapshots, and the decision log. -/

namespace Sys2Proof.Machine

/-! ### The decision log (R211) -/

/-- A record of the decision log. -/
structure Decision where
  kind : Nat
  tier : Nat
  forced : Bool := false
  outcome : Nat := 0
  object : Nat
  src : Nat := 0
  dst : Nat := 0
  scoreFrom : Int := 0
  scoreTo : Int := 0
  arg : Nat := 0
  deriving DecidableEq, Repr

/-- The 32 bytes of a record. -/
def decisionBytes (lt : Nat) (d : Decision) : List Byte :=
  natLe 8 lt ++ natLe 1 (d.kind + 16 * d.tier + 128 * d.forced.toNat) ++ natLe 1 d.outcome ++ [0, 0] ++ natLe 4 d.object ++
    natLe 2 d.src ++ natLe 2 d.dst ++ natLe 4 (toBits 32 d.scoreFrom) ++ natLe 4 (toBits 32 d.scoreTo) ++ natLe 4 d.arg

/-- A decision is recorded while LOG_EN is 1; WRAPPED is set once a record is overwritten. -/
def State.decide_ (s : State) (d : Decision) : State :=
  s.when (s.on PLE_CTL_LOG_EN) fun s =>
    let n := s.f PLE_DLOG_HEAD_NEXT
    let s := s.when (s.ple.dlog.has n) (·.up PLE_DLOG_HEAD_WRAPPED)
    let s := { s with ple.dlog := s.ple.dlog.put n (decisionBytes s.lt d) }
    s.set PLE_DLOG_HEAD_NEXT ((n + 1) % 4096)

/-- The number of a flow in the decision log: its hash. -/
def State.flowObj (s : State) (key : List Byte) : Nat := s.flowHash key

/-! ### Moves (R196) -/

/-- `PLE_STATUS.OPEN_MOVES` follows the moves. -/
def State.movesSync (s : State) : State := s.set PLE_STATUS_OPEN_MOVES (s.ple.movesIn.length + s.ple.movesOut.length)

/-- The moves open. -/
def State.openMoves (s : State) : Nat := s.ple.movesIn.length + s.ple.movesOut.length

/-- A move as new owner is closed. -/
def State.moveInEnd (s : State) (id : Nat) : State :=
  { s with ple.movesIn := s.ple.movesIn.filter fun (m : MoveIn) => decide (m.id ≠ id) }.movesSync

/-- A move as old owner is closed. -/
def State.moveOutEnd (s : State) (other id : Nat) : State :=
  { s with ple.movesOut := s.ple.movesOut.filter fun (m : MoveOut) => decide (m.id ≠ id ∨ m.other ≠ other) }.movesSync

/-- A move as new owner changed. -/
def State.editMoveIn (s : State) (id : Nat) (f : MoveIn → MoveIn) : State :=
  { s with ple.movesIn := s.ple.movesIn.map fun (m : MoveIn) => if m.id = id then f m else m }

/-- A move as old owner changed. -/
def State.editMoveOut (s : State) (other id : Nat) (f : MoveOut → MoveOut) : State :=
  { s with ple.movesOut := s.ple.movesOut.map fun (m : MoveOut) => if m.id = id ∧ m.other = other then f m else m }

/-- The flow of a move as new owner. -/
def moveKey (m : MoveIn) : List Byte := m.keys.headD []

/-- The record of a move: its identifier, or the reason of a refusal. -/
def State.moveLog (s : State) (inward : Bool) (key : List Byte) (other arg outcome : Nat) : State :=
  s.decide_ { kind := if inward then 4 else 5, tier := 2, outcome := outcome, object := s.flowObj key
              src := if inward then other else s.shelfId, dst := if inward then s.shelfId else other, arg := arg }

/-- What the fence held is processed, in the order in which it reached FLW (R208). A held packet has kept its place before the packets
of its flow that came after it (R24). -/
def State.fenceRun (s : State) (l : List FenceItem) : State :=
  s.each l fun s h => match h with
    | .packet x => s.flowSearch x false
    | .lookup src req key ed param len redirected => s.ownerAnswer src req key ed param len redirected

/-- The fence is released and this device keeps the flow (R208); how the move ended: 0 DONE, 2 at its timeout. -/
def State.fenceRelease (s : State) (m : MoveIn) (outcome : Nat) : State :=
  (((s.moveInEnd m.id).bump PLE_CNT_MOVE_DONE).moveLog true (moveKey m) m.other m.id outcome).fenceRun m.held

/-- The fence is released where its conditions hold: MOVE_DATA and DRAIN_DONE held, and no lookup of the flow outstanding to
the old owner (R208). -/
def State.fenceCheck (s : State) (id : Nat) : State :=
  s.with? (s.ple.movesIn.find? fun m => decide (m.id = id)) fun s m =>
    let out := s.flw.wait.any fun x => decide (x.stage = .remote) && decide (x.owner = m.other) && m.keys.contains x.key
    s.when (m.data && m.drained && !out) (·.fenceRelease m 0)

/-- Every fence is checked: an answer has come in. -/
def State.fencesCheck (s : State) : State := s.each (s.ple.movesIn.map (·.id)) State.fenceCheck

/-- Reasons of MOVE_CANCEL (the codes are the MODEL's: log entry 43). -/
inductive MoveReason where
  | timeout | notOwner | moving | pinned | busy | limp | full
  deriving DecidableEq, Repr

/-- The reason as MOVE_CANCEL carries it. -/
def MoveReason.code : MoveReason → Nat
  | .timeout => 0 | .notOwner => 1 | .moving => 2 | .pinned => 3 | .busy => 4 | .limp => 5 | .full => 6

/-- MOVE_CANCEL is sent. -/
def State.sendCancel (s : State) (other id : Nat) (r : MoveReason) : State :=
  s.smpSend 0x35 (some other) (octets (natLe 4 id) ++ [r.code])

/-- What the fence held goes to the old owner: its lookups are redirected there, but for those that have been redirected already, which
get MISS (R210), and its packets ask it (R209). -/
def State.fenceReturn (s : State) (owner : Nat) (l : List FenceItem) : State :=
  s.each l fun s h => match h with
    | .packet x => s.askOwner x owner false
    | .lookup src req key _ _ _ redirected =>
      if redirected then s.lookupResp src req true .none 0 0 else s.smpSend 0x36 (some src) (octets key ++ [owner])

/-- The REMOTE entry that stands for a flow another device owns. -/
def remoteOf (f : Flow) (owner : Nat) : Flow :=
  { f with tier := 3, nh := owner % 64, pkts := 0, bytes := 0, sat := false, pin := false }

/-- An entry becomes REMOTE: it moves to its DRAM bucket (R139, R205). -/
def State.flowRemote (s : State) (f : Flow) (owner : Nat) : Option State :=
  let s := s.with? (s.flowFind f.key) State.flowDel
  (s.freeWay false f.key).map fun at_ => s.flowPut at_ (remoteOf f owner)

/-- An entry that has come with a cancelled move goes: the flow is the old owner's again. In Limp mode there is no REMOTE entry
(R158). -/
def State.flowBack (s : State) (owner : Nat) (key : List Byte) : State :=
  s.with? (s.flowGet key) fun s f =>
    if f.tier = 3 then s
    else
      let t := s.with? (s.flowFind key) State.flowDel
      if s.limp then t else (s.flowRemote f owner).getD t

/-- The new owner cancels a move (R209); `tell` where the old owner has not refused. The record says how it ended: 1 REFUSED with
the reason, 2 TIMEOUT, 3 CANCELLED. -/
def State.moveCancel (s : State) (m : MoveIn) (tell : Option MoveReason) (outcome arg : Nat) : State :=
  let s := s.with? tell fun s r => s.sendCancel m.other m.id r
  let s := s.when m.data (·.each m.keys fun s k => s.flowBack m.other k)
  ((((s.moveInEnd m.id).bump PLE_CNT_MOVE_CANCEL).moveLog true (moveKey m) m.other arg outcome).ev .ple Ev.PLE_MOVE_CANCEL
    [m.id]).fenceReturn m.other m.held

/-- Entries placed together in the first of the tiers that has room for them all; the places they had before are freed (R148). -/
def State.flowsPut (s : State) (tiers : List Bool) (l : List Flow) : Option State :=
  let s := s.each l fun s f => s.with? (s.flowFind f.key) State.flowDel
  if 8388608 < s.flowCount + l.length then none else tiers.findSome? fun sram => s.placeAll sram l

/-- Entries installed together: PINNED if SRAM has room, else WARM (R206); in Limp mode there is SRAM only (R158). -/
def State.flowsInstall (s : State) (l : List Flow) : Option State := s.flowsPut (if s.limp then [true] else [true, false]) l

/-- The old owner's part of a move ends by a cancellation (R209): the entry is restored from the snapshot, in the tier that it was in where
that has room; a snapshot that MOVE_ACK has ended is not. -/
def State.moveRestore (s : State) (m : MoveOut) : State :=
  let s := (s.moveOutEnd m.other m.id).bump PLE_CNT_MOVE_CANCEL
  let sram := decide (m.snapshot.tier = 1)
  let s := if m.acked then s
    else (s.flowsPut (if s.limp then [true] else [sram, !sram]) (m.snapshot :: m.partner.toList)).getD s
  (s.moveLog false m.snapshot.key m.other m.id 3).ev .ple Ev.PLE_MOVE_CANCEL [m.id]

/-- Limp mode begins: every open move is cancelled under R209 (R195). -/
def State.movesLimp (s : State) : State :=
  let s := s.each s.ple.movesOut fun s m => (s.when (!m.acked) (·.sendCancel m.other m.id .limp)).moveRestore m
  s.each s.ple.movesIn fun s m => s.moveCancel m (some .limp) 3 m.id

/-! ### Pins (R202) -/

/-- The pin of a key at a level: 0 UNIT, 1 DEVICE, 2 SHELF. -/
def State.flowPin (s : State) (key : List Byte) (level : Nat) : Option Pin :=
  s.ple.pins.find? fun p => p.flow && decide (p.level = level) && p.key == key

/-- The keys that are pinned and moved as one object: a flow's, and for a NAT pair the other entry's (R194, R202). -/
def State.pairKeys (s : State) (key : List Byte) : List (List Byte) :=
  key :: match s.flowGet key with | some f => if f.nat then [s.partnerKey f] else [] | none => []

/-- The pin that holds a flow at a level, by its own key or by the other one of its pair (R202). -/
def State.pairPin (s : State) (key : List Byte) (level : Nat) : Option Pin :=
  (s.pairKeys key).findSome? (s.flowPin · level)

/-- A DEVICE or SHELF pin holds a flow. -/
def State.flowHeld (s : State) (key : List Byte) : Bool := (s.pairPin key 1).isSome || (s.pairPin key 2).isSome

/-- A pin of a flow by command on FLW or PLE moves it into SRAM, its pair with it (R153); none where it cannot. -/
def State.flowToTier (s : State) (key : List Byte) (sram : Bool) : Option State :=
  (s.flowGet key).bind fun f =>
    let l := f :: (s.partner f).toList
    if l.all fun (g : Flow) => decide ((g.tier = 1) = sram) then some s
    else
      let s := s.each l fun s (g : Flow) => s.with? (s.flowFind g.key) State.flowDel
      s.placeAll sram l

/-- PIN is written in an entry and in the other one of its pair. -/
def State.flowSetPin (s : State) (key : List Byte) (b : Bool) : State :=
  s.with? (s.flowGet key) fun s f =>
    s.each (f :: (s.partner f).toList) fun s (g : Flow) => s.flowEdit g.key fun k => { k with pin := b }

end Sys2Proof.Machine
end

