-- ==== Sys2Proof/Machine/TidOps.lean ====
section
/-! DEFINITION. Tier 1 of placement (R185 to R190): the links that may carry the next frame of a (client, TID), its sequence
numbers and its outstanding MPDUs. -/

namespace Sys2Proof.Machine

/-! ### Scores and hysteresis (R185, R186) -/

/-- Weight k of a tier. -/
def State.weight (s : State) (tier k : Nat) : Nat :=
  (if k < 4 then s.f (PLE_WEIGHT_W3_W0 (tier - 1)) else s.f (PLE_WEIGHT_W7_W4 (tier - 1))) / 2 ^ (8 * (k % 4)) % 256

/-- A weighted sum: inputs with their sign and value. -/
def State.score (s : State) (tier : Nat) (l : List (Nat × Int)) : Int :=
  l.foldl (fun n i => n + (s.weight tier i.1 : Int) * i.2) 0

/-- The tier makes new decisions (R184). -/
def State.tierOn (s : State) (tier : Nat) : Bool := (s.f PLE_CTL_TIER_EN).testBit (tier - 1)

/-- The hysteresis record of an object. -/
def State.hystOf (s : State) (tier : Nat) (obj : List Byte) : Hyst :=
  (s.ple.hyst.find? fun h => decide (h.tier = tier) && h.obj == obj).getD { tier := tier, obj := obj }

/-- The record written. -/
def State.hystPut (s : State) (h : Hyst) : State :=
  { s with ple.hyst := h :: s.ple.hyst.filter fun (x : Hyst) => !(decide (x.tier = h.tier) && x.obj == h.obj) }

/-- One evaluation of an object, with the candidates that score at least HYST above the incumbent, the best first: the first
of them that has done so on K consecutive evaluations wins, once HOLD has passed since the object's last change (R186). -/
def State.hystEval (s : State) (tier : Nat) (obj : List Byte) (cands : List Nat) : State × Option Nat :=
  let h := s.hystOf tier obj
  let counts := cands.foldl (fun (m : Map Nat) c => m.put c (h.counts.lookD c 0 + 1)) []
  let held := match h.changed with
    | some t => decide (s.now < t + 1000000 * s.f (PLE_HYST_HOLD (tier - 1)))
    | none => false
  let won := cands.find? fun c => decide (max 1 (s.f (PLE_HYST_K (tier - 1))) ≤ counts.lookD c 0)
  (s.hystPut { h with counts := counts }, if held then none else won)

/-- An object has changed: HOLD runs from here (R186). -/
def State.hystChange (s : State) (tier : Nat) (obj : List Byte) : State :=
  s.hystPut { s.hystOf tier obj with runs := 0, counts := [], changed := some s.now }

/-- The hysteresis margin of a tier. -/
def State.margin (s : State) (tier : Nat) : Int := s.f (PLE_HYST_HYST (tier - 1))

/-! ### Links of a client (R188) -/

/-- A client's link as PLE knows it. -/
def State.linkSt (s : State) (c r : Nat) : LinkSt := s.ple.links.lookD (16 * c + r) {}

/-- The station of a scheduler client. -/
def State.stationOf (s : State) (c : Nat) : Option (Nat × Station) :=
  s.wma.stations.find? fun e => decide (e.2.client = c)

/-- The link roots of a client: those of its node on which its station is associated (R265). -/
def State.linkRoots (s : State) (c : Nat) : List Nat :=
  let links := match s.stationOf c with | some (_, st) => st.links | none => 7
  [8, 9, 10].filter fun r => (nodeRoots (s.schC c)).testBit r && links.testBit (r - 8)

/-- The MAC address of a client's pin: the first 6 bytes of its key, a little-endian number (R3). -/
def pinMac (key : List Byte) : Nat := leNat (key.take 6)

/-- A pin of a client by its MAC address, at a level. -/
def State.clientPin (s : State) (mac level : Nat) : Option Pin :=
  s.ple.pins.find? fun p => !p.flow && decide (p.level = level) && decide (pinMac p.key = mac)

/-- A client frozen by a SHELF pin (R202). -/
def State.clientFrozen (s : State) (c : Nat) : Bool :=
  match s.stationOf c with | some (_, st) => (s.clientPin st.mac 2).isSome | none => false

/-- The client is pinned to another radio unit than a root's, and no SHELF pin overrides that (R188, R202). -/
def State.pinnedAway (s : State) (c r : Nat) : Bool :=
  match s.stationOf c with
  | some (_, st) => match s.clientPin st.mac 0 with
    | some p => !s.clientFrozen c && decide (p.unit ≠ (if r = 8 then UnitId.rfa.num else UnitId.rfb.num))
    | none => false
  | none => false

/-- Whether a link is usable for a client (R188). -/
def State.linkUsable (s : State) (c r : Nat) : Bool :=
  let l := s.linkSt c r
  l.awake && decide (s.f PLE_T1_LQ_MIN ≤ l.lq) && !s.pinnedAway c r

/-- The tier 1 score of a link (R185). -/
def State.linkScore (s : State) (c r : Nat) : Int :=
  s.score 1 [(0, (s.linkSt c r).lq), (1, -(s.ple.air.lookD r 0 : Int))]

/-- The best of a list of links: the lowest root among equals. -/
def State.bestLink (s : State) (c : Nat) (l : List Nat) : Option Nat :=
  l.foldl (fun (m : Option Nat) r => match m with
    | none => some r
    | some b => if s.linkScore c b < s.linkScore c r then some r else some b) none

/-! ### A (client, TID) (R187 to R190) -/

/-- Tier 1's record of a (client, TID). -/
def State.tid (s : State) (c t : Nat) : TidSt := s.ple.tids.lookD (16 * c + t) {}

/-- The record changed. -/
def State.editTid (s : State) (c t : Nat) (f : TidSt → TidSt) : State :=
  { s with ple.tids := s.ple.tids.put (16 * c + t) (f (s.tid c t)) }

/-- The oldest unacknowledged sequence number, the next one where none is (R189). -/
def winStart (k : TidSt) : Nat :=
  let age (x : Nat) : Nat := (k.sn + 4096 - x) % 4096
  (k.out.map Prod.fst ++ k.retry.map Prod.fst).foldl (fun m x => if age m < age x then x else m) k.sn

/-- No MPDU of the TID is outstanding. -/
def settled (k : TidSt) : Bool := k.out.isEmpty && k.retry.isEmpty

/-- A frame of a SPLIT TID may be taken: (SN − WinStart) mod 4,096 < W (R189). -/
def inBlock (k : TidSt) : Bool := decide ((k.sn + 4096 - winStart k) % 4096 < k.size)

/-- Tier 1 decides on a client: it is enabled, and the client is not frozen (R184, R202). -/
def State.tier1Live (s : State) (c : Nat) : Bool := s.tierOn 1 && !s.clientFrozen c

/-- The usable links that the scores allow a SPLIT TID (R189). -/
def State.spread (s : State) (c : Nat) : List Nat :=
  let good := (s.linkRoots c).filter (s.linkUsable c)
  match s.bestLink c good with
  | none => []
  | some b => good.filter fun r => decide (s.linkScore c b - (s.f PLE_T1_SPREAD_SPREAD : Int) ≤ s.linkScore c r)

/-- The link roots that may carry a TID's MPDUs, retransmissions among them: for a SPLIT TID those that tier 1 allows now, or, while it
makes no decision, those of its last one; for an ANCHORED one the anchor (R184, R189, R190). -/
def State.carriers (s : State) (c t : Nat) : List Nat :=
  let roots := s.linkRoots c
  let k := s.tid c t
  if roots.length ≤ 1 then roots
  else
    let good := roots.filter (s.linkUsable c)
    if k.split then (if s.tier1Live c then s.spread c else match k.mask with | some m => good.filter m.contains | none => good)
    else match k.anchor with
      | some a => if good.contains a then [a] else []
      | none => []

/-- The link roots that may take the next frame: none while a SPLIT TID's window is full (R189). -/
def State.allowed (s : State) (c t : Nat) : List Nat :=
  if 1 < (s.linkRoots c).length && (s.tid c t).split && !inBlock (s.tid c t) then [] else s.carriers c t

/-- The masks that tier 1 decides on are held. -/
def State.maskKeep (s : State) (c : Nat) : State :=
  if !s.tier1Live c then s
  else s.each ((s.ple.tids.filter fun (e : Nat × TidSt) => decide (e.1 / 16 = c) && e.2.split).map fun e => e.1 % 16) fun s t =>
    s.editTid c t fun k => { k with mask := some (s.spread c) }

/-- The refusals at a client's link roots follow the masks of its TIDs (R177). -/
def State.maskSync (s : State) (c : Nat) : State :=
  let s := s.maskKeep c
  let qs := s.queuesOf c
  let bad := qs.flatMap fun q => ((s.linkRoots c).filter fun r => !(s.allowed c (queuePcp (s.schQ q))).contains r).map fun r => (q, r)
  { s with sch.refused := s.sch.refused.filter (fun (e : Nat × Nat) => !qs.contains e.1) ++ bad }.schSync

/-- A stall of the window, which clears the mask of a client with several links, is counted when it begins (R189). -/
def State.stallCheck (s : State) (c t : Nat) : State :=
  let k := s.tid c t
  let now := k.split && !inBlock k && decide (1 < (s.linkRoots c).length)
  let s := s.when (now && !k.stalled) (·.bump PLE_CNT_WINDOW_STALL)
  s.editTid c t fun k => { k with stalled := now }

/-- The record of an anchor change (R211). -/
def State.anchorLog (s : State) (c t old new : Nat) (forced : Bool) : State :=
  s.decide_ { kind := 1, tier := 1, forced := forced, object := c, src := old, dst := new
              scoreFrom := s.linkScore c old, scoreTo := s.linkScore c new, arg := t }

/-- An anchor takes effect. -/
def State.anchorSet (s : State) (c t new : Nat) (forced : Bool) : State :=
  let old := ((s.tid c t).anchor).getD 0
  ((s.editTid c t fun k => { k with anchor := some new, next := none }).anchorLog c t old new forced).hystChange 1
    (natLe 2 c ++ natLe 1 t)

/-- What a TID can do as its MPDUs settle or its links change: it becomes ANCHORED once nothing is outstanding; an unusable
anchor is replaced by the best usable link once no MPDU of the TID is in a PPDU, and what failed on it is retried on the new one; a
waiting anchor takes effect once every MPDU is acknowledged or discarded (R187, R190). A frozen client keeps its anchor (R202). -/
def State.tidSettle (s : State) (c t : Nat) : State :=
  let k := s.tid c t
  let split := decide (64 ≤ k.size) || (k.split && !settled k)
  let s := s.editTid c t fun k => { k with split := split }
  let good := (s.linkRoots c).filter (s.linkUsable c)
  let frozen := s.clientFrozen c
  let lost := match k.anchor with | some a => !good.contains a && !frozen | none => true
  let s :=
    if split then s
    else if lost then
      match s.bestLink c good with
      | some b => s.when k.out.isEmpty (·.anchorSet c t b true)
      | none => s
    else match k.next with
      | some n => s.when (settled k && !frozen && good.contains n) (·.anchorSet c t n false)
      | none => s
  (s.stallCheck c t).maskSync c

/-- The TIDs of a client: those of its queues and those with a record. -/
def State.tidsOf (s : State) (c : Nat) : List Nat :=
  ((s.queuesOf c).map (fun q => queuePcp (s.schQ q)) ++
    ((s.ple.tids.map Prod.fst).filter fun k => decide (k / 16 = c)).map (· % 16)).eraseDups

/-- Every TID of a client is evaluated again. -/
def State.clientSettle (s : State) (c : Nat) : State := s.each (s.tidsOf c) fun s t => s.tidSettle c t

/-- A node or shaper is written (R183): the refusals at a client's roots follow the node that has changed (R177). -/
def State.nodePut (s : State) (kind i : Nat) (w0 w1 w2 : Word) : State × Bool :=
  let settle (s : State) (c : Nat) : State := (s.clientSettle c).maskSync c
  match s.nodeSet kind i w0 w1 w2 with
  | (s, false) => (s, false)
  | (s, true) => (match kind with | 0 => settle s (bitsOf w0 12 0) | 1 => settle s i | _ => s, true)

/-! ### Outstanding MPDUs (R189) -/

/-- An MPDU is taken at a link: the TID's next sequence number; a window that it closes closes the mask. -/
def State.mpduTake (s : State) (c t root pkt : Nat) : State × Nat :=
  let n := (s.tid c t).sn
  let s := s.editTid c t fun k => { k with sn := (k.sn + 1) % 4096, out := k.out ++ [(n, root, pkt)] }
  ((s.stallCheck c t).maskSync c, n)

/-- An outstanding MPDU is acknowledged or discarded: its packet is freed. -/
def State.mpduEnd (s : State) (c t sn : Nat) : State :=
  let k := s.tid c t
  let gone := (k.out.filter fun (o : Nat × Nat × Nat) => decide (o.1 = sn)).map (fun (o : Nat × Nat × Nat) => o.2.2) ++
    (k.retry.filter fun (o : Nat × Nat) => decide (o.1 = sn)).map Prod.snd
  let s := s.editTid c t fun k => { k with
    out := k.out.filter fun (o : Nat × Nat × Nat) => decide (o.1 ≠ sn)
    retry := k.retry.filter fun (o : Nat × Nat) => decide (o.1 ≠ sn) }
  let s := s.each gone fun s p => { (s.pktFree p) with wma.seals := s.wma.seals.del p }
  s.tidSettle c t

/-- An outstanding MPDU failed and waits for its retransmission, with its sequence number (R189). -/
def State.mpduFail (s : State) (c t sn : Nat) : State :=
  let failed := (s.tid c t).out.filter fun (o : Nat × Nat × Nat) => decide (o.1 = sn)
  s.editTid c t fun k => { k with
    out := k.out.filter fun (o : Nat × Nat × Nat) => decide (o.1 ≠ sn)
    retry := k.retry ++ failed.map fun (o : Nat × Nat × Nat) => (o.1, o.2.2) }

/-- The octets of an A-MPDU with one more MPDU of a number of octets without its FCS: delimiters, and the padding between MPDUs
(PRESUMED, log entry 215). -/
def ampduOctets (l : List TxMpdu) (octets : Nat) : Nat :=
  l.foldl (fun n m => n + 4 + (m.bytes.length + 4 + 3) / 4 * 4) 0 + 4 + octets + 4

/-- An MPDU of a number of octets still fits the A-MPDU of its client: 1,024 MPDUs, and the octets that an EHT or an HE peer takes (R215);
an MLD is an EHT peer (PRESUMED, log entry 215). -/
def State.ampduFits (s : State) (c octets : Nat) (l : List TxMpdu) : Bool :=
  let mine := l.filter fun m => decide (m.client = c)
  let limit := match s.stationOf c with | some (_, st) => if st.mld then 15523200 else 6500631 | none => 6500631
  decide (mine.length < 1024) && decide (ampduOctets mine octets ≤ limit)

/-- A failed MPDU is sent again on a link that may carry it; the packet it carries. -/
def State.mpduRetry (s : State) (c t sn root : Nat) : State × Option Nat :=
  match (s.tid c t).retry.find? fun o => decide (o.1 = sn) with
  | none => (s, none)
  | some (_, p) =>
    if !(s.carriers c t).contains root then (s, none)
    else (s.editTid c t fun k => { k with
      retry := k.retry.filter fun (o : Nat × Nat) => decide (o.1 ≠ sn), out := k.out ++ [(sn, root, p)] }, some p)

end Sys2Proof.Machine
end

