-- ==== Sys2Proof/Machine/RfCaps.lean ====
section
/-! DEFINITION. Radios A and B (spec/09): links, BSSIDs, channels, and the power class that regulation allows. -/

namespace Sys2Proof.Machine

/-! ### Registers of either radio -/

/-- A register field of a radio, from radio B's, whose window lies 1 MiB above radio A's. -/
def rx (r : Radio) (x : Field) : Field := match r with | .a => { x with addr := x.addr - 0x100000 } | .b => x

/-- A counter of a radio, from radio B's. -/
def rxw (r : Radio) (x : Wide) : Wide := match r with | .a => { x with addr := x.addr - 0x100000 } | .b => x

/-- The unit of a radio. -/
def rfUnit : Radio → UnitId
  | .a => .rfa | .b => .rfb

/-- A radio's state. -/
def State.rf (s : State) (r : Radio) : Rf := match r with | .a => s.rfa | .b => s.rfb

/-- A radio changed. -/
def State.editRf (s : State) (r : Radio) (f : Rf → Rf) : State :=
  match r with | .a => { s with rfa := f s.rfa } | .b => { s with rfb := f s.rfb }

/-- A link, 0 or 1. -/
def State.link (s : State) (r : Radio) (l : Nat) : RfLink := (s.rf r).links.lookD l {}

/-- A chain. -/
def State.chain (s : State) (r : Radio) (k : Nat) : Chain := (s.rf r).chains.lookD k {}

/-- A chain changed. -/
def State.editChain (s : State) (r : Radio) (k : Nat) (f : Chain → Chain) : State :=
  s.editRf r fun x => { x with chains := x.chains.put k (f (x.chains.lookD k {})) }

/-- The scheduler root of a link (R212). -/
def linkRoot (r : Radio) (l : Nat) : Nat := match r with | .a => 8 | .b => 9 + l

/-- Split mode (R213). -/
def State.split (s : State) : Bool := s.on RFB_CTL_SPLIT

/-- The link exists in the present mode (R212). -/
def State.linkThere (s : State) (r : Radio) (l : Nat) : Bool := decide (l = 0) || (decide (r = .b) && s.split)

/-- The field that reports a link's state. -/
def stateField (r : Radio) (l : Nat) : Field := if l = 0 then rx r RFB_STATE_LINK0 else rx r RFB_STATE_LINK1

/-- Start-up's step 9 runs: the radios are calibrated in full, in CAL (R218, R219, R258). -/
def State.calBoot (s : State) : Bool := decide (s.cfg.stage = 8) && s.cfg.calOk && !s.cfg.noImage

/-- A link changed; `RFx_STATE` follows it. -/
def State.editLink (s : State) (r : Radio) (l : Nat) (f : RfLink → RfLink) : State :=
  let k := f (s.link r l)
  (s.editRf r fun x => { x with links := x.links.put l k }).set (stateField r l) (if s.calBoot then 5 else if k.tx.isSome then 4 else k.state)

/-- The chains of a link (R212). -/
def State.linkChains (s : State) (r : Radio) (l : Nat) : List Nat :=
  match r with
  | .a => List.range 8
  | .b => if s.split then (if l = 0 then [0, 1] else [2, 3]) else List.range 4

/-- A chain is switched off by mismatch (R234). -/
def State.chainOff (s : State) (r : Radio) (k : Nat) : Bool := decide (s.f (rx r (RFB_MISMATCH_STATE k)) = 2)

/-- The enabled chains of a link: `CHAIN_EN`, in REDUCED those of `PWR_REDUCED` (R403), less those that mismatch has
disabled. -/
def State.liveChains (s : State) (r : Radio) (l : Nat) : List Nat :=
  let en := match r with | .a => s.f RFA_CTL_CHAIN_EN | .b => s.f RFB_CTL_CHAIN_EN
  let kept := match r with | .a => s.f PWR_REDUCED_CHAINS_A | .b => s.f PWR_REDUCED_CHAINS_B
  let en := if s.f PWR_STATE_STATE = 1 then en &&& kept else en
  (s.linkChains r l).filter fun k => en.testBit k && !s.chainOff r k

/-! ### BSSIDs (R240) -/

/-- An entry of `RFx_BSS_n` as its registers hold it. -/
def State.bssReg (s : State) (r : Radio) (n : Nat) : BssEnt :=
  match r with
  | .a => { en := s.on (RFA_BSS_EN n), tx := s.on (RFA_BSS_TX n), mac := s.f (RFA_BSS_MAC_HI n) * 2 ^ 32 + s.f (RFA_BSS_MAC_LO n) }
  | .b => { en := s.on (RFB_BSS_EN n), link := (s.on (RFB_BSS_LINK n)).toNat
            mac := s.f (RFB_BSS_MAC_HI n) * 2 ^ 32 + s.f (RFB_BSS_MAC_LO n) }

/-- The link of an entry: link 1 is there in split mode only. -/
def State.entLink (s : State) (e : BssEnt) : Nat := if s.split then e.link else 0

/-- The entry in force: the registers' while the link is OFF, else the one that its last beacon took (R240). -/
def State.bssEnt (s : State) (r : Radio) (n : Nat) : BssEnt :=
  let x := s.bssReg r n
  let off (e : BssEnt) : Bool := decide ((s.link r (s.entLink e)).state = 0)
  match (s.rf r).bss.look n with
  | none => x
  | some e => if off e && off x then x else e

/-- The entries in force are held as a link leaves OFF. -/
def State.bssLatch (s : State) (r : Radio) : State :=
  s.editRf r fun x => { x with bss := (List.range 16).foldl (fun m n => m.put n (s.bssEnt r n)) x.bss }

/-- An entry's registers take effect, at its beacon. -/
def State.bssTake (s : State) (r : Radio) (n : Nat) : State :=
  s.editRf r fun x => { x with bss := x.bss.put n (s.bssReg r n) }

/-- A BSS of a radio is enabled, its link and its address. A BSSID entry found uncorrectable disables its BSS. -/
def State.bssOn (s : State) (r : Radio) (n : Nat) : Bool := !s.isBad (rfUnit r) 2 n && (s.bssEnt r n).en
def State.bssLink (s : State) (r : Radio) (n : Nat) : Nat := match r with | .a => 0 | .b => s.entLink (s.bssEnt r n)
def State.bssMac (s : State) (r : Radio) (n : Nat) : Nat := (s.bssEnt r n).mac

/-- The transmitted BSSID of radio A's multiple BSSID set: the lowest enabled entry with TX 1, else the lowest enabled one. -/
def State.bssTx (s : State) : Option Nat :=
  let on := (List.range 16).filter (s.bssOn .a)
  (on.find? fun n => (s.bssEnt .a n).tx).or on.head?

/-- The address that a BSS's beacon is sent from. -/
def State.bssSender (s : State) (r : Radio) (n : Nat) : Nat :=
  match r with
  | .a => s.bssMac .a (s.bssTx.getD n)
  | .b => s.bssMac .b n

/-! ### Channels (R214, R217, R239) -/

/-- The CHANNEL, WIDTH and PRIMARY of a channel word. -/
def chanNum (w : Word) : Nat := bitsOf w 7 0
def chanWidth (w : Word) : Nat := bitsOf w 10 8
/-- A width code in MHz. -/
def widthMHz (n : Nat) : Nat := 20 * 2 ^ n
/-- The 20 MHz channel numbers that a channel covers. -/
def subchannels (w : Word) : List Nat :=
  let n := 2 ^ chanWidth w
  (List.range n).map fun i => chanNum w + 4 * i - 2 * (n - 1)
/-- The lower and upper edge of a channel in MHz. -/
def chanLow (base : Nat) (w : Word) : Nat := base + 5 * chanNum w - widthMHz (chanWidth w) / 2
def chanHigh (base : Nat) (w : Word) : Nat := base + 5 * chanNum w + widthMHz (chanWidth w) / 2
/-- The widest channel of a link as a width code (R212). -/
def maxWidth (r : Radio) (l : Nat) : Nat := match r, l with | .a, _ => 4 | .b, 0 => 3 | .b, _ => 1
/-- Radio A on one channel and radio B's 5 GHz link on another keep 100 MHz apart (R214). -/
def apart (a b : Word) : Bool := decide (chanHigh 5000 b + 100 ≤ chanLow 5950 a)
/-- The channel that has a stored correction, as a number. -/
def storedKey (w : Word) : Nat := bitsOf w 10 0

/-! ### Power classes (R228 to R230) -/

/-- Per-chain output of a class in dBm (R228). -/
def classDbm : Nat → Int
  | 0 => 5 | 1 => 8 | 2 => 11 | 3 => 14 | 4 => 17 | 5 => 21 | 6 => 23 | _ => 25

/-- The class limit of a link (R228). -/
def maxClass (r : Radio) (l : Nat) : Nat := match r, l with | .b, 1 => 6 | _, _ => 7

/-- 20·log10(a / b) ≤ k, exactly. -/
def ratioLe (a b : Nat) (k : Int) : Bool :=
  if 0 ≤ k then decide (a ^ 20 ≤ b ^ 20 * 10 ^ k.toNat) else decide (a ^ 20 * 10 ^ (-k).toNat ≤ b ^ 20)

/-- The highest class that a test admits; none where class 0 fails. -/
def highest (n : Nat) (ok : Nat → Bool) : Option Nat := ((List.range (n + 1)).reverse).find? ok

/-- A grant entry covers a subchannel. -/
def covers (e : CoordEnt) (ch : Nat) : Bool := decide (e.lo ≤ ch ∧ ch ≤ e.hi)

/-- The least of a list of integers. -/
def leastInt (l : List Int) : Option Int :=
  l.foldl (fun (m : Option Int) x => some (match m with | none => x | some k => min k x)) none

/-- The REG cap that a coordination grant gives radio A on a channel with a number of enabled chains: none where its entries do
not cover every subchannel, or admit no class (R237). -/
def State.grantCap (s : State) (ents : List CoordEnt) (w : Word) (chains : Nat) : Option Nat :=
  let subs := subchannels w
  let used := ents.filter fun e => subs.any (covers e)
  if !subs.all (fun c => ents.any fun e => covers e c) then none
  else match leastInt (used.map (·.eirp)), leastInt (used.map (·.psd)) with
  | some eirp, some psd =>
    let gain := sx 8 (s.f RFA_ANT_GAIN)
    highest 7 fun c =>
      ratioLe chains 1 (eirp - gain - 2 * classDbm c) && ratioLe chains (widthMHz (chanWidth w)) (psd - gain - 2 * classDbm c)
  | _, _ => none

/-- The coordination grant in force (R236). -/
def State.coordLive (s : State) : Option (List CoordEnt) :=
  match s.rfa.coord with
  | some (l, e) => if s.lt < e then some l else none
  | none => none

/-- The fallback of radio A: none is RX_ONLY; the very-low-power limit is the compliance module's (R236). -/
def State.fallbackCap (s : State) (w : Word) : Option Nat :=
  if s.on RFA_GRANT_CFG_FALLBACK then
    let c := Config.vlpClass (chanNum w) (chanWidth w)
    if c ≤ 7 then some c else none
  else none

/-- The REG cap of a link; none is RX_ONLY (R229, R236, R237). -/
def State.regCap (s : State) (r : Radio) (l : Nat) : Option Nat :=
  let w := (s.link r l).chan.w0
  match r with
  | .b => some (min 7 (Config.regClass l (chanNum w) (chanWidth w)))
  | .a => match s.coordLive with
    | some ents => (match s.grantCap ents w (s.liveChains .a 0).length with
      | some c => some c
      | none => s.fallbackCap w)
    | none => s.fallbackCap w

/-- Radio A may only receive (R236). -/
def State.rxOnly (s : State) (r : Radio) (l : Nat) : Bool := (s.regCap r l).isNone

end Sys2Proof.Machine
end

