-- ==== Sys2Proof/Machine/ShfOps.lean ====
section
/-! DEFINITION. Shelf links, adjacencies and routes (R436 to R438), and joining and leaving a shelf (R434, R72). -/

namespace Sys2Proof.Machine

/-! ### Links (R436) -/

/-- Bit `n` of a field. -/
def State.bit (s : State) (x : Field) (n : Nat) : Bool := decide (s.f x / 2 ^ n % 2 = 1)

/-- Shelf link `n` is marked in `SHF_CFG` and up: wired ports 0 to 7, backhaul links 8 to 15, which carry nothing while radio A is
RX_ONLY (R238). -/
def State.shelfLink (s : State) (n : Nat) : Bool :=
  if n < 8 then s.bit SHF_CFG_PORTS n && s.on (ETH_PORT_STAT_LINK n)
  else s.bit SHF_CFG_BH (n - 8) && s.on (WMA_BH_PEER_UP (n - 8)) && !s.rxOnly .a 0

/-- The shelf links that are up. -/
def State.shelfLinks (s : State) : List Nat := (List.range 16).filter s.shelfLink

/-- The link-state record that stands for a member: the acting lead's two numbers are one device (R446). -/
def State.oneOf (s : State) (n : Nat) : Nat := if s.shf.leadAt = some n then 0 else n

/-- The numbers this device answers (R434, R446). -/
def State.ownNumbers (s : State) : List Nat :=
  s.shelfId :: (if s.on SHF_STATUS_ALIAS_V then [s.f SHF_STATUS_ALIAS] else [])

/-- The device answers a number. -/
def State.isOwn (s : State) (n : Nat) : Bool := s.ownNumbers.contains n

/-- The adjacencies: link and neighbour (R437). -/
def State.adjacencies (s : State) : List (Nat × Nat) :=
  s.shf.links.filterMap fun (e : Nat × Neighbour) => if e.2.hearsUs then some (e.1, e.2.member) else none

/-! ### Routes (R437) -/

/-- The neighbours that a member's newest LSA lists. -/
def State.lsaNext (s : State) (n : Nat) : List Nat :=
  (s.shf.lsas.filter fun (e : Nat × LsaRec) => decide (s.oneOf e.1 = n)).flatMap fun (e : Nat × LsaRec) =>
    e.2.edges.map fun x => s.oneOf x.member

/-- Hops of each member from this device over paths that begin with a neighbour, breadth first; paths do not come back
through this device. -/
def State.hopsFrom (s : State) : Nat → Nat → List Nat → Map Nat → Map Nat
  | 0, _, _, m => m
  | fuel + 1, d, front, m =>
    let new := ((front.flatMap s.lsaNext).eraseDups).filter fun n => !m.has n && !s.isOwn n
    s.hopsFrom fuel (d + 1) new (new.foldl (fun (m : Map Nat) n => m.put n d) m)

/-- A candidate path: its hops, first link and first member. -/
structure ShelfPath where
  hops : Nat
  link : Nat
  next : Nat
  deriving DecidableEq, Repr

/-- A path goes before another: fewer hops, then a wired first hop, then the lower neighbour, then the lower link. -/
def ShelfPath.before (a b : ShelfPath) : Bool :=
  let key := fun (p : ShelfPath) => ((p.hops * 2 + (decide (8 ≤ p.link)).toNat) * 64 + p.next) * 16 + p.link
  decide (key a < key b)

/-- The word of `SHF_ROUTE_n` for a path. -/
def ShelfPath.word (p : ShelfPath) : Word :=
  BitVec.ofNat 32 (2 ^ 31 + p.hops * 2 ^ 16 + p.next * 2 ^ 8 + (if p.link < 8 then 0 else 128) + p.link % 8)

/-- The best path to each member that is reachable within 8 hops. -/
def State.paths (s : State) : Map ShelfPath :=
  s.adjacencies.foldl (fun (best : Map ShelfPath) (a : Nat × Nat) =>
    let n := s.oneOf a.2
    (s.hopsFrom 7 2 [n] [(n, 1)]).foldl (fun (best : Map ShelfPath) (e : Nat × Nat) =>
      let p : ShelfPath := { hops := e.2, link := a.1, next := a.2 }
      match best.look e.1 with
      | some q => if p.before q then best.put e.1 p else best
      | none => best.put e.1 p) best) []

/-- The path to a number. -/
def State.pathTo (s : State) (best : Map ShelfPath) (n : Nat) : Option ShelfPath :=
  if s.isOwn n then none else best.look (s.oneOf n)

/-- One route follows its path; where it changes while it reaches its member, new frames are held for 500 µs (R438). -/
def State.routeSet (s : State) (best : Map ShelfPath) (n : Nat) : State :=
  let a := (SHF_ROUTE_REACH n).addr
  let old := s.rd a
  let new := match s.pathTo best n with | some p => p.word | none => 0
  if old = new then s
  else
    let s := s.wr a new
    if 2 ^ 31 ≤ old.toNat && 2 ^ 31 ≤ new.toNat then
      { s with shf.holdEnd := s.shf.holdEnd.put n (s.now + 500000) }
    else s

/-- `SHF_ROUTE_n` and `SHF_MEMBERS` follow the adjacencies and the LSAs (R437). -/
def State.routesSync (s : State) : State :=
  let best := s.paths
  let s := s.each (List.range 64) fun s n => s.routeSet best n
  let reach := (List.range 64).foldl (fun m n => if s.reaches n then m + 2 ^ n else m) 0
  if s.w SHF_MEMBERS_REACH = reach then s else s.setW SHF_MEMBERS_REACH reach

/-- What was heard on a link is gone (R437): an adjacency on it ends, which changes this device's LSA and the routes. -/
def State.neighbourLost (s : State) (n : Nat) : State :=
  match s.shf.links.look n with
  | none => s
  | some k =>
    let s := { s with shf.links := s.shf.links.del n }
    if k.hearsUs then ({ s with shf.lsaDue := true } : State).routesSync else s

/-! ### Joining and leaving -/

/-- The role of this device, shown by both registers and kept by mains time (R434). -/
def State.setRole (s : State) (r : Nat) : State :=
  { (s.set SHF_STATUS_ROLE r).set HIF_STATUS_ROLE r with mtm.leads := decide (r = 2), mtm.acts := false }

/-- SHF takes its number and role from `SHF_CFG` (R434): the lead, the deputy or a member; after yielding, a returned lead
(R447). BAR2 is open on the lead alone (R448). Mains time follows the role. -/
def State.takeRole (s : State) : State :=
  let id := s.f SHF_CFG_ID
  let role :=
    if !s.on SHF_CFG_EN then 2 else if s.shf.yielded then 3 else if id = 0 then 2
    else if id = s.f SHF_CFG_DEPUTY then 1 else 0
  let old := s
  let s := (s.setRole role).set SHF_STATUS_NUMBER id
  ({ s with hif.bar2 := decide (role = 2) } : State).roleSync old

/-- The device joins its shelf (R72 step 10, R434): it begins to send HELLO. -/
def State.shelfJoin (s : State) : State :=
  { s.takeRole with shf.joined := true, shf.yielded := false, shf.lastLead := s.now, shf.helloAt := s.now, shf.lsaAt := s.now }

/-- The device leaves its shelf (R434): LEAVE goes out and its SMP state is discarded. Accesses that wait for an answer fail
in their time (R443). -/
def State.shelfLeave (s : State) : State :=
  let s := s.smpSend 5 none []
  let s := { s with shf := { epoch := s.shf.epoch, ctr := s.shf.ctr, termNvm := s.shf.termNvm, sent := s.shf.sent,
                             delivered := s.shf.delivered, outstanding := s.shf.outstanding, waiting := s.shf.waiting,
                             nextReq := s.shf.nextReq } }
  (((s.down SHF_STATUS_ACTING).down SHF_STATUS_CONFLICT).down SHF_STATUS_ALIAS_V).set SHF_STATUS_ALIAS 0 |>.routesSync

end Sys2Proof.Machine
end

