-- ==== Sys2Proof/Machine/RfOps.lean ====
section
/-! DEFINITION. Radios A and B (spec/09): their backhaul links, transitions, transmit commands, predistortion, mismatch, channels. -/

namespace Sys2Proof.Machine

/-! ### Backhaul links (R287, R288) -/

/-- A link comes up; none does while radio A is RX_ONLY (R238, R288). -/
def State.bhUp (s : State) (n : Nat) : State :=
  if s.on (WMA_BH_PEER_UP n) || s.rxOnly .a 0 then s
  else ((s.up (WMA_BH_PEER_UP n)).set WMA_STATUS_BH_UP (Nat.lor (s.f WMA_STATUS_BH_UP) (2 ^ n))).ev .wma Ev.WMA_BH_UP [n]

/-- A link goes down: SHF loses its neighbour. -/
def State.bhDown (s : State) (n : Nat) : State :=
  if !s.on (WMA_BH_PEER_UP n) then s
  else
    let s := (s.down (WMA_BH_PEER_UP n)).set WMA_STATUS_BH_UP (s.f WMA_STATUS_BH_UP - 2 ^ n)
    (s.neighbourLost (8 + n)).ev .wma Ev.WMA_BH_DOWN [n]

/-- The backhaul links go down while radio A is RX_ONLY (R238, R288). -/
def State.bhFollow (s : State) : State := if s.rxOnly .a 0 then s.each (List.range 8) State.bhDown else s

/-! ### Predistortion (R231 to R233) -/

/-- The state of a chain's table of a class (R231): 0 EMPTY, 1 LIGHT, 2 HEAVY, 3 STALE. A table word found uncorrectable is
EMPTY until it is written again (R233). -/
def State.tableState (s : State) (r : Radio) (k c : Nat) : Nat :=
  let x := s.chain r k
  if s.bad.contains (rfUnit r, 0, k * 65536 + c) then 0
  else match x.tables.look c with
  | none => 0
  | some (heavy, t) => if 20 < (x.temp - t).natAbs then 3 else if heavy then 2 else 1

/-- A table state is valid for a class (R232). -/
def tableValid (c st : Nat) : Bool := if c ≤ 4 then decide (st ≠ 0) else decide (st = 2)

/-- The DPD cap of a link: the highest class up to which every class is valid on every enabled chain (R232). -/
def State.dpdCap (s : State) (r : Radio) (l : Nat) : Option Nat :=
  highest 7 fun c => (List.range (c + 1)).all fun d => (s.liveChains r l).all fun k => tableValid d (s.tableState r k d)

/-- The MISMATCH cap of a link (R235). -/
def State.mismatchCap (s : State) (r : Radio) (l : Nat) : Nat :=
  if (s.liveChains r l).any fun k => decide (s.f (rx r (RFB_MISMATCH_STATE k)) = 1) then maxClass r l - 2 else maxClass r l

/-- The usable class of a link (R229). -/
def State.usable (s : State) (r : Radio) (l : Nat) : Nat :=
  min (maxClass r l) (min ((s.dpdCap r l).getD 0) (min (s.mismatchCap r l) ((s.regCap r l).getD 0)))

/-- The caps that bind: those at the usable class, and REG alone under RX_ONLY (R229, R236). -/
def State.binding (s : State) (r : Radio) (l : Nat) : Nat :=
  if s.rxOnly r l then 8
  else
    let u := s.usable r l
    (decide (maxClass r l = u)).toNat + 2 * (decide ((s.dpdCap r l).getD 0 = u)).toNat +
      4 * (decide (s.mismatchCap r l = u)).toNat + 8 * (decide ((s.regCap r l).getD 0 = u)).toNat

/-- The rank of a table state for `RFx_DPD_STAT_l`: EMPTY, LIGHT, STALE, HEAVY. -/
def tableRank : Nat → Nat
  | 0 => 0 | 1 => 1 | 3 => 2 | _ => 3

/-- The lowest-ranked table state of a class over a link's enabled chains. -/
def State.dpdStat (s : State) (r : Radio) (l c : Nat) : Nat :=
  match (s.liveChains r l).map fun k => s.tableState r k c with
  | [] => 0
  | x :: t => t.foldl (fun m y => if tableRank y < tableRank m then y else m) x

/-- The highest class that the MAX, MISMATCH and REG caps allow on a link (R410). -/
def State.wantCap (s : State) (r : Radio) (l : Nat) : Nat := min (maxClass r l) (min (s.mismatchCap r l) ((s.regCap r l).getD 0))

/-- `RFx_CLASS_STAT`, `RFx_DPD_STAT_l`, the backhaul links and the highest class that PWR may want for the radio follow the caps; a
grant above the target class that is left is given up (R238, R410, R414). -/
def State.rfSync (s : State) (r : Radio) : State :=
  let s := s.when (decide (r = .a)) State.bhFollow
  let s := s.each [0, 1] fun s l =>
    if !s.linkThere r l then s
    else
      let s := s.set (rx r (if l = 0 then RFB_CLASS_STAT_USABLE0 else RFB_CLASS_STAT_USABLE1)) (s.usable r l)
      let s := s.set (rx r (if l = 0 then RFB_CLASS_STAT_CAPS0 else RFB_CLASS_STAT_CAPS1)) (s.binding r l)
      s.set (rx r (RFB_DPD_STAT_CLASS l)) ((List.range 8).foldl (fun n c => n + s.dpdStat r l c * 4 ^ c) 0)
  let top := if r = .b && s.split then max (s.wantCap r 0) (s.wantCap r 1) else s.wantCap r 0
  let s := { s with pwr.caps := s.pwr.caps.put r.num top }
  match (s.permit r).grant with
  | some g => s.when (decide (s.permitTarget r < g.cls)) (·.permitGiveUp r)
  | none => s

/-- A link's transmit duty over the last 10 ms is at least 20 % (R231, R233). -/
def State.heavyLoad (s : State) (r : Radio) (l : Nat) : Bool :=
  let from_ := s.now - 10000000
  decide (2000000 ≤ ((s.link r l).duty.foldl (fun n (p : Nat × Nat) => n + (min p.2 s.now - max p.1 from_)) 0))

/-! ### What a transmit command returns to WMA (R227, R269) -/

/-- A command ends without its PPDU: its MPDUs wait for another, a late response is counted and not sent again. -/
def State.txDead (s : State) (r : Radio) (l : Nat) (c : TxCmd) (status : Nat) : State :=
  let s := s.editLink r l fun k => { k with reports := (c.id, status) :: k.reports }
  let s := s.each c.mpdus fun s m => if m.group then s else (s.mpduFail m.client m.tid m.sn).tidSettle m.client m.tid
  s.when (c.reply.isSome && decide (status = 2)) (·.bump WMA_CNT_RESP_LATE)

/-- Held commands in the order in which they start (R226). -/
def heldOrder (l : List TxCmd) : List TxCmd :=
  let rec place (c : TxCmd) : List TxCmd → List TxCmd
    | [] => [c]
    | x :: t => match c.deadline, x.deadline with
      | some d, some e => if d < e then c :: x :: t else x :: place c t
      | some _, none => c :: x :: t
      | none, _ => x :: place c t
  l.foldl (fun acc c => place c acc) []

/-- The link is settling, or in CAL (R224). -/
def holding (k : RfLink) : Bool := k.calTarget.isSome || (match k.trans with | some t => t.settles | none => false)

/-- The turn of a link into TX (R219). -/
def txTurn (k : RfLink) : Nat := if k.state = 3 then 2000 else 4000

/-- A PPDU starts after a turn, and SIFS after a response that goes before it (R270): at its class, or clamped to the usable class (R230);
radio A transmits nothing under RX_ONLY (R236). -/
def State.txStart (s : State) (r : Radio) (l : Nat) (c : TxCmd) (turn : Nat) : State :=
  if s.rxOnly r l then s.txDead r l c 5
  else s.editLink r l fun k => { k with tx := some (c, min c.cls (s.usable r l), max (s.now + turn) c.notBefore) }

/-- A transmit command starts at once in RX or IDLE; in OFF and SLEEP there is nothing to wait for. -/
def State.txGo (s : State) (r : Radio) (l : Nat) (c : TxCmd) : State :=
  let k := s.link r l
  if k.state = 2 ∨ k.state = 3 then s.txStart r l c (txTurn k) else s.txDead r l c 5

/-! ### Transitions (R219, R221, R222) -/

/-- A chain of the link is in a calibration segment (R223). -/
def State.segOn (s : State) (r : Radio) (l : Nat) : Bool := (s.linkChains r l).any fun k => (s.chain r k).seg.isSome

/-- Nothing of the link's own runs: no transition, no calibration, no PPDU. -/
def linkFree (k : RfLink) : Bool := k.trans.isNone && k.calTarget.isNone && k.tx.isNone

/-- The link can start a held command. -/
def canStart (k : RfLink) : Bool := linkFree k && decide (k.state = 2 ∨ k.state = 3)

/-- A queued command can start on a free link: held commands go before it, but for OFF and SLEEP, which end them; a transmit
command waits for a calibration segment's end (R221, R224). -/
def State.turnOf (s : State) (r : Radio) (l : Nat) (c : LinkCmd) : Bool :=
  let k := s.link r l
  linkFree k && (match c with
    | .go 0 | .go 1 => true
    | .tx _ => (k.held.isEmpty || !canStart k) && !s.segOn r l
    | _ => k.held.isEmpty || !canStart k)

/-- The time of a transition between two states, in ns, and whether its synthesiser settles (R219). -/
def transTime (cur target : Nat) : Nat × Bool :=
  if cur = target then (0, false)
  else if target ≤ 1 then (1000, false)
  else match cur with
    | 0 => (180000, true)
    | 1 => (40000, true)
    | 2 => (4000, false)
    | _ => (1000, false)

/-- The calibration command register of a radio. -/
def rfCalCmd (r : Radio) : CmdReg := ⟨(rx r RFB_CAL_CMD_STATE).addr, rfUnit r, .operator⟩

/-- A link of OFF or SLEEP starts to lock, and goes on to RX from there (R219). -/
def State.linkLock (s : State) (r : Radio) (l : Nat) : State :=
  s.editLink r l fun k => { k with
    queue := .go 3 :: k.queue
    trans := some { target := 2, ends := s.now + (transTime k.state 2).1, settles := true } }

/-- A link is in a state: `RFx_STATE_CMD` reports DONE where it waits for that link and state. -/
def State.linkAt (s : State) (r : Radio) (l target : Nat) : State :=
  let s := s.editLink r l fun k => { k with state := target, trans := none, calTarget := none }
  let a := (rx r RFB_STATE_CMD_STATE).addr
  s.when (decide (s.f (cmdState a) = 1) && decide (s.f (rx r RFB_STATE_CMD_LINK) = l) &&
    decide (s.f (rx r RFB_STATE_CMD_TARGET) = target)) (·.cmdDone a)

/-- The change of SPLIT that a folio switch left takes place with the 5 GHz link's move (R213): both links go to OFF, the mode
and the new plan apply, and the links return to RX. A link that was in OFF or SLEEP stays there; link 1 goes as link 0 does. -/
def State.splitMove (s : State) : State :=
  match s.rfb.splitNext with
  | none => s
  | some b =>
    let up (l : Nat) : Bool := decide (2 ≤ (s.link .b l).state)
    let go0 := up 0
    let go1 := if s.split then up 1 else go0
    let t := s.each [0, 1] fun s l =>
      let s := s.each (s.link .b l).held fun s c => s.txDead .b l c 5
      s.editLink .b l fun k => { k with
        state := 0, trans := none, calTarget := none, held := [], chan := k.staged.getD k.chan, staged := none, csa := [] }
    let t := ((t.put RFB_CTL_SPLIT b).editRf .b fun x => { x with splitNext := none }).bssLatch .b
    let t := t.each ((if go0 then [0] else []) ++ (if b && go1 then [1] else [])) fun s l => s.linkLock .b l
    (t.schSync).rfSync .b

/-- A queued command starts (R221). -/
def State.linkStart (s : State) (r : Radio) (l : Nat) (c : LinkCmd) : State :=
  let k := s.link r l
  match c with
  | .go t =>
    let s := s.when (decide (k.state = 0)) (·.bssLatch r)
    let s := if t ≤ 1 then
        (s.each k.held fun s c => s.txDead r l c 5).editLink r l fun k => { k with held := [] }
      else s
    let (d, settles) := transTime k.state t
    if t = k.state then s.linkAt r l t
    else if t = 3 ∧ k.state ≤ 1 then s.linkLock r l
    else s.editLink r l fun k => { k with trans := some { target := t, ends := s.now + d, settles := settles } }
  | .cal =>
    if k.state = 0 then s.cmdError (rfCalCmd r).addr 2
    else s.editLink r l fun k => { k with state := 5, calTarget := some (k.state, true) }
  | .channel =>
    match k.staged with
    | none => s
    | some ch =>
      let s := s.editLink r l fun k => { k with chan := ch, staged := none, csa := [], count := 5 }
      let s := if k.state ≤ 1 then s else
        s.editLink r l fun k => { k with trans := some { target := k.state, ends := s.now + 60000, settles := true } }
      s.rfSync r
  | .tx c => s.txGo r l c
  | .split => if (s.link .b (1 - l)).tx.isSome then s.editLink .b (1 - l) fun k => { k with queue := k.queue ++ [.split] } else s.splitMove

/-- Queued commands start while the link is free for the next one (R221). -/
def State.linkRun (r : Radio) (l : Nat) : Nat → State → State
  | 0, s => s
  | n + 1, s =>
    match (s.link r l).queue with
    | [] => s
    | c :: t =>
      if s.turnOf r l c then State.linkRun r l n ((s.editLink r l fun k => { k with queue := t }).linkStart r l c) else s

/-- The next queued commands start where the link is free for them; a start to RX adds one (R219). -/
def State.linkNext (s : State) (r : Radio) (l : Nat) : State := State.linkRun r l (2 * (s.link r l).queue.length + 2) s

/-- A command for a link is queued behind those before it. -/
def State.linkQueue (s : State) (r : Radio) (l : Nat) (c : LinkCmd) : State :=
  (s.editLink r l fun k => { k with queue := k.queue ++ [c] }).linkNext r l

/-- A held command ends under R225 or R221. -/
def State.heldEnd (s : State) (r : Radio) (l : Nat) (c : TxCmd) (status : Nat) : State :=
  ((s.editLink r l fun k => { k with held := k.held.filter fun (x : TxCmd) => decide (x.id ≠ c.id) }).txDead r l c status).linkNext r l

/-- The transmit command that a queued command is, of a grant. -/
def grantedCmd : LinkCmd → Option TxCmd
  | .tx c => if c.grant.isSome then some c else none
  | _ => none

/-- A response goes before the PPDUs from a grant that wait to start on its link (R270): one that does not belong to a TXOP of the
device's own contends again, with its grant and its MPDUs. -/
def State.txWithdraw (s : State) (r : Radio) (l : Nat) : State :=
  let k := s.link r l
  let back := (k.held ++ k.queue.filterMap grantedCmd).filter fun c => c.grant.isSome && !c.own
  let gone (c : TxCmd) : Bool := back.any fun b => decide (b.id = c.id)
  let s := s.editLink r l fun k => { k with
    held := k.held.filter fun (c : TxCmd) => !gone c
    queue := k.queue.filter fun (c : LinkCmd) => (grantedCmd c).all fun (x : TxCmd) => !gone x
    txop := if back.isEmpty then k.txop else none }
  let root := linkRoot r l
  s.each back fun s c => { s with
    sch.grants := match c.grant with
      | some g => s.sch.grants.put root { g with entries := g.entries.map fun e => { e with allowance := 0 } }
      | none => s.sch.grants
    wma.building := s.wma.building.put root (c.mpdus ++ s.wma.building.lookD root []) }

/-- A transmit command is queued: a response before the PPDUs from a grant. -/
def State.txQueue (s : State) (r : Radio) (l : Nat) (c : TxCmd) : State :=
  if c.reply.isNone then s.linkQueue r l (.tx c)
  else
    let first (x : LinkCmd) : Bool := (grantedCmd x).isNone
    let s := (s.txWithdraw r l).editLink r l fun k => { k with
      queue := k.queue.takeWhile first ++ .tx c :: k.queue.dropWhile first }
    s.linkNext r l

/-- A transmit command from WMA (R221, R224, R226): it is held while the link settles or is in CAL, where a fifth is refused with
BUSY; behind a PPDU, another transition, a calibration segment or a command that waits for one it starts when that ends; else it starts at once,
cutting a reception. -/
def State.txSubmit (s : State) (r : Radio) (l : Nat) (c : TxCmd) (receiving : Bool) : State :=
  let k := s.link r l
  if holding k then
    let s := s.when c.reply.isSome (·.txWithdraw r l)
    if 4 ≤ (s.link r l).held.length then s.txDead r l c 4
    else s.editLink r l fun k => { k with held := k.held ++ [{ c with since := s.now }] }
  else
    let s := if receiving && decide (k.state = 3) && linkFree k then s.editLink r l fun k => { k with aborts := k.aborts + 1 } else s
    s.txQueue r l c

/-- A link has reached the state its command asked for, and takes up its queue. -/
def State.linkReached (s : State) (r : Radio) (l target : Nat) : State := (s.linkAt r l target).linkNext r l

/-- A transition ends: in a full calibration first, where its channel has no stored correction (R222). -/
def State.transEnd (s : State) (r : Radio) (l : Nat) (t : RfTrans) : State :=
  let k := s.link r l
  let s := s.reach t.ends
  if t.settles && !k.stored.contains (storedKey k.chan.w0) then
    s.editLink r l fun k => { k with state := 5, trans := none, calTarget := some (t.target, false) }
  else s.linkReached r l t.target

/-! ### Mismatch (R234, R235) -/

/-- The sum of a chain's last 8 measurements: 8 times their mean. -/
def sumVswr (x : Chain) : Nat := x.vswr.foldl (· + ·) 0

/-- A chain's mismatch state changes. -/
def State.mismatchSet (s : State) (r : Radio) (k st v : Nat) : State :=
  let s := s.set (rx r (RFB_MISMATCH_STATE k)) st
  let s := (s.ev (rfUnit r) Ev.RF_MISMATCH [k, v, st]).bump (rxw r RFB_CNT_MISMATCH)
  let f : Func := match r with | .a => .radioA | .b => .radioB
  let any := (List.range (match r with | .a => 8 | .b => 4)).any (s.chainOff r)
  let s := if st = 2 then s.asyFault .radioDegr f else if any then s else s.asyFaultEnd .radioDegr f
  s.rfSync r

/-- The state that a mean calls for, by the sum of the 8 measurements in 1/16 (R234). -/
def mismatchNext (st sum : Nat) : Nat :=
  if st = 2 then 2 else if 8 * 160 < sum then 2 else if 8 * 64 < sum then 1 else if st = 1 ∧ 8 * 56 < sum then 1 else 0

/-- A chain is measured. -/
def State.vswrTake (s : State) (r : Radio) (k v : Nat) : State :=
  let s := s.editChain r k fun x => { x with vswr := (v :: x.vswr).take 8 }
  let sum := sumVswr (s.chain r k)
  let mean := sum / 8
  let st := s.f (rx r (RFB_MISMATCH_STATE k))
  let s := s.set (rx r (RFB_MISMATCH_VSWR k)) (min 0xFFF mean)
  let n := mismatchNext st sum
  if n = st then s else ((s.editChain r k fun x => { x with lastProbe := s.now }).mismatchSet r k n mean)

/-! ### Background calibration (R223, R233) -/

/-- The link that a chain belongs to. -/
def State.chainLink (s : State) (r : Radio) (k : Nat) : Nat := if r = .b && s.split && decide (2 ≤ k) then 1 else 0

/-- The class that background calibration works on: the lowest that is not valid and not excluded by another cap, else the
lowest stale one up to class 4. -/
def State.workClass (s : State) (r : Radio) (l : Nat) : Option Nat :=
  let cap := s.wantCap r l
  let chains := s.liveChains r l
  match (List.range (cap + 1)).find? fun c => chains.any fun k => !tableValid c (s.tableState r k c) with
  | some c => some c
  | none => (List.range (min 4 cap + 1)).find? fun c => chains.any fun k => decide (s.tableState r k c = 3)

/-- Every table of the radio's links calibrated, at the load of that moment, with the corrections of the planned channels: what
start-up's radio calibration leaves (R222, R72). -/
def State.rfStartCal (s : State) (r : Radio) : State :=
  let s := s.each [0, 1] fun s l =>
    s.each (s.linkChains r l) fun s k =>
      let heavy := s.heavyLoad r l
      s.editChain r k fun x => { x with
        tables := (List.range 8).foldl (fun m c => m.put c (heavy, x.temp)) x.tables
        iqTemp := x.temp, iqLna := x.lna, iqDue := false }
  s.rfSync r

end Sys2Proof.Machine
end

