-- ==== Sys2Proof/Machine/Sch.lean ====
section
/-! DEFINITION. Scheduling (spec/07): its rows. -/

namespace Sys2Proof.Machine

/-- SCH_ENQUEUE: a packet of the packet memory, by its handle, is appended to a queue or dropped. -/
def execSchEnqueue (queue : BitVec 15) (packet : BitVec 32) (s : State) : Host.Outcome State Fault Refusal :=
  .next (s.datapath .sch fun s => if (s.pkt packet.toNat).isSome then s.schEnqueue queue.toNat packet.toNat else s)

/-! ### Wired ports (R174) -/

/-- WIRED_DEQUEUE: where the port's link is up and its 32 KiB buffer has room for a 9,728-byte frame, SCH selects at its root
and hands over the packet, which the port reads into its buffer (R174, R334, R341, R342); `errs` is what the reads of its words
find (R105). -/
def execWiredDequeue (port : BitVec 3) (errs : List WordErr) (s : State) : Host.Outcome State Fault Refusal :=
  .next <| s.datapath .sch fun s =>
    let r := port.toNat
    if !s.ethRoom r then s
    else match s.select r (fun _ _ => true) with
    | none => s
    | some (q, _, s) =>
      let (s, id) := s.dequeue r q
      s.with? id fun s id => s.ethTake r id (queuePcp (s.schQ q)) errs

/-- PAUSE_STATE_REPORT: SCH takes the port's pause state as it stands. -/
def execPauseStateReport (port : BitVec 3) (s : State) : Host.Outcome State Fault Refusal :=
  .next (s.datapath .sch fun s => s.pauseReport port.toNat)

/-! ### The timing wheel (R166 to R170) -/

/-- The least of a list of numbers. -/
def leastOf (l : List Nat) : Option Nat := l.foldl (fun m n => some (match m with | none => n | some k => min k n)) none

/-- WHEEL_SLOT_RELEASE: the wheel reaches the next slot that holds a shaper; its shapers are refilled and their nodes
released, in the order of their placement. -/
def execWheelSlotRelease (s : State) : Host.Outcome State Fault Refusal :=
  .next <|
    match leastOf ((s.sch.wheel.filter fun w => w.past.isNone).map (·.due)) with
    | none => s
    | some t =>
      let s := s.reach t
      let l := (s.sch.wheel.filter fun w => w.past.isNone && decide (w.due = t)).map (·.shaper)
      let s := { s with sch.wheel := s.sch.wheel.filter fun w => !(w.past.isNone && decide (w.due = t)) }
      s.each l fun s n => ((s.refill n).wheelJudge n).schSync

/-- One node of an overflow slot moves into its exact main slot; a FAR node still beyond the main span goes on the overflow
wheel again (R167). -/
def State.overMove (s : State) (w : WheelEnt) : State :=
  let again := w.far && s.wheelFar w.eligible
  let s := s.when again (·.bump SCH_CNT_FAR)
  if again then s.wheelPut w.shaper w.eligible
  else
    let e : WheelEnt := { w with past := none, far := false }
    let rest := s.sch.wheel.filter fun (x : WheelEnt) => decide (x.shaper ≠ w.shaper)
    ({ s with sch.wheel := rest ++ [e] } : State).wheelSync

/-- OVERFLOW_SLOT_MOVE: the next overflow slot [a, a + 262,144 ns) that holds a shaper is moved when the wheel reaches
a − 3,932,160 ns. -/
def execOverflowSlotMove (s : State) : Host.Outcome State Fault Refusal :=
  .next <|
    match leastOf (s.sch.wheel.filterMap (·.past)) with
    | none => s
    | some a =>
      let s := s.reach (a - 3932160)
      s.each (s.sch.wheel.filter fun w => decide (w.past = some a)) State.overMove

/-- SHAPER_PENDING_REFILL: the sweep refills a PENDING shaper, and its new rate and burst apply (R170). -/
def execShaperPendingRefill (shaper : BitVec 16) (s : State) : Host.Outcome State Fault Refusal :=
  .next <|
    let n := shaper.toNat
    if (s.shaper n).wait.isSome then ((s.refill n).wheelJudge n).schSync else s

/-! ### Wi-Fi grants (R175 to R179) -/

/-- The radio of a Wi-Fi root. -/
def rootRadio (r : Nat) : Radio := if r = 8 then .a else .b

/-- The bytes that a queue's selection yields within one turn: its packets while every deficit of its path covers them. -/
def State.turnBytes (s : State) (r q : Nat) : Nat :=
  let c := queueClient (s.schQ q)
  let cap := (min (s.schQ q).deficit (min (s.schC c).deficit (s.schG (clientGroup (s.schC c))).deficit)).toNat
  ((s.schQ q).fifo.foldl (fun (a : Int × Bool) id =>
    let n := a.1 + s.chargedLen r id
    if a.2 && decide (n ≤ cap) then (n, true) else (a.1, false)) (0, true)).1.toNat

/-- The entries of a DL grant: repeated selection, each client at most once (R175). -/
def State.dlEntries (r airtime : Nat) : Nat → State → List GrantEnt → State × List GrantEnt
  | 0, s, l => (s, l)
  | n + 1, s, l =>
    match s.select r (fun q _ => !(l.any fun e => decide (e.client = queueClient (s.schQ q))) &&
        s.spFits airtime (queueClient (s.schQ q))) with
    | none => (s, l)
    | some (q, _, s) =>
      State.dlEntries r airtime n s
        (l ++ [{ client := queueClient (s.schQ q), tid := queuePcp (s.schQ q), queue := q, allowance := s.turnBytes r q }])

/-- The UL demand of a client in an access category (R178). -/
def State.ulDemand (s : State) (c ac : Nat) : Nat := s.sch.demand.lookD (4 * c + ac) 0

/-- The categories in which a client has demand. -/
def State.ulCats (s : State) (c : Nat) : List Nat := (List.range 4).filter fun a => decide (s.ulDemand c a ≠ 0)

/-- UL quanta go to a deficit of their own, and no shaper is charged (R178). -/
def State.ulGrow (level : Nat) (s : State) (n : Nat) : State :=
  s.editNode level n fun k => { k with ulDeficit := k.ulDeficit + nodeQuantum k }

/-- A client that can be granted UL at a root: its node is up there, with those above it, and it has demand. -/
def State.ulOk (s : State) (r c : Nat) : Bool :=
  s.rootUp r && s.groupUp r (clientGroup (s.schC c)) && s.clientUp r c && !(s.ulCats c).isEmpty

/-- The UL lists of every parent follow demand. -/
def State.ulSync (s : State) : State :=
  let roots := [8, 9, 10]
  let s := s.each roots fun s r =>
    s.listSet 3 r ((s.sch.groups.map Prod.fst).filter fun g => (s.clientsOf g).any (s.ulOk r))
  s.each (s.sch.groups.map Prod.fst) fun s g =>
    s.listSet 4 g ((s.clientsOf g).filter fun c => roots.any fun r => s.ulOk r c)

/-- UL selection (R178): the same priorities and quanta, down to a client; each once in a grant. A turn gives a client what its
deficit covers. -/
def State.ulSelect (s : State) (r : Nat) (used : List Nat) : Option (Nat × Int × State) :=
  if !s.rootUp r then none
  else
    let held (level : Nat) (s : State) (n : Nat) : Int := (s.childNode level n).ulDeficit
    s.ulSync.pickFrom 3 r (State.ulGrow 0) (held 0) fun s g =>
      s.pickFrom 4 g (State.ulGrow 1) (held 1) fun s c =>
        if s.ulOk r c && !used.contains c then some (c, 1, s) else none

/-- The entries of an UL grant. The category of a client with demand in several is open (free value). -/
def State.ulEntries (r : Nat) : Nat → State → List GrantEnt → State × List GrantEnt
  | 0, s, l => (s, l)
  | n + 1, s, l =>
    match s.ulSelect r (l.map (·.client)) with
    | none => (s, l)
    | some (c, _, s) =>
      let cats := s.ulCats c
      let ac := cats.getD (s.free .ulCategory % max 1 cats.length) 0
      let g := clientGroup (s.schC c)
      let bytes := min (s.ulDemand c ac) (min (s.schC c).ulDeficit (s.schG g).ulDeficit)
      let s := s.drawn
      let s := s.editC c fun k => { k with ulDeficit := k.ulDeficit - bytes }
      let s := s.editG g fun k => { k with ulDeficit := k.ulDeficit - bytes }
      let s := { s with sch.demand := s.sch.demand.put (4 * c + ac) (s.ulDemand c ac - bytes) }
      State.ulEntries r n s (l ++ [{ client := c, tid := ac, allowance := bytes }])

/-- The grant of a root is used up: what its allowances left over is counted (R176). -/
def State.grantUsed (s : State) (root : Nat) : State :=
  match s.sch.grants.look root with
  | none => s
  | some g =>
    let left := if g.ul then 0 else g.entries.foldl (fun n e => n + e.allowance) 0
    { s with sch.grants := s.sch.grants.del root }.bump SCH_CNT_WIFI_UNUSED left

/-- The link of a Wi-Fi root. -/
def rootLink (r : Nat) : Nat := if r = 10 then 1 else 0

/-- The most users of a PPDU at a root (R175, R215): for MU-MIMO those of the radio, else the RUs of the link's width. -/
def State.userLimit (s : State) (r : Nat) (mimo : Bool) : Nat :=
  if mimo then (if r = 8 then 8 else if s.split then 2 else 4)
  else match chanWidth (s.link (rootRadio r) (rootLink r)).chan.w0 with
  | 0 => 9 | 1 => 18 | 2 => 37 | _ => 64

/-- WIFI_GRANT_REQUEST: WMA asks for a PPDU's content at root 8 to 10, never above the link's usable class (R229); SCH answers
with the class that PWR permits at that instant and an entry per user (R175, R179). What the root's last grant left over is
counted (R176). A TXOP granted above class 4 is one that PWR keeps its permit for (R180, R414). -/
def execWifiGrantRequest (root : BitVec 4) (ul mimo : Bool) (users : BitVec 7) (airtime : BitVec 32) (cls : BitVec 3) (s : State) :
    Host.Outcome State Fault Refusal :=
  .next <| s.datapath .sch fun s =>
    let r := root.toNat
    if r < 8 || 10 < r then s
    else
      let radio := rootRadio r
      let asked := min cls.toNat (s.usable radio (rootLink r))
      let c := min asked (s.permitted radio)
      let s := (s.grantUsed r).when (decide (c < asked)) (·.bump SCH_CNT_CLASS_LOWERED)
      let n := min users.toNat (s.userLimit r mimo)
      let (s, l) := if ul then State.ulEntries r n s [] else State.dlEntries r airtime.toNat n s []
      let s := s.when (decide (4 < c)) (·.editPermit radio fun p => { p with txops := p.txops + 1 })
      { s with sch.grants := s.sch.grants.put r { ul := ul, airtime := airtime.toNat, cls := c, entries := l } }

/-! ### Node commands (R160, R170, R183) -/

/-- The node command register. -/
def schCmd : CmdReg := ⟨SCH_NODE_CMD_STATE.addr, .sch, .operator⟩

/-- The count of a kind: 0 queues, 1 clients, 2 groups, 3 shapers (R159, R172). -/
def kindCount : Nat → Nat
  | 0 => 32768 | 1 => 8192 | 2 => 1024 | _ => 65536

/-- Word k of `SCH_NODE_BUF`. -/
def schBuf (k : Nat) : Nat := 0x1300020 + 4 * k

/-- A node or shaper is copied into the buffer. -/
def State.schRead (s : State) (kind i : Nat) : State :=
  let put (s : State) (l : List Nat) : State :=
    (s.each (List.range 8) fun s k => s.wr (schBuf k) (BitVec.ofNat 32 (l.getD k 0)))
  match kind with
  | 0 =>
    let n := s.schQ i
    put s [n.w0.toNat, n.w1.toNat, n.w2.toNat, s.queueCells i, n.drops, toBits 24 n.deficit]
  | 1 =>
    let n := s.schC i
    put s [(withBits n.w0 30 30 n.asleep.toNat).toNat, n.w1.toNat, n.w2.toNat, 0, 0, toBits 24 n.deficit, n.ulDeficit % 2 ^ 24]
  | 2 =>
    let n := s.schG i
    put s [n.w0.toNat, n.w1.toNat, n.w2.toNat, 0, 0, toBits 24 n.deficit, n.ulDeficit % 2 ^ 24]
  | _ =>
    let h := s.shaper i
    let (r, b) := h.wait.getD (h.rate, h.burst)
    let w := s.sch.wheel.find? fun w => decide (w.shaper = i)
    let flags := h.wait.isSome.toNat + 2 * (h.fault || s.isBad .sch 2 i).toNat +
      4 * (w.any fun w => w.past.isNone).toNat + 8 * (w.any fun w => w.past.isSome).toNat + 16 * (w.any (·.far)).toNat
    put s [r, b, 0, toBits 32 (h.tokens / 256), flags]

/-- WRITE of a node or shaper from the buffer; false where it is refused. -/
def State.nodeWrite (s : State) (kind i : Nat) : State × Bool :=
  s.nodePut kind i (s.rd (schBuf 0)) (s.rd (schBuf 1)) (s.rd (schBuf 2))

/-- The operations of `SCH_NODE_CMD`: 0 READ, 1 WRITE, 2 FLUSH, 3 READ_CLR. -/
def State.schNodeOp (s : State) (req : Req) (op kind i : Nat) : State :=
  s.command schCmd req fun s =>
    if kindCount kind ≤ i || (op = 2 && kind ≠ 0) then s.cmdError schCmd.addr 2
    else match op with
    | 0 => (s.schRead kind i).cmdDone schCmd.addr
    | 1 => match s.nodeWrite kind i with
      | (s, true) => s.cmdDone schCmd.addr
      | (s, false) => s.cmdError schCmd.addr 2
    | 2 => (s.queueFlush i).cmdDone schCmd.addr
    | _ =>
      let s := s.schRead kind i
      (s.when (decide (kind = 0)) (·.editQ i fun k => { k with drops := 0 })).cmdDone schCmd.addr

/-- SCH_NODE_READ. -/
def execSchNodeRead (req : Req) (kind : BitVec 2) (index : BitVec 16) (s : State) : Host.Outcome State Fault Refusal :=
  .next (s.schNodeOp req 0 kind.toNat index.toNat)

/-- SCH_NODE_WRITE. -/
def execSchNodeWrite (req : Req) (kind : BitVec 2) (index : BitVec 16) (s : State) : Host.Outcome State Fault Refusal :=
  .next (s.schNodeOp req 1 kind.toNat index.toNat)

/-- SCH_NODE_FLUSH. -/
def execSchNodeFlush (req : Req) (kind : BitVec 2) (index : BitVec 16) (s : State) : Host.Outcome State Fault Refusal :=
  .next (s.schNodeOp req 2 kind.toNat index.toNat)

/-- SCH_NODE_READ_CLR. -/
def execSchNodeReadClr (req : Req) (kind : BitVec 2) (index : BitVec 16) (s : State) : Host.Outcome State Fault Refusal :=
  .next (s.schNodeOp req 3 kind.toNat index.toNat)

end Sys2Proof.Machine
end

