-- ==== Sys2Proof/Machine/Cip.lean ====
section
/-! DEFINITION. The cipher engine (spec/13): its rows. -/

namespace Sys2Proof.Machine

/-! ### Rings (R318, R319) -/

/-- The size of a ring as an exponent: 4 to 8. -/
def State.ringSize (s : State) (n : Nat) : Nat := max 4 (min 8 (s.f (CIP_RING_CFG_SIZE n)))

/-- A write of PROD: discarded where the ring would hold more than 2^SIZE − 1 descriptors. -/
def State.prodWrite (s : State) (n prod : Nat) : State :=
  if 2 ^ s.ringSize n - 1 < (prod + 256 - s.f (CIP_RING_IDX_CONS n)) % 256 then s.ev .cip Ev.CIP_RING_OVERRUN [n]
  else s.set (CIP_RING_IDX_PROD n) prod

/-- RING_PROD_WRITE. -/
def execRingProdWrite (req : Req) (ring : BitVec 3) (prod : BitVec 8) (s : State) : Host.Outcome State Fault Refusal :=
  .next <| s.gate .cip .operator (CIP_RING_IDX_PROD ring.toNat).addr req fun s => s.prodWrite ring.toNat prod.toNat

/-- The address of a count value's descriptor. -/
def State.descAt (s : State) (n count : Nat) : Nat :=
  s.w (CIP_RING_BASE_BASE n) / 64 * 64 + 64 * (count % 2 ^ s.ringSize n)

/-- The count value of the descriptor that a ring reads next. -/
def State.ringNext (s : State) (n : Nat) : Nat := s.cip.next.lookD n (s.f (CIP_RING_IDX_CONS n))

/-- A ring has a descriptor to read. -/
def State.ringWork (s : State) (n : Nat) : Bool :=
  s.on (CIP_RING_CFG_EN n) && decide (s.ringNext n ≠ s.f (CIP_RING_IDX_PROD n))

/-- A ring's turn: rings that have work are served round robin (R314). -/
def State.ringTurn (s : State) (n : Nat) : Bool :=
  decide (((List.range' (s.cip.last + 1) 8).map (· % 8)).find? s.ringWork = some n)

/-- CIP serves others than CFG: from step 6 of start-up on (R314). -/
def State.cipOpen (s : State) : Bool := decide (6 ≤ s.cfg.stage)

/-- A ring's descriptor has been read: its job is in the list, and the ring's next one is the one after it. -/
def State.jobAdd (s : State) (j : CipJob) : State :=
  { s with cip.next := s.cip.next.put j.ring ((j.count + 1) % 256), cip.last := j.ring, cip.jobs := s.cip.jobs ++ [j] }

/-- RING_JOB_START: the next descriptor of the ring whose turn it is is read and checked; it runs on a pair, waiting first for a
derivation where its key is not in the cache (R319, R323). -/
def execRingJobStart (ring : BitVec 3) (s : State) : Host.Outcome State Fault Refusal :=
  .next <| s.datapath .cip fun s =>
    let n := ring.toNat
    if !s.cipOpen || !s.ringTurn n || s.cipHeld then s
    else
      let job : CipJob :=
        { ring := n, count := s.ringNext n, pair := none, desc := [], key := [], level := s.ringLevel n, code := none }
      match s.dataRead (s.descAt n job.count) 64 with
      | none => s.jobAdd { job with code := some 0xA }
      | some d =>
        let job := { job with desc := d }
        match s.jobCode job.level d with
        | some c => s.jobAdd { job with code := some c }
        | none =>
          if s.noLane then s.jobAdd { job with code := some 0xB }
          else match s.freePair with
          | none => s
          | some p =>
            match s.jobKey d with
            | (s, .error c) => s.jobAdd { job with code := some c }
            | (s, .ok (k, none)) => s.jobAdd { job with pair := some p, key := k }
            | (s, .ok (k, some t)) =>
              let (s, w) := s.deriveAsk t
              s.jobAdd { job with pair := some p, key := k, waits := w, uses := some t }

/-- The interrupt of a ring (R317). -/
def State.ringIrq (s : State) (n : Nat) : State := if s.on (CIP_RING_CFG_HOST n) then s.msix 1 else s.irq 1

/-- A job is the one of a ring and a count value. -/
def isJob (n count : Nat) (j : CipJob) : Bool := decide (j.ring = n) && decide (j.count = count)

/-- A job ends on its pair: its effect on memory and its code, which its STATUS shows in its turn. One that has ended, or waits for a
derivation, is left. -/
def State.jobFinish (s : State) (n count : Nat) (badWord : Bool) : State :=
  s.with? (s.cip.jobs.find? (isJob n count)) fun s j =>
    if j.code.isSome || j.waits.isSome then s
    else
      let (s, code) := if badWord then (s, 0xA) else s.jobRun j.desc j.key
      { s with cip.jobs := s.cip.jobs.map fun (x : CipJob) => if isJob n count x then { x with code := some code, pair := none } else x }

/-- STATUS of a job that has ended is written, CONS advances, and the ring's interrupt is raised where its FLAGS ask for it (R317,
R318). -/
def State.statusWrite (s : State) (j : CipJob) (code : Nat) : State :=
  let n := j.ring
  let s := { s with cip.jobs := s.cip.jobs.filter fun (x : CipJob) => !isJob n j.count x }
  let s := (s.dataWrite (s.descAt n j.count + 12) (natLe 4 (code + 2 ^ 31))).getD s
  let s := s.set (CIP_RING_IDX_CONS n) ((j.count + 1) % 256)
  let s := (s.bump CIP_CNT_JOBS).when (decide (code = 1)) (·.bump CIP_CNT_AUTH)
  let s := s.when (decide (2 ≤ code ∧ code ≤ 4)) (·.bump CIP_CNT_LEN)
  (s.when (decide (descLe j.desc 1 1 % 2 = 1)) (·.ringIrq n)).evictSettle

/-- STATUS words are written strictly in ring order: that of the oldest job if it has ended, and those behind it that waited. -/
def State.statusDrain (s : State) (n : Nat) : Nat → State
  | 0 => s
  | fuel + 1 =>
    match s.cip.jobs.find? (isJob n (s.f (CIP_RING_IDX_CONS n))) with
    | some j => match j.code with
      | some c => (s.statusWrite j c).statusDrain n fuel
      | none => s
    | none => s

/-- JOB_STATUS_WRITE: a job of a ring ends; its STATUS, and those that have waited for it, are written in ring order (R318). -/
def execJobStatusWrite (ring : BitVec 3) (count : BitVec 8) (badWord : Bool) (s : State) : Host.Outcome State Fault Refusal :=
  .next <| s.datapath .cip fun s => (s.jobFinish ring.toNat count.toNat badWord).statusDrain ring.toNat 256

/-! ### Inline jobs (R314, R324) -/

/-- The unit that may name a table entry inline. -/
def tableOwner (i : Nat) : Option UnitId := if i < 2176 then some .wma else if i < 2432 then some .eth else none

/-- INLINE_JOB: of a unit that has an inline path; it waits while an erase runs or the entropy source has failed. -/
def execInlineJob (unit : UnitId) (key : InlineKey) (s : State) : Host.Outcome State Fault Refusal :=
  .next <| s.datapath .cip fun s =>
    let own_ := match key with
      | .table i => decide (tableOwner i.toNat = some unit)
      | .derived _ _ _ => [UnitId.wma, .sgm, .shf, .cfg].contains unit
    let j : CipInline := { unit := unit, key := key }
    if !own_ || !s.cipOpen then s
    else if s.cipHeld then { s with cip.inlines := s.cip.inlines ++ [j] } else s.inlineServe j

/-- KEY_DERIVATION_DONE: the oldest derivation ends; its key is cached unless its slot has been evicted (R323). -/
def execKeyDerivationDone (s : State) : Host.Outcome State Fault Refusal :=
  .next <| s.datapath .cip fun s =>
    match s.cip.derivs with
    | [] => s
    | d :: rest =>
      let s := ({ s with cip.derivs := rest } : State).reach d.ends
      let s := s.when d.keep (·.derivedPut d.tag)
      let done := s.cip.inlines.filter fun (j : CipInline) => decide (j.waits = some d.tag)
      let s := { s with
        cip.jobs := s.cip.jobs.map fun (j : CipJob) => if j.waits = some d.tag then { j with waits := none } else j
        cip.inlines := s.cip.inlines.filter fun (j : CipInline) => decide (j.waits ≠ some d.tag) }
      s.each done State.inlineServe

/-! ### Alarms and erase (R326 to R330) -/

/-- The lanes of a pair disagree on a block of the job that they run: the blocks before it are out, the job ends with MISMATCH, and the
pair is quarantined (R327). -/
def State.pairFail (s : State) (p released : Nat) : State :=
  let s := s.set CIP_STATUS_QUAR (Nat.lor (s.f CIP_STATUS_QUAR) (2 ^ p))
  let runs (j : CipJob) : Bool := decide (j.pair = some p) && j.code.isNone
  let s := s.with? (s.cip.jobs.find? fun j => runs j && j.waits.isNone) fun s j => s.jobPart j.desc j.key released
  let ended (j : CipJob) : CipJob := if runs j then { j with code := some 8, waits := none, pair := none } else j
  let s := { s with cip.jobs := s.cip.jobs.map ended }
  (s.ev .cip Ev.CIP_QUARANTINE [p]).bump CIP_CNT_MISMATCH

/-- CIP_QUARANTINE: the lanes of one or more pairs disagree; their ring jobs end with MISMATCH. -/
def execCipQuarantine (pairs : List LaneFault) (inlines : BitVec 2) (s : State) : Host.Outcome State Fault Refusal :=
  .next <| s.datapath .cip fun s =>
    let fresh := (List.range 3).filterMap fun p =>
      if (s.f CIP_STATUS_QUAR).testBit p then none else (pairs.find? fun x => decide (x.pair.val = p)).map fun x => (p, x.released.toNat)
    if fresh = [] then s
    else
      let s := s.each fresh fun s x => s.pairFail x.1 x.2
      let s := s.cipAlarm 0 inlines.toNat
      s.when s.noLane (·.asyFault .cipherFault .cipher)

/-- CIP_ALARM_INPUT. -/
def execCipAlarmInput (alarm : CipAlarm) (inlines : BitVec 2) (s : State) : Host.Outcome State Fault Refusal :=
  .next <| s.datapath .cip fun s => s.cipAlarm (alarmBit alarm) inlines.toNat

/-- RNG_HEALTH_FAIL: jobs wait; nothing is erased (R326). -/
def execRngHealthFail (s : State) : Host.Outcome State Fault Refusal :=
  .next <| s.datapath .cip fun s =>
    ((s.set CIP_ALARM_CAUSE (Nat.lor (s.f CIP_ALARM_CAUSE) 16)).up CIP_STATUS_RNG_FAIL).asyFault .entropy .cipher

/-! ### Key commands (R320, R325, R328) -/

/-- `CIP_KEY_CMD`. -/
def keyCmd : CmdReg := ⟨CIP_KEY_CMD_STATE.addr, .cip, .operator⟩

/-- An index of the ring range. -/
def ringIndex (i : Nat) : Bool := decide (2432 ≤ i) && decide (i < 4096)

/-- The LEVEL of `CIP_KEY_BUF` DESC: 3 acts as Vendor. -/
def State.bufLevel (s : State) : Nat := let l := s.f CIP_KEY_BUF_DESC_LEVEL; if l = 3 then 0 else l

/-- A key of WMA is wrapped and takes effect, with its cipher and initial packet number (R283). -/
def State.wmaKeyPut (s : State) (i : Nat) (key : List Byte) (cipher pn : Nat) : State :=
  let s := s.cipInstall i key 0
  let n := s.wma.installs + 1
  { s with wma.keys := s.wma.keys.put i { cipher := cipher, pn := pn, gen := n }, wma.installs := n }

/-- A key command acts, and `CIP_KEY_BUF` is cleared after it. -/
def State.keyOp (s : State) (op : CipKeyOp) : State :=
  let a := keyCmd.addr
  let s := match op with
    | .install i k256 =>
      if !ringIndex i then s.cmdError a 2
      else if !s.rootOk 0 then s.cmdError a 4
      else (s.cipInstall i (s.regBytes (CIP_KEY_BUF_KEY_W 0).addr (if k256 then 32 else 16)) s.bufLevel).cmdDone a
    | .remove i => if !ringIndex i then s.cmdError a 2 else (s.cipRemove i).cmdDone a
    | .derive i k256 slot level =>
      let n := s.f CIP_KEY_BUF_DESC_LEN
      let label := s.regBytes (CIP_KEY_BUF_LABEL_W 0).addr n
      if !ringIndex i || decide (n = 0) || decide (64 < n) then s.cmdError a 2
      else if reservedLabel label || (decide (2 ≤ slot) && decide (level ≠ Level.vendor)) || decide (level = Level.guest) then s.cmdError a 3
      else if !s.rootOk slot || !s.rootOk 0 then s.cmdError a 4
      else
        let (s, key) := s.deriveNow (s.cipTag slot (if k256 then 256 else 128) label)
        (s.with? key fun s k => s.cipInstall i k s.bufLevel).cmdDone a
    | .evict slot => (s.evictKeys slot).cmdDone a
    | .erase => s.cmdDone a
    | .unit cmd i key => (s.cipInstall i key 0).cmdDone cmd
    | .wifi cmd i key cipher pn => (s.wmaKeyPut i key cipher pn).cmdDone cmd
  match op with | .unit _ _ _ | .wifi _ _ _ _ _ => s | _ => s.keyBufClear

/-- A unit installs an entry of its own: during an erase it waits (R325, R329). -/
def State.unitKey (s : State) (cmd i : Nat) (key : List Byte) : State :=
  if s.on CIP_STATUS_ERASING then { s.cmdIs cmd 1 0 with cip.keyOps := s.cip.keyOps ++ [.unit cmd i key] }
  else (s.cipInstall i key 0).cmdDone cmd

/-- A key command: during an erase it waits (R329). -/
def State.keyCommand (s : State) (req : Req) (op : CipKeyOp) : State :=
  s.command keyCmd req fun s =>
    if s.on CIP_STATUS_ERASING then { s.cmdIs keyCmd.addr 1 0 with cip.keyOps := s.cip.keyOps ++ [op] } else s.keyOp op

/-- CIP_KEY_INSTALL. -/
def execCipKeyInstall (req : Req) (index : BitVec 12) (k256 : Bool) (s : State) : Host.Outcome State Fault Refusal :=
  .next (s.keyCommand req (.install index.toNat k256))
/-- CIP_KEY_REMOVE. -/
def execCipKeyRemove (req : Req) (index : BitVec 12) (s : State) : Host.Outcome State Fault Refusal :=
  .next (s.keyCommand req (.remove index.toNat))
/-- CIP_KEY_DERIVE. -/
def execCipKeyDerive (req : Req) (index : BitVec 12) (k256 : Bool) (slot : BitVec 2) (s : State) :
    Host.Outcome State Fault Refusal :=
  .next (s.keyCommand req (.derive index.toNat k256 slot.toNat req.level))

/-- EVICT_SLOT: Vendor only; another level ends with PRIV. -/
def State.evictSlot (s : State) (req : Req) (slot : Nat) : State :=
  if req.level = .vendor then s.keyCommand req (.evict slot)
  else s.command keyCmd req fun s => (s.cmdError keyCmd.addr 3).keyBufClear

/-- EVICT_SLOT. -/
def execEvictSlot (req : Req) (slot : BitVec 2) (s : State) : Host.Outcome State Fault Refusal :=
  .next (s.evictSlot req slot.toNat)

/-- ERASE raises the SW alarm, which ends `n` inline frames; the command is DONE when the erase completes. -/
def State.keyErase (s : State) (req : Req) (n : Nat) : State :=
  s.command keyCmd req fun s => { (s.cmdIs keyCmd.addr 1 0).cipAlarm 5 n with cip.keyOps := s.cip.keyOps ++ [.erase] }

/-- CIP_KEY_ERASE. -/
def execCipKeyErase (req : Req) (inlines : BitVec 2) (s : State) : Host.Outcome State Fault Refusal :=
  .next (s.keyErase req inlines.toNat)

/-- `CIP_ROOT_CMD`. -/
def rootCmd : CmdReg := ⟨CIP_ROOT_CMD_STATE.addr, .cip, .vendor⟩

/-- PROGRAM of a root bank; a failed read-back leaves it programmed and unusable (R332). -/
def State.rootProgram (s : State) (req : Req) (slot bank : Nat) (readBack : Bool) : State :=
  s.command rootCmd req fun s =>
    let a := rootCmd.addr
    let b := 2 * slot + bank
    let s := if s.on TOP_LOCK_BOOT then s.cmdError a 3
      else if (s.f CIP_ROOT_STAT_PROG).testBit b then s.cmdError a 2
      else
        let s := { s with cip.roots := s.cip.roots.put b (s.regBytes (CIP_ROOT_BUF_W 0).addr 32) }
        let s := s.set CIP_ROOT_STAT_PROG (Nat.lor (s.f CIP_ROOT_STAT_PROG) (2 ^ b))
        if readBack then s.cmdDone a
        else ((s.set CIP_ROOT_STAT_BAD (Nat.lor (s.f CIP_ROOT_STAT_BAD) (2 ^ b))).ev .cip Ev.CIP_ROOT_FAIL [slot, bank]).cmdError a 4
    s.rootBufClear

/-- ROOT_PROGRAM. -/
def execRootProgram (req : Req) (slot : BitVec 2) (bank : Bool) (readBack : Bool) (s : State) :
    Host.Outcome State Fault Refusal :=
  .next (s.rootProgram req slot.toNat bank.toNat readBack)

end Sys2Proof.Machine
end

