-- ==== Sys2Proof/Machine/Wifi.lean ====
section
/-! DEFINITION. The frames of Wi-Fi MAC services (spec/11): MAC headers, MSDUs and A-MSDUs, and the protection of an MPDU. The spec names
these forms and prints none of them: they are those of IEEE 802.11 (PRESUMED, log entry 245). -/

namespace Sys2Proof.Machine

/-! ### MAC headers -/

/-- What an MPDU's header says. -/
structure MacHdr where
  /-- The Frame Control field. -/
  fc : Nat
  a1 : Nat
  a2 : Nat
  a3 : Nat := 0
  a4 : Option Nat := none
  /-- The Sequence Control and QoS Control fields. -/
  sc : Nat := 0
  qc : Option Nat := none
  /-- The octets of the header. -/
  len : Nat
  deriving DecidableEq, Repr

/-- The type (0 management, 1 control, 2 data), the subtype, and the flags of Frame Control. -/
def MacHdr.typ (h : MacHdr) : Nat := h.fc / 4 % 4
def MacHdr.sub (h : MacHdr) : Nat := h.fc / 16 % 16
def MacHdr.toDs (h : MacHdr) : Bool := h.fc.testBit 8
def MacHdr.fromDs (h : MacHdr) : Bool := h.fc.testBit 9
def MacHdr.retry (h : MacHdr) : Bool := h.fc.testBit 11
def MacHdr.pm (h : MacHdr) : Bool := h.fc.testBit 12
def MacHdr.prot (h : MacHdr) : Bool := h.fc.testBit 14
def MacHdr.mgmt (h : MacHdr) : Bool := decide (h.typ = 0)
def MacHdr.qos (h : MacHdr) : Bool := h.qc.isSome
/-- The receiver address is a group's. -/
def MacHdr.group (h : MacHdr) : Bool := h.a1.testBit 40
def MacHdr.sn (h : MacHdr) : Nat := h.sc / 16 % 4096
def MacHdr.tid (h : MacHdr) : Nat := h.qc.getD 0 % 16
/-- An A-MSDU; the acknowledgement is asked for by neither ACK nor BlockAck; no frame body. -/
def MacHdr.amsdu (h : MacHdr) : Bool := (h.qc.getD 0).testBit 7
def MacHdr.noAck (h : MacHdr) : Bool := decide (h.qc.getD 0 / 32 % 4 = 1)
def MacHdr.null (h : MacHdr) : Bool := decide (h.typ = 2) && h.sub.testBit 2

/-- The header of an MPDU; none where it is too short or of no known type. -/
def macHdr (l : List Byte) : Option MacHdr :=
  let fc := leNat (l.take 2)
  let typ := fc / 4 % 4
  let sub := fc / 16 % 16
  let four := decide (typ = 2) && fc.testBit 8 && fc.testBit 9
  let qos := decide (typ = 2) && sub.testBit 3
  let qcAt := 24 + 6 * four.toNat
  let n := if typ = 1 then (if sub = 12 ∨ sub = 13 then 10 else 16)
    else qcAt + 2 * qos.toNat + 4 * (fc.testBit 15 && (qos || decide (typ = 0))).toNat
  if l.length < n ∨ typ = 3 ∨ fc % 4 ≠ 0 then none
  else some { fc := fc, a1 := beAt l 4 6, a2 := if n = 10 then 0 else beAt l 10 6, a3 := if typ = 1 then 0 else beAt l 16 6
              a4 := if four then some (beAt l 24 6) else none, sc := if typ = 1 then 0 else leNat ((l.drop 22).take 2)
              qc := if qos then some (leNat ((l.drop qcAt).take 2)) else none, len := n }

/-! ### MSDUs (R276, R278) -/

/-- LLC and SNAP before an EtherType. -/
def snap : List Byte := [0xAA, 0xAA, 3, 0, 0, 0]

/-- An MSDU as an Ethernet frame: LLC/SNAP gives way to the EtherType, another LLC header to the length. -/
def etherOf (da sa : Nat) (l : List Byte) : List Byte :=
  natBe 6 da ++ natBe 6 sa ++ (if l.take 6 = snap then l.drop 6 else natBe 2 l.length ++ l)

/-- What follows the addresses of an Ethernet frame, as an MSDU. -/
def llcOf (l : List Byte) : List Byte := if 1536 ≤ beAt l 0 2 then snap ++ l else (l.drop 2).take (beAt l 0 2)

/-- The subframes of an A-MSDU, each as an Ethernet frame. -/
def amsduSplit : Nat → List Byte → List (List Byte)
  | 0, _ => []
  | n + 1, l =>
    let k := beAt l 12 2
    if l.length < 14 + k then []
    else etherOf (beAt l 0 6) (beAt l 6 6) ((l.drop 14).take k) :: amsduSplit n (l.drop ((14 + k + 3) / 4 * 4))

/-- The destination and source of an MSDU by its header. -/
def msduEnds (h : MacHdr) : Nat × Nat :=
  match h.toDs, h.fromDs with
  | true, true => (h.a3, h.a4.getD 0)
  | true, false => (h.a3, h.a2)
  | false, true => (h.a1, h.a3)
  | false, false => (h.a1, h.a2)

/-- The MSDUs of a data frame's body as Ethernet frames; a frame for firmware is one packet, unchanged (log entry 246). -/
def msdusOf (h : MacHdr) (l body : List Byte) : List (List Byte) :=
  if h.mgmt then [l.take h.len ++ body]
  else if h.null then []
  else if h.amsdu then amsduSplit (body.length / 14 + 1) body
  else [etherOf (msduEnds h).1 (msduEnds h).2 body]

/-! ### Protection (R282) -/

/-- The octets of a MIC by cipher code. -/
def micLen (cipher : Nat) : Nat := if cipher = 0 ∨ cipher = 4 then 8 else 16

/-- Frame Control as it is authenticated: without Retry, Power Management and More Data, and in a data frame without the
low bits of the subtype. -/
def aadControl (h : MacHdr) : Nat :=
  let clear (n k : Nat) : Nat := if n.testBit k then n - 2 ^ k else n
  let n := [11, 12, 13].foldl clear h.fc
  if h.mgmt then n
  else
    let n := [4, 5, 6].foldl clear n
    if h.qos then clear n 15 else n

/-- What CCMP and GCMP authenticate of a header. -/
def ccmpAad (h : MacHdr) : List Byte :=
  natLe 2 (aadControl h) ++ natBe 6 h.a1 ++ natBe 6 h.a2 ++ natBe 6 h.a3 ++ natLe 2 (h.sc % 16) ++
    (match h.a4 with | some a => natBe 6 a | none => []) ++ (if h.qos then natLe 2 h.tid else [])

/-- The nonce of a packet number. -/
def ccmpNonce (cipher : Nat) (h : MacHdr) (pn : Nat) : List Byte :=
  (if cipher < 2 then natBe 1 (h.tid + 16 * h.mgmt.toNat) else []) ++ natBe 6 h.a2 ++ natBe 6 pn

/-- The cipher's output and MIC for a body. -/
def ccmpRun (cipher : Nat) (dec : Bool) (key : List Byte) (h : MacHdr) (pn : Nat) (l : List Byte) : List Byte × List Byte :=
  let (o, t) := cipCompute (if cipher < 2 then 7 else 9) dec key (ccmpNonce cipher h pn) (ccmpAad h) l (micLen cipher)
  (o, t.take (micLen cipher))

/-- The header that carries a packet number and a key ID. -/
def ccmpHead (keyId pn : Nat) : List Byte :=
  natLe 2 pn ++ [0] ++ natBe 1 (64 * keyId + 32) ++ natLe 4 (pn / 65536)

/-- The protected body of an MPDU. -/
def ccmpSeal (cipher : Nat) (key : List Byte) (h : MacHdr) (keyId pn : Nat) (body : List Byte) : List Byte :=
  let (o, t) := ccmpRun cipher false key h pn body
  ccmpHead keyId pn ++ o ++ t

/-- The key ID and the packet number of a protected body. -/
def ccmpId (body : List Byte) : Nat × Nat := (beAt body 3 1 / 64, leNat (body.take 2 ++ (body.drop 4).take 4))

/-- A protected body opened; none where its MIC fails. -/
def ccmpOpen (cipher : Nat) (key : List Byte) (h : MacHdr) (body : List Byte) : Option (List Byte) :=
  let n := micLen cipher
  let l := body.drop 8
  let c := l.take (l.length - n)
  let (o, t) := ccmpRun cipher true key h (ccmpId body).2 c
  if l.length < n ∨ t ≠ l.drop (l.length - n) then none else some o

/-! ### Group management frames (R282) -/

/-- The MIC that BIP gives a management frame: over its header and its body, whose MIC octets are zero. -/
def bipMic (cipher : Nat) (key : List Byte) (h : MacHdr) (ipn : Nat) (body : List Byte) : List Byte :=
  let d := natLe 2 (aadControl h) ++ natBe 6 h.a1 ++ natBe 6 h.a2 ++ natBe 6 h.a3 ++ body
  let t := if cipher < 6 then (cipCompute 6 false key [] [] d 16).2 else (cipCompute 9 false key (natBe 6 h.a2 ++ natBe 6 ipn) d [] 16).2
  t.take (micLen cipher)

/-- The management MIC element of a key ID and packet number, with a MIC. -/
def mmie (keyId ipn : Nat) (mic : List Byte) : List Byte :=
  [0x4C] ++ natBe 1 (8 + mic.length) ++ natLe 2 keyId ++ natLe 6 ipn ++ mic

/-- The management MIC element at the end of a body: its packet number, and whether its MIC is right. -/
def bipCheck (cipher : Nat) (key : List Byte) (h : MacHdr) (body : List Byte) : Option (Nat × Bool) :=
  let n := micLen cipher
  let at_ := body.length - (10 + n)
  let e := body.drop at_
  if body.length < 10 + n ∨ e.take 2 ≠ [0x4C] ++ natBe 1 (8 + n) then none
  else
    let ipn := leNat ((e.drop 4).take 6)
    some (ipn, decide (bipMic cipher key h ipn (body.take (body.length - n) ++ List.replicate n 0) = e.drop 10))

end Sys2Proof.Machine
end

