-- ==== Sys2Proof/Machine/WmaOps.lean ====
section
/-! DEFINITION. Wi-Fi MAC services (spec/11): stations, sleep, keys, protection, responses, reordering and delivery. -/

namespace Sys2Proof.Machine

/-! ### Stations (R265, R267) -/

/-- A station changed. -/
def State.editSta (s : State) (i : Nat) (f : Station → Station) : State :=
  { s with wma.stations := s.wma.stations.edit i f }

/-- `WMA_STATUS.STAS` follows the table. -/
def State.stasSync (s : State) : State := s.set WMA_STATUS_STAS s.wma.stations.length

/-- The BSS index of a station on link k. -/
def staBss (st : Station) (k : Nat) : Nat := st.bss / 16 ^ k % 16

/-- A station belongs to a BSS of a radio. -/
def inBss (st : Station) (radio bss : Nat) : Bool :=
  [0, 1, 2].any fun k => st.links.testBit k && decide ((if k = 0 then 0 else 1) = radio) && decide (staBss st k = bss)

/-- The station of an address. -/
def State.staOf (s : State) (mac : Nat) : Option (Nat × Station) := s.wma.stations.find? fun e => decide (e.2.mac = mac)

/-! ### Power save (R279 to R281) -/

/-- A station is asleep: it signals power management 1 or is bound to its service periods, and is neither inside one nor called awake. -/
def State.staAsleep (s : State) (i : Nat) (st : Station) : Bool :=
  let inside := (s.twtSpans i st).any fun w => decide (w.1 ≤ s.lt ∧ s.lt < w.2)
  decide (st.poll = 0) && (st.pm || s.twtBound i st) && !(s.twtBound i st && inside)

/-- The group client of a BSS is asleep while a station of the BSS is in power save, but for the frames after a DTIM. -/
def State.groupSync (s : State) : State :=
  s.each s.wma.groupNode fun s g =>
    let saving := s.wma.stations.any fun (e : Nat × Station) => e.2.pm && inBss e.2 (g.1 / 16) (g.1 % 16)
    s.clientAsleep g.2 (saving && !s.wma.groupOpen.contains g.2)

/-- ASLEEP of a station's client follows it. -/
def State.staSync (s : State) (i : Nat) : State :=
  match s.wma.stations.look i with
  | some st => (s.clientAsleep st.client (s.staAsleep i st)).groupSync
  | none => s

/-- A queue of a client holds a frame. -/
def State.waits (s : State) (c : Nat) : Bool := (s.queuesOf c).any fun q => !(s.schQ q).fifo.isEmpty

/-! ### Backhaul links (R287, R288) -/

/-- The backhaul link of a station: the enabled peer whose BSS it is in. -/
def State.bhOf (s : State) (st : Station) : Option Nat :=
  if !st.backhaul then none
  else (List.range 8).find? fun n => s.on (WMA_BH_PEER_EN n) && decide (s.f (WMA_BH_PEER_BSS n) = staBss st 0)

/-- The tag of a backhaul link's pairwise key: slot SHELF, label "BACKHAUL" with the lower and the higher device number (R287). -/
def State.bhTag (s : State) (n : Nat) : CipTag :=
  let d := s.f (WMA_BH_PEER_DEVICE n)
  s.cipTag 1 256 ([0x42, 0x41, 0x43, 0x4B, 0x48, 0x41, 0x55, 0x4C] ++ natBe 1 (min s.shelfId d) ++ natBe 1 (max s.shelfId d))

/-- A frame of a backhaul peer: one that opens under the link's key shows that both sides hold it (R288). -/
def State.bhHears (s : State) (st : Station) (opened : Bool) : State :=
  s.with? (s.bhOf st) fun s n =>
    let s := { s with wma.bhHeard := s.wma.bhHeard.put n s.now }
    s.when opened (·.bhUp n)

/-! ### Leaving (R267) -/

/-- The sequence state of a client: TIDs by client. -/
def State.tidKeys (s : State) (c : Nat) : List Nat := (s.ple.tids.map Prod.fst).filter fun k => decide (k / 16 = c)

/-- An MPDU of a client is outstanding in a PPDU. -/
def State.onAir (s : State) (c : Nat) : Bool := (s.tidKeys c).any fun k => !(s.ple.tids.lookD k {}).out.isEmpty

/-- A station is removed with its keys, agreements and held MPDUs. -/
def State.staRemove (s : State) (i : Nat) : State :=
  match s.wma.stations.look i with
  | none => s
  | some st =>
    let s := s.with? (s.bhOf st) fun s n =>
      { ((s.bhDown n).set (WMA_BH_PEER_STA n) 0) with wma.bhEntry := s.wma.bhEntry.put n { st with ba := [], last := [], deleting := false } }
    let s := s.each st.ba fun s b => s.each b.2.held fun s h => s.each h.pkts fun s p => s.pktFree p.2
    let s := s.each (s.tidKeys st.client) fun s k =>
      let t := s.ple.tids.lookD k {}
      let s := s.each (t.out.map (fun (o : Nat × Nat × Nat) => o.2.2) ++ t.retry.map Prod.snd) fun s p =>
        { (s.pktFree p) with wma.seals := s.wma.seals.del p }
      { s with ple.tids := s.ple.tids.del k }
    let s := s.each [0, 1] fun s k => { (s.cipRemove (2 * i + k)) with wma.keys := s.wma.keys.del (2 * i + k) }
    let s := s.each [8, 9, 10] fun s r => { s with ple.links := s.ple.links.del (16 * st.client + r) }
    let s := s.each [0, 1, 2, 3] fun s m => s.unbad .wma m i
    let follow (b : BcastTwt) : BcastTwt := { b with members := b.members.filter fun (j : Nat) => decide (j ≠ i) }
    let s := { s with wma.bcast := s.wma.bcast.map fun (e : Nat × BcastTwt) => (e.1, follow e.2) }
    let s := ({ s with wma.stations := s.wma.stations.del i } : State).stasSync
    (s.maskSync st.client).groupSync

/-- DEL begins: retransmissions end; MPDUs in a PPDU are waited for. -/
def State.staLeave (s : State) (i : Nat) : State :=
  match s.wma.stations.look i with
  | none => s
  | some st =>
    let s := s.each (s.tidKeys st.client) fun s k =>
      s.each (s.ple.tids.lookD k {}).retry fun s x => s.mpduEnd st.client (k % 16) x.1
    s.editSta i fun x => { x with deleting := true }

/-! ### Delivery (R276, R277, R285) -/

/-- The ingress quire of link k: the (k + 1)-th that WMA writes, or the last of them (log entry 50). -/
def State.wmaQuire (s : State) (k : Nat) : Option Nat :=
  let l := (List.range 128).filter fun q => decide (s.f (PKB_Q_CFG_PROD q) = UnitId.wma.num)
  l[min k (l.length - 1)]?

/-- A packet is written to a quire and stays invisible to its read side (R274: held in the cells of its quire). -/
def State.quireHold (s : State) (q : Nat) (info data : List Byte) : State × Option Nat :=
  let long := decide (16384 ≤ data.length)
  let data := if long then data.take 16383 else data
  let n := max 1 (cellsFor data.length)
  if s.refuses q || !s.cellsFit q n then (s.bump PKB_CNT_NOCELL, none)
  else
    let id := s.pkb.next
    let p : Packet := { quire := q, ingress := q, info := info, cells := n, data := data, trunc := long, ltFirst := s.lt }
    let s := { s with pkb.pkts := s.pkb.pkts.put id p, pkb.next := id + 1 }
    ((s.cellsTake q id n).when long (·.bump PKB_CNT_TRUNC), some id)

/-- A held packet completes and becomes visible; one of zero bytes is discarded (R96). -/
def State.quireRelease (s : State) (q id : Nat) : State := s.quireClose q id true

/-- The radio and the link that a link number of R276 names. -/
def linkOf (k : Nat) : Radio × Nat := match k with | 0 => (.a, 0) | 1 => (.b, 0) | _ => (.b, 1)

/-- A BSS of a radio by its address, on the link named. -/
def State.bssAt (s : State) (k mac : Nat) : Option Nat :=
  (List.range 16).find? fun n => s.bssOn (linkOf k).1 n && decide (s.bssLink (linkOf k).1 n = (linkOf k).2) &&
    decide (s.bssMac (linkOf k).1 n = mac)

/-- Bytes 16 to 31 of a received MSDU's header slot (R276): the station index, its BSS, and what the frame says. -/
def wifiInfo (sta bss : Nat) (backhaul : Bool) (h : MacHdr) (x : WifiRx) : List Byte :=
  natLe 2 sta ++ natLe 1 (h.tid + 16 * x.link.val) ++
    natLe 1 (bss + (if x.link.val = 0 then 0 else 16)) ++ natLe 2 0 ++ natLe 1 x.rssi.toNat ++
    natLe 1 (h.prot.toNat + 2 * h.amsdu.toNat + 4 * backhaul.toNat + 8 * h.group.toNat + 16 * h.mgmt.toNat) ++
    natLe 1 x.mcs.toNat ++ natLe 1 x.width.toNat ++ natLe 6 0

/-- The MSDUs of an MPDU are written to the ingress quire of its link, invisible; one that the quire refuses is lost (R277). -/
def State.msdusHold (s : State) (k : Nat) (info : List Byte) (l : List (List Byte)) : State × List (Nat × Nat) :=
  match s.wmaQuire k with
  | none => (s.bump WMA_CNT_RX_NOCELL l.length, [])
  | some q =>
    l.foldl (fun (a : State × List (Nat × Nat)) m =>
      match a.1.quireHold q info m with
      | (s, some id) => (s, a.2 ++ [(q, id)])
      | (s, none) => (s.bump WMA_CNT_RX_NOCELL, a.2)) (s, [])

/-- An MPDU passes on to its quire after the replay and MIC checks; its packets are freed where it fails (R285). -/
def State.mpduDeliver (s : State) (i tid : Nat) (h : HeldMpdu) : State :=
  let drop (s : State) : State := s.each h.pkts fun s p => s.pktFree p.2
  let pass (s : State) : State := s.each h.pkts fun s p => s.quireRelease p.1 p.2
  match h.check with
  | .clear => pass s
  | .noKey => drop (s.bump WMA_CNT_MIC_FAIL)
  | .key gen pn good =>
    let k := gen * 32 + tid
    let old := (s.wma.stations.look i).bind fun st => st.rxPn.look k
    if old.any fun n => decide (pn ≤ n) then drop (s.bump WMA_CNT_REPLAY)
    else if !good then drop ((s.bump WMA_CNT_MIC_FAIL).ev .wma Ev.WMA_MIC_FAIL [i])
    else pass (s.editSta i fun x => { x with rxPn := x.rxPn.put k pn })

/-! ### Keys (R282 to R285, R324) -/

/-- The table entry of a slot (R324): pairwise, or of a BSS, whose radio stands in bit 4 of the index (log entry 51). -/
def wmaKeyIndex (index slot : Nat) : Nat :=
  if slot < 2 then 2 * index + slot else 2048 + 64 * (index / 16 % 2) + 4 * (index % 16) + (slot - 2)

/-- A key of WMA: its octets, cipher and generation. -/
structure WifiKey where
  key : List Byte
  cipher : Nat
  gen : Nat
  deriving DecidableEq, Repr

/-- The key of a slot of the table; none where it is empty or CIP has lost it. -/
def State.slotKey (s : State) (i : Nat) : State × Option WifiKey :=
  match s.wma.keys.look i with
  | none => (s, none)
  | some k => match s.tableUse i with
    | (s, some key) => (s, some { key := key, cipher := k.cipher, gen := k.gen })
    | (s, none) => (s, none)

/-- The pairwise key of a station by its key ID: of a backhaul peer the derived one, of generation 0 (R282, R287). -/
def State.pairKey (s : State) (i : Nat) (st : Station) (id : Nat) : State × Option WifiKey :=
  match s.bhOf st with
  | some n => match s.deriveNow (s.bhTag n) with
    | (s, some key) => (s, some { key := key, cipher := 3, gen := 0 })
    | (s, none) => (s, none)
  | none => s.slotKey (2 * i + id)

/-- What CIP makes of a received MPDU from a station (R282, R285): its frame body, and the check. A group management frame has BIP where
its BSS has an IGTK. -/
def State.rxOpen (s : State) (i : Nat) (st : Station) (k : Nat) (h : MacHdr) (body : List Byte) : State × List Byte × RxCheck :=
  let index := staBss st k + (if k = 0 then 0 else 16)
  if h.prot then
    let id := (ccmpId body).1
    let (s, key) := if h.group then s.slotKey (wmaKeyIndex index (2 + id % 2)) else s.pairKey i st (id % 2)
    match key with
    | none => (s, [], .noKey)
    | some x => match ccmpOpen x.cipher x.key h body with
      | some l => (s.inlineEnd true, l, .key x.gen (ccmpId body).2 true)
      | none => (s.inlineEnd false, [], .key x.gen (ccmpId body).2 false)
  else if h.mgmt && h.group && (s.wma.keys.look (wmaKeyIndex index 4)).isSome then
    match s.slotKey (wmaKeyIndex index 4) with
    | (s, none) => (s, [], .noKey)
    | (s, some x) => match bipCheck x.cipher x.key h body with
      | some (ipn, good) => (s.inlineEnd good, body, .key x.gen ipn good)
      | none => (s.inlineEnd false, [], .noKey)
  else (s, body, .clear)

/-- A received MPDU goes through CIP and its MSDUs to the cells of their quire (R274, R276): what reordering holds of it. Without a pair in
service CIP discards it (R330). -/
def State.mpduHold (s : State) (i : Nat) (st : Station) (h : MacHdr) (x : WifiRx) : State × HeldMpdu :=
  let k := x.link.val
  let none_ : HeldMpdu := { sn := h.sn, pkts := [], since := s.now }
  if h.prot && s.noLane then (s.inlineLost, none_)
  else
    let (s, body, check) := s.rxOpen i st k h (x.mpdu.drop h.len)
    let good := match check with | .clear => true | .noKey => false | .key _ _ g => g
    let s := s.bhHears st (h.prot && good)
    let l := if good then msdusOf h x.mpdu body else []
    let (s, pkts) := s.msdusHold k (wifiInfo i (staBss st k) st.backhaul h x) l
    (s, { none_ with pkts := pkts, lost := l.length - pkts.length, check := check })

/-! ### Responses (R268, R269) -/

/-- SIFS of a link in ns. -/
def sifs (k : Nat) : Nat := if k = 2 then 10000 else 16000

/-- A response falls due on a link, SIFS after the PPDU that ends now. -/
def State.respond (s : State) (k : Nat) (kind : RespKind) (dest : Nat) (acked : List (Nat × Nat × Nat)) : State :=
  let r : WifiResp := { kind := kind, dest := dest, acked := acked, deadline := s.lt + sifs k }
  { s with wma.responses := s.wma.responses.put (8 + k) (s.wma.responses.lookD (8 + k) [] ++ [r]) }

/-- What the MPDUs of a PPDU call for (R268): each of an A-MPDU adds to the BlockAck that its last one makes due, for one or several
stations; a single one is answered with ACK. -/
def State.ackRx (s : State) (h : MacHdr) (x : WifiRx) : State :=
  let k := x.link.val
  let one := (h.a2, h.tid, h.sn)
  let l := s.wma.acking.lookD (8 + k) [] ++ (if h.group || h.noAck then [] else [one])
  let done (s : State) : State := { s with wma.acking := s.wma.acking.del (8 + k) }
  if !x.last then { s with wma.acking := s.wma.acking.put (8 + k) l }
  else match l with
  | [] => done s
  | e :: _ =>
    let many := l.any fun y => decide (y.1 ≠ e.1)
    (done s).respond k (if !x.aggregated then .ack else if many then .multiSta else .blockAck) e.1 l

/-! ### Transmission (R278, R282 to R284) -/

/-- Where a packet goes on a Wi-Fi root (R278): to a station, or to the group of a BSS; and whether in the four-address format. -/
structure WifiDest where
  sta : Option (Nat × Station)
  bss : Nat
  four : Bool
  deriving DecidableEq, Repr

/-- By its REWRITE; a packet without one goes to the station or group of its queue's client (DESIGN CHOICE, log entry 249). None where no
station is named. -/
def State.wifiTo (s : State) (root c : Nat) (p : Packet) : Option WifiDest :=
  let toSta (i : Nat) (four : Bool) : Option WifiDest :=
    (s.wma.stations.look i).map fun st => { sta := some (i, st), bss := staBss st (root - 8), four := four }
  match p.rewrite with
  | some w => if w.testBit 15 then some { sta := none, bss := w / 1024 % 16, four := false } else toSta (w % 1024) (w.testBit 14)
  | none => match s.stationOf c with
    | some (i, st) => toSta i st.backhaul
    | none => (s.wma.groupNode.find? fun (g : Nat × Nat) => decide (g.2 = c)).map fun g =>
        { sta := none, bss := g.1 % 16, four := false }

/-- The group address of an IP packet (PRESUMED, log entry 245). -/
def groupMac (v6 : Bool) (d : List Byte) : Nat :=
  if v6 then (if beAt d 24 1 = 0xFF then 0x333300000000 + beAt d 36 4 else 0xFFFFFFFFFFFF)
  else if beAt d 16 1 / 16 = 14 then 0x01005E000000 + beAt d 16 4 % 2 ^ 23 else 0xFFFFFFFFFFFF

/-- A packet as an Ethernet frame: as it is, or with the station's or the group's address and this device's before the packet that FLW
has forwarded. -/
def wifiEther (own : Nat) (d : WifiDest) (p : Packet) : List Byte :=
  match p.rewrite with
  | none => p.data
  | some _ =>
    let l := ipBytes p
    let v6 := decide (beAt l 0 1 / 16 = 6)
    natBe 6 (match d.sta with | some (_, st) => st.mac | none => groupMac v6 l) ++ natBe 6 own ++
      (if v6 then [0x86, 0xDD] else [8, 0]) ++ l

/-- The MAC header of an MPDU to a station, or to a group. -/
def State.wifiHdr (s : State) (root c tid sn : Nat) (d : WifiDest) (ether : List Byte) (retry sealed_ : Bool) : MacHdr :=
  let own := s.bssMac (linkOf (root - 8)).1 d.bss
  let da := beAt ether 0 6
  let sa := beAt ether 6 6
  let flags (more : Bool) : Nat := 2 + d.four.toNat + 8 * retry.toNat + 32 * more.toNat + 64 * sealed_.toNat
  match d.sta with
  | some (_, st) =>
    let eosp := decide (st.poll = 2) && !s.waits c
    { fc := 0x88 + 256 * flags (st.pm && s.waits c), a1 := st.mac, a2 := own, a3 := if d.four then da else sa
      a4 := if d.four then some sa else none, sc := 16 * sn, qc := some (tid + 16 * eosp.toNat), len := if d.four then 32 else 26 }
  | none => { fc := 0x08 + 256 * flags (s.waits c), a1 := da, a2 := own, a3 := sa, sc := 16 * sn, len := 24 }

/-- The octets of a header. -/
def hdrBytes (h : MacHdr) : List Byte :=
  natLe 2 h.fc ++ natLe 2 (Config.wifiDuration h.sn) ++ natBe 6 h.a1 ++ natBe 6 h.a2 ++ natBe 6 h.a3 ++ natLe 2 h.sc ++
    (match h.a4 with | some a => natBe 6 a | none => []) ++ (match h.qc with | some q => natLe 2 q | none => [])

/-- The MPDU that carries a packet (R278, R282). -/
def State.mpduBytes (s : State) (root c tid sn : Nat) (d : WifiDest) (p : Packet) (retry : Bool) (k : Option TxSeal) : List Byte :=
  let ether := wifiEther (s.bssMac (linkOf (root - 8)).1 d.bss) d p
  let h := s.wifiHdr root c tid sn d ether retry k.isSome
  let body := llcOf (ether.drop 12)
  hdrBytes h ++ (match k with | some k => ccmpSeal k.cipher k.key h k.keyId k.pn body | none => body)

/-- The table entry of the key that a destination uses, and its key ID, where WMA has a key for it. -/
def State.txKey (s : State) (root : Nat) (d : WifiDest) : Option (Nat × Nat) :=
  match d.sta with
  | some (i, st) => if (s.wma.keys.look (2 * i + st.txSlot)).isSome then some (2 * i + st.txSlot, st.txSlot) else none
  | none =>
    let base := wmaKeyIndex (d.bss + (if root = 8 then 0 else 16)) 2
    if (s.wma.keys.look base).isSome then some (base, 1) else if (s.wma.keys.look (base + 1)).isSome then some (base + 1, 2) else none

/-- The backhaul link that a destination is the peer of. -/
def State.destBh (s : State) (d : WifiDest) : Option Nat := d.sta.bind fun e => s.bhOf e.2

/-- An MPDU to a destination needs CIP. -/
def State.destSealed (s : State) (root : Nat) (d : WifiDest) : Bool := (s.destBh d).isSome || (s.txKey root d).isSome

/-- A key's packet number has come to its end: its MPDU is discarded (R284). -/
def State.pnEnd (s : State) (key : Nat) : State := (s.bump WMA_CNT_PN_EXHAUST).ev .wma Ev.WMA_PN_EXHAUST [key]

/-- The protection of a new MPDU (R282 to R284): with its key's next packet number, or none where the destination has no key. The outer
none is an MPDU that is discarded: no pair is in service, CIP has lost the key, or its packet number is at its end. -/
def State.sealNew (s : State) (root : Nat) (d : WifiDest) : State × Option (Option TxSeal) :=
  if s.destSealed root d && s.noLane then (s.inlineLost, none)
  else match s.destBh d, s.txKey root d with
  | some n, _ =>
    let pn := s.wma.bhPn.lookD n 0
    if 2 ^ 48 - 1 ≤ pn then (s.pnEnd (s.f (WMA_BH_PEER_STA n) * 2), none)
    else match s.deriveNow (s.bhTag n) with
    | (s, none) => (s.inlineEnd true, none)
    | (s, some key) =>
      ({ s.inlineEnd true with wma.bhPn := s.wma.bhPn.put n (pn + 1) }, some (some { cipher := 3, keyId := 0, pn := pn + 1, key := key, derived := true }))
  | none, some (i, id) =>
    match s.wma.keys.look i with
    | none => (s, none)
    | some k =>
      if 2 ^ 48 - 1 ≤ k.pn then (s.pnEnd i, none)
      else match s.tableUse i with
      | (s, none) => (s.inlineEnd true, none)
      | (s, some key) =>
        ({ s.inlineEnd true with wma.keys := s.wma.keys.put i { k with pn := k.pn + 1 } },
          some (some { cipher := k.cipher, keyId := id, pn := k.pn + 1, key := key }))
  | none, none => (s, some none)

/-- The octets of an MPDU without its FCS, before it is built. -/
def State.mpduSize (s : State) (root c : Nat) (p : Packet) : Nat :=
  match s.wifiTo root c p with
  | none => 0
  | some d =>
    let own := s.bssMac (linkOf (root - 8)).1 d.bss
    let cipher := match s.destBh d, s.txKey root d with
      | some _, _ => some 3
      | none, some (i, _) => (s.wma.keys.look i).map (·.cipher)
      | none, none => none
    let head := match d.sta with | some _ => 26 + 6 * d.four.toNat | none => 24
    head + (llcOf ((wifiEther own d p).drop 12)).length + (match cipher with | some c => 8 + micLen c | none => 0)

/-- A failed MPDU is built again for a link that may carry it, with its sequence number, packet number and key (R189, R283, R284). One whose
key an erase has taken, or for which no pair is in service, is discarded. -/
def State.mpduAgain (s : State) (c tid sn root : Nat) (l : List TxMpdu) : State × Option TxMpdu :=
  match (s.tid c tid).retry.find? fun o => decide (o.1 = sn) with
  | none => (s, none)
  | some (_, id) =>
    let k := s.wma.seals.look id
    match s.pkt id with
    | none => (s, none)
    | some p => match s.wifiTo root c p with
      | none => (s, none)
      | some d =>
        if k.any fun x => x.key.isEmpty then (s.mpduEnd c tid sn, none)
        else if k.isSome && s.cipHeld then (s, none)
        else if k.isSome && s.noLane then (s.inlineLost.mpduEnd c tid sn, none)
        else
          let bytes := s.mpduBytes root c tid sn d p true k
          if !s.ampduFits c bytes.length l then (s, none)
          else match s.mpduRetry c tid sn root with
            | (s, none) => (s, none)
            | (s, some id) => (s.when k.isSome (·.inlineEnd true), some { client := c, tid := tid, sn := sn, pkt := id, bytes := bytes })

/-! ### Reordering (R273, R274) -/

/-- The distance of a sequence number from a window's start. -/
def seqDist (win sn : Nat) : Nat := (sn + 4096 - win) % 4096

/-- An agreement changed. -/
def State.editBa (s : State) (i tid : Nat) (f : RxBa → RxBa) : State :=
  s.editSta i fun x => { x with ba := x.ba.edit tid f }

/-- The agreement of a station and TID. -/
def State.baOf (s : State) (i tid : Nat) : Option RxBa := (s.wma.stations.look i).bind fun x => x.ba.look tid

/-- Held MPDUs from the window's start up to the first gap are released. -/
def State.baRun : Nat → State → Nat → Nat → State
  | 0, s, _, _ => s
  | n + 1, s, i, tid =>
    match s.baOf i tid with
    | none => s
    | some b =>
      match b.held.find? fun h => decide (h.sn = b.win) with
      | none => s
      | some h =>
        let s := s.editBa i tid fun b => { b with win := (b.win + 1) % 4096, held := b.held.filter fun (x : HeldMpdu) => decide (x.sn ≠ h.sn) }
        State.baRun n (s.mpduDeliver i tid h) i tid

/-- The window moves to a start: held MPDUs behind it and below the start are released in order, its gaps skipped, and then the run from
it. -/
def State.baMove (s : State) (i tid win : Nat) : State :=
  match s.baOf i tid with
  | none => s
  | some b =>
    let n := seqDist b.win win
    let behind (h : HeldMpdu) : Bool := decide (2048 ≤ seqDist b.win h.sn)
    let s := s.each (b.held.filter behind) fun s h => s.mpduDeliver i tid h
    let s := (List.range n).foldl (fun s d =>
      let sn := (b.win + d) % 4096
      match b.held.find? fun h => decide (h.sn = sn) && !behind h with
      | some h => s.mpduDeliver i tid h
      | none => s) s
    let s := s.editBa i tid fun x => { x with
      win := win, held := x.held.filter fun (h : HeldMpdu) => !behind h && decide (n ≤ seqDist b.win h.sn) }
    State.baRun 1025 s i tid

/-- The oldest held MPDU of an agreement. -/
def baOldest (b : RxBa) : Option HeldMpdu :=
  b.held.foldl (fun (m : Option HeldMpdu) h => match m with
    | none => some h
    | some k => if h.since < k.since then some h else some k) none

/-- Every held MSDU is released up to the next gap after the agreement's oldest MPDU; the window never moves back (log entry 248). -/
def State.baFlush (s : State) (i tid : Nat) : State :=
  match s.baOf i tid with
  | none => s
  | some b => match baOldest b with
    | some h => s.baMove i tid (if seqDist b.win h.sn < 2048 then h.sn else b.win)
    | none => s

/-- How many MPDUs are held across all agreements. -/
def State.mpdusHeld (s : State) : Nat :=
  s.wma.stations.foldl (fun n (e : Nat × Station) => e.2.ba.foldl (fun n (b : Nat × RxBa) => n + b.2.held.length) n) 0

/-- The agreement that holds the oldest MPDU: station, TID, since. -/
def State.heldOldest (s : State) : Option (Nat × Nat × Nat) :=
  s.wma.stations.foldl (fun (m : Option (Nat × Nat × Nat)) (e : Nat × Station) =>
    e.2.ba.foldl (fun (m : Option (Nat × Nat × Nat)) (b : Nat × RxBa) =>
      match baOldest b.2, m with
      | some h, none => some (e.1, b.1, h.since)
      | some h, some k => if h.since < k.2.2 then some (e.1, b.1, h.since) else m
      | none, _ => m) m) none

end Sys2Proof.Machine
end

