-- ==== Sys2Proof/Machine/Rf.lean ====
section
/-! DEFINITION. Radios A and B (spec/09): their rows. -/

namespace Sys2Proof.Machine

/-! ### State commands (R221) -/

/-- The state command register of a radio. -/
def rfCmd (r : Radio) : CmdReg := ⟨(rx r RFB_STATE_CMD_STATE).addr, rfUnit r, .operator⟩

/-- RFx_STATE_CMD: RUNNING until the link is in the target state; INVALID for another target and for a link that the radio
does not have in its mode (log entry 45). -/
def State.rfGoCmd (s : State) (req : Req) (r : Radio) (l target : Nat) : State :=
  s.command (rfCmd r) req fun s =>
    let a := (rfCmd r).addr
    if 3 < target ∨ !s.linkThere r l then s.cmdError a 2
    else
      let s := (s.cmdIs a 1 0).set (rx r RFB_STATE_CMD_LINK) l
      let s := s.set (rx r RFB_STATE_CMD_TARGET) target
      let k := s.link r l
      if k.state = target ∧ k.trans.isNone ∧ k.tx.isNone ∧ k.queue = [] then s.cmdDone a
      else s.linkQueue r l (.go target)

/-- A state command: one of `RFx_STATE_CMD` comes with its requester, one of Wi-Fi MAC services with none; they are carried out
in arrival order. -/
def State.rfGo (s : State) (req : Option Req) (r : Radio) (l target : Nat) : State :=
  match req with
  | some req => s.rfGoCmd req r l target
  | none => s.datapath (rfUnit r) fun s => if s.linkThere r l then s.linkQueue r l (.go target) else s

/-- RF_GO_OFF. -/
def execRfGoOff (req : Option Req) (radio : Radio) (link : Bool) (s : State) : Host.Outcome State Fault Refusal :=
  .next (s.rfGo req radio link.toNat 0)
/-- RF_GO_SLEEP. -/
def execRfGoSleep (req : Option Req) (radio : Radio) (link : Bool) (s : State) : Host.Outcome State Fault Refusal :=
  .next (s.rfGo req radio link.toNat 1)
/-- RF_GO_IDLE. -/
def execRfGoIdle (req : Option Req) (radio : Radio) (link : Bool) (s : State) : Host.Outcome State Fault Refusal :=
  .next (s.rfGo req radio link.toNat 2)
/-- RF_GO_RX. -/
def execRfGoRx (req : Option Req) (radio : Radio) (link : Bool) (s : State) : Host.Outcome State Fault Refusal :=
  .next (s.rfGo req radio link.toNat 3)

/-- RF_TRANSITION_DONE. -/
def execRfTransitionDone (radio : Radio) (link : Bool) (s : State) : Host.Outcome State Fault Refusal :=
  .next <| s.datapath (rfUnit radio) fun s =>
    s.with? (s.link radio link.toNat).trans fun s t => s.transEnd radio link.toNat t

/-! ### Transmission (R221, R224 to R227, R234) -/

/-- The MPDUs that a command carries: those taken under its grant, and retransmissions. -/
def State.cmdMpdus (s : State) (root : Nat) (retries : List MpduId) : State × List TxMpdu :=
  let l := s.wma.building.lookD root []
  let s := { s with wma.building := s.wma.building.del root }
  retries.foldl (fun (a : State × List TxMpdu) m =>
    match a.1.mpduAgain m.client.toNat m.tid.toNat m.sn.toNat root a.2 with
    | (s, some x) => (s, a.2 ++ [x])
    | (s, none) => (s, a.2)) (s, l)

/-- The words of each MPDU's packet are read as it is sent: one with a word that is uncorrectable ends with an invalid FCS (R105, R107). -/
def State.cmdRead (s : State) (l : List TxMpdu) : List (List WordErr) → State × List TxMpdu
  | [] => (s, l)
  | errs :: t =>
    match l with
    | [] => (s, [])
    | m :: l =>
      let (s, bad) := match s.pkt m.pkt with
        | none => (s, false)
        | some p => match s.pktScan m.pkt p errs with
          | (s, some k) => (s, k.poison)
          | (s, none) => (s, true)
      let (s, l) := (s.when bad (·.bump PKB_CNT_POISON_DROP)).cmdRead l t
      (s, { m with bad := bad } :: l)

/-- The highest class for a PPDU that no grant gives a class: that of the link's TXOP, else what PWR permits at that instant
(R180, R228). -/
def State.classLimit (s : State) (r : Radio) (l : Nat) : Nat :=
  match (s.link r l).txop with
  | some (c, t) => if s.now < t then c else s.permitted r
  | none => s.permitted r

/-- The link is in a TXOP of the device's own (R180). -/
def State.inTxop (s : State) (r : Radio) (l : Nat) : Bool := (s.link r l).txop.any fun x => decide (s.now < x.2)

/-- A response of the link is due, waits to start, or is on the air (R270). -/
def State.respOpen (s : State) (r : Radio) (l : Nat) : Bool :=
  let k := s.link r l
  let reply (c : LinkCmd) : Bool := match c with | .tx c => c.reply.isSome | _ => false
  !(s.wma.responses.lookD (linkRoot r l) []).isEmpty || k.queue.any reply || (k.held.any fun c => c.reply.isSome) ||
    k.tx.any fun x => x.1.reply.isSome

/-- The users of a trigger frame: one for each entry of its UL grant, with the RUs that WMA chooses (R271). -/
def trigUsers (g : WifiGrant) : List TrigUser :=
  (List.range g.entries.length).zipWith (fun k e =>
    { client := e.client, ac := e.tid, bytes := e.allowance, ru := Config.wifiRu g.entries.length k }) g.entries

/-- A command goes to its link under a new number. -/
def State.txGive (s : State) (r : Radio) (l : Nat) (c : TxCmd) (receiving : Bool) : State :=
  let id := (s.link r l).nextId
  (s.editLink r l fun k => { k with nextId := id + 1 }).txSubmit r l { c with id := id } receiving

/-- A PPDU under the root's grant takes its class and MPDUs from there, or is the trigger frame of an UL grant; its TXOP, of at most 8.16 ms
(R413), is the link's. While a response of the link is open it waits: behind it where the link is in a TXOP of the device's own, else it
contends again, and the grant stands (R270). -/
def State.txGranted (s : State) (r : Radio) (l len : Nat) (g : WifiGrant) (retries : List MpduId) (errs : List (List WordErr))
    (receiving : Bool) : State :=
  let root := linkRoot r l
  let own := s.inTxop r l
  if s.respOpen r l && !(own && (s.wma.responses.lookD root []).isEmpty) then s
  else
    let (s, m) := if g.ul then (s, []) else s.cmdMpdus root retries
    let (s, m) := s.cmdRead m errs
    let s := (s.grantUsed root).editLink r l fun k => { k with txop := some (g.cls, s.now + 8160000) }
    let first := match (s.link r l).tx with | some (c, _, t) => if c.reply.isSome then t + c.len + sifs (root - 8) else 0 | none => 0
    s.txGive r l { id := 0, cls := g.cls, len := len, mpdus := m, users := if g.ul then trigUsers g else []
                   grant := some g, own := own, notBefore := first } receiving

/-- The oldest response that is due on the link is commanded, with its start-by deadline (R269); the TB PPDU that answers a trigger frame
carries what has been taken under the root's grant (R287). -/
def State.txResponse (s : State) (r : Radio) (l cls len : Nat) (errs : List (List WordErr)) (receiving : Bool) : State :=
  let root := linkRoot r l
  match s.wma.responses.lookD root [] with
  | [] => s
  | x :: rest =>
    let s := { s with wma.responses := s.wma.responses.put root rest }
    let (s, m) := if x.kind = .tb ∧ (s.sch.grants.look root).any (fun g => !g.ul) then (s.cmdMpdus root []) else (s, [])
    let (s, m) := s.cmdRead m errs
    let s := s.when (!m.isEmpty) (·.grantUsed root)
    s.txGive r l { id := 0, cls := min cls (s.classLimit r l), len := len, deadline := some x.deadline, reply := some x, mpdus := m } receiving

/-- TX_COMMAND: nothing granted, nothing sent (R270). -/
def execTxCommand (radio : Radio) (link : Bool) (cls : BitVec 3) (len : BitVec 32) (what : TxWhat) (errs : List (List WordErr))
    (receiving : Bool) (s : State) : Host.Outcome State Fault Refusal :=
  .next <| s.datapath (rfUnit radio) fun s =>
    let l := link.toNat
    if !s.linkThere radio l then s
    else match what with
    | .granted retries => s.with? (s.sch.grants.look (linkRoot radio l)) fun s g =>
        s.txGranted radio l len.toNat g retries errs receiving
    | .response => s.txResponse radio l cls.toNat len.toNat errs receiving
    | .other => s.txGive radio l { id := 0, cls := min cls.toNat (s.classLimit radio l), len := len.toNat } receiving

/-- The held command that starts next. -/
def State.heldNext (s : State) (r : Radio) (l : Nat) : Option TxCmd := (heldOrder (s.link r l).held).head?

/-- The earliest start of a held command, as far as the radio can tell: behind a PPDU or a transition its end, then the IDLE→TX
time (R224). -/
def State.earliest (s : State) (k : RfLink) : Nat :=
  4000 + (match k.tx, k.trans with
    | some (c, _, t), _ => t + c.len
    | none, some t => t.ends
    | none, none => s.now)

/-- A command cannot start by its deadline. -/
def State.late (s : State) (k : RfLink) (c : TxCmd) : Bool :=
  match c.deadline with
  | some d => decide (d < s.lt + (s.earliest k - s.now))
  | none => false

/-- HELD_COMMAND_START: lock and calibration are complete. Where the next one can no longer start by its deadline it is late
(R225). -/
def execHeldCommandStart (radio : Radio) (link : Bool) (s : State) : Host.Outcome State Fault Refusal :=
  .next <| s.datapath (rfUnit radio) fun s =>
    let l := link.toNat
    let k := s.link radio l
    if !canStart k then s
    else s.with? (s.heldNext radio l) fun s c =>
      if s.late k c then (s.heldEnd radio l c 2).bump (rxw radio RFB_CNT_TX_LATE)
      else (s.editLink radio l fun k => { k with held := k.held.filter fun (x : TxCmd) => decide (x.id ≠ c.id) }).txStart radio l c 4000

/-- TX_LATE: the first held command that can be told to miss its deadline is abandoned at once; in CAL, whose end is not known,
the one with the earliest deadline is abandoned when it can no longer start by it. -/
def execTxLate (radio : Radio) (link : Bool) (s : State) : Host.Outcome State Fault Refusal :=
  .next <| s.datapath (rfUnit radio) fun s =>
    let l := link.toNat
    let k := s.link radio l
    let dead (s : State) (c : TxCmd) : State := (s.heldEnd radio l c 2).bump (rxw radio RFB_CNT_TX_LATE)
    match (heldOrder k.held).find? (s.late k) with
    | some c => dead s c
    | none =>
      if k.calTarget.isNone then s
      else s.with? (s.heldNext radio l) fun s c =>
        s.with? c.deadline fun s d => dead (s.reach (s.now + (d - 4000 - s.lt))) c

/-- HOLD_EXPIRED: the command without a deadline that has been held longest reaches HOLD_MAX. -/
def execHoldExpired (radio : Radio) (link : Bool) (s : State) : Host.Outcome State Fault Refusal :=
  .next <| s.datapath (rfUnit radio) fun s =>
    let l := link.toNat
    s.with? ((s.link radio l).held.find? fun c => c.deadline.isNone) fun s c =>
      ((s.reach (c.since + 1000 * max 1 (s.f (rx radio RFB_HOLD_MAX_MAX)))).heldEnd radio l c 3).bump
        (rxw radio RFB_CNT_HOLD_EXPIRED)

/-- The MPDUs of a PPDU after it: those acknowledged, given up or sent with an invalid FCS leave, the others wait for a retransmission. -/
def State.mpdusSettle (s : State) (l : List TxMpdu) (acked discarded : List MpduId) : State :=
  let named (m : TxMpdu) : List MpduId → Bool :=
    fun x => x.any fun i => decide (i.client.toNat = m.client ∧ i.tid.toNat = m.tid ∧ i.sn.toNat = m.sn)
  s.each l fun s m =>
    if m.group then s
    else if m.bad || named m acked || named m discarded then s.mpduEnd m.client m.tid m.sn
    else (s.mpduFail m.client m.tid m.sn).tidSettle m.client m.tid

/-- The command at the front of a link's queue starts as its PPDU ends, without the turn back to RX (R221). -/
def startsAtEnd (k : RfLink) : Bool :=
  match k.queue with
  | .channel :: _ | .split :: _ | .go 0 :: _ | .go 1 :: _ => true
  | _ => false

/-- A PPDU from a grant starts no earlier than an instant. -/
def laterStart (t : Nat) (c : TxCmd) : TxCmd := if c.grant.isSome then { c with notBefore := t } else c

/-- After a response the PPDU from a grant that waits behind it starts SIFS after its end (R270). -/
def State.afterResp (s : State) (r : Radio) (l : Nat) : State :=
  let t := s.now + sifs (linkRoot r l - 8)
  s.editLink r l fun k => { k with
    held := k.held.map (laterStart t)
    queue := k.queue.map fun x => match x with | .tx c => .tx (laterStart t c) | x => x }

/-- PPDU_TX_END: the status, the VSWR of the transmitting chains by their number, and the acknowledgement that followed. The
link turns to RX within 2 µs (R219, R220). -/
def execPpduTxEnd (radio : Radio) (link : Bool) (vswr : List (BitVec 12)) (acked : List MpduId) (discarded : List MpduId)
    (s : State) : Host.Outcome State Fault Refusal :=
  .next <| s.datapath (rfUnit radio) fun s =>
    let l := link.toNat
    s.with? (s.link radio l).tx fun s x =>
      let (c, cls, start) := x
      let s := s.reach (start + c.len)
      let clamped := decide (cls < c.cls)
      let now := startsAtEnd (s.link radio l)
      let s := s.editLink radio l fun k => { k with
        tx := none, state := if now then 3 else 4
        trans := if now then none else some { target := 3, ends := s.now + 2000, settles := false }
        reports := (c.id, clamped.toNat) :: k.reports
        duty := (start, start + c.len) :: k.duty.filter fun (p : Nat × Nat) => decide (s.now ≤ p.2 + 10000000) }
      let s := s.when clamped (·.bump (rxw radio RFB_CNT_CLAMPED))
      let s := s.when c.reply.isSome (·.afterResp radio l)
      let s := s.when (!c.users.isEmpty) fun s => { s with wma.triggers := s.wma.triggers.put (linkRoot radio l) c.users }
      let s := s.mpdusSettle c.mpdus acked discarded
      let s := if 100000 ≤ c.len ∧ 2 ≤ cls then
          s.each (s.liveChains radio l) fun s k => s.with? (vswr[k]?) fun s v => s.vswrTake radio k v.toNat
        else s
      s.linkNext radio l

/-! ### Calibration (R222, R223, R231 to R233) -/

/-- The chains of a radio in a segment. -/
def State.inSegment (s : State) (r : Radio) : Nat := ((s.rf r).chains.filter fun (e : Nat × Chain) => e.2.seg.isSome).length

/-- The class that a link's work asks a permit for (R233). -/
def State.calAsks (s : State) (r : Radio) : Nat :=
  [0, 1].foldl (fun m l => match (s.link r l).work with | some c => if 5 ≤ c then max m c else m | none => m) 0

/-- CAL_SEGMENT_START: on a chain in use, for an IQ correction that is due or for the class in work; a high-power class asks
PWR for a permit first and waits for it. `due`: a response is pending, or a transmit command of WMA is scheduled to start
within 20 µs. -/
def execCalSegmentStart (radio : Radio) (chain : BitVec 3) (receiving due : Bool) (s : State) :
    Host.Outcome State Fault Refusal :=
  .next <| s.datapath (rfUnit radio) fun s =>
    let k := chain.toNat
    let l := s.chainLink radio k
    let x := s.chain radio k
    let ln := s.link radio l
    let rested := match x.lastSeg with | some t => decide (t + 1000000 ≤ s.now) | none => true
    if !canStart ln || receiving || due || s.respOpen radio l || ln.held ≠ [] || !(s.liveChains radio l).contains k || 2 ≤ s.inSegment radio ||
        x.seg.isSome || !rested || ln.queue.any (fun c => match c with | .tx _ => true | _ => false) then s
    else
      let go (s : State) : State := s.editChain radio k fun x => { x with seg := some s.now, lastSeg := some s.now }
      if x.iqDue then go s
      else match s.workClass radio l with
      | none => s
      | some c =>
        let s := if ln.work = some c then s else
          (s.each (s.linkChains radio l) fun s k => s.editChain radio k fun x => { x with done := 0 }).editLink radio l fun y =>
            { y with work := some c }
        if !s.heavyLoad radio l || 64 ≤ (s.chain radio k).done then s
        else if 5 ≤ c ∧ s.permitted radio < c then
          let ask := (s.permit radio).calAsk < c
          s.when ask fun s => (s.editPermit radio fun p => { p with calAsk := c }).editRf radio fun y => { y with asked := s.now }
        else go s

/-- CAL_SEGMENT_END: 20 µs after its start; the chain's table of the class in work is written after 64 of them. A transmit
command that waits starts at this boundary. -/
def execCalSegmentEnd (radio : Radio) (chain : BitVec 3) (s : State) : Host.Outcome State Fault Refusal :=
  .next <| s.datapath (rfUnit radio) fun s =>
    let k := chain.toNat
    let l := s.chainLink radio k
    s.with? (s.chain radio k).seg fun s t =>
      let s := (s.reach (t + 20000)).bump (rxw radio RFB_CNT_CAL_SEGMENTS)
      let s := s.editChain radio k fun x => { x with seg := none }
      let x := s.chain radio k
      let s := if x.iqDue then s.editChain radio k fun x => { x with iqDue := false, iqTemp := x.temp, iqLna := x.lna }
        else s.with? (s.link radio l).work fun s c =>
          let s := s.editChain radio k fun x => { x with done := x.done + 1 }
          if (s.chain radio k).done < 64 then s
          else
            let heavy := s.heavyLoad radio l
            let s := (s.editChain radio k fun x => { x with tables := x.tables.put c (heavy, x.temp) }).unbad (rfUnit radio) 0
              (k * 65536 + c)
            let all := (s.liveChains radio l).all fun j => decide (64 ≤ (s.chain radio j).done)
            let s := s.when all fun s =>
              let s := s.editLink radio l fun y => { y with work := none }
              s.editPermit radio fun p => { p with calAsk := min p.calAsk (s.calAsks radio) }
            s.rfSync radio
      s.linkNext radio l

/-- DPD_PERMIT_RETRY: 1 s after the request the radio asks again. -/
def execDpdPermitRetry (radio : Radio) (s : State) : Host.Outcome State Fault Refusal :=
  .next <| s.datapath (rfUnit radio) fun s =>
    let c := s.calAsks radio
    if c < 5 ∨ c ≤ s.permitted radio ∨ (s.permit radio).retryEnd.isNone then s
    else
      let s := s.reach ((s.rf radio).asked + 1000000000)
      (s.editPermit radio fun p => { p with calAsk := c }).editRf radio fun y => { y with asked := s.now }

/-- RFx_CAL_CMD. -/
def State.rfCalOp (s : State) (req : Req) (r : Radio) (l op : Nat) : State :=
  s.command (rfCalCmd r) req fun s =>
    let a := (rfCalCmd r).addr
    if !([1, 2].contains op) || !s.linkThere r l || decide ((s.link r l).state = 0) then s.cmdError a 2
    else if op = 1 then
      ((s.cmdIs a 1 0).set (rx r RFB_CAL_CMD_LINK) l).linkQueue r l .cal
    else
      ((s.each (s.linkChains r l) fun s k => s.editChain r k fun x => { x with tables := [] }).rfSync r).cmdDone a

/-- RF_CAL_FULL. -/
def execRfCalFull (req : Req) (radio : Radio) (link : Bool) (s : State) : Host.Outcome State Fault Refusal :=
  .next (s.rfCalOp req radio link.toNat 1)
/-- RF_DPD_CLEAR. -/
def execRfDpdClear (req : Req) (radio : Radio) (link : Bool) (s : State) : Host.Outcome State Fault Refusal :=
  .next (s.rfCalOp req radio link.toNat 2)

/-- RF_CAL_DONE: the corrections of the channel are stored and the link goes to its target state. -/
def execRfCalDone (radio : Radio) (link : Bool) (s : State) : Host.Outcome State Fault Refusal :=
  .next <| s.datapath (rfUnit radio) fun s =>
    let l := link.toNat
    s.with? (s.link radio l).calTarget fun s t =>
      let s := s.editLink radio l fun k => { k with stored := (storedKey k.chan.w0 :: k.stored).eraseDups }
      let s := s.each (s.linkChains radio l) fun s k => s.editChain radio k fun x => { x with iqTemp := x.temp, iqLna := x.lna, iqDue := false }
      let s := { s with bad := s.bad.filter fun b => decide ((b.1, b.2.1) ≠ (rfUnit radio, 1)) }
      (s.linkReached radio l t.1).when t.2 (·.cmdDone (rfCalCmd radio).addr)

/-- PA_TEMP_CHANGE: the temperature of a chain's PA or LNA in °C, two's complement (R222, R231). -/
def execPaTempChange (radio : Radio) (chain : BitVec 3) (lna : Bool) (temp : BitVec 8) (s : State) : Host.Outcome State Fault Refusal :=
  .next <| s.datapath (rfUnit radio) fun s =>
    let t := sx 8 temp.toNat
    (s.editChain radio chain.toNat fun x =>
      let x := if lna then { x with lna := t } else { x with temp := t }
      { x with iqDue := x.iqDue || decide (10 ≤ (x.temp - x.iqTemp).natAbs) || decide (10 ≤ (x.lna - x.iqLna).natAbs) }).rfSync radio

/-- MISMATCH_PROBE: 60 s after the chain was disabled or last probed; under RX_ONLY radio A sends none (R236). -/
def execMismatchProbe (radio : Radio) (chain : BitVec 3) (vswr : BitVec 12) (s : State) : Host.Outcome State Fault Refusal :=
  .next <| s.datapath (rfUnit radio) fun s =>
    let k := chain.toNat
    if !s.chainOff radio k || s.rxOnly radio (s.chainLink radio k) then s
    else
      let s := s.reach ((s.chain radio k).lastProbe + 60000000000)
      let s := s.editChain radio k fun x => { x with lastProbe := s.now }
      if vswr.toNat ≤ 56 then
        (s.editChain radio k fun x => { x with vswr := List.replicate 8 vswr.toNat }).mismatchSet radio k 1 vswr.toNat
      else s

/-! ### 6 GHz standard power (R236 to R238) -/

/-- The grant command register. -/
def rfGrantCmd : CmdReg := ⟨RFA_GRANT_CMD_STATE.addr, .rfa, .operator⟩

/-- `RFA_GRANT_CFG.ACTIVE`, the caps and the backhaul links follow the grant (R236, R238). -/
def State.coordSync (s : State) : State := (s.put RFA_GRANT_CFG_ACTIVE s.coordLive.isSome).rfSync .a

/-- RFA_GRANT_CMD. -/
def State.rfGrantOp (s : State) (req : Req) (op : Nat) : State :=
  s.command rfGrantCmd req fun s =>
    let ents := ((List.range 16).filter fun n => s.on (RFA_GRANT_ENT_EN n)).map fun n =>
      ({ lo := s.f (RFA_GRANT_ENT_CH_LO n), hi := s.f (RFA_GRANT_ENT_CH_HI n)
         eirp := sx 8 (s.f (RFA_GRANT_ENT_EIRP n)), psd := sx 8 (s.f (RFA_GRANT_ENT_PSD n)) } : CoordEnt)
    let exp := s.w RFA_GRANT_EXP_EXPIRY
    if op = 2 then ({ s with rfa.coord := none }.coordSync).cmdDone rfGrantCmd.addr
    else if op ≠ 1 ∨ ents.isEmpty ∨ exp ≤ s.lt then s.cmdError rfGrantCmd.addr 2
    else ({ s with rfa.coord := some (ents, exp), rfa.warned := false }.coordSync).cmdDone rfGrantCmd.addr

/-- GRANT_LOAD. -/
def execGrantLoad (req : Req) (s : State) : Host.Outcome State Fault Refusal := .next (s.rfGrantOp req 1)
/-- GRANT_CLEAR. -/
def execGrantClear (req : Req) (s : State) : Host.Outcome State Fault Refusal := .next (s.rfGrantOp req 2)

/-- GRANT_EXPIRING: at expiry − EARLY s with no new grant loaded. -/
def execGrantExpiring (s : State) : Host.Outcome State Fault Refusal :=
  .next <| s.datapath .rfa fun s =>
    s.with? s.rfa.coord fun s g =>
      if s.rfa.warned then s
      else
        let s := s.reach (s.now + (g.2 - 1000000000 * s.f RFA_GRANT_CFG_EARLY - s.lt))
        ({ s with rfa.warned := true }.ev .rfa Ev.GRANT_EXPIRING []).irq 3

/-- GRANT_EXPIRED: the fallback applies from the next PPDU start. -/
def execGrantExpired (s : State) : Host.Outcome State Fault Refusal :=
  .next <| s.datapath .rfa fun s =>
    s.with? s.rfa.coord fun s g =>
      let s := s.reach (s.now + (g.2 - s.lt))
      { s.ev .rfa Ev.GRANT_EXPIRED [] with rfa.coord := none }.coordSync

/-! ### Channels (R213, R214, R217, R239) -/

/-- A channel that a write may not place the link on: a width beyond the link's, or a channel under incumbent detection. -/
def chanDenied (r : Radio) (l : Nat) (w : Word) : Bool :=
  decide (maxWidth r l < chanWidth w) ||
    (decide (r = .b) && decide (l = 0) && (subchannels w).any fun c => decide (52 ≤ c ∧ c ≤ 144))

/-- The channel words of a link's register. -/
def State.chanReg (s : State) (r : Radio) (l : Nat) : Chan :=
  let a := (rx r (RFB_CHAN_CHANNEL l)).addr
  { w0 := s.rd a, w1 := s.rd (a + 4) }

/-- A move that has been commanded and has not begun. -/
def isMove (c : LinkCmd) : Bool := decide (c = .channel) || decide (c = .split)

/-- A channel is staged on a link (R239): it applies at once in OFF, moves at once with a count of 0, else after the announcement; a
second one before the move replaces the first and restarts the count. -/
def State.stage (s : State) (r : Radio) (l : Nat) (ch : Chan) (count : Nat) : State :=
  if (s.link r l).state = 0 ∧ (s.link r l).trans.isNone then
    (s.editLink r l fun k => { k with chan := ch, staged := none, csa := [] }).rfSync r
  else
    let s := s.editLink r l fun k => { k with
      staged := some ch, count := count, csa := [], queue := k.queue.filter fun (c : LinkCmd) => !isMove c }
    if count = 0 then s.linkQueue r l .channel else s

/-- A write of one word of `RFx_CHAN_l`. -/
def State.chanSet (s : State) (r : Radio) (l : Nat) (second : Bool) (v : Word) : State :=
  let a := (rx r (RFB_CHAN_CHANNEL l)).addr
  if !s.linkThere r l && decide (r = .a) then s
  else
    let old := s.chanReg r l
    let mask : Word := if second then 0x0000FFFF else 0xFF00F7FF
    let new := v &&& mask
    let ch : Chan := if second then { old with w1 := new } else { old with w0 := new }
    let a5 := match r with | .a => ch.w0 | .b => (s.chanReg .a 0).w0
    let b5 := match r with | .a => (s.chanReg .b 0).w0 | .b => ch.w0
    if chanDenied r l ch.w0 then s.ev (rfUnit r) Ev.RF_CHAN_DENIED [l, ch.w0.toNat]
    else if !(decide (r = .b) && decide (l = 1)) && !apart a5 b5 then s.ev (rfUnit r) Ev.RF_COEX [l, ch.w0.toNat]
    else ((s.wr a ch.w0).wr (a + 4) ch.w1).stage r l ch (bitsOf ch.w0 31 24)

/-- The same, behind the gate of its register. -/
def State.chanWrite (s : State) (req : Req) (r : Radio) (l : Nat) (second : Bool) (v : Word) : State :=
  let a := (rx r (RFB_CHAN_CHANNEL l)).addr
  s.gate (rfUnit r) .operator a req fun s => s.chanSet r l second v

/-- RF_CHAN_WRITE. -/
def execRfChanWrite (req : Req) (radio : Radio) (link : Bool) (second : Bool) (data : BitVec 32) (s : State) :
    Host.Outcome State Fault Refusal :=
  .next (s.chanWrite req radio link.toNat second data)

/-- The move of radio B's 5 GHz channel that a change of SPLIT comes with: at once, or as a PPDU on either link ends. -/
def State.splitGo (s : State) : State :=
  if (s.link .b 0).tx.isSome then s.linkQueue .b 0 .split
  else if (s.link .b 1).tx.isSome then s.linkQueue .b 1 .split
  else s.splitMove

/-- CHANNEL_MOVE: at the target beacon time at which the count of a BSS reaches 0; a change of SPLIT by a folio switch comes
with the 5 GHz link's move (R213). -/
def execChannelMove (radio : Radio) (link : Bool) (s : State) : Host.Outcome State Fault Refusal :=
  .next <| s.datapath (rfUnit radio) fun s =>
    let l := link.toNat
    let k := s.link radio l
    if k.staged.isNone || !k.csa.any (fun e => decide (e.2 ≤ 1)) then s
    else if radio = .b ∧ l = 0 ∧ s.rfb.splitNext.isSome then s.splitGo
    else s.linkQueue radio l .channel

/-- A write of `RFB_CTL` that changes SPLIT (R213). -/
def State.splitSet (s : State) (b : Bool) : State :=
  if b = s.split then s
  else if (s.link .b 0).state = 0 ∧ (s.link .b 1).state = 0 ∧ (s.link .b 0).trans.isNone ∧ (s.link .b 1).trans.isNone then
    ((s.put RFB_CTL_SPLIT b).schSync).rfSync .b
  else s.ev .rfb Ev.RF_STATE_CONFLICT [b.toNat]

/-- The same, behind the gate of its register. -/
def State.splitWrite (s : State) (req : Req) (b : Bool) : State :=
  s.gate .rfb .operator RFB_CTL_SPLIT.addr req fun s => s.splitSet b

/-- RFB_SPLIT_WRITE. -/
def execRfbSplitWrite (req : Req) (split : Bool) (s : State) : Host.Outcome State Fault Refusal :=
  .next (s.splitWrite req split)

end Sys2Proof.Machine
end

