-- ==== Sys2Proof/Machine/Effects.lean ====
section
/-! DEFINITION. What follows at once when configuration fields change, whoever wrote them: CFG from a folio (R73, R78) or a
register write (R5, R17). -/

namespace Sys2Proof.Machine

/-- A register word differs between two states. -/
def State.changed (s old : State) (a : Nat) : Bool := decide (s.rd a ≠ old.rd a)

/-- MTM: a change of DELAY is an error to correct (R41); a change of REF_EN may leave no enabled input GOOD (R37, R38), and one
of SHELF_HOLD changes the kind of a holdover (R38). -/
def State.followMtm (s old : State) : State :=
  let s := s.when (s.changed old MTM_REF_OFFSET_DELAY.addr) fun s => s.refMoves (s.delayTicks - old.delayTicks)
  s.when (s.changed old MTM_CTL_REF_EN.addr) fun s =>
    let s := s.judgeSource
    s.when s.inHoldover State.holdKind

/-- PWR: a target class that falls below the granted class gives the grant up (R414); the permitted class follows
`PWR_PMBUS_CFG` (R408), and the regulator's mode its enable (R406). -/
def State.followPwr (s old : State) : State :=
  let s := s.when (s.changed old PWR_PERMIT_CFG_WANT_A.addr) fun s =>
    s.each [Radio.a, Radio.b] fun s r =>
      match (s.permit r).grant with
      | some g => s.when (decide (s.permitTarget r < g.cls)) (·.permitGiveUp r)
      | none => s
  let s := s.when (s.changed old PWR_PMBUS_CFG_EN.addr) State.permitsSync
  s.when (s.changed old PWR_AON_CTL_LP_ACTIVE.addr) State.aonSync

/-- A write of `PAR_MAL_CFG_c` starts its class's count of N again (R121). -/
def State.followPar (s old : State) : State :=
  s.each (List.range 7) fun s c =>
    s.when (s.changed old (PAR_MAL_CFG_N c).addr) fun s => { s with par.malSeen := s.par.malSeen.del c }

/-- CPU: a core whose RUN bit rises starts at `CPU_VBASE`; one whose RUN bit falls halts at the next word boundary (R389). -/
def State.followCpu (s old : State) : State :=
  s.each (List.range 4) fun s c =>
    let now := s.bit CPU_CTL_RUN c
    if now = old.bit CPU_CTL_RUN c then s
    else if now then s.coreStart c else s.up (haltBit c)

/-- SHF: what was heard on a link that is a shelf link no longer is gone (R436). -/
def State.followShf (s old : State) : State :=
  s.when (s.changed old SHF_CFG_EN.addr) fun s =>
    s.each (s.shf.links.map fun (e : Nat × Neighbour) => e.1) fun s n => s.when (!s.shelfLink n) (·.neighbourLost n)

/-- What follows a change of configuration fields. -/
def State.follow (s old : State) : State :=
  let s := (((s.followMtm old).followPwr old).followPar old).followCpu old
  let s := s.followShf old
  (((s.rfSync .a).rfSync .b).bhFollow).schSync

end Sys2Proof.Machine
end

