-- ==== Sys2Proof/Machine/Eth.lean ====
section
/-! DEFINITION. Wired ports (spec/14): their rows. -/

namespace Sys2Proof.Machine

/-! ### Receiving (R335 to R339, R345, R350, R436) -/

/-- The producer metadata of a received frame (R338). -/
def ethInfo (p : Nat) (express trunc fcsBad : Bool) (sa : Option (Nat × Nat)) (l3 l4 : Nat) (tci : Option Nat) (rxLt : Nat) :
    List Byte :=
  natLe 1 (p + 8 * express.toNat + 16 * sa.isSome.toNat + 32 * fcsBad.toNat + 64 * trunc.toNat) ++ natLe 1 (l3 + 4 * l4) ++
    natLe 1 ((match tci with | some t => t / 8192 + 8 | none => 0) + 16 * (match sa with | some (_, a) => a | none => 0)) ++
    natLe 1 (match sa with | some (c, _) => c | none => 0) ++ [0, 0] ++ natLe 2 (tci.getD 0) ++ natLe 8 rxLt

/-- The words of a packet that hold octets of a frame's uncorrectable words, after `cut` octets behind the addresses have gone. -/
def badOut (len cut : Nat) (bad : List Nat) : List Nat :=
  let first (w : Nat) : Nat := if 32 * w < 12 then 0 else (32 * w - cut) / 32
  (List.range ((len + 31) / 32)).filter fun o => bad.any fun w => decide (first w ≤ o ∧ 32 * o + cut < 32 * (w + 1))

/-- A frame is written to its quire: GOOD, BAD for its FCS, or truncated (R335, R336); words that the port read as uncorrectable carry
POISON (R104, R107). -/
def State.ethWrite (s : State) (p : Nat) (x : EthHeld) (d : List Byte) (sa : Option (Nat × Nat)) (verified : Bool) (bad : List Nat) : State :=
  let express := s.on (ETH_PORT_PREEMPT_EN p) && x.express
  let q := if express then s.f (ETH_PORT_Q_EXP_Q p) else s.f (ETH_PORT_Q_RX_Q p)
  let trunc := decide (s.maxLen p < x.data.length + 4)
  let (l3, l4) := if trunc || !verified then (0, 0) else checkFrame d
  let d := if trunc then d.take (s.maxLen p) else d
  let tci := (etherType d).2.2
  let info := ethInfo p express trunc (trunc && !x.fcs) sa l3 l4 tci x.stamp
  let good := x.fcs || trunc
  let s := s.when trunc (·.bump (ETH_CNT_RX_OVERSIZE p))
  let s := s.when (!good) (·.bump (ETH_CNT_RX_FCS p))
  let id := s.pkb.next
  match s.quireWriteBad q info d good (bad.filter fun w => decide (32 * w < d.length)) with
  | (s, false) => s.bump (ETH_CNT_RX_NOCELL p)
  | (s, true) => (s.when trunc (·.editPkt id fun k => { k with trunc := true })).when good (·.bump (ETH_CNT_RX_OK p))

/-- A MAC control frame (R346, R347); one whose FCS fails is not acted on. -/
def State.ethControl (s : State) (p : Nat) (x : EthHeld) : State :=
  let op := beAt x.data 14 2
  if !x.fcs then s.bump (ETH_CNT_RX_FCS p)
  else if op = 1 then s.pauseRx p (beAt x.data 16 2)
  else if op = 0x0101 then s.pfcRx p (beAt x.data 16 2 % 256) ((List.range 8).map fun i => beAt x.data (18 + 2 * i) 2)
  else s.bump (ETH_CNT_CTRL_DROP p)

/-- A frame that ETH hands to SHF: EtherType 0x88B5 on a shelf link or the management port (R436, R440); SMP_FRAME_RX takes
it. -/
def State.toShelf (s : State) (p : Nat) (d : List Byte) : Bool :=
  decide (beAt d 12 2 = 0x88B5) && ((s.on SHF_CFG_EN && (s.f SHF_CFG_PORTS).testBit p) ||
    (s.on SHF_MGMT_EN && decide (p < 4) && decide (s.f SHF_MGMT_PORT = p)))

/-- The port reads a frame from its receive buffer, validates it, and writes it to its quire (R105, R335 steps 3 to 5). -/
def State.ethFrame (s : State) (p : Nat) (x : EthHeld) : State :=
  match s.bufferScan p 1 x.data [] x.errs with
  | (s, d, bad) => match s.macsecRx p d with
    | (s, .drop) => s.bump (ETH_CNT_MACSEC_DROP p)
    | (s, .replay) => s.bump (ETH_CNT_MACSEC_REPLAY p)
    | (s, .lost) => s
    | (s, .deliver d sa verified cut) =>
      if x.fcs && s.toShelf p d then s else s.ethWrite p x d sa verified (badOut d.length cut bad)

/-- The octets of the frames that wait in a port's hold buffer, with their FCS. -/
def State.heldBytes (s : State) (p : Nat) : Nat := (s.ethPort p).hold.foldl (fun n x => n + x.data.length + 4) 0

/-- A frame joins the hold buffer of 96 KiB, or is lost where it would overflow (R350). -/
def State.ethHold (s : State) (p : Nat) (x : EthHeld) : State :=
  if 98304 < s.heldBytes p + x.data.length + 4 then s.bump (ETH_CNT_RX_OVERRUN p)
  else s.editPort p fun k => { k with hold := k.hold ++ [x] }

/-- A frame is processed, or waits behind others in arrival order: for WIRE to wake (R350), or for CIP to check it (R326, R329). -/
def State.ethQueue (s : State) (p : Nat) (x : EthHeld) : State :=
  if s.dom .wire ≠ .up || !(s.ethPort p).hold.isEmpty || s.macsecJob p x.data && s.cipHeld && !s.noLane then s.ethHold p x
  else s.ethFrame p x

/-- The frames that wait at a port are processed as far as they can be. -/
def State.ethServe (s : State) (p : Nat) : State :=
  ((s.editPort p fun k => { k with hold := [] }).each (s.ethPort p).hold) fun s x => s.ethQueue p x

/-- The frames that wait at every port are processed as far as they can be, while WIRE is up. -/
def State.ethServeAll (s : State) : State := if s.dom .wire = .up then s.each (List.range 8) State.ethServe else s

/-- A received frame starts the wake of WIRE (R350, R400). -/
def State.wireWake (s : State) : State := if s.dom .wire = .low then (s.setDom .wire .waking).bump PWR_CNT_WAKE else s

/-- A whole frame (R335): a MAC control frame is consumed and wakes nothing; any other starts the wake of WIRE, and a runt goes no
further. -/
def State.ethWhole (s : State) (p : Nat) (x : EthHeld) : State :=
  if 64 ≤ x.data.length + 4 ∧ beAt x.data 12 2 = 0x8808 then s.ethControl p x
  else
    let s := s.wireWake
    if x.data.length + 4 < 64 then s.bump (ETH_CNT_RX_RUNT p) else s.ethQueue p x

/-- The frame in reassembly is discarded and counted (R345). -/
def State.fragError (s : State) (p : Nat) : State := (s.editPort p fun k => { k with asm := none }).bump (ETH_CNT_FRAG_ERR p)

/-- An mPacket is taken (R345): a fragment joins the frame in reassembly or breaks it; the result is the frame that it completes, stamped
at its first fragment (R351). -/
def State.ethPiece (s : State) (p : Nat) (x : EthRx) : State × Option EthHeld :=
  let stamp := (s.lt + 2 ^ 64 - x.ago.toNat) % 2 ^ 64
  let more (s : State) (a : EthAsm) : State × Option EthHeld :=
    match x.check with
    | .fcs good =>
      (s.editPort p fun k => { k with asm := none }, some { express := false, data := a.data, fcs := good, stamp := a.stamp, errs := x.errs })
    | .mcrc true => (s.editPort p fun k => { k with asm := some a }, none)
    | .mcrc false => (s.fragError p, none)
  let asm := (s.ethPort p).asm
  match x.smd with
  | .express => (s, some { express := true, data := x.data, fcs := decide (x.check = .fcs true), stamp := stamp, errs := x.errs })
  | .start f =>
    if !s.on (ETH_PORT_PREEMPT_EN p) then (s.fragError p, none)
    else more (if asm.isSome then s.fragError p else s) { frame := f.toNat, count := 0, data := x.data, stamp := stamp }
  | .cont f c =>
    match asm with
    | some a =>
      if !s.on (ETH_PORT_PREEMPT_EN p) ∨ a.frame ≠ f.toNat ∨ a.count ≠ c.toNat then (s.fragError p, none)
      else more s { a with count := (a.count + 1) % 4, data := a.data ++ x.data }
    | none => (s.fragError p, none)

/-- The frames and control frames of a port's receive path, which stays powered while WIRE is in low power (R350). -/
def State.ethListens (s : State) (p : Nat) (f : State → State) : State :=
  if s.unitDark .eth then s
  else
    let s := s.portSettle p
    if s.linkUp p then f s else s

/-- ETH_FRAME_RX: an mPacket. -/
def execEthFrameRx (port : BitVec 3) (frame : EthRx) (s : State) : Host.Outcome State Fault Refusal :=
  .next <| s.ethListens port.toNat fun s =>
    match s.ethServeAll.ethPiece port.toNat frame with
    | (s, some x) => s.ethWhole port.toNat x
    | (s, none) => s

/-- PAUSE_RX. -/
def execPauseRx (port : BitVec 3) (quanta : BitVec 16) (s : State) : Host.Outcome State Fault Refusal :=
  .next (s.ethListens port.toNat fun s => s.pauseRx port.toNat quanta.toNat)

/-- PFC_RX. -/
def execPfcRx (port : BitVec 3) (enable : BitVec 8) (quanta : List (BitVec 16)) (s : State) :
    Host.Outcome State Fault Refusal :=
  .next (s.ethListens port.toNat fun s => s.pfcRx port.toNat enable.toNat (quanta.map (·.toNat)))

/-- The timer of a port that ends first. -/
def firstPause (l : Map Nat) : Option (Nat × Nat) :=
  l.foldl (fun (m : Option (Nat × Nat)) (e : Nat × Nat) => match m with
    | none => some e
    | some k => if e.2 < k.2 then some e else m) none

/-- PAUSE_TIMER_EXPIRE: the port's timer that ends first runs out, unless a newer pause that begins with the end of a frame has by then
replaced it (R346, R347). -/
def execPauseTimerExpire (port : BitVec 3) (s : State) : Host.Outcome State Fault Refusal :=
  .next <| s.datapath .eth fun s =>
    let p := port.toNat
    let s := s.portSettle p
    s.with? (firstPause (s.ethPort p).pauses) fun s e =>
      let s := (s.reach e.2).portSettle p
      s.when (decide ((s.ethPort p).pauses.lookD e.1 0 ≤ s.now)) (·.pauseSet p e.1 0 s.now)

/-! ### Transmitting (R342 to R344, R348, R353, R355) -/

/-- A frame of a port is express (R344). -/
def State.isExpress (s : State) (p pcp : Nat) : Bool :=
  !s.on (ETH_PORT_STAT_PREEMPT p) || (s.f (ETH_PORT_PREEMPT_EXPRESS p)).testBit pcp

/-- A frame begins on the wire: 8 octets of preamble and SMD, the octets that are left of it, and the FCS. -/
def State.wireStart (s : State) (p : Nat) (c : EthCur) : State :=
  let n := 8 * (8 + c.data.length - c.before + 4)
  s.editPort p fun x => { x with cur := some { c with start := s.now, ends := s.now + s.bitNs p n } }

/-- MACsec on a frame that is about to start (R355, R357): the frame as sent, or none where it is discarded and counted. -/
def State.macsecTx (s : State) (p : Nat) (d : List Byte) : State × Option (List Byte) :=
  if !s.macsecOn p then (s, some d)
  else if s.noLane then (s.inlineLost, none)
  else
    let a := s.f (ETH_MACSEC_TX_AN p)
    match s.eth.sas.look (saIndex p 0 a), s.saKey p 0 a with
    | some k, (s, some key) =>
      let xpn := s.on (ETH_MACSEC_XPN p)
      if (if xpn then 2 ^ 64 else 2 ^ 32) ≤ k.next then (s.bump (ETH_CNT_PN_EXHAUST p), none)
      else
        let s := { s with eth.sas := s.eth.sas.put (saIndex p 0 a) { k with next := k.next + 1 } }
        let high := decide (k.next = if xpn then 0xC000000000000000 else 0xC0000000)
        let s := s.when high (·.ev .eth Ev.ETH_PN_HIGH [p, a])
        (s.inlineEnd true, some (s.macsecProtect p k key d k.next))
    | some _, (s, none) => ((s.inlineEnd true).bump (ETH_CNT_MACSEC_DROP p), none)
    | none, _ => (s.bump (ETH_CNT_MACSEC_DROP p), none)

/-- A frame of the buffer starts, stamped at its first octet after the SMD, or is discarded; one with an uncorrectable word
ends with an invalid FCS (R107). While CIP starts no job, it waits (R329). -/
def State.frameStart (s : State) (p n : Nat) (f : EthFrame) (errs : List WordErr) : State :=
  if s.macsecOn p && s.cipHeld && !s.noLane then s
  else
    let s := s.editPort p fun x => { x with buffer := x.buffer.eraseIdx n }
    let lt := (s.lt + s.bitNs p 64) % 2 ^ 64
    let (s, read, bad) := s.bufferScan p 0 f.data [] errs
    let d := s.oneStep p { f with data := read } lt
    match s.macsecTx p d with
    | (s, none) => s.idleMark p
    | (s, some out) =>
      (s.stampTx p d lt).wireStart p
        { data := out, pcp := f.pcp, start := 0, ends := 0, preemptable := !s.isExpress p f.pcp, badFcs := !bad.isEmpty }

/-- What a port would send next: a control frame; unless PAUSE holds, the first express frame in the buffer whose priority is not
paused, then the preempted frame, then the first other such frame. -/
inductive EthNext where
  | ctrl (d : List Byte)
  | frame (n : Nat) (f : EthFrame)
  | resume (c : EthCur)
  | none
  deriving DecidableEq, Repr

/-- The next of a port. -/
def State.ethNext (s : State) (p : Nat) : EthNext :=
  let k := s.ethPort p
  match k.ctrl with
  | d :: _ => .ctrl d
  | [] =>
    if k.pauses.has 8 then .none
    else
      let open_ := (k.buffer.zipIdx).filter fun e => !k.pauses.has e.1.pcp
      match open_.find? fun e => s.isExpress p e.1.pcp with
      | some e => .frame e.2 e.1
      | none =>
        match k.cut with
        | some c => if k.pauses.has c.pcp then .none else .resume c
        | none => match open_ with
          | e :: _ => .frame e.2 e.1
          | [] => .none

/-- ETH_FRAME_SEND: once the wire is free, the port's next frame or continuation starts; `errs` is what the reads of its words in
the transmit buffer find. -/
def execEthFrameSend (port : BitVec 3) (errs : List WordErr) (s : State) : Host.Outcome State Fault Refusal :=
  .next <| s.datapath .eth fun s =>
    let p := port.toNat
    let s := match (s.ethPort p).cur with | some c => (s.reach c.ends).portSettle p | none => s
    if !s.linkUp p || s.on (ETH_PORT_STAT_LPI_TX p) then s
    else match s.ethNext p with
    | .none => s
    | .ctrl d =>
      ((s.reach (s.ethPort p).free).editPort p fun x => { x with ctrl := x.ctrl.drop 1 }).wireStart p
        { data := d, pcp := 7, start := 0, ends := 0, ctrl := true }
    | .resume c => ((s.reach (s.ethPort p).free).editPort p fun x => { x with cut := none }).wireStart p c
    | .frame n f => (s.reach (s.ethPort p).free).frameStart p n f errs

/-- Octets of a frame that its present fragment holds at the next end of an octet from now on. -/
def State.octetsSent (s : State) (p : Nat) (c : EthCur) : Nat :=
  ((s.now - c.start) * 1000 + 8 * s.bitPs p - 1) / (8 * s.bitPs p) - 8

/-- An express or control frame waits, or a pause applies to a priority. -/
def State.cutWanted (s : State) (p pcp : Nat) : Bool :=
  let k := s.ethPort p
  !k.ctrl.isEmpty || k.pend.has 8 || k.pend.has pcp || k.pauses.has pcp ||
    k.buffer.any fun f => s.isExpress p f.pcp && !k.pauses.has f.pcp

/-- PREEMPT_FRAGMENT_END: at the next octet at which both conditions of R344 hold; where they never do, the frame goes on. -/
def execPreemptFragmentEnd (port : BitVec 3) (s : State) : Host.Outcome State Fault Refusal :=
  .next <| s.datapath .eth fun s =>
    let p := port.toNat
    let s := s.portSettle p
    s.with? (s.ethPort p).cur fun s c =>
      let n := max (s.octetsSent p c) (64 * (1 + s.f (ETH_PORT_PREEMPT_ADDFRAG p)) - 4)
      if !c.preemptable || !s.on (ETH_PORT_STAT_PREEMPT p) || !s.cutWanted p c.pcp ||
          decide (c.data.length + 4 < c.before + n + 64) then s
      else
        let s := s.reach (c.start + s.bitNs p (8 * (8 + n + 4)))
        let piece : EthSent := { port := p, start := c.start, offset := c.before, data := (c.data.drop c.before).take n, last := false }
        let wait := (s.ethPort p).pend
        let s := { s with eth.sent := piece :: s.eth.sent }
        let s := s.editPort p fun x => { x with
          cur := none, cut := some { c with before := c.before + n }, pend := [], free := s.now + s.bitNs p 96 }
        s.each wait fun s e => s.pauseSet p e.1 e.2 s.now

/-- XOFF_REACHED: in PAUSE and PFC mode. -/
def execXoffReached (port : BitVec 3) (s : State) : Host.Outcome State Fault Refusal :=
  .next <| s.datapath .eth fun s =>
    let p := port.toNat
    if !s.linkUp p || decide (s.fcMode p = 0) || (s.ethPort p).xoff || decide (s.portCells p < s.f (ETH_PORT_FC_THR_XOFF p)) then s
    else (s.editPort p fun x => { x with xoff := true }).pauseMake p (s.f (ETH_PORT_FC_QUANTA p))

/-- PAUSE_REPEAT: QUANTA / 2 quanta after the last. -/
def execPauseRepeat (port : BitVec 3) (s : State) : Host.Outcome State Fault Refusal :=
  .next <| s.datapath .eth fun s =>
    let p := port.toNat
    let q := s.f (ETH_PORT_FC_QUANTA p)
    if !s.linkUp p || !(s.ethPort p).xoff || decide (s.fcMode p = 0 ∨ s.portCells p < s.f (ETH_PORT_FC_THR_XON p)) then s
    else (s.reach ((s.ethPort p).pausedAt + s.bitNs p (256 * q))).pauseMake p q

/-- XON_REACHED. -/
def execXonReached (port : BitVec 3) (s : State) : Host.Outcome State Fault Refusal :=
  .next <| s.datapath .eth fun s =>
    let p := port.toNat
    if !(s.ethPort p).xoff || decide (s.f (ETH_PORT_FC_THR_XON p) ≤ s.portCells p) then s
    else
      let s := s.editPort p fun x => { x with xoff := false }
      s.when (decide (s.fcMode p ≠ 0)) (·.pauseMake p 0)

/-! ### Energy-efficient Ethernet (R349) -/

/-- LPI_ENTER: the transmit side after IDLE µs without anything to send; the receive side as the partner signals it. -/
def execLpiEnter (port : BitVec 3) (side : EthSide) (s : State) : Host.Outcome State Fault Refusal :=
  .next <|
    let p := port.toNat
    match side with
    | .rx => s.ethListens p fun s => s.up (ETH_PORT_STAT_LPI_RX p)
    | .tx => s.datapath .eth fun s =>
      let s := s.portSettle p
      let k := s.ethPort p
      if !s.linkUp p || !s.on (ETH_PORT_EEE_EN p) || !portIdle k || s.on (ETH_PORT_STAT_LPI_TX p) then s
      else (s.reach (k.idleSince + 1000 * max 1 (s.f (ETH_PORT_EEE_IDLE p)))).up (ETH_PORT_STAT_LPI_TX p)

/-- LPI_EXIT: a frame waits, and the wire is free TW later; or the partner has left LPI. -/
def execLpiExit (port : BitVec 3) (side : EthSide) (s : State) : Host.Outcome State Fault Refusal :=
  .next <|
    let p := port.toNat
    match side with
    | .rx => s.ethListens p fun s => s.down (ETH_PORT_STAT_LPI_RX p)
    | .tx => s.datapath .eth fun s =>
      if !s.on (ETH_PORT_STAT_LPI_TX p) || portIdle (s.ethPort p) then s
      else (s.down (ETH_PORT_STAT_LPI_TX p)).editPort p fun x => { x with free := s.now + 100 * max 50 (s.f (ETH_PORT_EEE_TW p)) }

/-! ### Link and verification (R333, R334, R343) -/

/-- LINK_UP: the speed counts where the PHY reports it. -/
def execLinkUp (port : BitVec 3) (speed : BitVec 3) (s : State) : Host.Outcome State Fault Refusal :=
  .next <| s.datapath .eth fun s =>
    let p := port.toNat
    let mode := s.f (ETH_PORT_CFG_MODE p)
    if s.linkUp p || !s.on (ETH_PORT_CFG_EN p) || !s.ready .eth || decide (3 < mode ∨ (mode = 0 ∧ 4 ≤ p)) then s
    else
      let v := match mode with | 0 => 4 | 1 => 3 | 2 => min speed.toNat 3 | _ => 0
      let s := (s.up (ETH_PORT_STAT_LINK p)).set (ETH_PORT_STAT_SPEED p) v
      (s.editPort p fun x => { x with free := s.now, idleSince := s.now }).preemptStart p

/-- The link of a port goes down. -/
def State.linkDown (s : State) (p : Nat) : State :=
  if !s.linkUp p then s
  else
    let k := s.ethPort p
    let frame (c : Option EthCur) : Nat := match c with | some c => if c.ctrl then 0 else 1 | none => 0
    let s := s.bump (ETH_CNT_TX_LINKDOWN p) (k.buffer.length + frame k.cur + frame k.cut)
    let s := (s.editPort p fun x => { stamps := x.stamps, hold := x.hold }).pauseSync p
    let s := ((s.down (ETH_PORT_STAT_LINK p)).set (ETH_PORT_STAT_SPEED p) 0).down (ETH_PORT_STAT_LPI_TX p)
    let s := ((s.down (ETH_PORT_STAT_LPI_RX p)).set (ETH_PORT_STAT_VERIFY p) 0).down (ETH_PORT_STAT_PREEMPT p)
    s.neighbourLost p

/-- LINK_DOWN. -/
def execLinkDown (port : BitVec 3) (s : State) : Host.Outcome State Fault Refusal :=
  .next (s.datapath .eth fun s => (s.portSettle port.toNat).linkDown port.toNat)

/-- VERIFY_SEND: a verify mPacket, or the end of the process after 3 attempts without an answer. -/
def execVerifySend (port : BitVec 3) (s : State) : Host.Outcome State Fault Refusal :=
  .next <| s.datapath .eth fun s =>
    let p := port.toNat
    let k := s.ethPort p
    let ms := max 1 (min 128 (s.f (ETH_PORT_PREEMPT_VERIFY_MS p)))
    if s.f (ETH_PORT_STAT_VERIFY p) ≠ 1 then s
    else
      let s := if k.tries = 0 then s else s.reach (k.verifyAt + 1000000 * ms)
      if 3 ≤ k.tries then (s.set (ETH_PORT_STAT_VERIFY p) 3).ev .eth Ev.ETH_VERIFY_FAIL [p]
      else
        let v : EthSent := { port := p, start := s.now, offset := 0, data := [], last := true, verify := true }
        { s with eth.sent := v :: s.eth.sent }.editPort p fun x => { x with tries := x.tries + 1, verifyAt := s.now }

/-- VERIFY_RESPONSE_RX. -/
def execVerifyResponseRx (port : BitVec 3) (s : State) : Host.Outcome State Fault Refusal :=
  .next <| s.datapath .eth fun s =>
    let p := port.toNat
    if s.f (ETH_PORT_STAT_VERIFY p) ≠ 1 then s else (s.set (ETH_PORT_STAT_VERIFY p) 2).up (ETH_PORT_STAT_PREEMPT p)

/-! ### Registers (R334, R337, R352) -/

/-- A read of the lowest word of `ETH_TS_FIFO` removes the oldest stamp and latches it (R6, R352): the upper words go to the
holding copy; VALID 0 where there is none. -/
def State.tsRead (s : State) (p : Nat) : State :=
  let a := (ETH_TS_FIFO_LT p).addr
  let give (s : State) (lt seq typ dom valid : Nat) : State :=
    { s with
      readData := BitVec.ofNat 32 lt
      hold := ((s.hold.put (a + 4) (BitVec.ofNat 32 (lt / 2 ^ 32))).put (a + 8)
        (BitVec.ofNat 32 (seq % 2 ^ 16 + typ % 16 * 2 ^ 16 + dom % 256 * 2 ^ 20))).put (a + 12) (BitVec.ofNat 32 (valid * 2 ^ 31)) }
  match (s.ethPort p).stamps with
  | [] => give s 0 0 0 0 0
  | (lt, seq, typ, dom) :: t => give (s.editPort p fun x => { x with stamps := t }) lt seq typ dom 1

/-- TS_FIFO_READ. -/
def execTsFifoRead (req : Req) (port : BitVec 3) (s : State) : Host.Outcome State Fault Refusal :=
  .next (s.gate .eth .operator (ETH_TS_FIFO_LT port.toNat).addr req fun s => s.tsRead port.toNat)

/-- A write of `ETH_PORT_CFG`: discarded where it changes MODE or FEC while EN is 1, or names a mode the port has not; EN 0 takes
the link down (R333, R334). -/
def State.portCfgWrite (s : State) (p : Nat) (v : Word) : State :=
  let mode := bitsOf v 30 28
  let changes := s.on (ETH_PORT_CFG_EN p) && decide (mode ≠ s.f (ETH_PORT_CFG_MODE p) ∨ bitsOf v 27 27 ≠ s.f (ETH_PORT_CFG_FEC p))
  if changes || decide (3 < mode ∨ (mode = 0 ∧ 4 ≤ p)) then s.ev .eth Ev.ETH_PORT_BUSY [p]
  else
    let s := s.wr (ETH_PORT_CFG_EN p).addr (v &&& 0xF8003FFF)
    s.when (!v.getLsbD 31) (·.linkDown p)

/-- ETH_PORT_CFG_WRITE. -/
def execEthPortCfgWrite (req : Req) (port : BitVec 3) (value : BitVec 32) (s : State) : Host.Outcome State Fault Refusal :=
  .next (s.gate .eth .operator (ETH_PORT_CFG_EN port.toNat).addr req fun s =>
    (s.portSettle port.toNat).portCfgWrite port.toNat value)

/-- A write of `ETH_PORT_PREEMPT`: discarded where it enables preemption while EXP_Q equals RX_Q (R337). -/
def State.preemptWrite (s : State) (p : Nat) (v : Word) : State :=
  if v.getLsbD 31 && decide (s.f (ETH_PORT_Q_EXP_Q p) = s.f (ETH_PORT_Q_RX_Q p)) then s.ev .eth Ev.ETH_CFG_INVALID [p]
  else
    let old := s.on (ETH_PORT_PREEMPT_EN p)
    let oldV := s.on (ETH_PORT_PREEMPT_VERIFY_EN p)
    let s := s.wr (ETH_PORT_PREEMPT_EN p).addr (v &&& 0xF000FFFF)
    s.when (v.getLsbD 31 != old || v.getLsbD 30 != oldV) (·.preemptStart p)

/-- PREEMPT_EN_WRITE. -/
def execPreemptEnWrite (req : Req) (port : BitVec 3) (value : BitVec 32) (s : State) : Host.Outcome State Fault Refusal :=
  .next (s.gate .eth .operator (ETH_PORT_PREEMPT_EN port.toNat).addr req fun s =>
    (s.portSettle port.toNat).preemptWrite port.toNat value)

/-! ### MACsec associations (R354, R355) -/

/-- The association command register of a port. -/
def saCmd (p : Nat) : CmdReg := ⟨(ETH_SA_CMD_STATE p).addr, .eth, .vendor⟩

/-- `ETH_SA_BUF` is cleared after every command. -/
def State.saBufClear (s : State) (p : Nat) : State := s.each (List.range 16) fun s i => s.wr ((ETH_SA_BUF_W0 p).addr + 4 * i) 0

/-- A command on an association: INVALID where R354 has no such operation; without a pair in service CIP ends it with
CIPHER_ERR. -/
def State.saOp (s : State) (req : Req) (p op c a : Nat) : State :=
  s.command (saCmd p) req fun s =>
    let cmd := (saCmd p).addr
    let i := saIndex p c a
    let bytes := s.regBytes (ETH_SA_BUF_W0 p).addr 64
    let s :=
      match op with
      | 1 =>
        if s.noLane then s.cmdError cmd 3
        else
          let pn := leNat ((bytes.drop 0x30).take 8)
          let k : EthSa := { salt := (bytes.drop 0x20).take 12, ssci := leNat ((bytes.drop 0x2C).take 4), next := pn, low := pn }
          let s := { s with eth.sas := s.eth.sas.put i k }
          let s := s.when (decide (c ≠ 0)) fun s => { s with eth.scis := s.eth.scis.put (16 * p + c) (leNat ((bytes.drop 0x38).take 8)) }
          (s.unbad .eth 3 (2 ^ 17 * p + (4 * c + a))).unitKey cmd (saEntry p c a)
            (bytes.take (if s.on (ETH_MACSEC_KEY256 p) then 32 else 16))
      | 2 =>
        let s := ({ s with eth.sas := s.eth.sas.del i } : State).cipRemove (saEntry p c a)
        let left := (List.range 4).any fun n => s.eth.sas.has (saIndex p c n)
        (if left then s else { s with eth.scis := s.eth.scis.del (16 * p + c) }).cmdDone cmd
      | 3 => if c = 0 then (s.set (ETH_MACSEC_TX_AN p) a).cmdDone cmd else s.cmdError cmd 2
      | _ => s.cmdError cmd 2
    s.saBufClear p

/-- SA_INSTALL. -/
def execSaInstall (req : Req) (port : BitVec 2) (sc : BitVec 4) (an : BitVec 2) (s : State) : Host.Outcome State Fault Refusal :=
  .next (s.saOp req port.toNat 1 sc.toNat an.toNat)
/-- SA_REMOVE. -/
def execSaRemove (req : Req) (port : BitVec 2) (sc : BitVec 4) (an : BitVec 2) (s : State) : Host.Outcome State Fault Refusal :=
  .next (s.saOp req port.toNat 2 sc.toNat an.toNat)
/-- SA_SET_TX. -/
def execSaSetTx (req : Req) (port : BitVec 2) (sc : BitVec 4) (an : BitVec 2) (s : State) : Host.Outcome State Fault Refusal :=
  .next (s.saOp req port.toNat 3 sc.toNat an.toNat)

end Sys2Proof.Machine
end

