-- ==== Sys2Proof/Machine/Image.lean ====
section
/-! DEFINITION. The configuration image in the NOR (R57 to R64): header, section entries, tags, the key of the tags, and what the
sections hold. -/

namespace Sys2Proof.Machine

/-! ### The image source -/

/-- The base of a bank in the NOR: A, then B (R58). -/
def bankBase (b : Bool) : Nat := if b then 0x1F00000 else 0

/-- The length of a bank (R58). -/
def bankSize : Nat := 0x1F00000

/-- The contents of the image source (R57), as the complement of each byte. -/
def State.norMem (s : State) : Memory := if s.on TOP_STRAP_CFG_SRC then s.cfg.norExt else s.cfg.nor

/-- The state with the image source's contents changed. -/
def State.editNor (s : State) (f : Memory → Memory) : State :=
  if s.on TOP_STRAP_CFG_SRC then { s with cfg.norExt := f s.cfg.norExt } else { s with cfg.nor := f s.cfg.nor }

/-- Bytes of a bank. -/
def State.imageBytes (s : State) (b : Bool) (a n : Nat) : List Byte :=
  (s.norMem.bytes (bankBase b + a) n).map fun (x : Byte) => ~~~x

/-- A little-endian field of a bank. -/
def State.imageField (s : State) (b : Bool) (a n : Nat) : Nat := leNat (s.imageBytes b a n)

/-- The learned-data area as it stands in the units. -/
def State.learnedNow (s : State) : Learned :=
  { trials := s.cfg.trials, confSeq := s.cfg.confSeq
    ofsA := s.mtm.a.stored, ofsB := s.mtm.b.stored, ofsC := s.mtm.c.stored
    replace := s.asy.replaceNvm, causes := s.asy.savedCauses, ladders := s.asy.savedLadders
    epoch := s.shf.epoch, term := s.shf.termNvm, ctr := s.sgm.ctrNvm }

/-- The learned-data area of the sampled source is the one in use (R57, R58): where the straps have chosen the other source, its
contents replace those in the units, before CFG loads anything from them. -/
def State.learnedFollow (s : State) : State :=
  let ext := s.on TOP_STRAP_CFG_SRC
  if ext = s.cfg.learnedExt then s
  else
    let l := s.cfg.learned
    { s with
      cfg.learned := s.learnedNow, cfg.learnedExt := ext
      cfg.trials := l.trials, cfg.confSeq := l.confSeq
      mtm.a.stored := l.ofsA, mtm.b.stored := l.ofsB, mtm.c.stored := l.ofsC
      asy.replaceNvm := l.replace, asy.savedCauses := l.causes, asy.savedLadders := l.ladders, asy.ladders := l.ladders
      shf.epoch := l.epoch, shf.termNvm := l.term
      sgm.ctr := min (2 ^ 32 - 1) (l.ctr + 65536), sgm.ctrNvm := min (2 ^ 32 - 1) (l.ctr + 65536) }

/-! ### The key of the image (R63) -/

/-- The tag of the derived key of the image: slot IMAGE, label "IMAGE", 128 bits. The bank is that in use at the check: bank 0 from the
reset to step 5, and that of the booted folio from then on (DESIGN CHOICE, log entry 236: the rules name no bank for the checks that
come before the folio is read). -/
def State.imageTag (s : State) : CipTag := s.cipTag 3 128 [0x49, 0x4D, 0x41, 0x47, 0x45]

/-- The key of every CMAC in the image. -/
def State.imageKey (s : State) : List Byte := s.derivedKey s.imageTag

/-- CFG asks CIP for the key of the image: a hit in the cache, or a derivation that is cached (R323). -/
def State.imageKeyAsk (s : State) : State := (s.deriveNow s.imageTag).1

/-- A tag is the CMAC of some bytes under the key of the image; none can be checked without the root. -/
def State.imageMac (s : State) (l tag : List Byte) : Bool := s.rootOk 3 && decide (cmac s.imageKey l = tag)

/-! ### Header and sections (R59 to R62) -/

/-- The section entry of R60: TYPE in byte 0, INDEX in byte 1, OFFSET in bytes 4 to 7 and LENGTH in bytes 8 to 11 of the 16 bytes at
0x20 + 16 × k. Its VERSION, in bytes 12 to 15, is for information only; the tag of R61 covers it. -/
def State.sectionEntry (s : State) (b : Bool) (k : Nat) : Nat × Nat × Nat × Nat :=
  let a := 0x20 + 16 * k
  (s.imageField b a 1, s.imageField b (a + 1) 1, s.imageField b (a + 4) 4, s.imageField b (a + 8) 4)

/-- Each TYPE once, FOLIO once for each INDEX; no two sections overlap, tags included; all within IMAGE_LEN (R62). -/
def sectionsOk (l : List (Nat × Nat × Nat × Nat)) (len : Nat) : Bool :=
  let typed (t : Nat) : Nat := (l.filter fun e => decide (e.1 = t)).length
  let folio (i : Nat) : Nat := (l.filter fun e => decide (e.1 = 4 ∧ e.2.1 = i)).length
  let ends (e : Nat × Nat × Nat × Nat) : Nat := e.2.2.1 + e.2.2.2 + 16
  decide (l.length = 10) && ([1, 2, 3, 5, 6, 7].all fun t => decide (typed t = 1)) &&
    ((List.range 4).all fun i => decide (folio i = 1)) && (l.all fun e => decide (ends e ≤ len)) &&
    (List.range 10).all fun i => (List.range i).all fun j =>
      match l[i]?, l[j]? with
      | some x, some y => decide (ends x ≤ y.2.2.1) || decide (ends y ≤ x.2.2.1)
      | _, _ => true

/-- The header of a bank, as CFG reads and validates it (R62). -/
def State.bankHdr (s : State) (b : Bool) : BankHdr :=
  let seq := s.imageField b 0x10 4
  let rb := s.imageField b 0x14 4
  { valid := decide (s.imageField b 0 4 = 0x49544C47) && decide (s.imageField b 4 2 = 3) &&
      decide (s.imageField b 6 2 = 256) && decide (s.imageField b 8 4 = 0x47030640) &&
      decide (s.imageField b 0x0C 1 ≤ s.f TOP_STEP_STEP) && decide (1 ≤ seq ∧ seq ≤ 0xFFFFFFFE) &&
      decide (s.cfg.otp ≤ rb ∧ rb ≤ 64) && sectionsOk ((List.range 10).map (s.sectionEntry b)) (s.imageField b 0x18 4) &&
      s.imageMac (s.imageBytes b 0 0xF0) (s.imageBytes b 0xF0 16)
    seq := seq
    rollback := rb }

/-- The size limit of a section by TYPE (R64). -/
def sectionLimit : Nat → Nat
  | 1 | 3 => 0x800000
  | 2 => 0x200000
  | 4 => 0x40000
  | _ => 0x100000

/-- The number of the entry of a TYPE and INDEX. An entry of another type than FOLIO whose INDEX is not 0 is never found, so that its
section counts as failed (DESIGN CHOICE, log entry 235: R62 does not test that INDEX). -/
def State.sectionFind (s : State) (b : Bool) (t i : Nat) : Option Nat :=
  (List.range 10).find? fun k => decide ((s.sectionEntry b k).1 = t ∧ (s.sectionEntry b k).2.1 = i)

/-- The bytes of a section. -/
def State.sectionBytes (s : State) (b : Bool) (t i : Nat) : List Byte :=
  match s.sectionFind b t i with
  | some k => let e := s.sectionEntry b k; s.imageBytes b e.2.2.1 e.2.2.2
  | none => []

/-- A section authenticates (R61): its tag is the CMAC over its entry, SEQUENCE and its bytes. One above its size limit does not
(DESIGN CHOICE, log entry 191). -/
def State.sectionPass (s : State) (b : Bool) (t i : Nat) : Bool :=
  match s.sectionFind b t i with
  | none => false
  | some k =>
    let e := s.sectionEntry b k
    decide (e.2.2.2 ≤ sectionLimit t) &&
      s.imageMac (s.imageBytes b (0x20 + 16 * k) 16 ++ s.imageBytes b 0x10 4 ++ s.imageBytes b e.2.2.1 e.2.2.2)
        (s.imageBytes b (e.2.2.1 + e.2.2.2) 16)

/-- The folios of a bank whose sections authenticate, as a mask (R64). -/
def State.folioMask (s : State) (b : Bool) : BitVec 4 :=
  BitVec.ofNat 4 ((List.range 4).foldl (fun n i => if s.sectionPass b 4 i then n + 2 ^ i else n) 0)

/-! ### What the sections hold (R64) -/

/-- A piece of firmware lies within the memory that it is loaded into (R372). -/
def CodeSeg.ok (c : CodeSeg) : Bool := decide (c.offset.toNat + c.bytes.length ≤ (if c.memory.val = 5 then 0x800000 else 0x80000))

/-- A rule of the EDITION section has its table's key length (R116). -/
def RuleData.ok (n : Nat) (r : RuleData) : Bool := decide (r.value.length = n) && decide (r.mask.length = (if n = 64 then 64 else 0))

/-- What a FOLIO section holds. -/
def folioOf (l : List Byte) : FolioData :=
  { words := Config.folioWords l, dramGeometry := Config.folioStatic l 0, ballFunctions := Config.folioStatic l 1
    safeLevel := Config.folioSafe l, nodes := Config.folioNodes l, shapers := Config.folioShapers l }

/-- The four folios of a bank. -/
def State.folioList (s : State) (b : Bool) : List FolioData := (List.range 4).map fun i => folioOf (s.sectionBytes b 4 i)

/-- The critical sections of a bank. -/
def State.critLoad (s : State) (b : Bool) : CritLoad :=
  { firmware := s.sectionPass b 1 0, schedule := s.sectionPass b 7 0, folioOk := s.folioMask b
    code := (Config.firmware (s.sectionBytes b 1 0)).filter CodeSeg.ok, folios := s.folioList b
    entries := Config.schedule (s.sectionBytes b 7 0), alarms := Config.alarms (s.sectionBytes b 7 0) }

/-- The deferred sections of a bank, CALIBRATION excepted. -/
def State.deferredLoad (s : State) (b : Bool) : DeferredLoad :=
  { parse := s.sectionPass b 2 0, edition := s.sectionPass b 3 0, placement := s.sectionPass b 6 0, folioOk := s.folioMask b
    program := Config.program (s.sectionBytes b 2 0), entries := (Config.entries (s.sectionBytes b 2 0)).take 256
    number := Config.edition (s.sectionBytes b 3 0)
    ternary := (Config.ternary (s.sectionBytes b 3 0)).filter (RuleData.ok 64)
    exact := (Config.exact (s.sectionBytes b 3 0)).filter (RuleData.ok 48)
    pins := Config.pins (s.sectionBytes b 6 0), folios := s.folioList b }

end Sys2Proof.Machine
end

