-- ==== Sys2Proof/Machine/Service.lean ====
section
/-! DEFINITION. What the power unit's transitions do to the radios (R403, R404). -/

namespace Sys2Proof.Machine

/-- The commands that wait on radio A's links start where the links are free. -/
def State.radioANext (s : State) : State := s.linkNext .a 0

/-- Radio A's links have reached OFF: a transition or calibration that runs ends there, and a PPDU on the air and the
commands held are abandoned. -/
def State.radioAStopped (s : State) : State :=
  let k := s.link .a 0
  if k.state = 0 then s
  else
    let s := s.with? k.tx fun s (c : TxCmd × Nat × Nat) =>
      (s.editLink .a 0 fun k => { k with tx := none }).txDead .a 0 c.1 5
    let s := s.each k.held fun s c => s.txDead .a 0 c 5
    ((s.editLink .a 0 fun k => { k with held := [], queue := k.queue.filter fun c => decide (c ≠ .go 0) }).linkReached .a 0 0).rfSync .a

end Sys2Proof.Machine
end

