-- ==== Sys2Proof/Machine/Power.lean ====
section
/-! DEFINITION. The power unit (spec/17): the 12 V input, domain wakes, device states, brown-outs, the permit sequence and
the PMBus. -/

namespace Sys2Proof.Machine

/-! ### The 12 V input (R398) -/

/-- PWR_VIN_LOW: below 10.4 V for 20 µs. Logged, reported to Assay, and every permitted class becomes 4. -/
def execPwrVinLow (mv : BitVec 16) (s : State) : Host.Outcome State Fault Refusal :=
  .next <|
    if decide (mv.toNat < 10400) && s.on PWR_VIN_VALID && !s.on PWR_VIN_LOW then
      let s := ((s.set PWR_VIN_MV mv.toNat).up PWR_VIN_LOW).ev .pwr Ev.PWR_VIN_LOW [mv.toNat]
      (s.asyFault .supply .power).permitsSync
    else s

/-- VIN_LOW_CLEAR: 10 ms at or above 10.6 V. A grant still in force gives its class back (R414). -/
def execVinLowClear (mv : BitVec 16) (s : State) : Host.Outcome State Fault Refusal :=
  .next <|
    if decide (10600 ≤ mv.toNat) && s.on PWR_VIN_LOW then
      ((s.set PWR_VIN_MV mv.toNat).down PWR_VIN_LOW).permitsSync
    else s

/-- VIN_FAIL: below 9.0 V for 50 µs. A cold reset, held until 12 V is valid again; the PWM outputs are released and the
DALI ports silent, as after reset. A power cut counts as rung 4 (R432). -/
def execVinFail (mv : BitVec 16) (s : State) : Host.Outcome State Fault Refusal :=
  .next <|
    if decide (mv.toNat < 9000) && s.on PWR_VIN_VALID then
      let s := (s.coldReset false).set PWR_VIN_MV mv.toNat
      { s with asy.lastRung4 := some (s.asy.lastRung4.getD s.now) }
    else s

/-- PWR_VIN_HIGH: above 14.0 V for 20 µs. Logged and reported to Assay. -/
def execPwrVinHigh (mv : BitVec 16) (s : State) : Host.Outcome State Fault Refusal :=
  .next <|
    if decide (14000 < mv.toNat) && s.on PWR_VIN_VALID && !s.on PWR_VIN_HIGH then
      (((s.set PWR_VIN_MV mv.toNat).up PWR_VIN_HIGH).ev .pwr Ev.PWR_VIN_HIGH [mv.toNat]).asyFault .supply .power
    else s

/-- VIN_HIGH_CLEAR: 10 ms at or below 13.8 V. -/
def execVinHighClear (mv : BitVec 16) (s : State) : Host.Outcome State Fault Refusal :=
  .next <|
    if decide (mv.toNat ≤ 13800) && s.on PWR_VIN_HIGH then (s.set PWR_VIN_MV mv.toNat).down PWR_VIN_HIGH else s

/-! ### Domain wakes (R400) -/

/-- DOMAIN_WAKE_DEMAND: a demand reaches a domain in low power and its wake starts, counted; demands that arrive during
a wake share it; a demand for a domain that is up restarts its idle time. -/
def execDomainWakeDemand (dom : Dom) (s : State) : Host.Outcome State Fault Refusal :=
  .next <| match s.dom dom with
    | .low => (s.setDom dom .waking).bump PWR_CNT_WAKE
    | .up => { s with pwr.idleSince := s.pwr.idleSince.put dom.num s.now }
    | .waking | .unpowered => s

/-! ### Device states (R404) -/

/-- The command register of the device state. -/
def pwrStateCmd : CmdReg := ⟨PWR_STATE_CMD_STATE.addr, .pwr, .operator⟩

/-- The device leaves OFF for a state: steps 3 to 10 run as after a warm device reset, and the state is taken at their
end (R404). -/
def State.leaveOff (s : State) (target : Nat) : State :=
  { s.restart false with pwr.transition := some { target := target }, cfg.resumeStandby := false }

/-- A write of TARGET to `PWR_STATE_CMD` (R404): SAME where the device is in that state, INVALID for STANDBY in OFF; else
the transition starts and the command runs until it ends. -/
def State.targetOp (s : State) (req : Req) (target : Nat) : State :=
  s.command pwrStateCmd req fun s =>
    let cur := s.f PWR_STATE_STATE
    if s.pwr.transition.isSome then s.cmdBusy pwrStateCmd.addr
    else if target = cur then s.cmdDone pwrStateCmd.addr 2
    else if cur = 3 then
      if target = 2 then s.cmdError pwrStateCmd.addr 3
      else (s.leaveOff target).cmdIs pwrStateCmd.addr 1 0
    else
      let s := (s.beginTransition target).cmdIs pwrStateCmd.addr 1 0
      let s := s.when (decide (cur = 2) && decide (target < 2)) State.wakeAll
      s.radioANext

/-- TARGET_FULL (R404). -/
def execTargetFull (req : Req) (s : State) : Host.Outcome State Fault Refusal := .next (s.targetOp req 0)

/-- TARGET_REDUCED (R404). -/
def execTargetReduced (req : Req) (s : State) : Host.Outcome State Fault Refusal := .next (s.targetOp req 1)

/-- TARGET_STANDBY (R404). -/
def execTargetStandby (req : Req) (s : State) : Host.Outcome State Fault Refusal := .next (s.targetOp req 2)

/-- TARGET_OFF (R404). -/
def execTargetOff (req : Req) (s : State) : Host.Outcome State Fault Refusal := .next (s.targetOp req 3)

/-- A transition ends: STATE changes and the command is done (R404, R493). -/
def State.endTransition (s : State) (target : Nat) : State :=
  let s := { s with pwr.transition := none }.set PWR_STATE_STATE target
  let s := s.when (decide (s.f PWR_STATE_CMD_STATE = 1)) (·.cmdDone pwrStateCmd.addr)
  ((s.aonSync.permitsSync).rfSync .a).rfSync .b

/-- STATE_TRANSITION_DONE (R404): in STANDBY every sleeping domain is in low power, in OFF every one is unpowered and its
state lost; a device that leaves STANDBY has every domain up. Leaving OFF ends with start-up (BOOT_COMPLETE). -/
def execStateTransitionDone (s : State) : Host.Outcome State Fault Refusal :=
  .next <| match s.pwr.transition with
    | none => s
    | some t =>
      if s.f PWR_STATE_STATE = 3 then s
      else
        let s := s.when (decide (2 ≤ t.target) || (decide (t.target = 1) && decide (s.f PWR_REDUCED_CHAINS_A = 0)))
          State.radioAStopped
        let s := s.when (decide (t.target = 2)) fun s => s.each Dom.all fun s d => s.setDom d .low
        let s := s.when (decide (t.target = 3)) State.unpower
        let s := s.when (decide (t.target < 2)) State.wakeAll
        s.endTransition t.target

/-- A wake event (R404, R405): it abandons an entry to STANDBY or OFF that runs (WOKEN), leaves STANDBY or OFF for RETURN,
and elsewhere does `awake`. OFF ends by WAKE_N alone. -/
def State.wakeEvent (s : State) (wakeN : Bool) (awake : State → State) : State :=
  let cur := s.f PWR_STATE_STATE
  let back := s.f PWR_STATE_RETURN
  match s.pwr.transition with
  | some t =>
    if decide (t.target < 2) then s
    else
      let s := { s with pwr.transition := none }
      let s := (s.when (decide (s.f PWR_STATE_CMD_STATE = 1)) (·.cmdError pwrStateCmd.addr 5)).wakeAll
      if cur = 2 then s.beginTransition back else s.permitsSync
  | none =>
    if cur = 3 then if wakeN then s.leaveOff back else s
    else if cur = 2 then (s.beginTransition back).wakeAll
    else awake s

/-- WAKE_N_ASSERT (R405, R464): WAKE_N is asserted; a wake source while `PWR_WAKE_CFG.WAKE_N_EN` is 1 and the input is
not stuck. -/
def execWakeNAssert (s : State) : Host.Outcome State Fault Refusal :=
  .next <|
    if s.on PWR_WAKE_CFG_WAKE_N_EN && decide (s.f FLD_WAKE_CFG_STATE ≠ 1) then s.wakeEvent true id else s

/-- The listener is enabled and its domain is in low power (R405). -/
def State.listens (s : State) : Listener → Bool
  | .port n => decide ((s.f PWR_WAKE_CFG_PORTS).testBit n.toNat) && decide (s.dom .wire = .low)
  | .radioB l => decide ((s.f PWR_WAKE_CFG_RFB).testBit l.toNat) && decide (s.dom .rfb = .low)
  | .radioA => s.on PWR_WAKE_CFG_RFA && decide (s.dom .rfa = .low) && decide (s.f PWR_STATE_STATE < 2)
  | .subGhz => s.on PWR_WAKE_CFG_SG_EN && decide (s.dom .rfc = .low)

/-- The domain of a listener (R405). -/
def listenerDom : Listener → Dom
  | .port _ => .wire
  | .radioB _ => .rfb
  | .radioA => .rfa
  | .subGhz => .rfc

/-- WAKE_LISTENER_EVENT (R405): the event wakes the listener's domain, and in STANDBY the device; the frame that caused
it is not delivered. A wired event wakes CORE beside WIRE (R402). -/
def execWakeListenerEvent (listener : Listener) (s : State) : Host.Outcome State Fault Refusal :=
  .next <|
    if s.listens listener then
      s.wakeEvent false fun s =>
        let s := s.wake (listenerDom listener)
        s.when (decide (listenerDom listener = .wire) && decide (s.dom .core = .low)) (·.wake .core)
    else s

/-! ### Brown-outs (R406, R407) -/

/-- PWR_BROWNOUT: while the low-power mode is in force its limit is reached. The regulator leaves the mode, the field
outputs are latched, and the 4th brown-out within an hour locks the mode out. -/
def execPwrBrownout (s : State) : Host.Outcome State Fault Refusal :=
  .next <|
    if s.on PWR_AON_CTL_LP_ACTIVE then
      let inWindow := match s.pwr.brownStart with | some t => decide (s.now < t + 3600000000000) | none => false
      let n := if inWindow then min 7 (s.f PWR_AON_CTL_BROWNOUTS + 1) else 1
      let s := { s with
        pwr.brownStart := if inWindow then s.pwr.brownStart else some s.now
        fld.latched := some (s.fld.pwm, s.on FLD_STATUS_FAULT, s.on FLD_STATUS_REPLACE) }
      let s := ((s.down PWR_AON_CTL_LP_ACTIVE).set PWR_AON_CTL_BROWNOUTS n).ev .pwr Ev.PWR_BROWNOUT [n]
      let s := s.bump PWR_CNT_BROWNOUT
      s.when (decide (n = 4)) fun s => (s.up PWR_AON_CTL_LP_LOCK).ev .pwr Ev.PWR_LP_LOCK
    else s

/-- BROWNOUT_LATCH_RELEASE: the AON rail is back at 97 % and the outputs follow their units again. -/
def execBrownoutLatchRelease (s : State) : Host.Outcome State Fault Refusal :=
  .next { s with fld.latched := none }

/-! ### The permit sequence (R410 to R414) -/

/-- A request may start (R410). -/
def State.mayRequest (s : State) (r : Radio) : Bool :=
  let p := s.permit r
  s.on PWR_PMBUS_CFG_EN && decide (5 ≤ s.permitTarget r) && p.req.isNone && p.retryEnd.isNone &&
    decide (s.f PWR_STATE_STATE = 0)

/-- A failure of the PMBus ends the operation that the transaction served (R409). -/
def State.pmbErr (s : State) (code : Nat) : State := s.ev .pwr Ev.PWR_PMBUS_ERR [code]

/-- A request for the target class starts with its MFR_PERMIT_REQ write (R408, R411). -/
def State.permitStart (s : State) (r : Radio) (result : BusResult) : State :=
  let c := min 7 (s.permitTarget r)
  let tag := s.pwr.nextTag
  let s := s.pmbWrite (some r.num) 0xD0 (c + 8 * tag)
  let s := { s with pwr.nextTag := (tag + 1) % 8 }
  let s := s.editPermit r fun p => { p with req := some { tag := tag, cls := c, t0 := s.now, polls := 0 }, lastAsked := c }
  let s := (s.bump PWR_CNT_PERMIT_REQ).permitSync r
  match result with
  | .ok => s
  | .nack => { s with pwr.nackPend := some (.request r) }
  | .pecTwice => (s.pmbErr 0xD0).permitDenied r 5

/-- PERMIT_REQUEST (R410, R411): a request starts where no grant is in force, or T lies above the class that the grant in
force answered. -/
def execPermitRequest (radio : Radio) (result : BusResult) (s : State) : Host.Outcome State Fault Refusal :=
  .next <|
    let above := match (s.permit radio).grant with
      | some g => decide (g.asked < s.permitTarget radio)
      | none => true
    if s.mayRequest radio && above then s.permitStart radio result else s

/-- PERMIT_RENEWAL (R412): at t0 + LEASE × 50 ms a request for the current target class starts; the grant stays. -/
def execPermitRenewal (radio : Radio) (s : State) : Host.Outcome State Fault Refusal :=
  .next <| match (s.permit radio).grant with
    | some g =>
      if s.mayRequest radio then (s.reach (g.t0 + g.lease * 50000000)).permitStart radio .ok else s
    | none => s

/-- A grant of class `g` answers the running request for class `c` (R411). -/
def State.permitGranted (s : State) (r : Radio) (q : PermitReq) (g lease : Nat) : State :=
  let s := s.editPermit r fun p => { p with
    req := none, lowered := false, release := false
    grant := some { cls := min g q.cls, asked := q.cls, t0 := q.t0, lease := lease } }
  (s.bump PWR_CNT_PERMIT_GRANT).permitSync r

/-- A page reads REVOKED: its permitted class becomes 4, the grant and a running request end, and the radio enters RETRY
(R413). -/
def State.permitRevoked (s : State) (r : Radio) : State :=
  let s := s.editPermit r fun p => { p with
    req := none, grant := none, release := false, lowered := false, retryEnd := some (s.now + 1000000000) }
  (s.ev .pwr Ev.PWR_PERMIT_REVOKED [r.num]).permitSync r

/-- PERMIT_POLL (R411): the next read of MFR_PERMIT_STATUS, 250 µs after the last. A status with another TAG counts as
PENDING; REVOKED applies to the grant in force whatever its TAG. -/
def execPermitPoll (radio : Radio) (status : PermitStatus) (result : BusResult) (s : State) :
    Host.Outcome State Fault Refusal :=
  .next <| match (s.permit radio).req with
    | none => s
    | some q =>
      let s := s.reach (q.t0 + 250000 * (q.polls + 1))
      let s := s.editPermit radio fun p => { p with req := some { q with polls := q.polls + 1 } }
      match result with
      | .nack => { s with pwr.nackPend := some (.poll radio) }
      | .pecTwice => (s.pmbErr 0xD1).permitDenied radio 5
      | .ok =>
        if status.state = 3 then s.permitRevoked radio
        else if status.tag.toNat ≠ q.tag || status.state = 0 then s
        else if status.state = 2 then s.permitDenied radio 1
        else if status.cls.toNat < 5 then s.permitDenied radio 2
        else if status.lease = 0 then s.permitDenied radio 3
        else s.permitGranted radio q status.cls.toNat status.lease.toNat

/-- PERMIT_TIMEOUT (R411): no answer by t0 + 5 ms. -/
def execPermitTimeout (radio : Radio) (s : State) : Host.Outcome State Fault Refusal :=
  .next <| match (s.permit radio).req with
    | some q => (s.reach (q.t0 + 5000000)).permitDenied radio 4
    | none => s

/-- PERMIT_RETRY_END (R411): the 1 s RETRY ends. -/
def execPermitRetryEnd (radio : Radio) (s : State) : Host.Outcome State Fault Refusal :=
  .next <| match (s.permit radio).retryEnd with
    | some t => ((s.reach t).editPermit radio fun p => { p with retryEnd := none }).permitSync radio
    | none => s

/-- A STATUS_WORD with a fault bit of the mask 0xEC3C is logged and reported to Assay (R409). -/
def State.supplyStatus (s : State) (word : Nat) : State :=
  let s := s.set PWR_SUPPLY_STATUS_W word
  s.when (decide (word &&& 0xEC3C ≠ 0)) fun s => (s.ev .pwr Ev.PWR_SUPPLY_FAULT [word]).asyFault .supply .power

/-- PMB_ALERT (R413): PWR reads STATUS_WORD and the permit status of both pages, and handles a revocation. -/
def execPmbAlert (word : BitVec 16) (statusA statusB : PermitStatus) (s : State) : Host.Outcome State Fault Refusal :=
  .next <|
    if s.on PWR_PMBUS_CFG_EN then
      let s := { s.supplyStatus word.toNat with pwr.page := some 1 }
      let s := s.when (decide (statusA.state = 3)) (·.permitRevoked .a)
      s.when (decide (statusB.state = 3)) (·.permitRevoked .b)
    else s

/-- GRANT_LEASE_END (R414): a grant reaches its end without renewal, and the permitted class becomes 4; a release that
still waits is written then. -/
def execGrantLeaseEnd (radio : Radio) (s : State) : Host.Outcome State Fault Refusal :=
  .next <| match (s.permit radio).grant with
    | some g =>
      let s := s.reach (grantEnd g)
      if (s.permit radio).release then s.permitRelease radio
      else (s.editPermit radio fun p => { p with grant := none, lowered := false }).permitSync radio
    | none => s

/-- TXOP_END_REPORT (R414): no TXOP granted at the grant's class remains, and a release that waits is written. -/
def execTxopEndReport (radio : Radio) (s : State) : Host.Outcome State Fault Refusal :=
  .next <|
    let s := s.editPermit radio fun p => { p with txops := 0 }
    let dropGrants (m : Map RfLink) : Map RfLink :=
      m.map fun (e : Nat × RfLink) => (e.1, { e.2 with txop := e.2.txop.filter fun t => decide (t.1 ≤ 4) })
    let s : State := match radio with
      | .a => { s with rfa.links := dropGrants s.rfa.links }
      | .b => { s with rfb.links := dropGrants s.rfb.links }
    if (s.permit radio).release then s.permitRelease radio else s

/-- MONITOR_READ (R409): the four monitoring reads; a failed one is logged, and fault bits of STATUS_WORD are reported. -/
def execMonitorRead (values : SupplyRead) (result : BusResult) (s : State) : Host.Outcome State Fault Refusal :=
  .next <|
    if s.on PWR_PMBUS_CFG_EN then
      match result with
      | .nack => { s with pwr.nackPend := some .monitor }
      | .pecTwice => s.pmbErr 0x79
      | .ok =>
        let s := (s.set PWR_SUPPLY_VIN_W values.vin.toNat).set PWR_SUPPLY_IIN_W values.iin.toNat
        (s.set PWR_SUPPLY_POUT_W values.pout.toNat).supplyStatus values.status.toNat
    else s

/-- A power cycle failed on the PMBus: the command ends with NACK, and a running rung 4 becomes unavailable without a
replacement request (R415, R432). -/
def State.powerCycleFailed (s : State) : State :=
  let s := s.pmbErr 0xD2
  let s := s.when (decide (s.f PWR_CMD_STATE = 1)) (·.cmdError PWR_CMD_STATE.addr 3)
  s.each Func.all fun s f =>
    if (s.ladder f).rung = some 4 then
      { s with asy.lastRung4 := none }.rungNoCycle f (s.ladder f).forced false
    else s

/-- PMBUS_NACK_RETRY (R409): 100 µs after a NACK the transaction is retried once. Where it is NACKed again, it fails, is
logged, and ends the operation that it served. -/
def execPmbusNackRetry (again : Bool) (s : State) : Host.Outcome State Fault Refusal :=
  .next <| match s.pwr.nackPend with
    | none => s
    | some op =>
      let s := { s.advance 100000 with pwr.nackPend := none }
      if again then
        match op with
        | .request r => (s.pmbErr 0xD0).permitDenied r 5
        | .poll r => (s.pmbErr 0xD1).permitDenied r 5
        | .monitor => s.pmbErr 0x79
        | .powerCycle => s.powerCycleFailed
      else if op = .powerCycle then s.when (decide (s.f PWR_CMD_STATE = 1)) (·.cmdDone PWR_CMD_STATE.addr)
      else s

/-- The command register of PWR. -/
def pwrCmd : CmdReg := ⟨PWR_CMD_STATE.addr, .pwr, .operator⟩

/-- POWER_CYCLE of `PWR_CMD` (R415): INVALID with an off time of 0, NO_PMBUS while the bus is unused; else it is logged and
written, and DONE when acknowledged. -/
def State.powerCycleOp (s : State) (req : Req) (offTime : Nat) (result : BusResult) : State :=
  s.command pwrCmd req fun s =>
    if offTime = 0 then s.cmdError pwrCmd.addr 4
    else if !s.on PWR_PMBUS_CFG_EN then s.cmdError pwrCmd.addr 2
    else
      let s := (s.powerCycleWrite offTime).cmdIs pwrCmd.addr 1 0
      match result with
      | .ok => s.cmdDone pwrCmd.addr
      | .nack => { s with pwr.nackPend := some .powerCycle }
      | .pecTwice => s.powerCycleFailed

/-- POWER_CYCLE (R415). -/
def execPowerCycle (req : Req) (offTime : BitVec 8) (result : BusResult) (s : State) :
    Host.Outcome State Fault Refusal :=
  .next (s.powerCycleOp req offTime.toNat result)

end Sys2Proof.Machine
end

