-- ==== Sys2Proof/Machine/RfcOps.lean ====
section
/-! DEFINITION. Radio C (spec/10): its span and rate profiles, reception, transmit commands, calibration and tuners. -/

namespace Sys2Proof.Machine

/-! ### Span and profiles (R241 to R245) -/

/-- The active span as one number: LO side, spacing and centre. -/
def State.span (s : State) : Nat := (s.rd RFC_SPAN_ACT_CENTRE.addr).toNat

/-- The staged span. -/
def State.spanStaged (s : State) : Nat := (s.rd RFC_SPAN_CENTRE.addr).toNat

/-- 400 kHz spacing is active. -/
def State.wide (s : State) : Bool := s.on RFC_SPAN_ACT_SPACING

/-- A span word's centre of channel k in kHz (R241). -/
def chanCentre (span k : Nat) : Nat :=
  let c := span % 2 ^ 20
  if span / 2 ^ 30 % 2 = 1 then c - 6200 + 400 * k else c - 6300 + 200 * k

/-- A profile allowed at a spacing (R244). -/
def profileOk (wide : Bool) (p : Nat) : Bool := [0, 1, 2, 6].contains p || (wide && [3, 4, 5, 7, 8].contains p)

/-- The bit rate of a profile in b/s (R244). -/
def bitRate : Nat → Nat
  | 0 => 50000 | 1 => 50000 | 2 => 100000 | 3 => 100000 | 4 => 150000 | 5 => 200000 | 6 => 200000 | 7 => 200000 | _ => 400000

/-- The time of `n` octets at a profile, in ns, rounded up. -/
def octetTime (p n : Nat) : Nat := (n * 8000000000 + bitRate p - 1) / bitRate p

/-- Preamble octets sent (R247). -/
def State.preamble (s : State) : Nat := max 4 (s.f RFC_TX_CFG_PREAMBLE)

/-- The duration of preamble and SFD at a profile: T_shr. -/
def State.shr (s : State) (p : Nat) : Nat := octetTime p (s.preamble + 2)

/-- The on-air time of a PSDU of `n` octets: preamble, SFD, PHR and PSDU. -/
def State.airtime (s : State) (p n : Nat) : Nat := octetTime p (s.preamble + 4 + n)

/-- A channel. -/
def State.chan (s : State) (k : Nat) : RfcChan := s.rfc.chans.lookD k {}

/-- A channel changed. -/
def State.editChan (s : State) (k : Nat) (f : RfcChan → RfcChan) : State :=
  { s with rfc.chans := s.rfc.chans.put k (f (s.chan k)) }

/-- The configuration that a channel receives under. -/
def State.chanCfg (s : State) (k : Nat) : Word := (s.chan k).old.getD (s.rd (RFC_CH_CFG_EN k).addr)

/-- The profile of rate-set entry n, where it is valid (R245). -/
def State.entryProfile (s : State) (k n : Nat) : Option Nat :=
  let w := s.chanCfg k
  let p := bitsOf w (4 * n + 3) (4 * n)
  if w.getLsbD (16 + n) && profileOk s.wide p then some p else none

/-- The entry that stands for an entry's code: two valid entries with the same code act as one, the lower (R245). -/
def State.entryOf (s : State) (k n : Nat) : Nat :=
  ((List.range 4).find? fun m => decide (s.entryProfile k m = s.entryProfile k n)).getD n

/-- The end of the calibration slot's work, while it runs (R258, R261). -/
def State.workEnd (s : State) : Nat := match s.rfc.work with | some (_, e) => e | none => 0
def State.atWork (s : State) : Bool := decide (s.now < s.workEnd)

/-- The radio is in CAL: its image calibration runs (R258), or start-up's step 9 does (R72). -/
def State.inCal (s : State) : Bool :=
  s.calBoot || match s.rfc.work with | some (c, _) => decide (s.now < c) | none => false

/-- The radio receives. -/
def State.rfcRx (s : State) : Bool :=
  decide (s.rfc.state = 3) && s.rfc.trans.isNone && s.rfc.tx.isNone && s.rfc.retune.isNone && !s.atWork

/-- A channel is received (R241, R245). -/
def State.chanUp (s : State) (k : Nat) : Bool :=
  s.rfcRx && (s.chanCfg k).getLsbD 31 && decide (k < (if s.wide then 32 else 64)) &&
    !(s.w RFC_CH_LOST_LOST).testBit k && !s.bad.contains (.rfc, 2, k)

/-- A channel's entries whose profile is not valid are logged (R245). -/
def State.profileLog (s : State) (k : Nat) : State :=
  let w := s.rd (RFC_CH_CFG_EN k).addr
  let wrong := (List.range 4).any fun n => w.getLsbD (16 + n) && !profileOk s.wide (bitsOf w (4 * n + 3) (4 * n))
  s.when (wrong && decide (k < (if s.wide then 32 else 64))) (·.ev .rfc Ev.RFC_BAD_PROFILE [k])

/-- `RFC_CH_CFG_k`, which held `old`, has been written: a frame in progress goes on under the old value (R245). -/
def State.chCfgWritten (s : State) (k : Nat) (old : Word) : State :=
  let s := s.editChan k fun c => if c.frame.isSome then { c with old := some (c.old.getD old) } else { c with pre := none }
  (s.unbad .rfc 2 k).profileLog k

/-- A write of `RFC_CH_CFG_k`. -/
def State.chCfgWrite (s : State) (k : Nat) (data : Word) : State :=
  let a := (RFC_CH_CFG_EN k).addr
  (s.wr a (data &&& 0xC00FFFFF#32)).chCfgWritten k (s.rd a)

/-! ### Reception (R246 to R252) -/

/-- A frame ends: its report goes to SGM and its channel searches again. -/
def State.rxReport (s : State) (k : Nat) (f : RxFrame) (status : Nat) (psdu : List Byte) : State :=
  let (dw, len) := f.phr.getD (false, 0)
  let r : RxReport :=
    { channel := k, profile := f.profile, port := f.port, status := status, dw := dw, length := len, rssi := f.rssi
      fofs := f.fofs, mt := f.mt, lt := f.lt, acc := f.acc, last := s.lt, psdu := psdu }
  let s := { s with rfc.reports := s.rfc.reports ++ [r], rfc.recent := ((k, f.lt, s.lt) :: s.rfc.recent).take 64 }
  s.editChan k fun _ => {}

/-- The receiver stops: every frame in progress is reported in ascending channel order (R243, R254). -/
def State.rxStop (s : State) (status : Nat) (c : Wide) : State :=
  s.each s.rfc.chans fun s e =>
    match e.2.frame with
    | some f => (s.rxReport e.1 f status []).bump c
    | none => s.editChan e.1 fun _ => {}

/-- Frames in progress end for another reason than a transmission. -/
def State.rxAbort (s : State) : State := s.rxStop 4 RFC_CNT_RX_ABORT_OTHER

/-! ### States (R253) -/

/-- The state that `RFC_STATE` shows (R253, coded as R218). -/
def State.rfcShown (s : State) : Nat := if s.inCal then 5 else if s.rfc.tx.isSome then 4 else s.rfc.state

/-- `RFC_STATE` follows the radio. -/
def State.rfcSync (s : State) : State := s.set RFC_STATE_STATE s.rfcShown

/-- The state registers of the radios follow the begin and the end of start-up's calibration (R218, R253). -/
def State.calShow (s : State) : State := (((s.editLink .a 0 id).editLink .b 0 id).editLink .b 1 id).rfcSync

/-- The time of a transition in ns (R253). -/
def rfcTime (cur target : Nat) : Nat :=
  if cur = target then 0
  else if target ≤ 1 then 1000
  else (match cur with | 0 => 100000 | 1 => 30000 | 2 => 0 | _ => 1000) + (if target = 3 then 10000 else 0)

/-- A transmit command ends without its frame: its status goes to SGM. -/
def State.rfcAnswer (s : State) (status : Nat) (level : Int) (us : Nat) : State :=
  { s with rfc.answers := (status, level, us) :: s.rfc.answers }

/-- The next state command starts, after what the calibration slot runs. -/
def State.rfcNext (s : State) : State :=
  match s.rfc.queue with
  | [] => s
  | t :: rest =>
    if s.rfc.trans.isSome || s.rfc.tx.isSome || s.rfc.retune.isSome then s
    else
      let s := { s with rfc.queue := rest }
      let s := s.when (decide (t ≠ 3)) State.rxAbort
      let s := if t ≤ 1 then { s.each s.rfc.txq (fun s c => s.rfcAnswer 4 c.level 0) with rfc.txq := [] } else s
      { s with rfc.trans := some (t, max s.now s.workEnd + rfcTime s.rfc.state t) }

/-! ### Tuners (R260 to R262) -/

/-- The setting stored for a port and the active span. -/
def State.tuning (s : State) (p : Nat) : Option (Nat × Nat) :=
  (s.rfc.tuned.find? fun t => decide (t.1 = p) && decide (t.2.1 = s.span)).map fun t => t.2.2

/-- `RFC_PORT_STAT_p` shows the setting in use. -/
def State.portSync (s : State) (p : Nat) : State :=
  let t := s.tuning p
  ((s.put (RFC_PORT_STAT_TUNED p) t.isSome).set (RFC_PORT_STAT_SERIES p) (t.getD (0, 0)).1).set (RFC_PORT_STAT_SHUNT p)
    (t.getD (0, 0)).2

/-- A tune pass is due on a port. -/
def State.tuneAsk (s : State) (p : Nat) : State :=
  if s.rfc.tuneDue.contains p then s else { s with rfc.tuneDue := s.rfc.tuneDue ++ [p] }

/-- A port's VSWR is measured, in 1/16: the mean of the last 4, here four times it, decides CUT, above 4 and at 3.5 or below, and
TUNE_FAULT, above 3.01 (R260). -/
def State.portVswr (s : State) (p v : Nat) : State :=
  let l := (v :: s.rfc.vswr.lookD p [16, 16, 16, 16]).take 4
  let s := { s with rfc.vswr := s.rfc.vswr.put p l }
  let sum := l.foldl (· + ·) 0
  let s := s.set (RFC_PORT_STAT_VSWR p) (min 0xFFF (sum / 4))
  let s := if 256 < sum then s.up (RFC_PORT_STAT_CUT p) else if sum ≤ 224 then s.down (RFC_PORT_STAT_CUT p) else s
  if 301 * 64 < 100 * sum ∧ !s.on (RFC_PORT_STAT_TUNE_FAULT p) then
    (((s.up (RFC_PORT_STAT_TUNE_FAULT p)).ev .rfc Ev.RF_MISMATCH [p, sum / 4]).bump RFC_CNT_TUNE_FAULT).tuneAsk p
  else s

/-! ### Activating a span (R243, R258, R261) -/

/-- The staged span becomes active: the receiver stops and the synthesiser retunes; a span without a stored correction or
setting makes its calibration and tune passes due. -/
def State.spanApply (s : State) (cmd : Bool) : State :=
  let s := s.rxAbort
  let s := s.wr RFC_SPAN_ACT_CENTRE.addr (s.rd RFC_SPAN_CENTRE.addr)
  let s := s.when (!s.rfc.stored.contains s.span) (·.up RFC_CAL_STAT_DUE)
  let s := s.each [0, 1] fun s p => (s.when (s.tuning p).isNone (·.tuneAsk p)).portSync p
  let s := s.each (List.range 64) State.profileLog
  if s.rfc.state = 2 ∨ s.rfc.state = 3 then { s with rfc.retune := some (max s.now s.workEnd + 80000, cmd) }
  else s.when cmd (·.cmdDone RFC_CMD_STATE.addr)

/-! ### Transmit commands (R255 to R257) -/

/-- The level limit of R257 in 0.5 dBm. -/
def State.txMax (s : State) : Int := max (-20) (min 54 (sx 8 (s.f RFC_TX_CFG_MAX)))

/-- The level that a frame is sent at. -/
def State.txLevel (s : State) (c : RfcTx) : Int :=
  min c.level s.txMax - (if s.on (RFC_PORT_STAT_CUT c.port) then 12 else 0)

/-- The radio can start a frame now. -/
def State.txReady (s : State) : Bool :=
  decide (s.rfc.state = 2 ∨ s.rfc.state = 3) && s.rfc.trans.isNone && s.rfc.tx.isNone && s.rfc.retune.isNone && !s.calBoot

/-- The earliest LT of a frame's first symbol after the last one, 40 µs after it where channel or port changes, and after what commands
were held for (R256). -/
def State.txFrom (s : State) (c : RfcTx) : Nat :=
  max s.rfc.freeAt (match s.rfc.lastTx with
    | some (e, k, p) => if k = c.channel ∧ p = c.port then e else e + 40000
    | none => 0)

/-- What commands were held for has ended: the first may start after the IDLE→TX time of R219 (R224, R256). -/
def State.heldFree (s : State) : State := { s with rfc.freeAt := s.lt + 4000 }

/-- The command whose start comes first. -/
def State.txFirst (s : State) : Option RfcTx :=
  s.rfc.txq.foldl (fun (m : Option RfcTx) c => match m with
    | none => some c
    | some k => if c.start < k.start then some c else some k) none

/-- A command leaves those that wait. -/
def State.txDrop (s : State) (c : RfcTx) : State :=
  { s with rfc.txq := s.rfc.txq.filter fun (x : RfcTx) => decide (x.id ≠ c.id) }

/-- A command is submitted; a third one that waits is refused with BUSY (R256), and one for a radio in OFF or SLEEP ends
with ABANDONED. The result says whether it was taken. -/
def State.rfcSubmit (s : State) (c : RfcTx) : State × Bool :=
  let rising := match s.rfc.trans with | some (t, _) => decide (2 ≤ t) | none => false
  if s.rfc.state ≤ 1 ∧ !rising then (s.rfcAnswer 4 c.level 0, false)
  else if 2 ≤ s.rfc.txq.length then (s.rfcAnswer 3 c.level 0, false)
  else
    let id := s.rfc.nextId
    ({ s with rfc.txq := s.rfc.txq ++ [{ c with id := id }], rfc.nextId := id + 1 }, true)

/-- LT from which the radio could start a command: after the frame on the air and its turn, a transition, a retune. -/
def State.txFree (s : State) (c : RfcTx) : Nat :=
  let ahead (t : Nat) : Nat := s.lt + (t - s.now)
  let a := match s.rfc.tx with
    | some (d, start, air, _) => ahead (start + air) + (if d.channel = c.channel ∧ d.port = c.port then 0 else 40000)
    | none => s.txFrom c
  let b := match s.rfc.trans with | some (_, t) => ahead t + (if s.rfc.state ≤ 1 then 4000 else 0) | none => 0
  let d := match s.rfc.retune with | some (t, _) => ahead t + 4000 | none => 0
  max a (max b d)

/-- A command that cannot start at its start time, and has to. -/
def State.txIsLate (s : State) (c : RfcTx) : Bool :=
  c.deadline && (decide (c.start < s.txFree c) || decide (c.start < s.lt))

/-- LT at which the receiver stops for the command whose start comes first: 20 µs before its first symbol (R254). -/
def State.rxEnds (s : State) : Option Nat :=
  match s.txFirst with
  | some c => if s.txReady && !s.txIsLate c then some (max (max c.start (s.txFrom c)) s.lt - 20000) else none
  | none => none

/-- The slot-frame number (R300). -/
def State.slotFrame (s : State) : Nat := s.mtm.mt / 2 ^ 19

/-- A frame starts: the receiver stops (R254). -/
def State.txBegin (s : State) (c : RfcTx) : State :=
  let s := (s.txDrop c).rxStop 3 RFC_CNT_RX_ABORT_TX
  let air := s.airtime c.profile c.psdu.length + c.extra
  ({ s with
    rfc.tx := some (c, s.now, air, s.txLevel c)
    rfc.lastCentre := s.rfc.lastCentre.put c.port (chanCentre s.span c.channel)
    rfc.lastFrame := s.rfc.lastFrame.put c.port s.slotFrame } : State).rfcSync

end Sys2Proof.Machine
end

