-- ==== Sys2Proof/Machine/SgmOps.lean ====
section
/-! DEFINITION. The sub-GHz MAC (spec/12): blocks and their times, duty budgets, frames, partners. -/

namespace Sys2Proof.Machine

/-! ### Blocks (R289 to R293) -/

/-- Block kinds. -/
def kindBeacon : Nat := 1
def kindGather : Nat := 2
def kindGack : Nat := 3
def kindUp : Nat := 4
def kindDown : Nat := 5
def kindJoin : Nat := 6

/-- An active block is enabled; one whose word is uncorrectable is not until the next plan. -/
def State.blockOn (s : State) (b : Nat) : Bool := s.on (SGM_BLOCK_ACT_EN b) && !s.bad.contains (.sgm, 2, b)
/-- KIND, FIRST, LEN of an active block. -/
def State.blockKind (s : State) (b : Nat) : Nat := s.f (SGM_BLOCK_ACT_KIND b)
def State.blockFirst (s : State) (b : Nat) : Nat := s.f (SGM_BLOCK_ACT_FIRST b)
def State.blockLen (s : State) (b : Nat) : Nat := s.f (SGM_BLOCK_ACT_LEN b)

/-- MT of a block's open in the slot frame that runs, and the width of its window in ticks. -/
def State.blockOpen (s : State) (b : Nat) : Nat := s.mtm.mt / 2 ^ 19 * 2 ^ 19 + s.blockFirst b * 4096
def State.blockWidth (s : State) (b : Nat) : Nat := s.blockLen b * 4096

/-- Ticks of MT as ns, and ns as ticks. -/
def State.nsOfTicks (s : State) (n : Nat) : Nat := if s.tickRate = 0 then 0 else n * s.tickUnit / (s.tickRate * 65536)
def State.ticksOfNs (s : State) (n : Nat) : Nat := if s.tickUnit = 0 then 0 else n * (s.tickRate * 65536) / s.tickUnit

/-- The guard G in ns. -/
def State.guard (s : State) : Nat := 1000 * max 50 (min 2000 (s.f SGM_TIMING_GUARD))

/-- The state at MT `t` of the cycle that runs, or as it is where that has passed; none where `t` lies in a later cycle. -/
def State.reachMt (s : State) (t : Nat) : Option State :=
  if t ≤ s.mtm.mt then some s
  else if t / 65536 ≠ s.mtm.mt / 65536 then none
  else some (s.advance (s.nsForTicks (t - s.mtm.mt)))

/-- The state inside a block's window, from its open on; none where the window is not reached in this cycle, or has passed
(R48, R49). -/
def State.enter (s : State) (b : Nat) : Option State :=
  if !s.blockOn b || s.sgm.suspended then none
  else (s.reachMt (s.blockOpen b)).bind fun s => if s.mtm.mt < s.blockOpen b + s.blockWidth b then some s else none

/-- LT of a block's start instant: its open + G. -/
def State.startInstant (s : State) (b : Nat) : Nat := s.lt + s.guard - s.nsOfTicks (s.mtm.mt - s.blockOpen b)

/-- The slot frames that have ended since SGM's reset, up to now (R296, R302). -/
def State.framesNow (s : State) : Nat :=
  s.sgm.frames + match s.sgm.frame with | some f => (s.slotFrame + 2 ^ 29 - f) % 2 ^ 29 | none => 0

/-- A step has skipped ticks of a window of MT (R292). -/
def State.stepCut (s : State) (opens closes : Nat) : Bool :=
  s.sgm.skips.any fun (k : Nat × Nat) => decide (k.1 < closes) && decide (opens < k.2)

/-! ### Duty budgets (R309, R310) -/

/-- A sub-band is enabled and holds a frequency. -/
def State.subHolds (s : State) (f j : Nat) : Bool :=
  s.on (SGM_SUB_LO_EN j) && decide (s.f (SGM_SUB_LO_LO j) ≤ f) && decide (f < s.f (SGM_SUB_HI_HI j))

/-- The sub-band of a channel of a span: the first enabled one that holds its centre. -/
def State.subOf (s : State) (span k : Nat) : Option Nat := (List.range 8).find? (s.subHolds (chanCentre span k))

/-- The span of a sub-band's window in s. -/
def State.subWindow (s : State) (j : Nat) : Nat :=
  if s.on (SGM_SUB_LO_MODE j) then max 1 (s.f (SGM_SUB_BUDGET_WINDOW j)) else 3600

/-- The second of the duty buckets that an LT lies in: LT less every load and step made, so that the buckets follow the reference
alone (R46, R309). -/
def State.dutySecond (s : State) (lt : Nat) : Nat := (lt - s.mtm.ltJump) / 1000000000

/-- The usage U in µs of a sub-band, and in DWELL of the channel of a centre: the buckets in [floor(t) − W, t). -/
def State.usage (s : State) (j f : Nat) : Nat :=
  let now := s.dutySecond s.lt
  s.sgm.duty.foldl (fun n (d : Nat × Nat × Nat × Nat) =>
    if d.2.1 = j ∧ (!s.on (SGM_SUB_LO_MODE j) ∨ d.2.2.1 = f ∨ d.2.2.1 = 0) ∧ now ≤ d.1 + s.subWindow j then n + d.2.2.2 else n) 0

/-- Time on air on a centre frequency is charged in the bucket of its first symbol. -/
def State.chargeAt (s : State) (f us start : Nat) : State :=
  match (List.range 8).find? (s.subHolds f) with
  | some j => { s with sgm.duty := s.sgm.duty ++ [(s.dutySecond start, j, f, us)] }
  | none => s

/-- A transmission on a channel is charged. -/
def State.charge_ (s : State) (k us start : Nat) : State := s.chargeAt (chanCentre s.span k) us start

/-- What is left of a channel's general and combined limits, in µs; nothing limits a channel of no sub-band. -/
def State.left (s : State) (k : Nat) (safe : Bool) : Option Nat :=
  (s.subOf s.span k).map fun j =>
    let b := s.f (SGM_SUB_BUDGET_B j)
    (if safe then 1000 * b else 800 * b) - s.usage j (chanCentre s.span k)

/-- A frame of an airtime in ns fits a limit. -/
def State.fits (s : State) (k air : Nat) (safe : Bool) : Bool :=
  match s.left k safe with
  | some u => decide (air ≤ 1000 * u)
  | none => true

/-- The largest PSDU that a limit allows at a profile: the octets whose time, with that of preamble, SFD and PHR, does not pass it (R310). -/
def State.airOctets (s : State) (k p : Nat) (safe : Bool) : Nat :=
  match s.left k safe with
  | some u => min 2047 (u * bitRate p / 8000000 - (s.preamble + 4))
  | none => 2047

/-- The frame of a transmit command counts against the combined limit. -/
def State.txSafe (s : State) (c : RfcTx) : Bool :=
  match c.what with
  | .down _ q _ _ _ _ | .group q _ => queueSafe (s.schQ q)
  | .other => false
  | _ => true

/-- The frame of a transmit command fits its limit (R310). -/
def State.txFits (s : State) (c : RfcTx) : Bool := s.fits c.channel (s.airtime c.profile c.psdu.length + c.extra) (s.txSafe c)

/-! ### Frames (R298, R305, R306, R311, R312) -/

/-- The key generation. -/
def State.keyGen (s : State) : Nat := s.f SGM_CTL_KEYGEN

/-- Labels of the group and beacon keys, and of a partner's key (R311). -/
def groupLabel (gen : Nat) : List Byte := [0x53, 0x47, BitVec.ofNat 8 gen]
def beaconLabel (gen : Nat) : List Byte := [0x53, 0x42, BitVec.ofNat 8 gen]
def nodeLabel (eui gen : Nat) : List Byte := [0x53, 0x4E] ++ natLe 8 eui ++ [BitVec.ofNat 8 gen]

/-- SGM has stopped transmitting protected frames: its counter came to its end in this generation (R312). -/
def State.sgmStopped (s : State) : Bool := match s.sgm.stopped with | some g => decide (g = s.keyGen) | none => decide (2 ^ 32 - 1 ≤ s.sgm.ctr)

/-- Frames can be protected: the counter goes on (R312), the DISTRICT root serves (R322), and a pair of CIP does (R330). -/
def State.protects (s : State) : Bool := !s.sgmStopped && s.rootOk 2 && !s.noLane

/-- The counter has come to its end: transmission of protected frames stops in this generation; in another it resumes from 0. -/
def State.ctrCheck (s : State) : State :=
  match s.sgm.stopped with
  | some g => if g = s.keyGen then s else { s with sgm.stopped := none, sgm.ctr := 0, sgm.ctrNvm := 0 }
  | none => if 2 ^ 32 - 1 ≤ s.sgm.ctr then { s with sgm.stopped := some s.keyGen }.ev .sgm Ev.SGM_PN_EXHAUST [] else s

/-- The next sequence number and frame counter; the counter is stored every 65,536 frames. -/
def State.sgmCount (s : State) : State :=
  let s := s.ctrCheck
  let c := s.sgm.ctr + 1
  let s := { s with sgm.seq := (s.sgm.seq + 1) % 256, sgm.ctr := c }
  (if c % 65536 = 0 then { s with sgm.ctrNvm := c } else s).ctrCheck

/-- The 32-bit FCS of a PSDU (IEEE 802.15.4: reflected CRC-32; PRESUMED, log entry 46). -/
def fcs32 (l : List Byte) : List Byte :=
  let step (c : Nat) : Nat := (List.range 8).foldl (fun c _ => if c % 2 = 1 then Nat.xor (c / 2) 0xEDB88320 else c / 2) c
  natLe 4 (Nat.xor (l.foldl (fun c b => Nat.xor (step (Nat.xor (c % 256) b.toNat)) (c / 256)) 0xFFFFFFFF) 0xFFFFFFFF)

/-- MHR and AUX of a broadcast frame: FC, SEQ, SRC, security control, counter, key index (R298). -/
def State.mhr (s : State) (fc : Nat) : List Byte :=
  natLe 2 fc ++ natLe 1 s.sgm.seq ++ natLe 2 (s.f SGM_ADDR_ADDR) ++ [0x09] ++ natLe 4 s.sgm.ctr ++ natLe 1 s.keyGen

/-- The last four octets of a PSDU inverted: an FCS that is not the frame's (R107). -/
def fcsBad (l : List Byte) : List Byte := l.take (l.length - 4) ++ (l.drop (l.length - 4)).map (~~~·)

/-- CCM* of a frame of the device's (R311), one job of CIP, under a derived DISTRICT key: the device's EUI-64, its frame counter and the
level in the nonce. The payload as encrypted, then the MIC-32. -/
def State.sgmCcm (s : State) (label : List Byte) (level counter : Nat) (aad payload : List Byte) : State × List Byte :=
  let nonce := natBe 8 (s.w SGM_EUI_EUI) ++ natBe 4 counter ++ natBe 1 level
  let (s, key) := s.deriveNow (s.cipTag 2 128 label)
  let key := key.getD []
  (s.bump CIP_CNT_JOBS, ccmApply key nonce payload ++ (ccmTag key nonce aad payload 4).take 4)

/-- A frame under the beacon key: MIC-32 over header and payload, then the FCS. -/
def State.beaconFrame (s : State) (fc : Nat) (body : List Byte) : State × List Byte :=
  let h := s.mhr fc ++ body
  let (s, mic) := s.sgmCcm (beaconLabel s.keyGen) 1 s.sgm.ctr h []
  (s, h ++ mic ++ fcs32 (h ++ mic))

/-- A frame under a partner's or the group key: header, encrypted payload, MIC, FCS. -/
def State.sealed (s : State) (label header payload : List Byte) : State × List Byte :=
  let (s, c) := s.sgmCcm label 5 s.sgm.ctr header payload
  (s, header ++ c ++ fcs32 (header ++ c))

/-- Header of a frame to a short address (R306, R300): level 5, with the key index where the group key is used. -/
def State.dataHeader (s : State) (fc dst : Nat) (group : Bool) (gen : Nat) : List Byte :=
  natLe 2 fc ++ natLe 1 s.sgm.seq ++ natLe 2 dst ++ natLe 2 (s.f SGM_ADDR_ADDR) ++ [if group then 0x0D else 0x05] ++
    natLe 4 s.sgm.ctr ++ (if group then natLe 1 gen else [])

/-- Octets that a DOWN frame has beyond its compressed packet. -/
def downOver (group : Bool) : Nat := if group then 21 else 20

/-- An Imm-Ack of a sequence number (IEEE 802.15.4). -/
def immAck (seq : Nat) : List Byte :=
  let l := natLe 2 2 ++ natLe 1 seq
  l ++ fcs32 l

/-- A frame of SGM's own is submitted to radio C. -/
def State.sgmSend (s : State) (channel profile port start : Nat) (deadline : Bool) (psdu : List Byte) (extra : Nat)
    (what : SgmTx) : State × Bool :=
  s.rfcSubmit { id := 0, channel := channel, profile := profile, port := port, level := sx 8 (s.f SGM_BEACON_LEVEL)
                start := start, deadline := deadline, dw := Config.sgmDw, psdu := psdu, extra := extra, what := what }

/-! ### Partners (R293, R296, R301 to R304) -/

/-- A partner changed. -/
def State.editNode_ (s : State) (i : Nat) (f : Node → Node) : State :=
  { s with sgm.nodes := s.sgm.nodes.edit i f }

/-- `SGM_STATUS.NODES` follows the table. -/
def State.nodesSync (s : State) : State := s.set SGM_STATUS_NODES s.sgm.nodes.length

/-- Free holdover with a bound beyond the guard: mains partners count as ADRIFT and no miss of theirs counts (R304). -/
def State.looseMains (s : State) : Bool :=
  decide (s.f MTM_STATUS_SRC = 5) && decide (s.ticksOfNs s.guard < s.holdBound)

/-- A partner is treated as ADRIFT. -/
def State.adrift (s : State) (n : Node) : Bool := decide (n.state = 1) || (!n.battery && s.looseMains)

/-- Ticks of MT from the open of a block in the report's slot frame to the report's sync: before the open where negative. -/
def State.sinceOpen (s : State) (b mt : Nat) : Int :=
  let t : Nat := (mt + 2 ^ 19 - s.blockFirst b * 4096) % 2 ^ 19
  if t < 2 ^ 18 then (t : Int) else (t : Int) - 2 ^ 19

/-- The offset of a frame in its cell from its expected sync (R293): in ns of LT, from the block's open, whose LT is the stamp's less
what MT has counted since, with the part of a tick; and in ticks of MT. -/
def State.offset (s : State) (b p : Nat) (r : RxReport) : Int × Int :=
  let d := s.sinceOpen b r.mt
  let e := s.guard + s.shr p
  let ns : Int := if s.tickRate = 0 then 0 else (d * s.tickUnit + r.acc) / (s.tickRate * 65536 : Nat)
  (ns - e, d - s.ticksOfNs e)

/-- Sync MT lies in an active block's window. -/
def State.inBlockAt (s : State) (b mt : Nat) : Bool :=
  s.blockOn b && decide (0 ≤ s.sinceOpen b mt) && decide (s.sinceOpen b mt < s.blockWidth b)

/-- A frame lies in a JOIN block. -/
def State.inJoin (s : State) (mt : Nat) : Bool :=
  (List.range 128).any fun b => decide (s.blockKind b = kindJoin) && s.inBlockAt b mt

/-- A partner's cell is a cell of the active plan: in a GATHER block, or in an EXCL_UP block (R289). -/
def State.cellStands (s : State) (n : Node) : Bool :=
  s.blockOn n.block && decide (s.blockKind n.block = kindGather ∨ s.blockKind n.block = kindUp)

/-- A report lies in the partner's cell, and whether by the widened window (R293). -/
def State.cellOf (s : State) (n : Node) (r : RxReport) : Option Bool :=
  if r.channel ≠ n.channel ∨ !s.cellStands n then none
  else if s.inBlockAt n.block r.mt then some false
  else
    let (o, _) := s.offset n.block n.profile r
    if s.adrift n ∧ -(4 * (s.guard : Int)) ≤ o ∧ o < 4 * (s.guard : Int) then some true else none

/-- LT of the close of the block that holds a report's cell, in the slot frame of that report (R297). -/
def State.closeLt (s : State) (b : Nat) (r : RxReport) : Int :=
  let left := (s.blockWidth b : Int) - s.sinceOpen b r.mt
  (r.lt : Int) + if s.tickRate = 0 then 0 else left * s.tickUnit / (s.tickRate * 65536 : Nat)

/-- An integer quotient rounded toward zero. -/
def quot (a b : Int) : Int := Int.tdiv a b

/-- D moves by a quarter of the difference (R301). -/
def learnStep (d x : Int) : Int := d + quot (x - d) 4

/-- A frame of a partner is heard: the device's acknowledgement that waits becomes its anchor, unless the frame is a retransmission of
the one it acknowledged, which shows that the partner missed it (R301). -/
def Node.ackHeard (n : Node) (seq : Nat) : Node :=
  match n.pending with
  | some (lt, q) => if q = seq then { n with pending := none } else { n with anchor := some lt, pending := none }
  | none => n

/-- A partner's drift learns from an accepted frame (R301). -/
def State.learn (s : State) (n : Node) (r : RxReport) : Node :=
  let (ns, ticks) := s.offset n.block n.profile r
  if !n.battery then { n with drift := learnStep n.drift ticks, sampled := true }
  else match n.anchor with
    | none => n
    | some a =>
      let delta := (r.lt : Int) - ns - a
      if delta < 1000000000 then n
      else
        let x := quot (ns * 256000000) delta
        { n with drift := if n.sampled then learnStep n.drift x else x, sampled := true }

/-- The predicted offset of a partner at LT t, in ns (R301). -/
def State.predicted (s : State) (n : Node) (t : Nat) : Int :=
  if !n.battery then
    (if 0 ≤ n.drift then (s.nsOfTicks n.drift.toNat : Int) else -(s.nsOfTicks (-n.drift).toNat : Int))
  else match n.anchor with
  | some a => quot (n.drift * ((t : Int) - a)) 256000000
  | none => 0

/-- A wake has been missed: three in a row change the state (R303). -/
def State.miss (s : State) (i : Nat) : State :=
  match s.sgm.nodes.look i with
  | none => s
  | some n =>
    if (!n.battery && s.looseMains) || n.state = 2 then s
    else
      let m := n.misses + 1
      if m < 3 then s.editNode_ i fun n => { n with misses := m }
      else if n.state = 0 then
        ((s.editNode_ i fun n => { n with misses := 0, state := 1 }).ev .sgm Ev.SGM_ADRIFT [i]).bump SGM_CNT_ADRIFT
      else
        (((s.editNode_ i fun n => { n with misses := 0, state := 2 }).ev .sgm Ev.SGM_LOST [i]).bump SGM_CNT_LOST).clientAsleep
          n.client true

/-- A partner is heard: it is TRACKED again, with no miss (R303). -/
def State.heard (s : State) (i : Nat) : State :=
  match s.sgm.nodes.look i with
  | none => s
  | some n =>
    let s := s.editNode_ i fun n => { n with state := 0, misses := 0, heard := true }
    s.when (decide (n.state = 2)) (·.clientAsleep n.client false)

/-- A partner is deleted (R296, R308). -/
def State.nodeDelete (s : State) (i : Nat) : State :=
  ({ s with
    sgm.nodes := s.sgm.nodes.del i
    sgm.joins := s.sgm.joins.filter fun (j : Nat × Nat) => decide (j.1 ≠ i)
    sgm.moves := s.sgm.moves.filter fun (j : Nat × Nat × Nat × Nat) => decide (j.1 ≠ i) } : State).nodesSync

/-- A partner that is still the one of an ADD changes (R296). -/
def State.editBorn (s : State) (i born : Nat) (f : Node → Node) : State :=
  match s.sgm.nodes.look i with
  | some n => if n.born = born then s.editNode_ i f else s
  | none => s

/-! ### Downlink frames (R182, R297) -/

/-- A frame that could not be sent returns to the head of its queue; its charge stands (R182). -/
def State.cellReturn (s : State) (q id : Nat) : State :=
  if (s.pkt id).isNone then s
  else ((s.editQ q fun k => { k with fifo := id :: k.fifo }).bump SCH_CNT_CELL_RETURN).schSync

/-- What follows the end of a frame of SGM's (R297, R301, R309). The packet of a frame that ended with an invalid FCS is discarded
(R107); its partner does not acknowledge it. -/
def State.sgmTxEnd (s : State) (c : RfcTx) (start air : Nat) : State :=
  let s := s.charge_ c.channel ((air + 999) / 1000) start
  let sfd := start + c.extra + s.shr c.profile
  let anchor (s : State) (i seq : Nat) : State := s.editNode_ i fun n => { n with pending := some (sfd, seq) }
  let drop (s : State) (id : Nat) : State := s.when c.badFcs fun s => (s.pktFree id).bump PKB_CNT_POISON_DROP
  match c.what with
  | .down i q id seq opens closes =>
    let born := match s.sgm.nodes.look i with | some n => n.born | none => 0
    drop { s with sgm.downs := s.sgm.downs ++
        [{ node := i, born := born, queue := q, pkt := id, ends := start + air, sfd := sfd, channel := c.channel
           profile := c.profile, seq := seq, opens := opens, closes := closes }] } id
  | .group _ id => if c.badFcs then drop s id else s.pktFree id
  | .gack acked => s.each acked fun s e => anchor s e.1 e.2
  | .ack i seq => anchor s i seq
  | .beacon | .safe | .other => s

/-- A frame of SGM's that the radio did not send (R256): a DOWN frame returns to its queue; any other is lost. -/
def State.sgmTxDead (s : State) (c : RfcTx) : State :=
  match c.what with
  | .down _ q id .. => s.cellReturn q id
  | .group q id => s.cellReturn q id
  | _ => s

/-- A frame of SGM's whose limit no longer allows it at its start (R310): a DOWN frame is deferred, an acknowledgement skipped, a beacon
or GACK logged with its block; SAFE_LEVEL waits for the next block, and Assay hears of the delay (R306). The radio ends its command
with ABANDONED. -/
def State.sgmTxOver (s : State) (c : RfcTx) : State :=
  let s := s.rfcAnswer 4 c.level 0
  match c.what with
  | .ack .. => s.bump SGM_CNT_ACK_SKIP
  | .beacon => s.ev .sgm Ev.SGM_BUDGET_SKIP [0]
  | .gack _ => s.ev .sgm Ev.SGM_BUDGET_SKIP ((s.sgm.done.head?).toList)
  | .safe => ({ s with sgm.safeLeft := s.sgm.safeLeft + 1 } : State).asyFault .safeDelay .subghz
  | _ => s.sgmTxDead c

/-- The packet that a frame carries is read while the frame is sent: whether a word of it is found uncorrectable, which ends the frame
with an invalid FCS (R105, R107). -/
def State.txRead (s : State) (c : RfcTx) (errs : List WordErr) : State × Bool :=
  match c.what with
  | .down _ _ id .. | .group _ id =>
    match s.pkt id with
    | some p => match s.pktScan id p errs with
      | (s, some k) => (s, k.poison)
      | (s, none) => (s, true)
    | none => (s, false)
  | _ => (s, false)

/-! ### Received frames (R295, R307, R311) -/

/-- The source of a frame: a short address or an EUI-64. -/
inductive SgmSource where
  | short (a : Nat)
  | eui (a : Nat)
  deriving DecidableEq, Repr

/-- What the headers of a received PSDU say: its source, sequence number, security level and key identifier mode, frame counter; the
header with AUX as the cipher authenticates it; the payload and the MIC as they came. -/
structure SgmFrame where
  source : SgmSource
  seq : Nat
  kind : Nat
  level : Nat
  keyMode : Nat
  counter : Nat
  header : List Byte
  payload : List Byte
  mic : List Byte
  deriving DecidableEq, Repr

/-- Octets of an address of an addressing mode. -/
def addrLen : Nat → Nat | 2 => 2 | 3 => 8 | _ => 0

/-- The headers of a PSDU without PAN identifiers and with the 4-octet MIC that every frame of R298 and R311 has (log entry 244): none
where it has no source or is not protected. -/
def sgmParse (l : List Byte) : Option SgmFrame :=
  let fc := leNat (l.take 2)
  let dst := addrLen (fc / 2 ^ 10 % 4)
  let src := addrLen (fc / 2 ^ 14 % 4)
  let at_ := 3 + dst + src
  let sec := (l.getD at_ 0).toNat
  let key : Nat := match sec / 8 % 4 with | 0 => 0 | 1 => 1 | 2 => 5 | _ => 9
  let head := at_ + 5 + key
  let a := leNat ((l.drop (3 + dst)).take src)
  if src = 0 ∨ !fc.testBit 3 ∨ l.length < head + 8 then none
  else some
    { source := if src = 2 then .short a else .eui a
      seq := (l.getD 2 0).toNat, kind := fc % 8, level := sec % 8, keyMode := sec / 8 % 4
      counter := leNat ((l.drop (at_ + 1)).take 4), header := l.take head
      payload := (l.take (l.length - 8)).drop head, mic := (l.drop (l.length - 8)).take 4 }

/-- CCM* of a partner's frame under its node key of a generation (R311), one job of CIP: the payload in the clear where the MIC verifies.
The frame is at level 5 with key identifier mode 0, or, for a join request, at level 1, whose payload is in the clear. -/
def State.sgmOpen (s : State) (x : SgmFrame) (eui gen : Nat) (join : Bool) : State × Option (List Byte) :=
  let clear := join && decide (x.level = 1)
  if !(clear || decide (x.level = 5)) || decide (x.keyMode ≠ 0) then (s, none)
  else match s.deriveNow (s.cipTag 2 128 (nodeLabel eui gen)) with
  | (s, none) => (s.bump CIP_CNT_JOBS, none)
  | (s, some key) =>
    let nonce := natBe 8 eui ++ natBe 4 x.counter ++ natBe 1 x.level
    let plain := if clear then x.payload else ccmApply key nonce x.payload
    let tag := if clear then ccmTag key nonce (x.header ++ x.payload) [] 4 else ccmTag key nonce x.header plain 4
    let ok := decide (tag.take 4 = x.mic)
    (s.inlineEnd ok, if ok then some plain else none)

end Sys2Proof.Machine
end

