-- ==== Sys2Proof/Machine/Rfc.lean ====
section
/-! DEFINITION. Radio C (spec/10): its rows. -/

namespace Sys2Proof.Machine

/-! ### State and plan commands (R253, R243) -/

/-- `RFC_STATE_CMD`. -/
def rfcCmd : CmdReg := ⟨RFC_STATE_CMD_STATE.addr, .rfc, .operator⟩

/-- `RFC_CMD`. -/
def rfcOpCmd : CmdReg := ⟨RFC_CMD_STATE.addr, .rfc, .operator⟩

/-- RFC_STATE_CMD: RUNNING until the radio is in the target state (R253). -/
def State.rfcGo (s : State) (req : Req) (target : Nat) : State :=
  s.command rfcCmd req fun s =>
    if 3 < target then s.cmdError rfcCmd.addr 2
    else if s.rfc.state = target ∧ s.rfc.trans.isNone ∧ s.rfc.tx.isNone ∧ s.rfc.retune.isNone then s.cmdDone rfcCmd.addr
    else ({ s.cmdIs rfcCmd.addr 1 0 with rfc.queue := s.rfc.queue ++ [target] } : State).rfcNext

/-- RFC_GO_OFF. -/
def execRfcGoOff (req : Req) (s : State) : Host.Outcome State Fault Refusal := .next (s.rfcGo req 0)
/-- RFC_GO_SLEEP. -/
def execRfcGoSleep (req : Req) (s : State) : Host.Outcome State Fault Refusal := .next (s.rfcGo req 1)
/-- RFC_GO_IDLE. -/
def execRfcGoIdle (req : Req) (s : State) : Host.Outcome State Fault Refusal := .next (s.rfcGo req 2)
/-- RFC_GO_RX. -/
def execRfcGoRx (req : Req) (s : State) : Host.Outcome State Fault Refusal := .next (s.rfcGo req 3)

/-- RFC_TRANSITION_DONE. -/
def execRfcTransitionDone (s : State) : Host.Outcome State Fault Refusal :=
  .next <| s.datapath .rfc fun s =>
    s.with? s.rfc.trans fun s t =>
      let s := (s.reach t.2).when (decide (s.rfc.state ≤ 1)) State.heldFree
      let s := ({ s with rfc.state := t.1, rfc.trans := none } : State).rfcSync
      let s := s.when (decide (s.rfc.queue = [])) (·.cmdDone rfcCmd.addr)
      s.rfcNext

/-- A command of `RFC_CMD`: INVALID while the radio is OFF. -/
def State.rfcOp (s : State) (req : Req) (f : State → State) : State :=
  s.command rfcOpCmd req fun s => if s.rfc.state = 0 then s.cmdError rfcOpCmd.addr 2 else f s

/-- APPLY_PLAN: at once and without interruption where the staged span is the active one (R243). -/
def State.applyPlan (s : State) (req : Req) : State :=
  s.rfcOp req fun s =>
    if s.span = s.spanStaged then s.cmdDone rfcOpCmd.addr else (s.cmdIs rfcOpCmd.addr 1 0).spanApply true

/-- APPLY_PLAN. -/
def execApplyPlan (req : Req) (s : State) : Host.Outcome State Fault Refusal := .next (s.applyPlan req)

/-- SPAN_RETUNE_DONE. -/
def execSpanRetuneDone (s : State) : Host.Outcome State Fault Refusal :=
  .next <| s.datapath .rfc fun s =>
    s.with? s.rfc.retune fun s r =>
      let s := ({ s.reach r.1 with rfc.retune := none } : State).heldFree
      (s.when r.2 (·.cmdDone rfcOpCmd.addr)).rfcNext

/-- CAL_REQ and TUNE_REQ mark the work due (R258, R261). -/
def State.calReq (s : State) (req : Req) : State := s.rfcOp req fun s => (s.up RFC_CAL_STAT_DUE).cmdDone rfcOpCmd.addr
def State.tuneReq (s : State) (req : Req) (p : Nat) : State := s.rfcOp req fun s => (s.tuneAsk p).cmdDone rfcOpCmd.addr

/-- CAL_REQ. -/
def execCalReq (req : Req) (s : State) : Host.Outcome State Fault Refusal := .next (s.calReq req)
/-- TUNE_REQ. -/
def execTuneReq (req : Req) (port : Bool) (s : State) : Host.Outcome State Fault Refusal := .next (s.tuneReq req port.toNat)

/-! ### Reception (R246 to R252) -/

/-- The receiver hears: not from 20 µs before a frame of its own to 40 µs after it (R254). -/
def State.hears (s : State) (k : Nat) : Bool :=
  s.chanUp k && (match s.rfc.lastTx with | some (e, _, _) => decide (e + 40000 ≤ s.lt) | none => true) &&
    !(s.rfc.txq.any fun c => decide (c.start ≤ s.lt + 20000))

/-- PREAMBLE_DETECT: within ±40 ppm on a valid entry; against a preamble held, whose mean RSSI up to now is `current`, 6 dB decide
(R248, R250). -/
def execPreambleDetect (channel : BitVec 6) (entry : BitVec 2) (rssi : BitVec 8) (current : BitVec 8) (offset : BitVec 16) (same : Bool)
    (s : State) : Host.Outcome State Fault Refusal :=
  .next <| s.datapath .rfc fun s =>
    let k := channel.toNat
    let c := s.chan k
    if !s.hears k || c.frame.isSome || (s.entryProfile k entry.toNat).isNone || decide (10240 < offset.toInt.natAbs) then s
    else
      let n := s.entryOf k entry.toNat
      let r := current.toInt
      match c.pre with
      | none => s.editChan k fun c => { c with pre := some n }
      | some e =>
        if r + 12 ≤ rssi.toInt then (s.editChan k fun c => { c with pre := some n }).bump RFC_CNT_CAPTURE_RESTART
        else if same ∧ (r < rssi.toInt ∨ (r = rssi.toInt ∧ n < e)) then s.editChan k fun c => { c with pre := some n }
        else s

/-- SFD_DETECT: the frame is stamped; during a frame only with LATE, and 10 dB above it (R249, R251). There the current frame ends, so
that a configuration written during it applies, and the new frame is received where that still searches for its profile (R245). -/
def execSfdDetect (channel : BitVec 6) (entry : BitVec 2) (rssi : BitVec 8) (fofs : BitVec 16) (s : State) :
    Host.Outcome State Fault Refusal :=
  .next <| s.datapath .rfc fun s =>
    let k := channel.toNat
    let c := s.chan k
    match s.entryProfile k entry.toNat with
    | none => s
    | some p =>
      let f : RxFrame := { profile := p, port := s.f RFC_CTL_RX_PORT, rssi := rssi.toInt, fofs := fofs.toNat
                           mt := s.mtm.mt, lt := s.lt, acc := s.mtm.acc }
      let start (s : State) : State := (s.editChan k fun c => { c with pre := none, frame := some f }).bump RFC_CNT_SYNC
      if !s.hears k then s
      else match c.frame with
      | none => match c.pre with
        | some e => if e = s.entryOf k entry.toNat then start s else s
        | none => s
      | some g =>
        if (s.chanCfg k).getLsbD 30 ∧ g.rssi + 20 ≤ rssi.toInt then
          let s := (s.rxReport k g 2 []).bump RFC_CNT_CAPTURE_ABORT
          if s.chanUp k && decide (s.entryProfile k entry.toNat = some p) then start s else s
        else s

/-- PHR_DECODE: a PHR with mode switch, a 16-bit FCS or a length below 5 octets ends the frame (R246). -/
def execPhrDecode (channel : BitVec 6) (ms : Bool) (fcs16 : Bool) (dw : Bool) (length : BitVec 11) (s : State) :
    Host.Outcome State Fault Refusal :=
  .next <| s.datapath .rfc fun s =>
    let k := channel.toNat
    s.with? (s.chan k).frame fun s f =>
      if f.phr.isSome then s
      else if ms || fcs16 || decide (length.toNat < 5) then (s.editChan k fun _ => {}).bump RFC_CNT_PHR_BAD
      else s.editChan k fun c => { c with frame := some { f with phr := some (dw, length.toNat) } }

/-- RFC_RX_REPORT: a frame ends with its last symbol; its PSDU is what the PHR announced. One that the receiver's stop for a frame of its
own comes before is cut there (R254). -/
def execRfcRxReport (channel : BitVec 6) (fcsOk : Bool) (psdu : List (BitVec 8)) (s : State) :
    Host.Outcome State Fault Refusal :=
  .next <| s.datapath .rfc fun s =>
    let k := channel.toNat
    s.with? (s.chan k).frame fun s f =>
      s.with? f.phr fun s h =>
        if psdu.length ≠ h.2 then s
        else
          let ends := f.lt + octetTime f.profile (2 + h.2)
          match s.rxEnds.filter fun t => decide (t < ends) with
          | some t => ((s.reach (s.now + (t - s.lt))).rxReport k f 3 []).bump RFC_CNT_RX_ABORT_TX
          | none =>
            let s := (s.reach (s.now + (ends - s.lt))).rxReport k f (if fcsOk then 0 else 1) psdu
            s.when (!fcsOk) (·.bump RFC_CNT_FCS_BAD)

/-! ### Transmission (R255 to R257) -/

/-- RFC_TX_COMMAND: a command that SGM's own rows did not make. For TURN, `ref` and `time` are the CHANNEL and SYNC_LT of the
reference, for AT `time` is the START; one whose start is nearer than 20 µs cannot start at it (R255, R256). -/
def execRfcTxCommand (channel : BitVec 6) (profile : BitVec 4) (port : Bool) (level : BitVec 8) (turn : Bool)
    (ref : BitVec 6) (time : BitVec 64) (deadline : Bool) (dw : Bool) (psdu : List (BitVec 8)) (s : State) : Host.Outcome State Fault Refusal :=
  .next <| s.datapath .rfc fun s =>
    let k := channel.toNat
    let start := if turn then
        (s.rfc.recent.find? fun r => decide (r.1 = ref.toNat) && decide (r.2.1 = time.toNat)).map fun r => r.2.2 + 40000
      else some time.toNat
    if !profileOk s.wide profile.toNat || decide (psdu.length < 5) || decide (2047 < psdu.length) ||
        !decide (k < (if s.wide then 32 else 64)) || decide (level.toInt < -20) || decide (54 < level.toInt) then s
    else s.with? start fun s t =>
      if (turn || deadline) && decide (t < s.lt + 20000) then (s.rfcAnswer 2 level.toInt 0).bump RFC_CNT_TX_LATE
      else
        (s.rfcSubmit { id := 0, channel := k, profile := profile.toNat, port := port.toNat, level := level.toInt
                       start := max t (s.lt + 20000), deadline := turn || deadline, psdu := psdu, dw := dw
                       what := .other }).1

/-- A command ends with TX_LATE. -/
def State.txLate (s : State) (c : RfcTx) : State :=
  (((s.txDrop c).rfcAnswer 2 c.level 0).bump RFC_CNT_TX_LATE).sgmTxDead c

/-- RFC_TX_START: the command whose start comes first starts then, or as soon after as it can; one that its limit no longer allows is
not sent (R310). `errs` is what the reads of its packet's words find while it is sent: an uncorrectable one ends the frame with an
invalid FCS (R105, R107). -/
def execRfcTxStart (errs : List WordErr) (s : State) : Host.Outcome State Fault Refusal :=
  .next <| s.datapath .rfc fun s =>
    s.with? s.txFirst fun s c =>
      if !s.txReady then s
      else if s.txIsLate c then s.txLate c
      else
        let s := s.reach (s.now + (max c.start (s.txFrom c) - s.lt))
        if !s.txFits c then (s.txDrop c).sgmTxOver c
        else
          let (s, bad) := s.txRead c errs
          s.txBegin (if bad then { c with badFcs := true, psdu := fcsBad c.psdu } else c)

/-- RFC_TX_LATE. -/
def execRfcTxLate (s : State) : Host.Outcome State Fault Refusal :=
  .next <| s.datapath .rfc fun s => s.with? (s.rfc.txq.find? s.txIsLate) fun s c => s.txLate c

/-- RFC_TX_END: the end of a frame, with the VSWR measured over it (R255, R257, R260). -/
def execRfcTxEnd (vswr : BitVec 12) (s : State) : Host.Outcome State Fault Refusal :=
  .next <| s.datapath .rfc fun s =>
    s.with? s.rfc.tx fun s x =>
      let (c, start, air, level) := x
      let s := s.reach (start + air)
      let low := decide (level < c.level)
      let s := ({ s with rfc.tx := none, rfc.state := 3, rfc.lastTx := some (s.lt, c.channel, c.port) } : State).rfcSync
      let s := (s.rfcAnswer low.toNat level ((air + 999) / 1000)).when low (·.bump RFC_CNT_TX_REDUCED)
      let s := s.when (decide (200000 ≤ air ∧ 20 ≤ level)) (·.portVswr c.port vswr.toNat)
      (s.sgmTxEnd c (s.lt - air) air).rfcNext

/-! ### Calibration slot (R258 to R262) -/

/-- MT of the calibration slot's open in the cycle that runs, where it lies in this cycle. -/
def State.calOpen (s : State) : Option Nat :=
  if s.mtm.mt / 65536 % 8 = s.f RFC_CAL_CFG_CYCLE then some (s.mtm.mt / 65536 * 65536 + s.f RFC_CAL_CFG_SLOT * 4096) else none

/-- The image calibration and its result (R258, R259). -/
def State.imageCal (s : State) (db : Nat) : State :=
  let s := s.rxAbort.down RFC_CAL_STAT_DUE
  let s := (s.set RFC_CAL_STAT_IMG_DB db).set RFC_CAL_STAT_TEMP (s.rfc.temp % 256).toNat
  let s := { s with rfc.stored := if s.rfc.stored.contains s.span then s.rfc.stored else s.rfc.stored ++ [s.span] }
  if db < 50 then
    let n := min 3 (s.f RFC_CAL_STAT_LOW_RUN + 1)
    let s := ((s.ev .rfc Ev.RFC_IMAGE_LOW [db]).set RFC_CAL_STAT_LOW_RUN n).up RFC_CAL_STAT_DUE
    s.when (decide (n = 3)) (·.asyFault .radioDegr .subghz)
  else s.set RFC_CAL_STAT_LOW_RUN 0

/-- The time of a tune pass in µs: at most 24 steps of 10 µs (R261). -/
def tuneTime (r : TuneResult) : Nat := 10 * min 24 r.steps.toNat

/-- A tune pass on a port from an instant of LT on, on the centre of the port's last transmit channel (R261, R262). -/
def State.tunePass (s : State) (p : Nat) (r : TuneResult) (start : Nat) : State :=
  let s := s.rxAbort.chargeAt (s.rfc.lastCentre.lookD p (s.span % 2 ^ 20)) (tuneTime r) start
  let s := { s with
    rfc.tuneDue := s.rfc.tuneDue.filter fun (q : Nat) => decide (q ≠ p)
    rfc.tuned := s.rfc.tuned.filter (fun (t : Nat × Nat × Nat × Nat) => !(decide (t.1 = p) && decide (t.2.1 = s.span))) ++
      [(p, s.span, r.series.toNat, r.shunt.toNat)]
    rfc.lastFrame := s.rfc.lastFrame.put p s.slotFrame }
  let s := (s.portVswr p r.vswr.toNat).portSync p
  if r.vswr.toNat ≤ 48 then
    ({ s with rfc.tuneDue := s.rfc.tuneDue.filter fun (q : Nat) => decide (q ≠ p) } : State).down (RFC_PORT_STAT_TUNE_FAULT p)
      |>.set (RFC_PORT_STAT_FAILS p) 0
  else
    let n := min 15 (s.f (RFC_PORT_STAT_FAILS p) + 1)
    let s := (((s.up (RFC_PORT_STAT_TUNE_FAULT p)).ev .rfc Ev.RF_MISMATCH [p, r.vswr.toNat]).tuneAsk p).set
      (RFC_PORT_STAT_FAILS p) n
    s.when (decide (n = 8)) (·.asyFault .radioDegr .subghz)

/-- Radio C's degradation ends where neither the image nor a port calls for it. -/
def State.rfcDegr (s : State) : State :=
  s.when (decide (s.f RFC_CAL_STAT_LOW_RUN < 3 ∧ s.f (RFC_PORT_STAT_FAILS 0) < 8 ∧ s.f (RFC_PORT_STAT_FAILS 1) < 8))
    (·.asyFaultEnd .radioDegr .subghz)

/-- CAL_SLOT_OPEN: the work that is due at the slot's open runs, image calibration first, then the ports in order; `RFC_STATE` shows CAL
for its 400 µs, nothing is received before the end of the work, and commands held meanwhile start after it (R256). What the work
finds stands in the registers from the open on (DESIGN CHOICE, log entry 243). An open that has passed, or at which the radio is not in
IDLE or RX, runs none. -/
def execCalSlotOpen (image : BitVec 8) (port0 : TuneResult) (port1 : TuneResult) (s : State) :
    Host.Outcome State Fault Refusal :=
  .next <| s.datapath .rfc fun s =>
    s.with? s.calOpen fun s t =>
      s.with? (s.reachMt t) fun s s' =>
        if t < s.mtm.mt ∨ s.rfc.slotAt = some t then s
        else
          let s' : State := { s' with rfc.slotAt := some t }
          let idle (p : Nat) (s : State) : State := s.when (decide (s.rfc.lastFrame.lookD p 0 + 64 ≤ s.slotFrame)) (·.tuneAsk p)
          let s := idle 1 (idle 0 s')
          if !s.txReady then s
          else
            let image? := s.on RFC_CAL_STAT_DUE
            let due0 := s.rfc.tuneDue.contains 0
            let due1 := s.rfc.tuneDue.contains 1
            let cal := if image? then 400000 else 0
            let first := cal + if due0 then 1000 * tuneTime port0 else 0
            let all := first + if due1 then 1000 * tuneTime port1 else 0
            let s := s.when image? (·.imageCal image.toNat)
            let s := s.when due0 fun s => s.tunePass 0 port0 (s.lt + cal)
            let s := s.when due1 fun s => s.tunePass 1 port1 (s.lt + first)
            let s := s.when (image? || due0 || due1) fun s =>
              ({ s with rfc.work := some (s.now + cal, s.now + all), rfc.freeAt := s.lt + all + 4000 } : State).rfcSync
            s.rfcDegr

/-- RFC_TEMP_CHANGE: 10 °C from the last image calibration make it due (R258). -/
def execRfcTempChange (temp : BitVec 8) (s : State) : Host.Outcome State Fault Refusal :=
  .next <| s.datapath .rfc fun s =>
    let s := { s with rfc.temp := temp.toInt }
    s.when (decide (10 ≤ (temp.toInt - sx 8 (s.f RFC_CAL_STAT_TEMP)).natAbs)) (·.up RFC_CAL_STAT_DUE)

/-- RFC_CH_LOST: an enabled channel is left without a demodulator. -/
def execRfcChLost (channel : BitVec 6) (s : State) : Host.Outcome State Fault Refusal :=
  .next <| s.datapath .rfc fun s =>
    let k := channel.toNat
    if !s.on (RFC_CH_CFG_EN k) || (s.w RFC_CH_LOST_LOST).testBit k then s
    else
      let s := match (s.chan k).frame with
        | some f => (s.rxReport k f 4 []).bump RFC_CNT_RX_ABORT_OTHER
        | none => s.editChan k fun _ => {}
      (s.setW RFC_CH_LOST_LOST (Nat.lor (s.w RFC_CH_LOST_LOST) (2 ^ k))).ev .rfc Ev.RFC_CH_LOST [k]

/-- RFC_CH_CFG_WRITE. -/
def execRfcChCfgWrite (req : Req) (channel : BitVec 6) (data : BitVec 32) (s : State) : Host.Outcome State Fault Refusal :=
  .next <| s.gate .rfc .operator (RFC_CH_CFG_EN channel.toNat).addr req fun s => s.chCfgWrite channel.toNat data

end Sys2Proof.Machine
end

