-- ==== Sys2Proof/Machine/Sgm.lean ====
section
/-! DEFINITION. The sub-GHz MAC (spec/12) and its frames from SCH (R181, R182): their rows. -/

namespace Sys2Proof.Machine

/-! ### The plan (R290, R291) -/

/-- `SGM_CMD`. -/
def sgmCmd : CmdReg := ⟨SGM_CMD_STATE.addr, .sgm, .operator⟩

/-- Slots that a staged block covers. -/
def State.stagedSlots (s : State) (b : Nat) : List Nat := List.range' (s.f (SGM_BLOCK_FIRST b)) (s.f (SGM_BLOCK_LEN b))

/-- A channel of the staged span lies in an enabled sub-band (R309). -/
def State.banded (s : State) (k : Nat) : Bool := (List.range 8).any (s.subHolds (chanCentre s.spanStaged k))

/-- The checks of R290 that a staged block fails by itself or against another: of one that is not enabled, its KIND alone. -/
def State.blockFails (s : State) (b : Nat) : Bool :=
  let kind := s.f (SGM_BLOCK_KIND b)
  let first := s.f (SGM_BLOCK_FIRST b)
  let len := s.f (SGM_BLOCK_LEN b)
  let cal := s.f RFC_CAL_CFG_CYCLE * 16 + s.f RFC_CAL_CFG_SLOT
  let ack := s.f (SGM_BLOCK_ACK b)
  let namers := (List.range 128).filter fun g =>
    s.on (SGM_BLOCK_EN g) && decide (s.f (SGM_BLOCK_KIND g) = kindGather) && decide (s.f (SGM_BLOCK_ACK g) = b)
  if kind = 0 ∨ 6 < kind then true
  else if !s.on (SGM_BLOCK_EN b) then decide (b = 0)
  else
    (decide (b = 0) && !(decide (kind = kindBeacon) && decide (first = 0))) ||
    decide (len = 0 ∨ 16 < len) || decide (128 < first + len) ||
    ((List.range 128).any fun c => decide (c ≠ b) && s.on (SGM_BLOCK_EN c) && (s.stagedSlots c).any fun x => (s.stagedSlots b).contains x) ||
    (s.stagedSlots b).contains cal ||
    (decide (kind = kindGather) && !(s.on (SGM_BLOCK_EN ack) && decide (s.f (SGM_BLOCK_KIND ack) = kindGack) &&
      decide (first < s.f (SGM_BLOCK_FIRST ack)))) ||
    (decide (kind = kindGack) && (namers.isEmpty || decide (4 < namers.length))) ||
    ((decide (kind = kindBeacon) || decide (kind = kindGack)) && !s.banded (s.f SGM_BEACON_CHANNEL)) ||
    (decide (kind = kindDown) && !s.banded (s.f (SGM_BLOCK_CHANNEL b)))

/-- PLAN_COMMIT. -/
def State.planCommit (s : State) (req : Req) : State :=
  s.command sgmCmd req fun s =>
    if s.sgm.pend.isSome then s.cmdBusy sgmCmd.addr
    else match (List.range 128).find? s.blockFails with
    | some b => (s.ev .sgm Ev.SGM_PLAN_INVALID [b]).cmdError sgmCmd.addr 2
    | none => (({ s with sgm.pend := some {} } : State).up SGM_STATUS_PEND).cmdDone sgmCmd.addr

/-- PLAN_CANCEL. -/
def State.planCancel (s : State) (req : Req) : State :=
  s.command sgmCmd req fun s =>
    match s.sgm.pend with
    | some { announced := false } => (({ s with sgm.pend := none } : State).down SGM_STATUS_PEND).cmdDone sgmCmd.addr
    | _ => s.cmdError sgmCmd.addr 3

/-- PLAN_COMMIT. -/
def execPlanCommit (req : Req) (s : State) : Host.Outcome State Fault Refusal := .next (s.planCommit req)
/-- PLAN_CANCEL. -/
def execPlanCancel (req : Req) (s : State) : Host.Outcome State Fault Refusal := .next (s.planCancel req)

/-- The staged plan, and a staged span, take effect (R291). -/
def State.planApply (s : State) : State :=
  let s := s.each (List.range 128) fun s b =>
    ((s.wr (SGM_BLOCK_ACT_EN b).addr (s.rd (SGM_BLOCK_EN b).addr)).wr ((SGM_BLOCK_ACT_EN b).addr + 4)
      (s.rd ((SGM_BLOCK_EN b).addr + 4))).unbad .sgm 2 b
  let s := (s.set SGM_STATUS_PLAN ((s.f SGM_STATUS_PLAN + 1) % 256)).down SGM_STATUS_PEND
  let s := { s with sgm.pend := none }
  s.when (decide (s.span ≠ s.spanStaged)) (·.spanApply false)

/-- SLOT_FRAME_START: a slot frame has begun that SGM has not entered. An announced plan takes effect; another that is
pending is announced from now on; a suspended plan resumes (R404). -/
def execSlotFrameStart (s : State) : Host.Outcome State Fault Refusal :=
  .next <| s.datapath .sgm fun s =>
    if s.sgm.frame = some s.slotFrame then s
    else
      let f := s.slotFrame
      let s := s.ctrCheck
      let s := { s with
        sgm.frames := s.framesNow + (if s.sgm.frame.isNone then 1 else 0)
        sgm.frame := some f, sgm.frameEnds := false, sgm.gathered := [], sgm.done := []
        sgm.suspended := s.sgm.suspended && (decide (2 ≤ s.f PWR_STATE_STATE) ||
          s.pwr.transition.any fun (t : Transition) => decide (2 ≤ t.target))
        sgm.asked := s.sgm.asked.filter fun (a : Nat × Nat) => decide (a.2 = f) }
      match s.sgm.pend with
      | some { announced := true } => s.planApply
      | some { announced := false } => { s with sgm.pend := some { announced := true } }
      | none => s

/-! ### Entering a block to transmit -/

/-- A SAFE_LEVEL frame on the beacon channel at the beacon profile: airtime in ns. -/
def State.safeAir (s : State) : Nat := s.airtime (s.f SGM_BEACON_PROFILE) (downOver true + 2)

/-- SAFE_LEVEL takes the next block over (R306): it is due, and the combined limit allows it. -/
def State.safeTakes (s : State) : Bool :=
  decide (0 < s.sgm.safeLeft) && s.protects && !s.cipHeld && s.fits (s.f SGM_BEACON_CHANNEL) s.safeAir true

/-- What an adoption has ended is forgotten (R292). -/
def State.frameCut (s : State) : State :=
  if s.sgm.frameEnds then { s with sgm.frameEnds := false, sgm.gathered := [], sgm.done := [] } else s

/-- A device block of a kind, entered for its one frame of the slot frame; its job waits while CIP starts none (R326, R329). -/
def State.enterFor (s : State) (b kind : Nat) : Option State :=
  if s.sgm.done.contains b || s.cipHeld || decide (s.blockKind b ≠ kind) || s.safeTakes then none else s.enter b

/-- Start of a frame in a block: its start instant, or as soon as the radio takes it. -/
def State.blockStart (s : State) (b : Nat) : Nat := max (s.startInstant b) (s.lt + 20000)

/-- A frame of SGM's own on the beacon channel; one that does not fit is logged and not sent, and one without a pair of CIP is discarded
(R330). -/
def State.beaconSend (s : State) (b fc : Nat) (body : List Byte) (what : SgmTx) : State :=
  let k := s.f SGM_BEACON_CHANNEL
  let p := s.f SGM_BEACON_PROFILE
  let s := { s with sgm.done := b :: s.sgm.done }
  if s.noLane then s.inlineLost
  else if !s.protects then s
  else if !s.fits k (s.airtime p (19 + body.length)) true then s.ev .sgm Ev.SGM_BUDGET_SKIP [b]
  else
    let (s, psdu) := s.sgmCount.beaconFrame fc body
    (s.sgmSend k p (s.f SGM_BEACON_PORT) (s.blockStart b) false psdu 0 what).1

/-! ### Beacon (R305, R307, R308) -/

/-- A JOIN entry. -/
def joinEntry (n : Node) : List Byte :=
  natLe 8 n.eui ++ natLe 2 n.addr ++ natLe 1 n.block ++ natLe 1 n.channel ++
    natLe 1 (n.profile + 16 * n.period + 128 * n.battery.toNat) ++ natLe 2 n.sets ++ natLe 1 n.phase

/-- A MOVE entry. -/
def moveEntry (n : Node) (device centre : Nat) : List Byte := natLe 2 n.addr ++ natLe 1 device ++ natLe 3 centre

/-- The octets of a beacon from CYCLE to its MOVE entries. -/
def State.beaconBody (s : State) : List Byte :=
  let first := s.slotFrame * 8 % 2 ^ 32
  let told := match s.sgm.pend with | some p => p.announced | none => false
  let plan := s.f SGM_STATUS_PLAN
  let joins := (s.sgm.joins.take 4).filterMap fun (j : Nat × Nat) => (s.sgm.nodes.look j.1).map joinEntry
  let moves := (s.sgm.moves.take 4).filterMap fun (j : Nat × Nat × Nat × Nat) =>
    (s.sgm.nodes.look j.1).map fun n => moveEntry n j.2.2.1 j.2.2.2
  natLe 4 first ++ natLe 1 plan ++ natLe 1 (if told then (plan + 1) % 256 else s.free .nextPlan % 256) ++
    natLe 4 (if told then (first + 8) % 2 ^ 32 else 0) ++ natLe 1 s.preamble ++
    natLe 1 (128 * s.f SGM_STATUS_SAFE + (if s.on SGM_STATUS_SAFE then s.f SGM_STATUS_LEVEL else 0)) ++
    natLe 1 joins.length ++ natLe 1 moves.length ++ joins.flatten ++ moves.flatten

/-- The entries of a beacon that went out count it; a MOVE entry that has had its 8 deletes the partner. -/
def State.beaconCount (s : State) : State :=
  let step (l : List (Nat × Nat)) : List (Nat × Nat) :=
    ((l.take 4).map (fun (j : Nat × Nat) => (j.1, j.2 - 1)) ++ l.drop 4).filter fun (j : Nat × Nat) => decide (0 < j.2)
  let moved := (s.sgm.moves.take 4).filter fun (j : Nat × Nat × Nat × Nat) => decide (j.2.1 ≤ 1)
  let s := { s with
    sgm.joins := step s.sgm.joins
    sgm.moves := (s.sgm.moves.take 4).map (fun (j : Nat × Nat × Nat × Nat) => (j.1, j.2.1 - 1, j.2.2)) ++ s.sgm.moves.drop 4 }
  s.each moved fun s j => s.nodeDelete j.1

/-- BEACON_SEND: in block 0, once start-up step 10 is reached (R72). -/
def execBeaconSend (s : State) : Host.Outcome State Fault Refusal :=
  .next <| s.datapath .sgm fun s =>
    if s.cfg.stage < 10 then s
    else s.with? (s.frameCut.enterFor 0 kindBeacon) fun _ s =>
      let sent := s.protects && s.fits (s.f SGM_BEACON_CHANNEL) (s.airtime (s.f SGM_BEACON_PROFILE) (19 + s.beaconBody.length)) true
      ((s.beaconSend 0 0xA008 s.beaconBody .beacon).drawn).when sent State.beaconCount

/-! ### GACK (R298) -/

/-- The GATHER blocks that name a GACK block, in order. -/
def State.gathers (s : State) (b : Nat) : List Nat :=
  (List.range 128).filter fun g => s.blockOn g && decide (s.blockKind g = kindGather) && decide (s.f (SGM_BLOCK_ACT_ACK g) = b)

/-- The bitmap of a GATHER block. -/
def State.bitmap (s : State) (g : Nat) : Nat :=
  s.sgm.gathered.foldl (fun n (x : Nat × Nat × Nat × Nat) => if x.1 = g then Nat.lor n (2 ^ x.2.1) else n) 0

/-- GACK_SEND. -/
def execGackSend (block : BitVec 7) (s : State) : Host.Outcome State Fault Refusal :=
  .next <| s.datapath .sgm fun s =>
    let b := block.toNat
    s.with? (s.frameCut.enterFor b kindGack) fun _ s =>
      let gs := s.gathers b
      let acked := s.sgm.gathered.filterMap fun (x : Nat × Nat × Nat × Nat) => if gs.contains x.1 then some x.2.2 else none
      s.beaconSend b 0xA00B (natLe 1 0xC1 ++ natLe 1 gs.length ++ (gs.map fun g => natLe 8 (s.bitmap g)).flatten) (.gack acked)

/-! ### Downlink (R181, R182, R294, R297, R300) -/

/-- The octets of the PSDU that a packet makes. -/
def State.psduOctets (s : State) (p : Packet) : Nat := (s.lowpanBody p).length + downOver (pktGroup p)

/-- The clients that SGM names for a DOWN block in a slot frame (R300). -/
def State.listeners (s : State) (b f : Nat) : List Nat :=
  (s.sgm.nodes.filter fun (e : Nat × Node) =>
    e.2.sets.testBit (s.f (SGM_BLOCK_ACT_SET b)) && decide (f % 2 ^ e.2.period = e.2.phase) && decide (e.2.state ≠ 2)).map
      fun (e : Nat × Node) => e.2.client

/-- SCH answers for a DOWN block of a slot frame: a frame, which is charged, or EMPTY. A queue of a named client whose head does not
fit is ineligible for this cell, so that it leaves its list and joins the tail again (R164, R182); so is one whose head goes to another
listener set than the block's (R300). -/
def State.cellAsk (s : State) (b f : Nat) : State :=
  let s := { s with sgm.asked := (b, f) :: s.sgm.asked }
  let k := s.f (SGM_BLOCK_ACT_CHANNEL b)
  let p := s.f (SGM_BLOCK_ACT_PROFILE b)
  let named := s.listeners b f
  let general := s.airOctets k p false
  let combined := s.airOctets k p true
  let here (q : Nat) : Bool := named.contains (queueClient (s.schQ q))
  let fits (q : Nat) : Bool := match (s.schQ q).fifo.head?.bind s.pkt with
    | some x => x.poison || (!(pktGroup x && decide (pktSet x ≠ s.f (SGM_BLOCK_ACT_SET b))) &&
        decide (s.psduOctets x ≤ if queueSafe (s.schQ q) then combined else general))
    | none => true
  let held := (s.sch.queues.map Prod.fst).filter fun q => here q && !fits q
  let back (s : State) : State :=
    { s with sch.refused := s.sch.refused.filter fun (e : Nat × Nat) => decide (e.2 ≠ 11) }.schSync
  let out := { s with sch.refused := s.sch.refused ++ held.map fun q => (q, 11) }.schSync
  match out.select 11 fun q _ => here q with
  | some (q, _, s') =>
    let (s, id) := s'.dequeue 11 q
    (back s).with? id fun s id =>
      match s.pkt id with
      | some x =>
        if x.poison then (s.pktFree id).bump PKB_CNT_POISON_DROP
        else { s with sgm.given := s.sgm.given.put b { queue := q, pkt := id, frame := f } }
      | none => s
  | none =>
    let any := (s.select 11 fun q _ => here q).isSome
    (back out).bump (if any then SCH_CNT_CELL_BUDGET else SCH_CNT_CELL_EMPTY)

/-- CELL_FRAME_ASK: two slots ahead of the block's next open, or at the instant of a step that skipped that. -/
def execCellFrameAsk (block : BitVec 7) (s : State) : Host.Outcome State Fault Refusal :=
  .next <| s.datapath .sgm fun s =>
    let b := block.toNat
    let f := if s.mtm.mt < s.blockOpen b then s.slotFrame else s.slotFrame + 1
    let opens := f * 2 ^ 19 + s.blockFirst b * 4096
    if !s.blockOn b || s.sgm.suspended || decide (s.blockKind b ≠ kindDown) || s.sgm.asked.contains (b, f) then s
    else s.with? (s.reachMt (opens - 8192)) fun _ s => s.cellAsk b f

/-- LT of the open of a block in a slot frame. -/
def State.openLt (s : State) (b f : Nat) : Nat :=
  let opens := f * 2 ^ 19 + s.blockFirst b * 4096
  s.lt + s.nsOfTicks (opens - s.mtm.mt) - s.nsOfTicks (s.mtm.mt - opens)

/-- A DOWN frame goes to the radio at a time in LT; without a pair of CIP it is discarded (R330). -/
def State.downSend (s : State) (b start extra : Nat) (c : CellFrame) (p : Packet) : State :=
  let k := s.f (SGM_BLOCK_ACT_CHANNEL b)
  let pr := s.f (SGM_BLOCK_ACT_PROFILE b)
  let body := s.lowpanBody p
  let group := pktGroup p
  let safe := queueSafe (s.schQ c.queue)
  let opens := c.frame * 2 ^ 19 + s.blockFirst b * 4096
  let s := { s with sgm.given := s.sgm.given.del b, sgm.done := b :: s.sgm.done }
  let air := s.airtime pr (body.length + downOver group) + extra
  if s.noLane then (s.pktFree c.pkt).inlineLost
  else if !s.protects || !s.fits k air safe then s.cellReturn c.queue c.pkt
  else
    let s := s.sgmCount
    let (s, psdu) := match group, s.sgm.nodes.look (pktNode p) with
      | false, some n => s.sealed (nodeLabel n.eui n.gen) (s.dataHeader 0xA829 n.addr false n.gen) body
      | _, _ => s.sealed (groupLabel s.keyGen) (s.dataHeader 0xA809 0xFFFF true s.keyGen) body
    let what := if group then SgmTx.group c.queue c.pkt
      else .down (pktNode p) c.queue c.pkt s.sgm.seq opens (opens + s.blockWidth b)
    let (s, taken) := s.sgmSend k pr (s.f SGM_BEACON_PORT) (max start (s.lt + 20000)) false psdu extra what
    s.when (!taken) (·.cellReturn c.queue c.pkt)

/-- DOWN_SEND: at the start instant; a unicast frame at the partner's predicted offset from it, and for an ADRIFT partner
4 G earlier with a preamble 8 G longer; `errs` is what the reads of the packet's words find (R105). A poisoned packet is
discarded before its first symbol (R107). Its job waits while CIP starts none (R326, R329). -/
def execDownSend (block : BitVec 7) (errs : List WordErr) (s : State) : Host.Outcome State Fault Refusal :=
  .next <| s.datapath .sgm fun s =>
    let b := block.toNat
    let s := s.frameCut
    s.with? (s.sgm.given.look b) fun s c =>
      let opens := c.frame * 2 ^ 19 + s.blockFirst b * 4096
      if !s.blockOn b || s.sgm.suspended || s.sgm.done.contains b || s.safeTakes || s.cipHeld ||
          decide (opens + s.blockWidth b ≤ s.mtm.mt) then s
      else match s.pkt c.pkt with
      | none => { s with sgm.given := s.sgm.given.del b }
      | some p =>
        let node := s.sgm.nodes.look (pktNode p)
        if !pktGroup p && node.isNone then
          ({ s with sgm.given := s.sgm.given.del b }.pktFree c.pkt).bump SGM_CNT_UNKNOWN
        else
          let base := s.openLt b c.frame + s.guard
          let (start, extra) := match pktGroup p, node with
            | false, some n =>
              let t := ((base : Int) + s.predicted n base).toNat
              if s.adrift n then (t - 4 * s.guard, 8 * s.guard) else (t, 0)
            | _, _ => (base, 0)
          let at_ := start - 20000 - s.lt
          let there := s.mtm.mt / 65536 = (s.mtm.mt + s.ticksOfNs at_) / 65536
          if !there then s
          else match (s.advance at_).pktScan c.pkt p errs with
          | (s, none) => { s with sgm.given := s.sgm.given.del b }
          | (s, some p) =>
            if p.poison then ({ s with sgm.given := s.sgm.given.del b }.pktFree c.pkt).bump PKB_CNT_POISON_DROP
            else s.downSend b start extra c p

/-- CELL_FRAME_RETURN: the first frame taken that its cell can no longer carry. -/
def execCellFrameReturn (s : State) : Host.Outcome State Fault Refusal :=
  .next <| s.datapath .sgm fun s =>
    let gone (e : Nat × CellFrame) : Bool :=
      !s.blockOn e.1 || s.sgm.suspended || s.sgm.done.contains e.1 && decide (e.2.frame = s.slotFrame) ||
        decide (s.slotFrame + 1 < e.2.frame) ||
        decide (e.2.frame * 2 ^ 19 + s.blockFirst e.1 * 4096 + s.blockWidth e.1 ≤ s.mtm.mt)
    s.with? (s.sgm.given.find? gone) fun s e =>
      ({ s with sgm.given := s.sgm.given.del e.1 } : State).cellReturn e.2.queue e.2.pkt

/-- An Imm-Ack that answers a DOWN frame: its sequence number, and its sync within 20 µs of where it is due (R297). -/
def State.ackMatches (s : State) (r : RxReport) (d : DownWait) : Bool :=
  let due := d.ends + 40000 + s.shr d.profile
  decide (r.status = 0) && decide (r.channel = d.channel) && decide (r.psdu.take 3 = [2, 0, BitVec.ofNat 8 d.seq]) &&
    decide (due ≤ r.lt + 20000) && decide (r.lt ≤ due + 20000)

/-- DOWN_ACK_RX: the oldest report is the acknowledgement of a DOWN frame, which becomes its partner's anchor at once (R301). -/
def execDownAckRx (s : State) : Host.Outcome State Fault Refusal :=
  .next <| s.datapath .sgm fun s =>
    match s.rfc.reports with
    | [] => s
    | r :: rest =>
      s.with? (s.sgm.downs.find? (s.ackMatches r)) fun s d =>
        let s := { s with
          rfc.reports := rest, sgm.downs := s.sgm.downs.filter fun (x : DownWait) => decide (x ≠ d)
          sgm.tries := s.sgm.tries.del d.pkt }
        let s := s.pktFree d.pkt
        match s.sgm.nodes.look d.node with
        | some n =>
          if n.born ≠ d.born then s
          else ((s.heard d.node).editNode_ d.node fun m => { m with anchor := some d.sfd, pending := none, heard := n.heard })
        | none => s

/-- DOWN_ACK_TIMEOUT: the oldest DOWN frame that waits stays without acknowledgement. It is a missed wake, unless a step has skipped or
shortened its block (R292, R302); the frame returns to the head of its queue until its attempts are made (R297). -/
def execDownAckTimeout (s : State) : Host.Outcome State Fault Refusal :=
  .next <| s.datapath .sgm fun s =>
    match s.sgm.downs with
    | [] => s
    | d :: rest =>
      let due := d.ends + 60000 + s.shr d.profile
      let s := ({ s with sgm.downs := rest } : State).reach (s.now + (due - s.lt))
      let known := match s.sgm.nodes.look d.node with | some n => decide (n.born = d.born) | none => false
      let s := s.when (known && !s.stepCut d.opens d.closes) (·.miss d.node)
      let tries := s.sgm.tries.lookD d.pkt 0 + 1
      if (s.pkt d.pkt).isNone then { s with sgm.tries := s.sgm.tries.del d.pkt }
      else if tries < max 1 (s.f SGM_CTL_RETRIES) then
        (({ s with sgm.tries := s.sgm.tries.put d.pkt tries } : State).editPkt d.pkt fun p => { p with charged := true }).cellReturn
          d.queue d.pkt
      else ({ s with sgm.tries := s.sgm.tries.del d.pkt }.pktFree d.pkt).bump SGM_CNT_TX_FAIL

/-! ### SAFE_LEVEL (R306) -/

/-- SAFE_LEVEL_SEND: takes over a block of any kind; one that the limit does not allow waits and is reported to Assay. Its job waits
while CIP starts none, and is discarded without a pair (R326, R329, R330). -/
def execSafeLevelSend (block : BitVec 7) (s : State) : Host.Outcome State Fault Refusal :=
  .next <| s.datapath .sgm fun s =>
    let b := block.toNat
    let s := s.frameCut
    if s.sgm.safeLeft = 0 ∨ s.sgm.done.contains b ∨ s.cipHeld then s
    else s.with? (s.enter b) fun _ s =>
      if s.noLane then { s with sgm.done := b :: s.sgm.done }.inlineLost
      else if !s.protects then s
      else if !s.safeTakes then s.asyFault .safeDelay .subghz
      else
        let first := s.sgm.safePend
        let s := ({ s with sgm.done := b :: s.sgm.done, sgm.safePend := false, sgm.safeLeft := s.sgm.safeLeft - 1 } : State).sgmCount
        let (s, psdu) := s.sealed (groupLabel s.keyGen) (s.dataHeader 0xA80B 0xFFFF true s.keyGen) (natLe 1 0xC2 ++ natLe 1 (s.f SGM_STATUS_LEVEL))
        let s := s.when first fun s => (s.ev .sgm Ev.SGM_SAFE_LEVEL []).asyFaultEnd .safeDelay .subghz
        (s.sgmSend (s.f SGM_BEACON_CHANNEL) (s.f SGM_BEACON_PROFILE) (s.f SGM_BEACON_PORT) (s.blockStart b) false psdu 0 .safe).1

/-! ### Receive reports (R295 to R299) -/

/-- The partners as they were at a sync time: a frame that a node-table command overtook finds the old entry (R296). -/
def State.nodesAt (s : State) (lt : Nat) : Map Node :=
  s.sgm.olds.foldl (fun (m : Map Node) (o : Nat × Nat × Option Node) =>
    if lt < o.1 then (match o.2.2 with | some n => m.put o.2.1 n | none => m.del o.2.1) else m) s.sgm.nodes

/-- Bytes 16 to 31 of the header slot (R299). -/
def sgmInfo (node : Nat) (r : RxReport) (join gathered widened : Bool) : List Byte :=
  natLe 2 node ++ natLe 1 r.channel ++ natLe 1 (r.profile + 16 * r.port + 32 * join.toNat) ++ natLe 2 0 ++
    natLe 1 (toBits 8 r.rssi) ++ natLe 1 (1 + 2 * gathered.toNat + 4 * widened.toNat) ++ natLe 2 r.fofs ++ natLe 6 r.mt

/-- A frame is acknowledged as its block's kind says (R297): in a GATHER block, by its bit of the slot frame that it was received in. -/
def State.sgmAck (s : State) (i : Nat) (n : Node) (r : RxReport) (seq : Nat) : State :=
  if s.blockKind n.block = kindGather then
    if r.mt / 2 ^ 19 ≠ s.slotFrame then s
    else { s with sgm.gathered := (n.block, n.channel, i, seq) :: s.sgm.gathered.filter fun (x : Nat × Nat × Nat × Nat) =>
      !(decide (x.1 = n.block) && decide (x.2.1 = n.channel)) }
  else
    let start := r.last + 40000
    let air := s.airtime n.profile 7
    if start < s.lt + 20000 ∨ s.closeLt n.block r < (start + air : Nat) ∨ !s.fits n.channel air true then s.bump SGM_CNT_ACK_SKIP
    else
      let (s, taken) := s.sgmSend n.channel n.profile (s.f SGM_BEACON_PORT) start true (immAck seq) 0 (.ack i seq)
      s.when (!taken) (·.bump SGM_CNT_ACK_SKIP)

/-- A partner's entry changes with an accepted frame, where it is still that partner's. -/
def State.sgmAccept (s : State) (i : Nat) (n : Node) (r : RxReport) (x : SgmFrame) : State :=
  if (match s.sgm.nodes.look i with | some m => decide (m.born = n.born) | none => false) then
    let s := s.editNode_ i fun m =>
      { s.learn (m.ackHeard x.seq) r with lastCtr := some x.counter, history := ((x.seq, s.framesNow) :: m.history).take 16 }
    let s := s.heard i
    { s with sgm.joins := s.sgm.joins.filter fun (j : Nat × Nat) => decide (j.1 ≠ i) }
  else s

/-- A frame of no partner: a join request whose MIC under its node key verifies goes to MGMT_Q (R307); any other is not known. -/
def State.joinReport (s : State) (r : RxReport) (x : Option SgmFrame) : State :=
  let eui := x.bind fun x => match x.source with | .eui e => some (x, e) | .short _ => none
  match eui, s.inJoin r.mt with
  | some (x, e), true =>
    match s.sgmOpen x e s.keyGen true with
    | (s, some body) =>
      if x.kind = 3 ∧ body.head? = some 0xC3 then
        ((s.quireWrite (s.f SGM_CTL_MGMT_Q) (sgmInfo 0xFFFF r true false false) body true).1).bump SGM_CNT_JOIN_REQ
      else s.bump SGM_CNT_UNKNOWN
    | (s, none) => s.bump SGM_CNT_UNKNOWN
  | _, _ => s.bump SGM_CNT_UNKNOWN

/-- A partner's frame is opened under the generation recorded for it, and where that fails under KEYGEN, which becomes the recorded one
(R312): the entry as it is then, and the payload. -/
def State.nodeOpen (s : State) (i : Nat) (n : Node) (x : SgmFrame) : State × Node × Option (List Byte) :=
  match s.sgmOpen x n.eui n.gen false with
  | (s, some body) => (s, n, some body)
  | (s, none) =>
    if n.gen = s.keyGen then (s, n, none)
    else match s.sgmOpen x n.eui s.keyGen false with
    | (s, some body) =>
      (s.editBorn i n.born fun m => { m with gen := s.keyGen, lastCtr := none }, { n with gen := s.keyGen, lastCtr := none }, some body)
    | (s, none) => (s, n, none)

/-- The partner that a frame's source names, in a table of partners. -/
def nodeNamed (nodes : Map Node) (x : Option SgmFrame) : Option (Nat × Node) :=
  x.bind fun x => nodes.find? fun (e : Nat × Node) => match x.source with
    | .short a => decide (e.2.addr = a)
    | .eui a => decide (e.2.eui = a)

/-- SGM handles one report (R295). -/
def State.onReport (s : State) (r : RxReport) : State :=
  let x := sgmParse r.psdu
  if r.status ≠ 0 then s
  else match nodeNamed (s.nodesAt r.lt) x, x with
  | some (i, n), some x =>
    match (if s.inJoin r.mt then none else s.cellOf n r) with
    | none => s.bump SGM_CNT_WRONG_CELL
    | some widened =>
      if n.history.any fun (h : Nat × Nat) => decide (h.1 = x.seq) && decide (s.framesNow < h.2 + max 1 (s.f SGM_TIMING_DUP_AGE)) then
        ((s.bump SGM_CNT_DUP).editBorn i n.born (·.ackHeard x.seq)).sgmAck i n r x.seq
      else match s.nodeOpen i n x with
      | (s, _, none) => s.bump SGM_CNT_MIC_FAIL
      | (s, n, some body) =>
        if (match n.lastCtr with | some c => decide (x.counter ≤ c) | none => false) then s.bump SGM_CNT_REPLAY
        else
          let gather := decide (s.blockKind n.block = kindGather)
          let (s, taken) := s.quireWrite (s.f SGM_CTL_RX_Q) (sgmInfo i r false gather widened) body true
          if !taken then s.bump SGM_CNT_RX_NOCELL
          else (s.sgmAccept i n r x).sgmAck i n r x.seq
  | _, _ => s.joinReport r x

/-- A report goes to SGM: one whose frame CIP has to open waits while CIP starts no job, behind those that wait already, and is discarded
without a pair (R314, R326, R329, R330). -/
def State.reportIn (s : State) (r : RxReport) : State :=
  let opens := decide (r.status = 0) && (sgmParse r.psdu).isSome
  if opens && s.noLane then s.inlineLost
  else if opens && s.cipHeld then { s with cip.frames := s.cip.frames ++ [.sgm r] }
  else s.onReport r

/-- SGM_RX_REPORT: the oldest report. -/
def execSgmRxReport (s : State) : Host.Outcome State Fault Refusal :=
  .next <| s.datapath .sgm fun s =>
    match s.rfc.reports with
    | [] => s
    | r :: rest => ({ s.frameCut with rfc.reports := rest } : State).reportIn r

/-- KEEPALIVE_PERIOD_END: a partner's period of KEEPALIVE consecutive slot frames, counted from its ADD, is over (R302). -/
def execKeepalivePeriodEnd (node : BitVec 12) (s : State) : Host.Outcome State Fault Refusal :=
  .next <| s.datapath .sgm fun s =>
    let i := node.toNat
    let k := max 1 (s.f SGM_TIMING_KEEPALIVE)
    s.with? (s.sgm.nodes.look i) fun s n =>
      if s.framesNow < n.added + k then s
      else (s.editNode_ i fun m => { m with added := m.added + k, heard := false }).when (!n.heard) (·.miss i)

/-! ### The node table (R296, R307, R308) -/

/-- `SGM_NODE_CMD`. -/
def nodeCmd : CmdReg := ⟨SGM_NODE_CMD_STATE.addr, .sgm, .vendor⟩

/-- The entry that `SGM_NODE_BUF` describes. -/
def State.nodeBuf (s : State) : Node :=
  { eui := s.w SGM_NODE_BUF_EUI_W
    addr := s.f SGM_NODE_BUF_ADDR_ADDR
    battery := s.on SGM_NODE_BUF_ADDR_CLASS
    block := s.f SGM_NODE_BUF_CELL_BLOCK
    channel := s.f SGM_NODE_BUF_CELL_CHANNEL
    profile := s.f SGM_NODE_BUF_CELL_PROFILE
    sets := s.f SGM_NODE_BUF_SETS_SETS
    period := min 6 (s.f SGM_NODE_BUF_SETS_PERIOD)
    phase := s.f SGM_NODE_BUF_SETS_PHASE
    client := s.f SGM_NODE_BUF_SCHED_CLIENT }

/-- A cell lies in a GATHER or EXCL_UP block of the staged or the active plan, on that EXCL_UP block's channel. -/
def State.cellValid (s : State) (n : Node) : Bool :=
  let ok (en : Bool) (kind k : Nat) : Bool :=
    en && (decide (kind = kindGather) || decide (kind = kindUp) && decide (k = n.channel))
  ok (s.on (SGM_BLOCK_EN n.block)) (s.f (SGM_BLOCK_KIND n.block)) (s.f (SGM_BLOCK_CHANNEL n.block)) ||
    ok (s.blockOn n.block) (s.blockKind n.block) (s.f (SGM_BLOCK_ACT_CHANNEL n.block))

/-- Another partner owns the cell. -/
def State.cellOwned (s : State) (i : Nat) (n : Node) : Bool :=
  s.sgm.nodes.any fun (e : Nat × Node) => decide (e.1 ≠ i) && decide (e.2.block = n.block) && decide (e.2.channel = n.channel)

/-- A node-table command keeps the old entry for frames whose sync it overtook (R296). -/
def State.nodeOld (s : State) (i : Nat) : State :=
  { s with sgm.olds := ((s.lt, i, s.sgm.nodes.look i) :: s.sgm.olds).take 64 }

/-- ADD. -/
def State.nodeAdd (s : State) (req : Req) (i : Nat) : State :=
  s.command nodeCmd req fun s =>
    let a := nodeCmd.addr
    let n := s.nodeBuf
    if 4096 ≤ s.sgm.nodes.length then s.cmdError a 2
    else if !s.cellValid n then s.cmdError a 5
    else if (s.sgm.nodes.look i).isSome || s.cellOwned i n then s.cmdError a 4
    else
      let s := s.nodeOld i
      let n := { n with gen := s.keyGen, added := s.framesNow, born := s.sgm.births + 1 }
      let s := ({ s with sgm.nodes := s.sgm.nodes.put i n, sgm.births := s.sgm.births + 1 } : State).nodesSync
      let s := s.when (s.on SGM_NODE_BUF_ADDR_ANNOUNCE) fun s => { s with sgm.joins := s.sgm.joins ++ [(i, 4)] }
      s.cmdDone a

/-- DEL. -/
def State.nodeDel (s : State) (req : Req) (i : Nat) : State :=
  s.command nodeCmd req fun s =>
    if (s.sgm.nodes.look i).isNone then s.cmdError nodeCmd.addr 3
    else ((s.nodeOld i).nodeDelete i).cmdDone nodeCmd.addr

/-- READ: the entry stands in `SGM_NODE_BUF`. -/
def State.nodeRead (s : State) (req : Req) (i : Nat) : State :=
  s.command nodeCmd req fun s =>
    match s.sgm.nodes.look i with
    | none => s.cmdError nodeCmd.addr 3
    | some n =>
      let s := (s.setW SGM_NODE_BUF_EUI_W n.eui).set SGM_NODE_BUF_ADDR_ADDR n.addr
      let s := ((s.put SGM_NODE_BUF_ADDR_CLASS n.battery).put SGM_NODE_BUF_ADDR_ANNOUNCE
        (s.sgm.joins.any fun (j : Nat × Nat) => decide (j.1 = i))).set SGM_NODE_BUF_ADDR_STATE n.state
      let s := ((s.set SGM_NODE_BUF_ADDR_GEN n.gen).set SGM_NODE_BUF_CELL_BLOCK n.block).set SGM_NODE_BUF_CELL_CHANNEL n.channel
      let s := ((s.set SGM_NODE_BUF_CELL_PROFILE n.profile).set SGM_NODE_BUF_SETS_SETS n.sets).set SGM_NODE_BUF_SETS_PERIOD n.period
      let s := ((s.set SGM_NODE_BUF_SETS_PHASE n.phase).set SGM_NODE_BUF_SCHED_CLIENT n.client).set SGM_NODE_BUF_DRIFT_D
        (toBits 32 n.drift)
      let (d, c) := ((s.sgm.moves.find? fun (j : Nat × Nat × Nat × Nat) => decide (j.1 = i)).map fun j => (j.2.2.1, j.2.2.2)).getD (0, 0)
      ((s.set SGM_NODE_BUF_MOVE_DEVICE d).set SGM_NODE_BUF_MOVE_CENTRE c).cmdDone nodeCmd.addr

/-- UPDATE: what the buffer holds replaces the entry's own words; what SGM learned stays, but for D and the anchor where
the class changes. -/
def State.nodeUpdate (s : State) (req : Req) (i : Nat) : State :=
  s.command nodeCmd req fun s =>
    let a := nodeCmd.addr
    match s.sgm.nodes.look i with
    | none => s.cmdError a 3
    | some o =>
      let n := s.nodeBuf
      if !s.cellValid n then s.cmdError a 5
      else if s.cellOwned i n then s.cmdError a 4
      else
        let n := { n with state := o.state, gen := o.gen, lastCtr := o.lastCtr, history := o.history, misses := o.misses
                          added := o.added, heard := o.heard, born := o.born }
        let n := if n.battery = o.battery then
            { n with drift := o.drift, sampled := o.sampled, anchor := o.anchor, pending := o.pending } else n
        ((s.nodeOld i).editNode_ i fun _ => n).cmdDone a

/-- REASSIGN: a MOVE entry in 8 beacons. -/
def State.nodeMove (s : State) (req : Req) (i : Nat) : State :=
  s.command nodeCmd req fun s =>
    if (s.sgm.nodes.look i).isNone then s.cmdError nodeCmd.addr 3
    else
      let e := (i, 8, s.f SGM_NODE_BUF_MOVE_DEVICE, s.f SGM_NODE_BUF_MOVE_CENTRE)
      ({ s with sgm.moves := (s.sgm.moves.filter fun (j : Nat × Nat × Nat × Nat) => decide (j.1 ≠ i)) ++ [e] } : State).cmdDone
        nodeCmd.addr

/-- SGM_NODE_ADD. -/
def execSgmNodeAdd (req : Req) (index : BitVec 12) (s : State) : Host.Outcome State Fault Refusal :=
  .next (s.nodeAdd req index.toNat)
/-- SGM_NODE_DEL. -/
def execSgmNodeDel (req : Req) (index : BitVec 12) (s : State) : Host.Outcome State Fault Refusal :=
  .next (s.nodeDel req index.toNat)
/-- SGM_NODE_READ. -/
def execSgmNodeRead (req : Req) (index : BitVec 12) (s : State) : Host.Outcome State Fault Refusal :=
  .next (s.nodeRead req index.toNat)
/-- SGM_NODE_UPDATE. -/
def execSgmNodeUpdate (req : Req) (index : BitVec 12) (s : State) : Host.Outcome State Fault Refusal :=
  .next (s.nodeUpdate req index.toNat)
/-- SGM_NODE_REASSIGN. -/
def execSgmNodeReassign (req : Req) (index : BitVec 12) (s : State) : Host.Outcome State Fault Refusal :=
  .next (s.nodeMove req index.toNat)

/-- DUTY_BUCKET_ROLL: the buckets' clock passes into its next second; the buckets that have left every window are dropped (R309). -/
def execDutyBucketRoll (s : State) : Host.Outcome State Fault Refusal :=
  .next <| s.datapath .sgm fun s =>
    let s := s.reach (s.now + (1000000000 - (s.lt - s.mtm.ltJump) % 1000000000))
    let t := s.dutySecond s.lt
    { s with sgm.duty := s.sgm.duty.filter fun (d : Nat × Nat × Nat × Nat) => decide (t ≤ d.1 + s.subWindow d.2.1) }

end Sys2Proof.Machine
end

