-- ==== Sys2Proof/Machine/Boot.lean ====
section
/-! DEFINITION. The configuration image (spec/03): headers, bank selection, confirmation, and what CFG writes from a folio at
start-up. -/

namespace Sys2Proof.Machine

/-! ### Bank selection (R65, R66, R69) -/

/-- The header of a bank as it was read. -/
def State.hdr (s : State) (b : Bool) : BankHdr := if b then s.cfg.hdrB else s.cfg.hdrA

/-- The bank registers follow the bank record, the OTP and the headers. -/
def State.bankSync (s : State) : State :=
  let s := (s.set CFG_BANK_OTP_RB s.cfg.otp).set CFG_BANK_TRIALS s.cfg.trials
  let s := (s.put CFG_BANK_VALID_A s.cfg.hdrA.valid).put CFG_BANK_VALID_B s.cfg.hdrB.valid
  ((s.set CFG_SEQ_A_SEQ s.cfg.hdrA.seq).set CFG_SEQ_B_SEQ s.cfg.hdrB.seq).set CFG_CONF_SEQ_SEQ s.cfg.confSeq

/-- The preferred one of the banks that count as valid: the higher SEQUENCE, A where they are equal. -/
def State.preferred (s : State) (l : List Bool) : Option Bool :=
  match l.contains false, l.contains true with
  | true, true => some (decide (s.cfg.hdrA.seq < s.cfg.hdrB.seq))
  | true, false => some false
  | false, true => some true
  | false, false => none

/-- Bank selection over the banks that count as valid (R65): a trial boot is counted, and a bank whose trials are spent counts
as invalid. There are two banks, so two rounds suffice. -/
def State.bankSelect (s : State) (l : List Bool) : Nat → State
  | 0 => s
  | n + 1 =>
    match s.preferred l with
    | none => { s with cfg.candidates := [] }
    | some b =>
      let rest := l.filter fun x => decide (x ≠ b)
      let all := { s with cfg.candidates := b :: rest }
      if s.cfg.confSeq = 0 || decide ((s.hdr b).seq ≤ s.cfg.confSeq) then all.down CFG_STATUS_TRIAL
      else if s.cfg.trials = 3 then (s.ev .cfg Ev.CFG_TRIAL_EXPIRED [b.toNat]).bankSelect rest n
      else ({ all with cfg.trials := s.cfg.trials + 1 } : State).up CFG_STATUS_TRIAL

/-- The running image is confirmed (R65, R69): CONF_SEQ, TRIALS, and the OTP count up to its ROLLBACK, below which a bank is
invalid from then on. -/
def State.confirm (s : State) : State :=
  let h := s.hdr (s.on CFG_STATUS_BANK)
  let otp := max s.cfg.otp h.rollback
  let keep (x : BankHdr) : BankHdr := { x with valid := x.valid && decide (otp ≤ x.rollback) }
  ({ s with
     cfg.confSeq := h.seq, cfg.trials := 0, cfg.otp := otp
     cfg.hdrA := keep s.cfg.hdrA, cfg.hdrB := keep s.cfg.hdrB } : State).down CFG_STATUS_TRIAL |>.bankSync

/-- CFG_HEADERS_READ (R65): both headers are read and their tags checked with the key of the image (R62, R63); the recorded bank of
R66 counts as invalid for this boot. At a cold reset CFG loads the stored offsets (R36) and the replacement request (R426,
R432). -/
def execCfgHeadersRead (s : State) : Host.Outcome State Fault Refusal :=
  .next <|
    if s.cfg.hdrRead || !decide (s.cfg.stage = 3 ∨ s.cfg.stage = 4) || s.cfg.bistDead then s
    else
      let s := s.imageKeyAsk
      let s := { s with cfg.hdrRead := true, cfg.hdrA := s.bankHdr false, cfg.hdrB := s.bankHdr true }
      let s := s.bankSync
      let s := s.with? s.cfg.failedBank fun s _ =>
        (s.up CFG_STATUS_FALLBACK).ev .cfg Ev.CFG_BANK_FALLBACK [s.f CFG_STATUS_BAD_SECTION]
      let valid := [false, true].filter fun b => (s.hdr b).valid && decide (s.cfg.failedBank ≠ some b)
      let s := (s.bankSelect valid 2).bankSync
      if s.cfg.warm then s
      else
        let s := s.each [RefId.a, .b, .c] fun s x => s.with? (s.refIn x).stored fun s o => s.learnSet x o
        s.with? s.asy.replaceNvm fun s _ => (s.up ASY_STATUS_REPLACE).up FLD_STATUS_REPLACE

/-! ### Folio words -/

/-- The word that a folio gives an address, if it gives one. -/
def folioValue (f : FolioData) (a : Nat) : Option Word :=
  (f.words.reverse.find? fun x => decide (x.addr.toNat = a)).map (·.value)

/-- The state that has a folio word written, in a register that plainly takes it. -/
def State.folioAt (s : State) (f : FolioData) (a : Nat) : State :=
  s.with? (folioValue f a) fun s v => s.folioWord { addr := BitVec.ofNat 32 a, value := v }

/-- A folio gives an address a value other than the present one. -/
def State.folioDiffers (s : State) (f : FolioData) (a : Nat) : Bool := decide ((s.folioAt f a).rd a ≠ s.rd a)

/-- CFG writes a folio into every unit at start-up (R73), with what follows in the units. -/
def State.folioLoad (s : State) (f : FolioData) : State :=
  let old := s
  let s := s.each UnitId.all fun s u => s.loadUnit u f
  let s := { s with fld.hvLevel := some f.safeLevel.toNat, cip.banks := s.f CIP_ROOT_SEL_BANK }
  s.takeReserves.follow old

/-! ### The SCHEDULE section (R64, R76) -/

/-- A vendor alarm is written from the section with EN 0, to be enabled at step 6; without an entry it is left clear. -/
def State.alarmWrite (s : State) (n : Nat) (e : Option AlarmEntry) : State :=
  let s := s.almDisarm n
  let s := (s.setW (almOpen n) (e.elim 0 (·.opens.toNat))).set (almWidth n) (e.elim 0 (·.width.toNat))
  let s := s.wr (almCtl n) (e.elim 0 (fun x => x.ctl &&& ~~~1#32))
  if e.isSome then { s with cfg.alarmsDue := s.cfg.alarmsDue ++ [n] } else s

/-- Step 5 loads the section: a vendor alarm whose entry equals the one that it was last loaded from stays through a warm reset;
the schedule table is replaced. -/
def State.loadSchedule (s : State) (c : CritLoad) : State :=
  let entry (n : Nat) : Option AlarmEntry := c.alarms.find? fun e => decide (e.num.toNat = n)
  let s := { s with cfg.alarmsDue := [] }
  let s := s.each (List.range 64) fun s n =>
    if s.cfg.warm && decide (s.cfg.vendorAlarms.look n = entry n) then s else s.alarmWrite n (entry n)
  { s with
    cfg.vendorAlarms := c.alarms.foldl (fun m (e : AlarmEntry) => m.put e.num.toNat e) []
    fld.schedule := ((List.range c.entries.length).zip c.entries).foldl (fun m (e : Nat × SchedEntry) => m.put e.1 e.2) []
    bad := s.bad.filter fun (b : UnitId × Nat × Nat) => !(decide (b.1 = .fld) && decide (b.2.1 = 0)) }

/-! ### The critical sections (R66 to R68) -/

/-- The section of a bank that failed first, as BAD_SECTION names it (TYPE, INDEX), where the selected folio is `n`. The order is
FIRMWARE, SCHEDULE, folio (DESIGN CHOICE, log entry 237). -/
def critFailed (c : CritLoad) (n : Nat) : Option Nat :=
  if !c.firmware then some 0x10 else if !c.schedule then some 0x70
  else if !c.folioOk.getLsbD n then some (0x40 + n) else none

/-- The lowest-numbered folio that authenticated. -/
def critLowest (c : CritLoad) : Option Nat := (List.range 4).find? fun n => c.folioOk.getLsbD n

/-- A bank that authenticates FIRMWARE, SCHEDULE and a folio (R67). -/
def critUsable (c : CritLoad) : Bool := c.firmware && c.schedule && (critLowest c).isSome

/-- The IMG fields of TOP, MTM, PWR and FLD take their pre-image values (R73). -/
def State.preImage (s : State) : State :=
  s.each (s.regs.filter fun (e : Nat × Word) =>
      match unitAt e.1 with | some u => [UnitId.top, .mtm, .pwr, .fld].contains u | none => false) fun s e =>
    match regAt e.1 with
    | some (_, r, w) =>
      let m := BitVec.ofNat 32 (imgMask r w)
      s.wr e.1 ((s.rd e.1 &&& ~~~m) ||| (regResetWord r w &&& m))
    | none => s

/-- The device enters NO_IMAGE (R68), which ends the boot that treats a bank as invalid (R66). TOP and CFG alone answer; the IMG
fields hold their pre-image values (R42, R73), so no vendor alarm is armed and none counts as loaded, the PWM outputs stand at their
pre-ready levels, the DALI ports are silent, and the Assay monitors are not armed: the next start-up that reaches step 6 takes the
start levels and enables the alarms of its section (R72, R76). -/
def State.enterNoImage (s : State) : State :=
  let old := s
  let s := s.each (List.range 64) State.almDisarm
  let s := s.each (List.range 4) fun s p => s.editPwm p fun o => { o with drive := .strap }
  let s := { s with
    cfg.noImage := true, cfg.failedBank := none, cfg.alarmsDue := [], cfg.vendorAlarms := []
    asy.armed := false, asy.watchdog := false, asy.applied := false, fld.dali := [] }
  let s := ((s.preImage.follow old).set TOP_UNIT_READY_READY 1).setReady .cfg true
  (s.set CFG_STATUS_PHASE 0xA).faultN true

/-- A bank is booted with a folio (R66, R67): its critical sections are loaded, which is step 5. -/
def State.bootBank (s : State) (b : Bool) (c : CritLoad) (folio : Nat) : State :=
  let subst := decide (folio ≠ s.f TOP_FOLIO_STAT_ACTIVE)
  let s := (s.put CFG_STATUS_BANK b).set CFG_BANK_RB_RUN (s.hdr b).rollback
  let s := if s.cfg.confSeq = 0 then s.confirm else s
  let s := s.put TOP_FOLIO_STAT_SUBST subst
  let s := s.when subst (·.ev .cfg Ev.FOLIO_SUBSTITUTED [s.f TOP_FOLIO_STAT_ACTIVE, folio])
  let s := ({ s with cfg.folios := c.folios, cfg.code := c.code } : State).set TOP_FOLIO_STAT_ACTIVE folio
  let s := s.set TOP_FOLIO_STAT_AVAIL (2 ^ folio)
  let s := s.with? (s.folio folio) State.folioLoad
  (s.loadSchedule c).stageIs 5

/-- CRITICAL_SECTIONS_LOADED (R66, R67, R68): a bank that authenticates all of them, the preferred one first; failing that, one
that authenticates FIRMWARE, SCHEDULE and a folio; failing that, NO_IMAGE. -/
def execCriticalSectionsLoaded (s : State) : Host.Outcome State Fault Refusal :=
  .next <|
    if !s.cfg.hdrRead || s.cfg.noImage || s.cfg.bistDead || !decide (s.cfg.stage = 4 ∨ (s.cfg.stage = 3 ∧ s.cfg.warm)) then s
    else
      let n := s.f TOP_FOLIO_STAT_ACTIVE
      let ld := s.critLoad
      let l := s.cfg.candidates
      let bad := l.filterMap fun b => critFailed (ld b) n
      let full := l.find? fun b => (critFailed (ld b) n).isNone
      let tried := if decide (full = l.head?) || decide (l.length < 2) then [] else bad.take 1
      let s := s.each tried fun s x => s.ev .cfg Ev.CFG_BANK_FALLBACK [x]
      let s := match (if full.isSome && decide (full = l.head?) then [] else bad).getLast? with
        | some x => s.set CFG_STATUS_BAD_SECTION x
        | none => s
      let pick := match full with
        | some b => some (b, n)
        | none => (l.find? fun b => critUsable (ld b)).bind fun b => (critLowest (ld b)).map fun k => (b, k)
      match pick with
      | none => s.enterNoImage
      | some (b, k) =>
        let s := s.when (decide (some b ≠ l.head?)) fun s => (s.up CFG_STATUS_FALLBACK).down CFG_STATUS_TRIAL
        s.bootBank b (ld b) k

end Sys2Proof.Machine
end

