-- ==== Sys2Proof/Machine/Flw.lean ====
section
/-! DEFINITION. Flow table and routing (spec/06): its rows. -/

namespace Sys2Proof.Machine

/-- The first packet of FLW that a test admits. -/
def State.firstWait (s : State) (f : FlwPkt → Bool) : Option FlwPkt := s.flw.wait.find? f

/-- FLOW_LOOKUP: of the packet that arrived first. -/
def execFlowLookup (s : State) : Host.Outcome State Fault Refusal :=
  .next <| s.datapath .flw fun s => s.with? (s.firstWait fun x => decide (x.stage = .arrived)) State.flowLookup

/-- FLOW_DRAM_READ_DONE: for the packet that has waited longest of those whose bucket has been read. -/
def execFlowDramReadDone (s : State) : Host.Outcome State Fault Refusal :=
  .next <| s.datapath .flw fun s =>
    s.with? (s.firstWait fun x => decide (x.stage = .dram) && s.bucketDone x) fun s x => s.flowSearch x true

/-- ROUTE_LOOKUP_DONE: for the packet that has waited longest. -/
def execRouteLookupDone (s : State) : Host.Outcome State Fault Refusal :=
  .next <| s.datapath .flw fun s =>
    s.with? (s.firstWait fun x => match x.stage with | .route _ _ _ => true | _ => false) fun s x =>
      match x.stage with
      | .route uses nh gen => s.routeDone x uses nh gen
      | _ => s

/-- REMOTE_LOOKUP_TIMEOUT: the earliest deadline passes and the packet is dropped. -/
def execRemoteLookupTimeout (s : State) : Host.Outcome State Fault Refusal :=
  .next <|
    let l := s.flw.wait.filter fun (x : FlwPkt) => decide (x.stage = .remote)
    s.with? (l.foldl (fun (m : Option FlwPkt) x => match m with
      | some k => if k.deadline ≤ x.deadline then some k else some x
      | none => some x) none) fun s x =>
        (((s.reach x.deadline).flwDrop x.pkt).bump FLW_CNT_REMOTE_TMO).fencesCheck

/-- REMOTE_LOOKUP_RX: the key is the number of its 39 bytes, the first one lowest. -/
def execRemoteLookupRx (src : BitVec 6) (request : BitVec 32) (key : BitVec 312) (edition : BitVec 16) (param : BitVec 32)
    (len : BitVec 16) (redirected : Bool) (s : State) : Host.Outcome State Fault Refusal :=
  .next <| s.datapath .flw fun s =>
    let k := natLe 39 key.toNat
    match s.fence k with
    | some m =>
      (s.fenceHold m.id (.lookup src.toNat request.toNat k edition.toNat param.toNat len.toNat redirected)).smpSend 0x37
        (some src.toNat) (octets k)
    | none => s.ownerAnswer src.toNat request.toNat k edition.toNat param.toNat len.toNat redirected

/-- The REMOTE entry of a key goes, and with it that of the other key of its pair (R152). -/
def State.remoteGone (s : State) (key : List Byte) : State :=
  match (s.flowGet key).filter fun (f : Flow) => decide (f.tier = 3) with
  | none => s
  | some f =>
    s.each (f :: (s.partner f).toList) fun s (g : Flow) => s.with? (s.flowFind g.key) State.flowDel

/-- The REMOTE entry of a key learns the translation that its owner answered (R136, R152, R154). -/
def State.remoteNat (s : State) (x : FlwPkt) (rev : Bool) (addr port ext : Nat) : State :=
  s.flowEdit x.key fun f => if f.tier = 3 then { f with nat := true, rev := rev, xlatAddr := addr, xlatPort := port, ext := ext } else f

/-- An owner's answer for a waiting packet (R154, R155). Whether the translation is NAT64 or NAT44 the packet's own PARAM says, since the
answer does not (DESIGN CHOICE, log entry 240). -/
def State.lookupAnswer (s : State) (x : FlwPkt) (miss : Bool) (o : NatOutcome) (addr port : Nat) : State :=
  if miss then
    let s := s.remoteGone x.key
    match s.flowGet x.key with
    | some f => s.useFlow x f
    | none => s.flowMiss x
  else match o with
  | .exception => s.natExc x.pkt
  | .drop => s.flwDrop x.pkt
  | .none => s.toRoute x false
  | .outbound =>
    let s := s.remoteNat x false addr port 0
    (s.editPkt x.pkt fun p => { p with nat := some (addr, port), nat64 := paramNat x.param = 2 }).toRoute x false
  | .inbound =>
    let v6 := s.free .xlatV6
    let s := s.drawn.remoteNat x true addr port (if paramNat x.param = 2 then v6 % 2 ^ 128 else 0)
    (s.editPkt x.pkt fun p => { p with
      nat := some (addr, port), natRev := true, natPfx := s.prefix64, nat64 := paramNat x.param = 2
      natV6 := if paramNat x.param = 2 then some (v6 % 2 ^ 128) else none }).toRoute x false

/-- LOOKUP_RESP_RX: XLAT as R136 lays it out, its first byte lowest. -/
def execLookupRespRx (request : BitVec 32) (miss : Bool) (nat : NatOutcome) (xlat : BitVec 48) (s : State) :
    Host.Outcome State Fault Refusal :=
  .next <| s.datapath .flw fun s =>
    let b := natLe 6 xlat.toNat
    s.with? (s.firstWait fun x => decide (x.stage = .remote) && decide (x.req = request.toNat)) fun s x =>
      (s.lookupAnswer x miss nat (beAt b 0 4) (beAt b 4 2)).fencesCheck

/-! ### Ageing (R156) -/

/-- An entry has expired by its own END or its partner's. -/
def State.flowExpired (s : State) (f : Flow) : Bool :=
  let c := paramClass f.param
  let ended := f.ended || ((s.partner f).map (·.ended)).getD false
  let t := max 1 (if ended then s.f (FLW_CLASS_END c) else s.f (FLW_CLASS_IDLE c))
  decide (t ≤ (s.ageTick + 65536 - f.last) % 65536)

/-- AGEING_SWEEP: one place is visited, an expired entry freed with an AGED record, a stale next hop cleared; a pass begins
at the first place. -/
def execAgeingSweep (sram : Bool) (index : BitVec 23) (s : State) : Host.Outcome State Fault Refusal :=
  .next <| s.datapath .flw fun s =>
    let s := if sram && decide (index.toNat = 0) then { s with flw.commits := [] } else s
    match s.flowAt (sram, index.toNat) with
    | none => s
    | some f =>
      if s.flowExpired f then s.flowFree f.key 2
      else s.when (decide (f.tier ≠ 3) && decide (f.gen ≠ s.f (FLW_VRF_CTL_GEN (keyVrf f.key))))
        (·.flowEdit f.key fun f => { f with nh := 0xFFFF })

/-! ### Limp mode (R157) -/

/-- Limp mode begins: packets waiting on a DRAM read are dropped, the WARM and REMOTE entries are lost, a PINNED one whose
partner was WARM is freed with a LIMP record, and cached next hops end; placement's moves end too (R195). -/
def State.flwLimp (s : State) : State :=
  let l := s.flw.wait.filter fun (x : FlwPkt) => decide (x.stage = .dram) || (match x.stage with | .route _ _ _ => true | _ => false)
  let s := s.each l fun s x =>
    let uses := match x.stage with | .route uses _ _ => uses | _ => false
    ((s.countUse x uses none).flwDrop x.pkt).bump FLW_CNT_LIMP_DROP
  let s := s.up FLW_STATUS_LIMP
  let lost := s.flw.warm.length
  let s := { s with flw.warm := [] }.flwSync
  let s := s.ev .flw Ev.FLW_LIMP [lost]
  let s := { s with flw.sram := s.flw.sram.map fun (e : Nat × Flow) => (e.1, { e.2 with nh := 0xFFFF }) }
  let alone := s.flw.sram.filter fun (e : Nat × Flow) => e.2.nat && (s.partner e.2).isNone
  let s := s.each alone fun s e => s.flowFree1 e.2.key 4
  (s.up PLE_STATE_LIMP).movesLimp

/-- FLW_LIMP: DRC's freeze reaches FLW (R157). -/
def execFlwLimp (s : State) : Host.Outcome State Fault Refusal :=
  .next <| s.datapath .flw fun s => if s.on DRC_STATUS_FROZEN && !s.limp then s.flwLimp else s

/-! ### Flow commands (R139, R152, R153) -/

/-- The flow command register. -/
def flowCmd : CmdReg := ⟨FLW_FLOW_CMD_STATE.addr, .flw, .operator⟩

/-- FLW_FLOW_CMD. -/
def State.flowOp (s : State) (req : Req) (op : Nat) : State :=
  s.command flowCmd req fun s =>
    let key := s.bufKey
    if !([1, 2, 3, 4].contains op) then s.cmdError flowCmd.addr 5
    else match s.flowGet key with
    | none => s.cmdError flowCmd.addr 2
    | some f =>
      match op with
      | 1 => (s.flowToBuf f).cmdDone flowCmd.addr
      | 2 => (s.flowFree key 3).cmdDone flowCmd.addr
      | 3 =>
        if f.tier = 3 then s.cmdError flowCmd.addr 4
        else match s.flowToTier key true with
        | some s => (s.flowSetPin key true).cmdDone flowCmd.addr
        | none => s.cmdError flowCmd.addr 3
      | _ => (s.flowSetPin key false).cmdDone flowCmd.addr

/-- FLOW_READ. -/
def execFlowRead (req : Req) (s : State) : Host.Outcome State Fault Refusal := .next (s.flowOp req 1)
/-- FLOW_DELETE. -/
def execFlowDelete (req : Req) (s : State) : Host.Outcome State Fault Refusal := .next (s.flowOp req 2)
/-- FLOW_PIN. -/
def execFlowPin (req : Req) (s : State) : Host.Outcome State Fault Refusal := .next (s.flowOp req 3)
/-- FLOW_UNPIN. -/
def execFlowUnpin (req : Req) (s : State) : Host.Outcome State Fault Refusal := .next (s.flowOp req 4)

/-- A tier move of placement; a full bucket, PIN or a SHELF pin leaves the entry where it is, a refusal is counted (R153, R191,
R202). -/
def State.tierMove (s : State) (key : List Byte) (sram : Bool) : State × Bool :=
  match s.flowGet key with
  | none => (s, false)
  | some f =>
    if f.tier = 3 ∨ f.pin ∨ (s.pairPin key 2).isSome ∨ (f.tier = 1) = sram then (s, false)
    else match s.flowToTier key sram with
    | some s => (s, true)
    | none => (s.bump PLE_CNT_TIER_REFUSED, false)

/-- FLOW_TIER_MOVE. -/
def execFlowTierMove (key : BitVec 312) (toSram : Bool) (s : State) : Host.Outcome State Fault Refusal :=
  .next (s.datapath .flw fun s => (s.tierMove (natLe 39 key.toNat) toSram).1)

/-! ### Route commands (R144 to R146, R158) -/

/-- The route command register. -/
def routeCmd : CmdReg := ⟨FLW_ROUTE_CMD_STATE.addr, .flw, .operator⟩

/-- The route in `FLW_ROUTE_BUF`; none for a length or next hop out of range. -/
def State.routeBuf (s : State) : Option Route :=
  let v6 := s.on FLW_ROUTE_BUF_DESC_V6
  let w := if v6 then 128 else 32
  let len := s.f FLW_ROUTE_BUF_DESC_LEN
  let b := (List.range 4).flatMap fun i => natLe 4 (s.f (FLW_ROUTE_BUF_PREFIX_W i))
  let nh := s.f FLW_ROUTE_BUF_NH_NH
  if w < len ∨ 65534 < nh then none
  else some { vrf := s.f FLW_ROUTE_BUF_DESC_VRF, v6 := v6, len := len, nh := nh
              prefix_ := maskTo w len (beNat (if v6 then b else b.take 4)), limp := s.on FLW_ROUTE_BUF_DESC_LIMP }

/-- Two routes for the same prefix. -/
def sameRoute (a b : Route) : Bool :=
  decide (a.vrf = b.vrf) && a.v6 == b.v6 && decide (a.len = b.len) && decide (a.prefix_ = b.prefix_)

/-- How many routes one counts as (R144). -/
def routeSize (r : Route) : Nat := if r.v6 && decide (64 < r.len) then 2 else 1

/-- ADD (R145, R158). -/
def State.routeAdd (s : State) (r : Route) : State :=
  let a := routeCmd.addr
  let main := s.flw.routes.filter fun (x : Route) => !sameRoute x r
  let limp := s.flw.limpRoutes.filter fun (x : Route) => !sameRoute x r
  if s.limp && !r.limp then s.cmdError a 5
  else if r.limp && decide (16384 ≤ limp.length) then s.cmdError a 3
  else if s.limp then { s with flw.limpRoutes := limp ++ [r] }.cmdDone a
  else if 1048576 < main.foldl (fun n x => n + routeSize x) (routeSize r) then s.cmdError a 2
  else { s with flw.routes := main ++ [r], flw.limpRoutes := if r.limp then limp ++ [r] else limp }.cmdDone a

/-- DEL (R145, R158). -/
def State.routeDel (s : State) (r : Route) : State :=
  let a := routeCmd.addr
  let limp := s.flw.limpRoutes.filter fun (x : Route) => !sameRoute x r
  if s.limp then
    if !r.limp then s.cmdError a 5
    else if limp.length = s.flw.limpRoutes.length then s.cmdError a 4
    else { s with flw.limpRoutes := limp }.cmdDone a
  else
    let main := s.flw.routes.filter fun (x : Route) => !sameRoute x r
    if main.length = s.flw.routes.length then s.cmdError a 4
    else { s with flw.routes := main, flw.limpRoutes := limp }.cmdDone a

/-- COMMIT; the 128th of a VRF in a sweep pass is refused with BUSY (R146). -/
def State.routeCommit (s : State) (v : Nat) : State :=
  let n := s.flw.commits.lookD v 0
  if 127 ≤ n then s.cmdError routeCmd.addr 1
  else
    let s := { s with flw.commits := s.flw.commits.put v (n + 1) }
    (s.set (FLW_VRF_CTL_GEN v) (s.f (FLW_VRF_CTL_GEN v) + 1)).cmdDone routeCmd.addr

/-- FLW_ROUTE_CMD. -/
def State.routeOp (s : State) (req : Req) (op vrf : Nat) : State :=
  s.command routeCmd req fun s =>
    match op with
    | 1 | 2 =>
      match s.routeBuf with
      | none => s.cmdError routeCmd.addr 5
      | some r => if op = 1 then s.routeAdd r else s.routeDel r
    | 3 => s.routeCommit vrf
    | _ => s.cmdError routeCmd.addr 5

/-- ROUTE_ADD. -/
def execRouteAdd (req : Req) (s : State) : Host.Outcome State Fault Refusal := .next (s.routeOp req 1 0)
/-- ROUTE_DEL. -/
def execRouteDel (req : Req) (s : State) : Host.Outcome State Fault Refusal := .next (s.routeOp req 2 0)
/-- ROUTE_COMMIT. -/
def execRouteCommit (req : Req) (vrf : BitVec 6) (s : State) : Host.Outcome State Fault Refusal :=
  .next (s.routeOp req 3 vrf.toNat)

end Sys2Proof.Machine
end

