-- ==== Sys2Proof/Machine/PleOps.lean ====
section
/-! DEFINITION. Tiers 2 to 4 of placement and its pins (R184 to R203): scores, tier changes, hints and requests of moves,
steering requests, load and bias, and the pins of clients and flows. -/

namespace Sys2Proof.Machine

/-- A list in order: structural insertion sort. -/
def insertBy {α : Type} (le : α → α → Bool) (a : α) : List α → List α
  | [] => [a]
  | b :: t => if le a b then a :: b :: t else b :: insertBy le a t
def sortBy {α : Type} (le : α → α → Bool) (l : List α) : List α := l.foldr (insertBy le) []

/-! ### Tier 2 inputs (R185, R191) -/

/-- The SRAM input. -/
def State.sramX (s : State) : Nat := min 1023 (s.f FLW_SRAM_COUNT * 1023 / 262144)

/-- Packets of a flow in the period, as PLE knows them: exact for a PINNED entry, a sketch's estimate for a WARM one. -/
def State.flowPkts (s : State) (f : Flow) : Nat :=
  let n := (s.flw.seen.filter fun (e : List Byte × Option Nat × Nat) => e.1 == f.key).foldl (fun n e => n + e.2.2) 0
  if f.tier = 1 then n else n + Config.sketchExtra f.key n

/-- The ACT input of a flow. -/
def State.flowAct (s : State) (f : Flow) : Nat := min 1023 (s.flowPkts f * 1023 / max 1 (s.f PLE_T2_ACT_ACT_FULL))

/-- The tier 2 score of a flow. -/
def State.flowScore (s : State) (dram : Nat) (f : Flow) : Int :=
  s.score 2 [(2, -(s.sramX : Int)), (3, dram), (5, s.flowAct f)]

/-- The flow is frozen by a SHELF pin, or held by PIN (R191, R202). -/
def State.flowFixed (s : State) (f : Flow) : Bool := f.pin || (s.pairPin f.key 2).isSome

/-- The entries this device owns. -/
def State.ownedFlows (s : State) : List Flow :=
  ((s.flw.sram ++ s.flw.warm).map Prod.snd).filter fun (f : Flow) => decide (f.tier ≠ 3)

/-- This device owns the flow of a key. -/
def State.ownsFlow (s : State) (key : List Byte) : Bool :=
  match s.flowGet key with | some f => decide (f.tier ≠ 3) | none => false

/-! ### Tier changes (R191, R192) -/

/-- One tier change within the budget that is left; it and its refusal are recorded (R211). -/
def State.tierChange (x : State × Nat) (key : List Byte) (sram forced : Bool) (score : Int) : State × Nat :=
  if x.2 = 0 then x
  else
    let d : Decision := { kind := if sram then 2 else 3, tier := 2, forced := forced, object := x.1.flowObj key
                          src := if sram then 2 else 1, dst := if sram then 1 else 2, scoreFrom := score, scoreTo := score }
    match x.1.tierMove key sram with
    | (s, true) => ((s.decide_ d).hystChange 2 key, x.2 - 1)
    | (s, false) => (s.decide_ { d with outcome := 1 }, x.2)

/-- Where forced demotion ends. -/
def State.sramLo (s : State) : Nat := min (s.f PLE_T2_SRAM_LO) (s.f PLE_T2_SRAM_HI - 1)

/-- Forced demotion of entries in their order, until SRAM is low enough or the budget is spent. -/
def forceDemote (dram : Nat) : List Flow → State × Nat → State × Nat
  | [], x => x
  | f :: t, x => if x.1.sramX < x.1.sramLo then x else forceDemote dram t (State.tierChange x f.key false true (x.1.flowScore dram f))

/-- SRAM above its limit: lowest ACT first (R192). -/
def State.tierForced (s : State) (dram budget : Nat) : State × Nat :=
  let begun := s.ple.forcing || decide (s.f PLE_T2_SRAM_HI ≤ s.sramX)
  if !begun then (s, budget)
  else
    let l := s.ownedFlows.filter fun (f : Flow) => decide (f.tier = 1) && !s.flowFixed f
    let l := sortBy (fun (a b : Flow) => decide (s.flowAct a ≤ s.flowAct b)) l
    let (s, n) := forceDemote dram l (s, budget)
    ({ s with ple.forcing := !decide (s.sramX < s.sramLo) }, n)

/-- The 16,384 WARM entries with the highest estimates. -/
def State.promotable (s : State) : List Flow :=
  (sortBy (fun (a b : Flow) => decide (s.flowPkts b ≤ s.flowPkts a))
    (s.ownedFlows.filter fun (f : Flow) => decide (f.tier = 2) && !s.flowFixed f)).take 16384

/-- One evaluation of entries for a change: those whose condition has held long enough. -/
def State.hystAll (s : State) (cand : Nat) (l : List (Flow × Bool)) : State × List Flow :=
  l.foldl (fun (x : State × List Flow) (e : Flow × Bool) =>
    let (s, won) := x.1.hystEval 2 e.1.key (if e.2 then [cand] else [])
    (s, if won.isSome then x.2 ++ [e.1] else x.2)) (s, [])

/-- Promotions in descending score, then demotions in ascending score, within the budget (R191). -/
def State.tierNormal (s : State) (dram budget : Nat) : State :=
  let thr := sx 24 (s.f PLE_T2_THR_THR)
  let sc (f : Flow) : Int := s.flowScore dram f
  let up := s.promotable.map fun f => (f, decide (thr + s.margin 2 ≤ sc f))
  let down := (s.ownedFlows.filter fun (f : Flow) => decide (f.tier = 1) && !s.flowFixed f).map fun f =>
    (f, decide (sc f < thr - s.margin 2))
  let (s, ups) := s.hystAll 1 up
  let (s, downs) := s.hystAll 2 down
  let x := (sortBy (fun (a b : Flow) => decide (sc b ≤ sc a)) ups).foldl (fun (x : State × Nat) f =>
    if x.1.sramX < x.1.f PLE_T2_SRAM_HI then State.tierChange x f.key true false (sc f) else x) (s, budget)
  ((sortBy (fun (a b : Flow) => decide (sc a ≤ sc b)) downs).foldl (fun (x : State × Nat) f =>
    State.tierChange x f.key false false (sc f)) x).1

/-! ### Hints and requests (R193, R194, R196, R204) -/

/-- MOVE_HINT is sent. -/
def State.sendHint (s : State) (key : List Byte) (dest share : Nat) : State :=
  s.smpSend 0x30 (some dest) (octets (key ++ natLe 2 share))

/-- The share of a flow's packets that came from a device. -/
def State.localShare (s : State) (key : List Byte) (device : Nat) : Nat :=
  let l := s.flw.seen.filter fun (e : List Byte × Option Nat × Nat) => e.1 == key
  let all := l.foldl (fun n (e : List Byte × Option Nat × Nat) => n + e.2.2) 0
  let mine := l.foldl (fun n (e : List Byte × Option Nat × Nat) => if e.2.1 = some device then n + e.2.2 else n) 0
  if all = 0 then 0 else mine * 1023 / all

/-- The requester whose LOCAL reaches the threshold. -/
def State.localMost (s : State) (key : List Byte) : Option Nat :=
  let l := s.flw.seen.filter fun (e : List Byte × Option Nat × Nat) => e.1 == key
  (l.filterMap fun (e : List Byte × Option Nat × Nat) => e.2.1).find? fun r =>
    decide (max 512 (s.f PLE_T2_ACT_LOCAL_MIN) ≤ s.localShare key r)

/-- The owner's hints of one period: to a requester whose LOCAL has reached the threshold on K consecutive periods. The runs
are kept under tier number 10. -/
def State.hintsSend (s : State) : State :=
  let keys := (((s.flw.seen.filter fun (e : List Byte × Option Nat × Nat) => e.2.1.isSome).map Prod.fst).eraseDups).take 16384
  let hits := keys.filterMap fun k => (s.localMost k).map fun r => (k, r)
  let kept := s.ple.hyst.filter fun (h : Hyst) => decide (h.tier ≠ 10) || hits.any fun (x : List Byte × Nat) => x.1 == h.obj
  let s := { s with ple.hyst := kept }
  s.each hits fun s x =>
    let h := s.hystOf 10 x.1
    let n := if h.runs ≠ 0 ∧ h.cand = x.2 then h.runs + 1 else 1
    let s := s.hystPut { h with cand := x.2, runs := n }
    s.when (decide (max 1 (s.f (PLE_HYST_K 1)) ≤ n) && !s.flowHeld x.1 && s.ownsFlow x.1) fun s =>
      s.sendHint x.1 x.2 (s.localShare x.1 x.2)

/-- A move of the flow is open. -/
def State.flowMoving (s : State) (key : List Byte) : Bool :=
  (s.fence key).isSome || s.ple.movesOut.any fun m =>
    m.snapshot.key == key || (match m.partner with | some p => p.key == key | none => false)

/-- MOVE_REQ is sent and the fence raised, for both keys of a pair that this device knows (R194), unless the device is at a
limit. -/
def State.moveAsk (s : State) (key : List Byte) (owner : Nat) : State :=
  if s.limp || s.flowMoving key || s.ownsFlow key || decide (owner = s.shelfId ∨ 64 ≤ s.openMoves ∨
      min 256 (s.f PLE_T2_BUDGET_OWN) ≤ s.ple.reqs) then s
  else
    let id := s.ple.nextMove
    let m : MoveIn := { id := id, keys := s.pairKeys key, other := owner, opened := s.now }
    let s := ({ s with
      ple.nextMove := (id + 1) % 2 ^ 32, ple.reqs := s.ple.reqs + 1, ple.movesIn := s.ple.movesIn ++ [m] } : State).movesSync
    s.smpSend 0x31 (some owner) (octets (natLe 4 id ++ key))

/-! ### Pins (R202, R203) -/

/-- A pin of the same object and level. -/
def samePin (a b : Pin) : Bool := a.flow == b.flow && a.key == b.key && decide (a.level = b.level)

/-- `PLE_STATUS.PINS` follows the pins. -/
def State.pinSync (s : State) : State :=
  s.set PLE_STATUS_PINS (min 4096 (s.ple.pins.filter fun (p : Pin) => decide (p.level < 2)).length)

/-- The device has room for a pin: SHELF pins, and 4,096 UNIT and DEVICE pins (R203). -/
def State.pinRoom (s : State) (p : Pin) : Bool :=
  decide (2 ≤ p.level ∨ (s.ple.pins.filter fun (q : Pin) => decide (q.level < 2) && !samePin q p).length < 4096)

/-- A pin stored in place of the old one, where there is room. -/
def State.pinPut (s : State) (p : Pin) : State :=
  s.when (s.pinRoom p) fun s =>
    { s with ple.pins := (s.ple.pins.filter fun (q : Pin) => !samePin q p) ++ [p] }.pinSync

/-- The radio unit that serves a station with one link. -/
def stationUnit (st : Station) : Nat := if st.links = 1 then UnitId.rfa.num else UnitId.rfb.num

/-- A station with more than one link. -/
def multiLink (st : Station) : Bool := !decide (st.links = 1 ∨ st.links = 2 ∨ st.links = 4)

/-- A SHELF pin of the pin's object overrides it (R202). -/
def State.pinFrozen (s : State) (p : Pin) : Bool :=
  decide (p.level < 2) && if p.flow then (s.pairPin p.key 2).isSome else (s.clientPin (pinMac p.key) 2).isSome

/-- A promotion that a pin forces is recorded (R186, R211). -/
def State.promoteLog (s : State) (f : Flow) (score : Int) : State :=
  s.decide_ { kind := 2, tier := 2, forced := true, object := s.flowObj f.key, src := 2, dst := 1, scoreFrom := score, scoreTo := score }

/-- A flow pin applied as a forced change; whether it is met. -/
def State.flowPinApply (s : State) (p : Pin) : State × Bool :=
  let own := s.ownsFlow p.key
  match p.level with
  | 0 =>
    if !own then (s, false)
    else
      let up := (s.flowGet p.key).filter fun (f : Flow) => decide (f.tier ≠ 1)
      match s.flowToTier p.key true with
      | some t => ((t.flowSetPin p.key true).with? up fun t f => (t.promoteLog f (s.flowScore s.ple.dram f)).hystChange 2 p.key, true)
      | none => (s, false)
  | 1 =>
    if p.device = s.shelfId then
      if own then (s, true)
      else match s.flowGet p.key with
      | some f => (s.moveAsk p.key (f.nh % 64), false)
      | none => (s, false)
    else if own then (s.when (!s.on PLE_STATE_LIMP) (·.sendHint p.key p.device (s.localShare p.key p.device)), false)
    else (s, (s.flowGet p.key).any fun (f : Flow) => decide (f.nh % 64 = p.device))
  | _ => (s, true)

/-- A client pin applied: tier 1's masks follow it at once; whether it is met. -/
def State.clientPinApply (s : State) (p : Pin) : State × Bool :=
  match s.staOf (pinMac p.key) with
  | none => (s, decide (p.level = 1 ∧ p.device ≠ s.shelfId))
  | some (_, st) =>
    let s := s.clientSettle st.client
    match p.level with
    | 0 => (s, if multiLink st then true else decide (p.unit = stationUnit st))
    | 1 => (s, decide (p.device = s.shelfId))
    | _ => (s, true)

/-- A pin applied, or left for the end of an open move of its flow (R203); whether it is met. -/
def State.pinApply (s : State) (p : Pin) : State × Bool :=
  if s.pinFrozen p || (p.flow && s.flowMoving p.key) then (s, false)
  else if p.flow then s.flowPinApply p else s.clientPinApply p

/-- A pin is applied and its state noted. -/
def State.pinTry (s : State) (p : Pin) : State :=
  let (s, met) := s.pinApply p
  { s with ple.pins := s.ple.pins.map fun (q : Pin) => if samePin q p then { q with unmet := !met } else q }

/-- The pins of flows, or of clients, are tried again: unmet ones, and met ones whose object has been remade or moved since. -/
def State.pinsRetry (s : State) (flow : Bool) : State :=
  s.each (s.ple.pins.filter fun (p : Pin) => p.flow == flow) State.pinTry

/-- The object of a pin in the decision log. -/
def State.pinObject (s : State) (p : Pin) : Nat :=
  if p.flow then s.flowObj p.key
  else match s.staOf (pinMac p.key) with | some (_, st) => st.client | none => 0

/-- A pin is set: stored, applied, recorded. -/
def State.pinSet (s : State) (p : Pin) : State :=
  let deferred := p.flow && s.flowMoving p.key
  let s := (s.pinPut p).pinTry p
  let met := s.ple.pins.any fun (q : Pin) => samePin q p && !q.unmet
  s.decide_ { kind := 9, tier := 0, forced := true, outcome := if met then 0 else if deferred then 5 else 4
              object := s.pinObject p, dst := if p.level = 0 then p.unit else p.device, arg := p.level }

/-- The 44 bytes of a pin (`PLE_PIN_BUF`). -/
def pinImage (p : Pin) : List Byte :=
  p.key ++ List.replicate (40 - p.key.length) 0 ++
    natLe 4 (p.flow.toNat + 2 * p.level + 16 * p.unit + 2 ^ 16 * p.device + 2 ^ 24 * p.unmet.toNat)

/-- The pin of 44 bytes. -/
def pinOf (l : List Byte) : Pin :=
  let d := leAt l 40 4
  let flow := decide (d % 2 = 1)
  { flow := flow, key := if flow then (flowOf (l.take 40 ++ List.replicate 24 0)).key else l.take 6
    level := d / 2 % 4, unit := d / 16 % 32, device := d / 2 ^ 16 % 64 }

/-- The target is one that R202 allows. -/
def pinAllowed (p : Pin) : Bool :=
  match p.level with
  | 0 => if p.flow then decide (p.unit = UnitId.flw.num) else decide (p.unit = UnitId.rfa.num ∨ p.unit = UnitId.rfb.num)
  | 1 | 2 => true
  | _ => false

/-- The lead's store, and the deputy's mirror of it, has room for a pin (R203). -/
def State.leadRoom (s : State) (p : Pin) : Bool :=
  decide ((s.ple.shelfPins.filter fun (q : Pin) => !samePin q p).length < 4096)

/-- A pin is kept in that store. -/
def State.pinKeep (s : State) (p : Pin) : State :=
  s.when (s.leadRoom p) fun s =>
    { s with ple.shelfPins := (s.ple.shelfPins.filter fun (q : Pin) => !samePin q p) ++ [p] }

/-- The lead keeps a shelf pin and sends it to every member, the deputy, which mirrors it, among them; past 4,096 it keeps none. -/
def State.pinLead (s : State) (p : Pin) : State :=
  s.when (s.leadRoom p) fun s => (s.pinKeep p).smpSend 0x22 none (octets (pinImage p))

/-! ### Tier 3 (R197 to R200) -/

/-- PEER of a device: its load and bias; 1,023 for one in Limp mode or without a report of the last 3 s. -/
def State.peer (s : State) (device : Nat) : Nat :=
  let bias := s.ple.bias.lookD device 0
  if device = s.shelfId then min 1023 (s.f PLE_STATE_LOAD + bias)
  else match s.ple.loads.look device with
  | some r => if r.limp ∨ r.since + 3000000000 < s.now then 1023 else min 1023 (r.load + bias)
  | none => 1023

/-- The LQ of a client at a candidate: of this device as given, of another one by its latest report; none where it reports none. -/
def State.candLq (s : State) (mac : Nat) (o : SteerOption) : Option Nat :=
  if o.device.toNat = s.shelfId then some o.lq.toNat
  else (s.ple.loads.look o.device.toNat).bind fun r => (r.clients.find? fun c => decide (c.1 = mac)).map Prod.snd

/-- The tier 3 score. -/
def State.score3 (s : State) (lq air device : Nat) : Int :=
  s.score 3 [(0, lq), (1, -(air : Int)), (4, -(s.peer device : Int))]

/-- Steering of a client as it stands. -/
def State.steer (s : State) (mac : Nat) : Steer := s.ple.steers.lookD mac { mac := mac }

/-- A steering request is sent: to the client, with the candidate's BSSID (R197, R199), and with its PMKSA to another target device (R286). -/
def State.steerSend (s : State) (b : BtmClient) (o : SteerOption) (why : SteerWhy) : State :=
  let mac := b.mac.toNat
  let unit := match o.radio with | .a => UnitId.rfa.num | .b => UnitId.rfb.num
  let k := { s.steer mac with open_ := some (o.device.toNat, unit, s.now), accepted := false, why := why }
  let s := { s with wma.btm := { mac := mac, device := o.device.toNat, unit := unit, bssid := o.bssid.toNat } :: s.wma.btm, ple.steers := s.ple.steers.put mac k }.bump PLE_CNT_STEER_SENT
  let (id, pmk) := match b.pmksa with
    | some (i, p) => (natLe 16 i.toNat, natLe 48 p.toNat)
    | none => (List.replicate 72 0, [])
  s.when (decide (o.device.toNat ≠ s.shelfId)) (·.smpSteer o.device.toNat (octets (natLe 6 mac ++ natLe 6 o.bssid.toNat ++ id)) pmk)

/-- The record of a steering request at its end. -/
def State.steerLog (s : State) (mac outcome : Nat) : State :=
  match (s.steer mac).open_ with
  | none => s
  | some (device, unit, _) =>
    let own := decide (device = s.shelfId)
    let st := (s.staOf mac).map Prod.snd
    let why := (s.steer mac).why
    s.decide_ { kind := 6, tier := 3, forced := why.forced, outcome := outcome, object := (st.map (·.client)).getD 0
                scoreFrom := why.scoreFrom, scoreTo := why.scoreTo
                src := if own then (st.map stationUnit).getD unit else s.shelfId, dst := if own then unit else device }

/-- A steering request has failed: the backoff starts or doubles (R198). -/
def State.steerFail (s : State) (mac outcome : Nat) : State :=
  let s := (s.bump PLE_CNT_STEER_FAIL).steerLog mac outcome
  let k := s.steer mac
  let b := if k.backoff = 0 then s.f PLE_T3_BACKOFF else min (2 * k.backoff) (max (s.f PLE_T3_BACKOFF_MAX) (s.f PLE_T3_BACKOFF))
  { s with ple.steers := s.ple.steers.put mac { k with open_ := none, accepted := false, backoff := b
                                                       until_ := s.now + b * 1000000000 } }

/-- A steering request has succeeded: the backoff is reset. -/
def State.steerDone (s : State) (mac : Nat) : State :=
  let s := (s.steerLog mac 0).hystChange 3 (natLe 6 mac)
  { s with ple.steers := s.ple.steers.del mac }

/-- A station leaves this device by placement: deleted at once where nothing is outstanding, and its scheduler client node is
removed (R198, R267, R286). -/
def State.stationGone (s : State) (mac : Nat) : State :=
  s.with? (s.staOf mac) fun s e =>
    let s := s.staLeave e.1
    let s := s.when (!s.onAir e.2.client) (·.staRemove e.1)
    (s.editC e.2.client fun n => { n with w0 := withBits n.w0 31 31 0 }).schSync

/-! ### Tier 4 (R201, R308) -/

/-- Members with their load: this device, and those with a report of the last 3 s. -/
def State.memberLoads (s : State) : List (Nat × Nat) :=
  (s.shelfId, s.f PLE_STATE_LOAD) :: (s.ple.loads.filter fun (e : Nat × LoadRep) =>
    decide (e.1 ≠ s.shelfId) && decide (s.now ≤ e.2.since + 3000000000)).map fun e => (e.1, e.2.load)

/-- A member's bias judged: it comes after K consecutive evaluations of the condition, and goes after K without it. -/
def State.biasJudge (s : State) (total count : Nat) (m : Nat × Nat) : State :=
  let high := decide ((total : Int) + (count : Int) * s.margin 4 ≤ (count : Int) * m.2)
  let obj := natLe 1 m.1
  let h := s.hystOf 4 obj
  let n := if h.runs ≠ 0 ∧ h.cand = high.toNat then h.runs + 1 else 1
  let s := s.hystPut { h with cand := high.toNat, runs := n }
  let old := s.ple.bias.lookD m.1 0
  let new := if n < max 1 (s.f (PLE_HYST_K 3)) then old else if high then min 1023 (m.2 - total / count) else 0
  let s := { s with ple.bias := if new = 0 then s.ple.bias.del m.1 else s.ple.bias.put m.1 new }
  s.when (decide (new ≠ old)) (·.decide_ { kind := 7, tier := 4, object := m.1, src := m.1, dst := m.1, scoreFrom := total / count
                                           scoreTo := m.2, arg := new })

/-- A node that a member has: the lead knows its own; another one's is a node that every other member reports, the lead's own
report among them, but that one does not (DESIGN CHOICE, log entry 216). -/
def State.hasNode (s : State) (reps : List (Nat × LoadRep)) (member node : Nat) : Bool :=
  let own := s.sgm.nodes.any fun (e : Nat × Node) => decide (e.2.eui = node)
  if member = s.shelfId then own
  else !own && reps.all fun e => decide (e.1 ≠ member) == e.2.nodes.contains node

/-- The reassignments that the lead orders: nodes of a biased member that another member receives reliably, to the least loaded of
those. -/
def State.nodeOrders (s : State) : List NodeOrder :=
  let reps := s.ple.loads.filter fun (e : Nat × LoadRep) => decide (s.now ≤ e.2.since + 3000000000)
  let load (e : Nat × LoadRep) : Nat := if e.1 = s.shelfId then s.f PLE_STATE_LOAD else e.2.load
  (s.ple.bias.flatMap fun (b : Nat × Nat) =>
    let nodes := ((reps.flatMap fun e => e.2.nodes).eraseDups).filter (s.hasNode reps b.1)
    nodes.filterMap fun n =>
      let hear := (reps.filter fun e => decide (e.1 ≠ b.1) && e.2.nodes.contains n).map fun e => (e.1, load e)
      (hear.foldl (fun (m : Option (Nat × Nat)) e => match m with
        | none => some e
        | some k => if e.2 < k.2 then some e else m) none).map fun k =>
          ({ eui := BitVec.ofNat 64 n, old := BitVec.ofNat 6 b.1, new := BitVec.ofNat 6 k.1 } : NodeOrder)).take 64

/-- The record of a reassignment: its object is the member that gives the node up (R211). -/
def State.orderLog (s : State) (o : NodeOrder) : State :=
  s.decide_ { kind := 8, tier := 4, object := o.old.toNat, src := o.old.toNat, dst := o.new.toNat }

/-- Biases and orders of a tier 4 message take effect here: a partner ordered away starts its agreement over SMP. -/
def State.tier4Take (s : State) (biases : List (Nat × Nat)) (orders : List NodeOrder) : State :=
  let s := { s with
    ple.bias := biases.foldl (fun (m : Map Nat) (b : Nat × Nat) => m.put b.1 b.2) [], ple.lastTier4 := s.now }
  let s := (s.up PLE_STATE_LEAD_OK).set PLE_STATE_BIAS (s.ple.bias.lookD s.shelfId 0)
  s.each (orders.filter fun o => decide (o.old.toNat = s.shelfId)) fun s o =>
    s.with? (s.sgm.nodes.find? fun (e : Nat × Node) => decide (e.2.eui = o.eui.toNat)) fun s e =>
      (s.smpSend 0x42 (some o.new.toNat) (octets (natLe 8 e.2.eui ++ natLe 2 e.2.addr ++ natLe 1 o.old.toNat ++
        natLe 1 o.new.toNat ++ [0]))).when (!s.isLead) (·.orderLog o)

end Sys2Proof.Machine
end

