-- ==== Sys2Proof/Machine/Startup.lean ====
section
/-! DEFINITION. The start-up timeline of R72 to R76 (spec/03), resets by command, and the NVM commands (R69). -/

namespace Sys2Proof.Machine

/-! ### Steps 1 to 4 -/

/-- VIN_VALID (R398): 1 ms at or above 10.6 V is step 1. -/
def execVinValid (mv : BitVec 16) (s : State) : Host.Outcome State Fault Refusal :=
  .next <|
    if decide (10600 ≤ mv.toNat) && !s.on PWR_VIN_VALID then
      let s := (s.up PWR_VIN_VALID).set PWR_VIN_MV mv.toNat
      ({ s with pwr.held := false, cfg.bootStart := s.now, cfg.late := [] } : State).stageIs 1
    else s

/-- A ball's samples agree, or the ball takes its fallback (R70): `all` and `any` of the samples, the fallback bits. -/
def strapBits (all any fallback : Nat) : Nat := Nat.lor all (Nat.land (Nat.xor all any) fallback)

/-- STRAP_SAMPLE_DONE (R70): the eight samples of each ball. A disagreement sets UNSTABLE and is logged,
by TOP (DESIGN CHOICE, log entry 192: the rule names no unit). -/
def execStrapSampleDone (samples : List StrapSample) (s : State) : Host.Outcome State Fault Refusal :=
  .next <|
    if decide (s.cfg.stage ≠ 1) || s.cfg.strapped || samples.isEmpty then s
    else
      let ball (f : StrapSample → Nat) (w fallback : Nat) : Nat × Bool :=
        let all := samples.foldl (fun n x => Nat.land n (f x)) (2 ^ w - 1)
        let any := samples.foldl (fun n x => Nat.lor n (f x)) 0
        (strapBits all any fallback, decide (all ≠ any))
      let folio := ball (·.folio.toNat) 2 0
      let src := ball (·.cfgSrc.toNat) 1 0
      let pre := ball (·.pwmPre.toNat) 4 15
      let maddr := ball (·.maddr.toNat) 2 0
      let test := ball (·.testMode.toNat) 1 0
      let unstable := folio.2 || src.2 || pre.2 || maddr.2 || test.2
      let s := ((s.set TOP_STRAP_FOLIO folio.1).set TOP_STRAP_CFG_SRC src.1).set TOP_STRAP_PWM_PRE pre.1
      let s := ((s.set TOP_STRAP_MADDR maddr.1).put TOP_STRAP_UNSTABLE unstable).set TOP_FOLIO_STAT_ACTIVE folio.1
      let s := { s with cfg.strapped := true, cfg.testMode := decide (test.1 = 1) }
      let s := s.learnedFollow
      s.when unstable (·.ev .top Ev.STRAP_UNSTABLE)

/-- AON_UP: step 2. The PWM outputs take their pre-ready states; CFG goes on to step 3, but in test mode start-up stops here
(R490). -/
def execAonUp (s : State) : Host.Outcome State Fault Refusal :=
  .next <|
    if s.cfg.stage = 1 && s.cfg.strapped then
      let s := s.each (List.range 4) fun s p => s.editPwm p fun o => { o with drive := .strap }
      let s := s.stageIs 2
      if s.cfg.testMode then s else s.stepThree
    else s

/-- ASSAY_BIST_DONE (R74): step 4; a failed run is logged and repeated once, and a second failure stops start-up. -/
def execAssayBistDone (pass : Bool) (s : State) : Host.Outcome State Fault Refusal :=
  .next <|
    if decide (s.cfg.stage ≠ 3) || s.cfg.warm || s.cfg.bistDead then s
    else if pass then s.stageIs 4
    else
      let s := s.ev .asy Ev.ASY_BIST_FAIL
      if !s.cfg.bistFailed then { s with cfg.bistFailed := true }
      else (({ s with cfg.bistDead := true } : State).set CFG_STATUS_PHASE 0xB).faultN true |>.replace 0x21

/-! ### Step 6 -/

/-- The start levels (R456): each enabled PWM output takes the duty of START, each port with START_EN sends START. -/
def State.startLevels (s : State) : State :=
  let s := s.each (List.range 4) fun s p =>
    let lvl := min 100 (s.f (FLD_PWM_START p))
    let duty := levelDuty lvl
    let s := s.when (s.on (FLD_PWM_EN p)) (·.set (FLD_PWM_DUTY p) duty)
    s.editPwm p fun o => { o with
      drive := .run, scheduled := lvl, duty := duty, enabled := s.on (FLD_PWM_EN p), invert := s.on (FLD_PWM_INVERT p)
      freq := s.f (FLD_PWM_FREQ p) }
  s.each ((List.range 4).filter fun p => s.on (FLD_DALI_CFG_EN p) && s.on (FLD_DALI_CFG_START_EN p)) fun s p =>
    let lvl := min 100 (s.f (FLD_DALI_CFG_START p))
    ({ s with fld.daliLevel := s.fld.daliLevel.put p lvl } : State).daliLevel p lvl

/-- The safe state that holds at step 6 (R421, R422, R432): its recorded causes are taken up again, and its outputs applied. -/
def State.safeResume (s : State) : State :=
  let causes := s.asy.savedCauses
  let s := { s with asy.savedCauses := 0 }
  let s := s.each ((List.range 10).filter fun b => causes.testBit b) State.safeCause
  s.when (s.safe && !s.asy.applied) State.safeApply

/-- LUMINAIRE_CONTROL_READY: step 6. The outputs of a warm reset keep their state (R76). -/
def execLuminaireControlReady (s : State) : Host.Outcome State Fault Refusal :=
  .next <|
    if s.cfg.stage ≠ 5 then s
    else
      let first := !s.asy.armed
      let s := s.each [UnitId.mtm, .pwr, .asy, .cfg, .fld] fun s u => s.setReady u true
      let s := ({ s with asy.armed := true, asy.watchdog := true } : State).stageIs 6
      let s := s.when first State.startLevels
      let s := s.each s.cfg.alarmsDue fun s n => (s.almArm n).almCheck n
      ({ s with cfg.alarmsDue := [] } : State).safeResume

/-! ### Steps 7 and 8 -/

/-- CALIBRATION_SECTION_LOADED (R491): the first of the deferred sections, read by step 7. -/
def execCalibrationSectionLoaded (s : State) : Host.Outcome State Fault Refusal :=
  .next <|
    if s.cfg.stage ≠ 6 then s
    else if s.sectionPass (s.on CFG_STATUS_BANK) 5 0 then { s with cfg.calOk := true }
    else ({ s with cfg.calOk := false } : State).set CFG_STATUS_BAD_SECTION 0x50

/-- A channel after training: its temper pass staggered by 25 ms, its refresh grids, its temperature readings (R364, R367). -/
def State.drcTrained (s : State) (c : Nat) : State :=
  s.editCh c fun k => { k with
    temperAt := s.now + 25000000 * c, tempAt := s.now, grid0 := s.now + s.tRefi c 0, grid1 := s.now + s.tRefi c 1 }

/-- DRAM_TRAINING_DONE (R75): step 7. A failure is a DRAM freeze with cause RETRAIN, and start-up goes on. -/
def execDramTrainingDone (pass : Bool) (s : State) : Host.Outcome State Fault Refusal :=
  .next <|
    if s.cfg.stage ≠ 6 then s
    else
      let s := s.stageIs 7
      if pass then
        let s := ((s.up DRC_STATUS_TRAINED).setReady .drc true).each (List.range 4) State.drcTrained
        s.asyFaultEnd .dramFreeze .dram
      else s.drcFreeze 2 none none

/-- The deferred sections that failed, in the order CFG reads them, as BAD_SECTION names them: CALIBRATION, PARSE, EDITION, PLACEMENT,
then the folios (DESIGN CHOICE, log entry 237: the order is not given, and decides which failed last). In a boot with a substitute
folio a failed folio is only absent (R67). -/
def State.deferredBad (s : State) (d : DeferredLoad) : List Nat :=
  (if s.cfg.calOk then [] else [0x50]) ++ (if d.parse then [] else [0x20]) ++ (if d.edition then [] else [0x30]) ++
    (if d.placement then [] else [0x60]) ++
    (if s.on TOP_FOLIO_STAT_SUBST then []
     else ((List.range 4).filter fun n => !d.folioOk.getLsbD n && decide (n ≠ s.f TOP_FOLIO_STAT_ACTIVE)).map (0x40 + ·))

/-- The units that are left without a section that they need (R66, R491). -/
def State.unitsLacking (s : State) (d : DeferredLoad) : List UnitId :=
  (if d.parse && d.edition then [] else [.par]) ++ (if d.placement then [] else [.ple]) ++
    (if s.cfg.calOk then [] else [.rfa, .rfb, .rfc])

/-- The folio store once the deferred folios are in it. -/
def State.folioStore (s : State) (d : DeferredLoad) : State :=
  let act := s.f TOP_FOLIO_STAT_ACTIVE
  let l := (List.range 4).map fun n => ((if n = act then s.folio n else d.folios[n]?)).getD
    { words := [], dramGeometry := 0, ballFunctions := 0, safeLevel := 0, nodes := [], shapers := [] }
  let avail := (List.range 4).foldl (fun m n => if n = act || d.folioOk.getLsbD n then m + 2 ^ n else m) 0
  ({ s with cfg.folios := l } : State).set TOP_FOLIO_STAT_AVAIL avail

/-- The device goes on without the units that lack a section (R66): the partial-image fault of their functions, which ends for
every other function. -/
def State.partialImage (s : State) (lacking : List UnitId) : State :=
  s.each [(UnitId.par, Func.datapath), (.rfa, .radioA), (.rfb, .radioB), (.rfc, .subghz)] fun s (x : UnitId × Func) =>
    if lacking.contains x.1 || (decide (x.1 = .par) && lacking.contains .ple) then s.asyFault .partialImage x.2
    else s.asyFaultEnd .partialImage x.2

/-- The parse engines that fail their self-test as PAR comes into service are lost: logged, and given no pass (R22; log entry 195).
PAR stays ready. -/
def State.enginesLost (s : State) (failed : BitVec 32) : State :=
  if failed = 0 || !s.ready .par then s
  else ({ s with par.lost := Nat.lor s.par.lost failed.toNat } : State).ev .par Ev.PAR_ENGINE_LOST [failed.toNat]

/-- A pin of the PLACEMENT section (R64); it is met at the evaluations of the tier it constrains. -/
def pinLoaded (p : PinData) : Pin :=
  { flow := p.flow, key := p.key.take (if p.flow then 39 else 6), level := p.level.toNat, unit := p.unit.toNat
    device := p.device.toNat, unmet := true }

/-- The pins of the PLACEMENT section are restored (R203). -/
def State.loadPins (s : State) (l : List PinData) : State := s.each ((l.map pinLoaded).filter pinAllowed) State.pinPut

/-- DEFERRED_SECTIONS_LOADED: step 8. A failed section is met by a warm reset into the other bank, where that is valid (a confirmation
at step 5 may have made it invalid, R69), or by PARTIAL (R66). -/
def execDeferredSectionsLoaded (failed : BitVec 32) (s : State) : Host.Outcome State Fault Refusal :=
  .next <|
    if s.cfg.stage ≠ 7 then s
    else
      let load := s.deferredLoad (s.on CFG_STATUS_BANK)
      let bad := s.deferredBad load
      let s := s.with? bad.getLast? fun s x => s.set CFG_STATUS_BAD_SECTION x
      let bank := s.on CFG_STATUS_BANK
      if !bad.isEmpty && s.cfg.candidates.contains (!bank) && (s.hdr (!bank)).valid then
        ({ s with cfg.failedBank := some bank } : State).warmReset
      else
        let lacking := s.unitsLacking load
        let s := s.put CFG_STATUS_PARTIAL (!bad.isEmpty)
        let s := (({ s with cfg.deferred := some load } : State).folioStore load).loadPar
        let s := s.each ([UnitId.pkb, .par, .flw, .sch, .ple, .cip, .eth, .cpu, .prf, .shf, .hif].filter fun u =>
          !lacking.contains u) fun s u => s.setReady u true
        let s := s.when (s.ready .ple) (·.loadPins load.pins)
        (((s.stageIs 8).calShow.takeRole).partialImage lacking).enginesLost failed

/-! ### Step 9 -/

/-- The folios of the store, the active one last. -/
def State.foliosLast (s : State) : List FolioData :=
  let act := s.f TOP_FOLIO_STAT_ACTIVE
  ((List.range 4).filter fun n => decide (n ≠ act) && (s.f TOP_FOLIO_STAT_AVAIL).testBit n).filterMap s.folio ++
    (s.folio act).toList

/-- The channels that the folios plan for a link, at most 8, are calibrated and their corrections stored (R222). -/
def State.storeChans (s : State) (r : Radio) (l : Nat) : State :=
  let a := (rx r (RFB_CHAN_CHANNEL l)).addr
  let keys := ((s.foliosLast.reverse.filterMap fun f => folioValue f a).map storedKey).eraseDups.take 8
  s.editLink r l fun k => { k with stored := keys }

/-- The spans that the folios plan, at most 4, the active folio's last (R258). -/
def State.spansPlanned (s : State) : List Word :=
  ((s.foliosLast.reverse.map fun f => (s.folioAt f RFC_SPAN_CENTRE.addr).rd RFC_SPAN_CENTRE.addr).eraseDups.take 4).reverse

/-- A span is calibrated and each port tuned on it (R258, R261); the carrier counts in the second that step 9 ends in. -/
def State.spanCal (s : State) (x : Word × BitVec 8 × TuneResult × TuneResult) : State :=
  let s := s.wr RFC_SPAN_ACT_CENTRE.addr x.1
  ((s.imageCal x.2.1.toNat).tunePass 0 x.2.2.1 s.lt).tunePass 1 x.2.2.2 s.lt

/-- The staged plan and span are active from start-up on, with no announcement; entries that are not valid are logged (R245). -/
def State.planStart (s : State) : State :=
  let s := s.each (List.range 128) fun s b =>
    (s.wr (SGM_BLOCK_ACT_EN b).addr (s.rd (SGM_BLOCK_EN b).addr)).wr ((SGM_BLOCK_ACT_EN b).addr + 4)
      (s.rd ((SGM_BLOCK_EN b).addr + 4))
  (s.wr RFC_SPAN_ACT_CENTRE.addr (s.rd RFC_SPAN_CENTRE.addr)).each (List.range 64) State.profileLog

/-- RADIO_CALIBRATION_DONE: step 9, with the image rejection and the results of the tune passes of each planned span, in the
order of R258. Without the CALIBRATION section the three radios are left out (R491). -/
def execRadioCalibrationDone (spans : List (BitVec 8 × TuneResult × TuneResult)) (s : State) :
    Host.Outcome State Fault Refusal :=
  .next <|
    if s.cfg.stage ≠ 8 then s
    else
      let s := if s.cfg.calOk then
          let s := ((s.storeChans .a 0).storeChans .b 0).storeChans .b 1
          let s := (s.rfStartCal .a).rfStartCal .b
          let s := s.each (s.spansPlanned.zip spans) State.spanCal
          s.each [UnitId.rfa, .rfb, .rfc] fun s u => s.setReady u true
        else s
      let s := s.planStart
      let s := s.each [0, 1] fun s p => s.portSync p
      (((s.setReady .wma true).setReady .sgm true).stageIs 9).calShow

/-! ### Step 10 -/

/-- BOOT_COMPLETE: step 10, logged by TOP (DESIGN CHOICE, log entry 238). TOP_LOCK.BOOT is set, CFG evicts the IMAGE keys (R63), the
faults of the reset are judged (R430), and the device joins its shelf; after a reset in STANDBY it enters STANDBY again instead
(R493). A transition out of OFF ends here (R404). -/
def execBootComplete (s : State) : Host.Outcome State Fault Refusal :=
  .next <|
    if s.cfg.stage ≠ 9 then s
    else
      let s := ((s.stageIs 10).up TOP_LOCK_BOOT).ev .top Ev.BOOT_COMPLETE
      let s := ({ s.evictKeys 3 with cfg.failedBank := none } : State).judgeLadders
      if s.cfg.resumeStandby then ({ s with cfg.resumeStandby := false } : State).beginTransition 2
      else
        let s := s.shelfJoin
        match s.pwr.transition with
        | some t => s.endTransition t.target
        | none => s

/-! ### Late steps (R74) -/

/-- The bound of a step in ms (R72). -/
def stepBound : Nat → Nat
  | 2 => 2 | 3 => 2 | 4 => 42 | 5 => 100 | 6 => 150 | 7 => 400 | 8 => 600 | 9 => 1600 | _ => 2500

/-- Start-up runs and goes on. -/
def State.booting (s : State) : Bool :=
  decide (1 ≤ s.cfg.stage ∧ s.cfg.stage < 10) && !s.cfg.noImage && !s.cfg.bistDead && !s.isOff &&
    !(s.cfg.testMode && decide (2 ≤ s.cfg.stage))

/-- BOOT_LATE (R74): a step that has not completed by its bound is logged with its number, by TOP (DESIGN CHOICE, log entry 238: the
rule names no unit), and start-up continues. After a warm reset there are no steps 2 and 4 (R76). -/
def execBootLate (stage : BitVec 4) (s : State) : Host.Outcome State Fault Refusal :=
  .next <|
    let n := stage.toNat
    if !s.booting || decide (n < 2) || decide (10 < n) || decide (n ≤ s.cfg.stage) || s.cfg.late.contains n ||
        (s.cfg.warm && (decide (n = 2) || decide (n = 4))) then s
    else
      let s := s.reach (s.cfg.bootStart + stepBound n * 1000000)
      ({ s with cfg.late := n :: s.cfg.late } : State).ev .top Ev.BOOT_LATE [n]

/-! ### Commands of CFG (R69) -/

/-- `CFG_CMD`. -/
def cfgCmd : CmdReg := ⟨CFG_CMD_STATE.addr, .cfg, .operator⟩

/-- The bank that runs, if one does. -/
def State.runningBank (s : State) : Option Bool :=
  if 5 ≤ s.cfg.stage then some (s.on CFG_STATUS_BANK) else none

/-- CONFIRM: after full service only. -/
def State.confirmOp (s : State) (req : Req) : State :=
  s.command cfgCmd req fun s => if s.cfg.stage < 10 then s.cmdError cfgCmd.addr 2 else s.confirm.cmdDone cfgCmd.addr

/-- CONFIRM (R69). -/
def execConfirm (req : Req) (s : State) : Host.Outcome State Fault Refusal := .next (s.confirmOp req)

/-- ERASE_BANK: of the bank in `CFG_NVM_PTR`, never the running one. -/
def State.eraseOp (s : State) (req : Req) : State :=
  s.command cfgCmd req fun s =>
    let b := s.on CFG_NVM_PTR_BANK
    if s.runningBank = some b then s.cmdError cfgCmd.addr 2
    else ({ s with cfg.erasing := some b } : State).cmdIs cfgCmd.addr 1 0

/-- ERASE_BANK (R69). -/
def execEraseBank (req : Req) (s : State) : Host.Outcome State Fault Refusal := .next (s.eraseOp req)

/-- ERASE_BANK_DONE (R69): the bank reads 0xFF, and the command is DONE. -/
def execEraseBankDone (s : State) : Host.Outcome State Fault Refusal :=
  .next <| match s.cfg.erasing with
    | none => s
    | some b =>
      let s := s.editNor fun m => m.filter fun (c : Host.Cell) =>
        decide (c.1 < bankBase b) || decide (bankBase b + bankSize ≤ c.1)
      ({ s with cfg.erasing := none } : State).cmdDone cfgCmd.addr

/-- A write of `CFG_NVM_DATA` programs one word, of which `readBack` is what the NOR then holds; PROG_ERR where it is refused or
reads back otherwise. The pointer advances. -/
def State.nvmSet (s : State) (data readBack : Word) : State :=
  let b := s.on CFG_NVM_PTR_BANK
  let o := s.f CFG_NVM_PTR_OFFSET
  let refused := decide (s.runningBank = some b) || decide (bankSize < o + 4)
  let s := if refused then s else s.editNor fun m => m.setLe (bankBase b + o) 4 (~~~readBack).toNat
  let s := s.when (refused || decide (readBack ≠ data)) (·.up CFG_STATUS_PROG_ERR)
  s.set CFG_NVM_PTR_OFFSET (o + 4)

/-- The same, behind the gate of its register. -/
def State.nvmWrite (s : State) (req : Req) (data readBack : Word) : State :=
  s.gate .cfg .operator CFG_NVM_DATA_DATA.addr req fun s => s.nvmSet data readBack

/-- NVM_DATA_WRITE (R69). -/
def execNvmDataWrite (req : Req) (data readBack : Word) (s : State) : Host.Outcome State Fault Refusal :=
  .next (s.nvmWrite req data readBack)

/-! ### Resets by command (R76) -/

/-- `TOP_RESET`. -/
def resetCmd : CmdReg := ⟨TOP_RESET_STATE.addr, .top, .operator⟩

/-- A write of `TOP_RESET`: KIND 1 warm, 2 cold; INVALID for another KIND or KEY. -/
def State.resetOp (s : State) (req : Req) (key kind : Nat) : State :=
  s.command resetCmd req fun s =>
    if key ≠ 0xC1A0 then s.cmdError resetCmd.addr 2
    else if kind = 1 then s.warmReset
    else if kind = 2 then s.coldReset true
    else s.cmdError resetCmd.addr 2

/-- WARM_RESET (R76). -/
def execWarmReset (req : Req) (key : BitVec 16) (s : State) : Host.Outcome State Fault Refusal := .next (s.resetOp req key.toNat 1)

/-- COLD_RESET (R76). -/
def execColdReset (req : Req) (key : BitVec 16) (s : State) : Host.Outcome State Fault Refusal := .next (s.resetOp req key.toNat 2)

end Sys2Proof.Machine
end

