-- ==== Sys2Proof/Machine/Folio.lean ====
section
/-! DEFINITION. Folio switches at run time (R77 to R82). -/

namespace Sys2Proof.Machine

/-- `TOP_FOLIO_SEL`. -/
def folioCmd : CmdReg := ⟨TOP_FOLIO_SEL_STATE.addr, .top, .operator⟩

/-- The static fields of a folio equal the active one's (R77): the root key selection, the MODE of each GPIO, and what no register
holds of the DRAM geometry and the ball functions. -/
def State.staticEqual (s : State) (n : Nat) : Bool :=
  match s.folio (s.f TOP_FOLIO_STAT_ACTIVE), s.folio n with
  | some a, some b =>
    decide (a.dramGeometry = b.dramGeometry) && decide (a.ballFunctions = b.ballFunctions) &&
      decide ((s.folioAt a CIP_ROOT_SEL_BANK.addr).f CIP_ROOT_SEL_BANK = (s.folioAt b CIP_ROOT_SEL_BANK.addr).f CIP_ROOT_SEL_BANK) &&
      (List.range 16).all fun i =>
        let g := FLD_GPIO_CFG_MODE i
        decide ((s.folioAt a g.addr).f g = (s.folioAt b g.addr).f g)
  | _, _ => false

/-- A request for a switch at a cycle boundary (R78, R80). -/
def State.folioRequest (s : State) (req : Req) (n : Nat) : State :=
  s.command folioCmd req fun s =>
    if n = s.f TOP_FOLIO_STAT_ACTIVE then s.cmdDone folioCmd.addr 2
    else if !(s.f TOP_FOLIO_STAT_AVAIL).testBit n then s.cmdError folioCmd.addr 4
    else if !s.staticEqual n then s.cmdError folioCmd.addr 3
    else
      let c := s.mtm.mt / 65536
      let at_ := c + (if s.mtm.mt % 65536 ≤ 61439 then 1 else 2)
      let s := (s.up TOP_FOLIO_STAT_PEND_VALID).set TOP_FOLIO_STAT_PENDING n
      ({ s with cfg.switchCycle := some at_ } : State).cmdIs folioCmd.addr 1 0

/-- FOLIO_SWITCH_REQUEST (R78). -/
def execFolioSwitchRequest (req : Req) (folio : BitVec 2) (s : State) : Host.Outcome State Fault Refusal :=
  .next (s.folioRequest req folio.toNat)

/-- A folio is stored for the next warm reset (R80). -/
def State.folioNext (s : State) (req : Req) (n : Nat) : State :=
  s.command folioCmd req fun s =>
    ((s.up TOP_FOLIO_STAT_NEXT_VALID).set TOP_FOLIO_STAT_NEXT n).cmdDone folioCmd.addr

/-- FOLIO_AT_RESET (R80). -/
def execFolioAtReset (req : Req) (folio : BitVec 2) (s : State) : Host.Outcome State Fault Refusal :=
  .next (s.folioNext req folio.toNat)

/-! ### The switch (R78, R79, R81) -/

/-- A quire's registers differ in a folio (R79). -/
def State.quireDiffers (s : State) (f : FolioData) (q : Nat) : Bool :=
  s.folioDiffers f (PKB_Q_CFG_EN q).addr || s.folioDiffers f (PKB_Q_LIMIT_QUOTA q).addr

/-- A port's MODE or FEC differ in a folio (R79). -/
def State.portDiffers (s : State) (f : FolioData) (p : Nat) : Bool :=
  let t := s.folioAt f (ETH_PORT_CFG_EN p).addr
  decide (t.f (ETH_PORT_CFG_MODE p) ≠ s.f (ETH_PORT_CFG_MODE p)) || decide (t.f (ETH_PORT_CFG_FEC p) ≠ s.f (ETH_PORT_CFG_FEC p))

/-- The registers that a switch does not write with the others: the static root key selection (R77), quires (R79), the channels of
the radios (R81), `RFB_CTL.SPLIT` (R213). -/
def heldBack (a : Nat) : Bool :=
  decide (a = CIP_ROOT_SEL_BANK.addr) || ((List.range 128).any fun q => decide ((PKB_Q_CFG_EN q).addr = a) || decide ((PKB_Q_LIMIT_QUOTA q).addr = a)) ||
    ([(Radio.a, 0), (.b, 0), (.b, 1)].any fun (x : Radio × Nat) =>
      let c := (rx x.1 (RFB_CHAN_CHANNEL x.2)).addr
      decide (c = a) || decide (c + 4 = a))

/-- The fields that a switch writes in the boundary cycle. Those that share a word with a field held back keep it: SPLIT, and the
static MODE of each GPIO (R77). -/
def State.switchWords (s : State) (f : FolioData) : State :=
  let old := s
  let s := s.each (f.words.filter fun x => !heldBack x.addr.toNat) State.folioWord
  (s.put RFB_CTL_SPLIT old.split).each (List.range 16) fun s i => s.set (FLD_GPIO_CFG_MODE i) (old.f (FLD_GPIO_CFG_MODE i))

/-- A link's channel differs in a folio: it is staged, announced with a count of 5 (R81). -/
def State.switchChan (s : State) (f : FolioData) (r : Radio) (l : Nat) (force : Bool) : State :=
  let a := (rx r (RFB_CHAN_CHANNEL l)).addr
  let s' := (s.folioAt f a).folioAt f (a + 4)
  if s'.chanReg r l = s.chanReg r l && !force then s else s'.stage r l (s'.chanReg r l) 5

/-- A folio changes SPLIT (R213): with the move of radio B's 5 GHz link, which moves at once in OFF. -/
def State.switchSplit (s : State) (f : FolioData) : State :=
  let b := (s.folioAt f RFB_CTL_SPLIT.addr).on RFB_CTL_SPLIT
  if b = s.split then s.editRf .b fun x => { x with splitNext := none }
  else
    let s := (s.editRf .b fun x => { x with splitNext := some b }).switchChan f .b 0 true
    s.when (s.link .b 0).staged.isNone (·.splitGo)

/-- The staged sub-GHz plan or span differs from the active one. -/
def State.planDiffers (s : State) : Bool :=
  decide (s.span ≠ s.spanStaged) || (List.range 128).any fun b =>
    decide (s.rd (SGM_BLOCK_EN b).addr ≠ s.rd (SGM_BLOCK_ACT_EN b).addr) ||
      decide (s.rd ((SGM_BLOCK_EN b).addr + 4) ≠ s.rd ((SGM_BLOCK_ACT_EN b).addr + 4))

/-- The channel configurations of radio C that a folio writes: a frame in progress goes on under the old one (R245). -/
def State.switchRfc (s old : State) (f : FolioData) : State :=
  s.each ((List.range 64).filter fun k => f.words.any fun x => decide (x.addr.toNat = (RFC_CH_CFG_EN k).addr)) fun s k =>
    s.chCfgWritten k (old.rd (RFC_CH_CFG_EN k).addr)

/-- EN or VERIFY_EN of a port's preemption has changed (R343). -/
def State.preemptChanged (s old : State) (p : Nat) : Bool :=
  (s.on (ETH_PORT_PREEMPT_EN p) != old.on (ETH_PORT_PREEMPT_EN p)) ||
    (s.on (ETH_PORT_PREEMPT_VERIFY_EN p) != old.on (ETH_PORT_PREEMPT_VERIFY_EN p))

/-- CFG writes every switchable field of a folio. -/
def State.folioApply (s : State) (f : FolioData) : State :=
  let old := s
  let quires := (List.range 128).filter fun q => s.quireDiffers f q && !s.cfg.reconfig.contains q
  let s := s.each (List.range 8) fun s p => (s.portSettle p).when (s.portDiffers f p) (·.linkDown p)
  let shelf := (s.folioAt f SHF_CFG_EN.addr)
  let rejoin := s.shf.joined && (decide (shelf.f SHF_CFG_ID ≠ s.f SHF_CFG_ID) ||
    decide (shelf.f SHF_CFG_DEPUTY ≠ s.f SHF_CFG_DEPUTY) || decide (shelf.f SHF_CFG_EN ≠ s.f SHF_CFG_EN))
  let s := s.when rejoin State.shelfLeave
  let s := (s.switchWords f).switchRfc old f
  let s := s.each (List.range 8) fun s p => s.when (s.preemptChanged old p) (·.preemptStart p)
  let s := s.when rejoin State.shelfJoin
  let s := { s with cfg.reconfig := s.cfg.reconfig ++ quires, fld.hvLevel := some f.safeLevel.toNat }
  let s := ((s.switchChan f .a 0 false).switchChan f .b 0 false).switchChan f .b 1 false
  let s := s.switchSplit f
  let s := s.each f.nodes fun s x => (s.nodePut x.kind.val x.num.toNat x.w0 x.w1 x.w2).1
  let s := s.each f.shapers fun s x => (s.nodeSet 3 x.num.toNat x.rate x.burst 0).1
  let s := s.when s.planDiffers fun s => ({ s with sgm.pend := some {} } : State).up SGM_STATUS_PEND
  s.follow old

/-- FOLIO_SWITCH: at the cycle boundary of the pending switch (R78). SUBST clears (DESIGN CHOICE, log entry 193). -/
def execFolioSwitch (s : State) : Host.Outcome State Fault Refusal :=
  .next <| match s.cfg.switchCycle with
    | none => s
    | some c =>
      if !mtLe (c % 2 ^ 32 * 65536) s.mtm.mt then s
      else
        let n := s.f TOP_FOLIO_STAT_PENDING
        let s := { s with cfg.switchCycle := none }
        let s := s.with? (s.folio n) State.folioApply
        let s := ((s.set TOP_FOLIO_STAT_ACTIVE n).down TOP_FOLIO_STAT_PEND_VALID).down TOP_FOLIO_STAT_SUBST
        (s.cmdDone folioCmd.addr).ev .cfg Ev.FOLIO_SWITCH [n]

/-- QUIRE_RECONFIG (R79): a quire that waits for its new configuration holds no packet, so CFG writes it and PKB takes its reserve
again. -/
def execQuireReconfig (quire : BitVec 7) (s : State) : Host.Outcome State Fault Refusal :=
  .next <|
    let q := quire.toNat
    if !s.cfg.reconfig.contains q || decide ((s.quire q).used ≠ 0) then s
    else
      let s := { s with cfg.reconfig := s.cfg.reconfig.filter fun x => decide (x ≠ q) }
      let s := s.with? (s.folio (s.f TOP_FOLIO_STAT_ACTIVE)) fun s f =>
        (s.folioAt f (PKB_Q_CFG_EN q).addr).folioAt f (PKB_Q_LIMIT_QUOTA q).addr
      s.takeReserve q

end Sys2Proof.Machine
end

