-- ==== Sys2Proof/Machine/ParOps.lean ====
section
/-! DEFINITION. Parsing (spec/05): the end of a pass, malformed packets, the rule lookups and the fragment table. -/

namespace Sys2Proof.Machine

/-! ### Verdicts (R117 to R123) -/

/-- A parse engine's pass. -/
def State.pe (s : State) (n : Nat) : Option PeCtx := s.par.engines.look n

/-- The state with a pass changed. -/
def State.editPe (s : State) (n : Nat) (f : PeCtx → PeCtx) : State :=
  { s with par.engines := s.par.engines.edit n f }

/-- The engine is free again. -/
def State.peFree (s : State) (n : Nat) : State := { s with par.engines := s.par.engines.del n }

/-- A packet leaves PAR: FORWARD hands it to FLW with PARAM; EXCEPTION relinks it; FORWARD_RAW enqueues it unchanged on its
ingress quire's RAW_Q; DROP discards it. A poisoned packet has no verdict and goes to FLW without PARAM (R115). -/
def State.leavePar (s : State) (id : Nat) : Option Verdict → State
  | none => { s with flw.wait := s.flw.wait ++ [{ pkt := id }] }
  | some (.forward a) =>
    let s := s.editPkt id fun p => { p with param := some (a / 2 ^ 32) }
    { s with flw.wait := s.flw.wait ++ [{ pkt := id, param := a / 2 ^ 32 }] }
  | some .drop => s.pktDiscard id
  | some (.exception q) => s.toQuire id q
  | some .raw =>
    let q := match s.pkt id with | some p => s.f (PAR_PROG_RAW_Q p.ingress) | none => 0
    s.schEnqueue q id

/-- A packet that entered the same ingress quire earlier may still end its parsing with as many passes as packet `p`: it is in an
engine, or waits for a pass (R24). -/
def State.parEarlier (s : State) (p : Packet) : Bool :=
  let before (id passes : Nat) : Bool := match s.pkt id with
    | some y => decide (y.ingress = p.ingress) && decide (y.entered < p.entered) && decide (y.passes + passes ≤ p.passes)
    | none => false
  s.par.engines.any (fun (e : Nat × PeCtx) => before e.2.pkt 0) || s.par.recirc.any fun id => before id 1

/-- The packets that wait for none any more leave PAR, in the order in which they entered (R24). -/
def State.parDrain (s : State) : State :=
  let free (e : Nat × Nat × Option Verdict) : Bool := match s.pkt e.2.1 with | some p => !s.parEarlier p | none => true
  let go := s.par.outs.filter free
  { s with par.outs := s.par.outs.filter fun e => !free e }.each go fun s e => s.leavePar e.2.1 e.2.2

/-- A packet joins those that wait to leave PAR, by its number of entry. -/
def State.outsPut (s : State) (id : Nat) (v : Option Verdict) : State :=
  let n := match s.pkt id with | some p => p.entered | none => 0
  let before := s.par.outs.takeWhile fun e => decide (e.1 ≤ n)
  { s with par.outs := before ++ (n, id, v) :: s.par.outs.drop before.length }

/-- A verdict is carried out. A packet that keeps its place leaves behind the earlier ones of its quire that may take as many
passes (R24; log entry 203); one that is dropped or diverted leaves at once. -/
def State.verdictOr (s : State) (id : Nat) (v : Option Verdict) : State :=
  match v with
  | some .drop | some (.exception _) => (s.leavePar id v).parDrain
  | _ => (s.outsPut id v).parDrain

/-- A verdict is carried out. -/
def State.verdict (s : State) (id : Nat) (v : Verdict) : State := s.verdictOr id (some v)

/-- The counter of a malformed class (R120). -/
def malCounter : Nat → Wide
  | 0 => PAR_MAL_TRUNCATED | 1 => PAR_MAL_DEPTH | 2 => PAR_MAL_LENGTH | 3 => PAR_MAL_FRAG_ORPHAN
  | 4 => PAR_MAL_FRAG_OVERLAP | 5 => PAR_MAL_BAD_OPTION | _ => PAR_MAL_PARSE_TIMEOUT

/-- A packet of a malformed class is counted and takes the class's action; under EXCEPTION the first and then every Nth is
sampled, the others are dropped (R121). -/
def State.malVerdict (s : State) (c : Nat) : State × Verdict :=
  let s := s.bump (malCounter c)
  let n := max 1 (s.f (PAR_MAL_CFG_N c))
  match s.f (PAR_MAL_CFG_ACTION c) with
  | 1 =>
    let seen := s.par.malSeen.lookD c 0
    let s := { s with par.malSeen := s.par.malSeen.put c (seen + 1) }
    (s, if seen % n = 0 then .exception (s.f (PAR_MAL_CFG_QUIRE c)) else .drop)
  | 2 => (s, .raw)
  | _ => (s, .drop)

/-- Bytes 20 and 21 of the header slot of a malformed packet on its way to an exception quire: class and pass (R122). -/
def State.malMark (s : State) (id c : Nat) : State :=
  s.editPkt id fun p => { p with info := putBytes p.info 4 (natLe 1 c ++ natLe 1 p.passes) }

/-- An action word's verdict: none for the actions that order another pass (R117). A reserved KIND is DROP, and is logged. -/
def State.actionVerdict (s : State) (a : Nat) : State × Option Verdict :=
  match a % 16 with
  | 0 => (s, some (.forward a))
  | 1 => (s, some .drop)
  | 2 => (s, some (.exception (a / 2 ^ 24 % 128)))
  | 3 | 4 => (s, none)
  | 5 => (s, some .raw)
  | k => (s.ev .par Ev.PAR_BAD_ACTION [k], some .drop)

/-! ### Rule lookups (R116) -/

/-- A key with 0x00 in the bytes that were not appended. -/
def keyPad (n : Nat) (k : List Byte) : List Byte := k.take n ++ List.replicate (n - k.length) 0

/-- A ternary rule matches: (key XOR value) AND mask is zero over all 64 bytes. -/
def ternaryMatch (key : List Byte) (r : Rule) : Bool :=
  (((key.zip r.value).zip r.mask).all fun x => (x.1.1 ^^^ x.1.2) &&& x.2 = 0)

/-- The ternary rules that match in an edition, lowest index first. -/
def State.ternaryHits (s : State) (key : List Byte) (e : Nat) : List (Nat × Rule) :=
  s.par.ternary.filter fun (r : Nat × Rule) =>
    s.ruleVisible r.2 e && ternaryMatch (keyPad 64 key) r.2 && !s.isBad .par 0 r.1

/-- The exact-match entry of a key in an edition. -/
def State.exactHit (s : State) (key : List Byte) (e : Nat) : Option (Nat × Rule) :=
  s.par.exact.find? fun (r : Nat × Rule) =>
    s.ruleVisible r.2 e && decide (keyPad 48 key = r.2.value) && !s.isBad .par 1 r.1

/-- The final lookup (R116): the action word and the rule that gives it, if one does. A matching OVERRIDE rule makes the
ternary side decide; its lowest matching index gives the action. -/
def State.classify (s : State) (tkey ekey : List Byte) (e dflt : Nat) : Nat × Option (Bool × Nat) :=
  let t := s.ternaryHits tkey e
  match t with
  | [] => match s.exactHit ekey e with
    | some (i, r) => (r.action, some (true, i))
    | none => (dflt, none)
  | (i, r) :: _ =>
    if t.any fun (x : Nat × Rule) => x.2.override then (r.action, some (false, i))
    else match s.exactHit ekey e with
      | some (j, q) => (q.action, some (true, j))
      | none => (r.action, some (false, i))

/-- A hit of a rule is counted. -/
def State.ruleHit (s : State) : Option (Bool × Nat) → State
  | none => s
  | some (true, i) => { s with par.exact := s.par.exact.edit i fun r => { r with hits := r.hits + 1 } }
  | some (false, i) => { s with par.ternary := s.par.ternary.edit i fun r => { r with hits := r.hits + 1 } }

/-- The entry edition of a packet, taken with its reference at its first lookup on its first pass (R129, R131). -/
def State.stampEdition (s : State) (id : Nat) : State :=
  match s.pkt id with
  | some p =>
    if p.edition.isSome || 1 < p.passes then s
    else
      let e := s.edCurrent
      (s.editPkt id fun p => { p with edition := some e }).edHold e
  | none => s

/-- The edition by which a packet's lookups are answered: its entry edition; one that holds none is answered by CURRENT. -/
def State.lookupEdition (s : State) (id : Nat) : Nat := ((s.pkt id).bind (·.edition)).getD s.edCurrent

/-! ### The fragment table (R124 to R128) -/

/-- Fragments held in all. -/
def State.fragsHeld (s : State) : Nat := s.par.frags.foldl (fun n (e : Nat × FragEntry) => n + e.2.held.length) 0

/-- `PAR_FRAG_STAT` follows the table. -/
def State.fragSync (s : State) : State :=
  (s.set PAR_FRAG_STAT_HELD s.fragsHeld).set PAR_FRAG_STAT_ENTRIES s.par.frags.length

/-- The entry of a datagram. -/
def State.fragFind (s : State) (r : FragReport) : Option (Nat × FragEntry) :=
  s.par.frags.find? fun (e : Nat × FragEntry) =>
    decide (e.2.v6 = r.v6) && decide (e.2.src = r.src) && decide (e.2.dst = r.dst) && decide (e.2.ident = r.ident) &&
      decide (e.2.proto = r.proto)

/-- The lowest entry that is not in use. -/
def State.fragSlot (s : State) : Option Nat := (List.range 4096).find? fun i => !s.par.frags.has i

/-- An entry is freed, and its reference released. -/
def State.fragFree (s : State) (i : Nat) : State :=
  match s.par.frags.look i with
  | none => s
  | some e =>
    let s := { s with par.frags := s.par.frags.del i }.fragSync
    s.with? e.edition State.edRelease

/-- A fragment covers a byte that a range has. -/
def overlaps (l : List (Nat × Nat)) (lo hi : Nat) : Bool := l.any fun r => decide (lo < r.2 ∧ r.1 < hi)

/-- The ranges with one more, adjacent ones merged (R126). -/
def rangeAdd (l : List (Nat × Nat)) (lo hi : Nat) : List (Nat × Nat) :=
  if lo = hi then l
  else
    let touch := l.filter fun r => decide (lo ≤ r.2 ∧ r.1 ≤ hi)
    let rest := l.filter fun r => !decide (lo ≤ r.2 ∧ r.1 ≤ hi)
    (touch.foldl (fun n r => min n r.1) lo, touch.foldl (fun n r => max n r.2) hi) :: rest

/-- An entry records a fragment's range; each one that needs a ninth separate range is counted, and the first of them ends its checks
(R126). -/
def State.fragRecord (s : State) (i lo hi : Nat) (last : Bool) : State :=
  match s.par.frags.look i with
  | none => s
  | some e =>
    let l := rangeAdd e.ranges lo hi
    let final := if last then some hi else e.final
    if 8 < l.length then
      ({ s with par.frags := s.par.frags.put i { e with unchecked := true, final := final } }).bump PAR_CNT_FRAG_RANGE_FULL
    else { s with par.frags := s.par.frags.put i { e with ranges := l, final := final } }

/-- An ACTIVE entry whose ranges are complete is freed (R127). -/
def State.fragComplete (s : State) (i : Nat) : State :=
  match s.par.frags.look i with
  | none => s
  | some e => match e.final with
    | some hi => if !e.unchecked && decide (e.ranges = [(0, hi)]) then s.fragFree i else s
    | none => s

/-- A first fragment's bytes meet some that an entry has recorded (R126). -/
def State.fragMeets (s : State) (r : FragReport) : Bool :=
  match s.fragFind r with
  | some (_, e) => !e.unchecked && overlaps e.ranges r.offset (r.offset + r.len)
  | none => false

/-- A first fragment has its decision (R124, R125): its entry becomes ACTIVE for 2 s with a reference on the fragment's
entry edition; the result names the entry, whose held fragments are still to be released. A full table makes no entry (R128); an
entry that is ACTIVE already, or whose bytes the fragment meets, keeps its state (R126). -/
def State.fragActive (s : State) (r : FragReport) (v : Verdict) (rule : Option (Bool × Nat)) (edition : Option Nat) :
    State × Option Nat :=
  let fresh : FragEntry := { v6 := r.v6, src := r.src, dst := r.dst, ident := r.ident, proto := r.proto, since := s.now }
  let active (i : Nat) (e : FragEntry) : State × Option Nat :=
    let e := { e with since := s.now, decision := some v, rule := rule, edition := edition }
    let s := ({ s with par.frags := s.par.frags.put i e }.fragRecord i 0 r.len (!r.more)).fragSync
    (s.with? edition State.edHold, some i)
  match s.fragFind r with
  | some (i, e) => if e.decision.isSome || s.fragMeets r then (s, none) else active i e
  | none =>
    match s.fragSlot with
    | none => (s.bump PAR_CNT_FRAG_TABLE_FULL, none)
    | some i => active i fresh

/-- A packet has its final outcome: it is the decision of every datagram whose first fragment it reported (R124); the packet's own
verdict is carried out, and then each entry's held fragments are released in order of arrival with the decision, as hits of its
rule (R125), and with their own outcome, for at most `n` datagrams one within another. -/
def State.outcome : Nat → State → Nat → Verdict → Option (Bool × Nat) → State
  | 0, s, id, v, _ => s.verdict id v
  | n + 1, s, id, v, rule =>
    let (own, edition) : List FragReport × Option Nat := match s.pkt id with
      | some p => (p.frags, p.edition)
      | none => ([], none)
    let (s, entries) := own.foldl (fun (a : State × List Nat) r =>
      match a.1.fragActive r v rule edition with
      | (s, some i) => (s, a.2 ++ [i])
      | (s, none) => (s, a.2)) (s, [])
    let s := (s.editPkt id fun p => { p with frags := [] }).verdict id v
    s.each entries fun s i =>
      let held := match s.par.frags.look i with | some e => e.held | none => []
      let s := { s with par.frags := s.par.frags.edit i fun e => { e with held := [] } }.fragSync
      let s := s.each held fun s h =>
        State.outcome n ((s.ruleHit rule).editPkt h.1 fun p => { p with laterFrag := true }) h.1 v rule
      s.fragComplete i

/-- A malformed packet takes its class's action (R120 to R122), which is its outcome (R124). -/
def State.malTake (s : State) (id c : Nat) : State :=
  let (s, v) := s.malVerdict c
  (s.malMark id c).outcome 4 id v none

/-- A pass ends with a malformed class (R120). -/
def State.passMal (s : State) (n c : Nat) : State :=
  match s.pe n with
  | none => s
  | some x => (s.peFree n).malTake x.pkt c

/-- A later fragment takes a decision and counts as a hit of its rule (R124). -/
def State.fragTake (s : State) (id : Nat) (v : Verdict) (rule : Option (Bool × Nat)) : State :=
  ((s.ruleHit rule).editPkt id fun p => { p with laterFrag := true }).outcome 4 id v rule

/-- A later fragment reaches the table (R124 to R128). -/
def State.fragLater (s : State) (id : Nat) (r : FragReport) : State :=
  let lo := r.offset
  let hi := r.offset + r.len
  match s.fragFind r with
  | none =>
    match s.fragSlot with
    | none => s.malTake id 3
    | some i =>
      if 256 ≤ s.fragsHeld then s.malTake id 3
      else
        let e : FragEntry :=
          { v6 := r.v6, src := r.src, dst := r.dst, ident := r.ident, proto := r.proto, since := s.now
            held := [(id, lo, hi, !r.more)] }
        (({ s with par.frags := s.par.frags.put i e }).fragRecord i lo hi (!r.more)).fragSync.parDrain
  | some (i, e) =>
    if !e.unchecked && overlaps e.ranges lo hi then s.malTake id 4
    else match e.decision with
    | some v => ((s.fragRecord i lo hi (!r.more)).fragTake id v e.rule).fragComplete i
    | none =>
      if 8 ≤ e.held.length || 256 ≤ s.fragsHeld then s.malTake id 3
      else
        let s := s.fragRecord i lo hi (!r.more)
        { s with par.frags := s.par.frags.edit i fun e =>
          { e with held := e.held ++ [(id, lo, hi, !r.more)] } }.fragSync.parDrain

/-! ### The end of a program (R116, R118) -/

/-- What a pass reports to the fragment table: a fragment with offset 0 and M 0 is none (R124). -/
def PeCtx.report (x : PeCtx) : Option FragReport := x.frag.filter fun r => decide (r.offset ≠ 0) || r.more

/-- The packet goes on to another pass (R117, R118): STRIP moves the start of its window; DECAP_RECIRC removes the bytes that it
passes over. -/
def State.passAgain (s : State) (id a : Nat) : State :=
  let strip := min 384 (a / 2 ^ 12 % 512)
  let s := s.editPkt id fun p =>
    let stop := p.start + strip
    let decap := decide (a % 16 = 4 ∧ strip ≠ 0)
    let kept (h : Nat × Nat) : Bool := !decap || decide (h.2 < p.start) || decide (stop ≤ h.2)
    { p with
      start := stop, entry := a / 2 ^ 4 % 256, head := (outerIp p).filter kept
      removed := if decap then p.removed ++ [(p.start, stop)] else p.removed }
  { s with par.recirc := s.par.recirc ++ [id] }.parDrain

/-- The action word of a pass is executed (R117 to R119). The pass's own report of a first fragment joins the packet's; one whose
bytes an entry has recorded since DONE ends the pass with FRAG_OVERLAP (R126). -/
def State.passAct (s : State) (n : Nat) (x : PeCtx) (a : Nat) (rule : Option (Bool × Nat)) : State :=
  let first := match x.report with | some r => decide (r.offset = 0) | none => false
  let s := s.editPkt x.pkt fun p => { p with
    firstFrag := first, frags := if first then p.frags ++ x.report.toList else p.frags }
  let (own, passes) : List FragReport × Nat := match s.pkt x.pkt with
    | some p => (p.frags, p.passes)
    | none => ([], 0)
  if own.any s.fragMeets then s.passMal n 4
  else
    let (s, v) := ((s.peFree n).ruleHit rule).actionVerdict a
    match v with
    | some v => s.outcome 4 x.pkt v rule
    | none => if 4 ≤ passes then s.malTake x.pkt 1 else s.passAgain x.pkt a

/-- DONE (R116, R124): the layer table and the padding go with the packet; a later fragment goes to the table and is not
looked up; else the final lookup is issued, a first fragment having been checked for overlap and length. -/
def State.passDone (s : State) (n dflt : Nat) : State :=
  match s.pe n with
  | none => s
  | some x =>
    let s := s.editPkt x.pkt fun p => { p with layers := x.layers, padding := x.lenchk.getD p.padding }
    let s := s.stampEdition x.pkt
    match x.report with
    | none => s.editPe n fun x => { x with final := some dflt }
    | some r =>
      if 65535 < r.offset + r.len then s.passMal n 2
      else if r.offset ≠ 0 then (s.peFree n).fragLater x.pkt r
      else if s.fragMeets r then s.passMal n 4
      else s.editPe n fun x => { x with final := some dflt }

end Sys2Proof.Machine
end

