-- ==== Sys2Proof/Machine/Par.lean ====
section
/-! DEFINITION. Parsing and classification (spec/05): its rows. -/

namespace Sys2Proof.Machine

/-! ### Passes (R112 to R119) -/

/-- The packet's program starts on an engine, unless its header slot says otherwise (R112, R115). A packet with BAD and TRUNC is
treated as BAD, one with POISON as poisoned whatever else it shows, and a truncated one carries class 0 and its pass, 1 at least (R122;
DESIGN CHOICE, log entry 204). -/
def State.passStart (s : State) (n id entry : Nat) : State :=
  match s.pkt id with
  | none => s
  | some p =>
    if p.poison || p.statusPoison then
      s.verdictOr id none
    else if p.bad then
      let s := s.bump PAR_CNT_BAD
      if s.on (PAR_PROG_BAD_FWD p.ingress) then s.toQuire id (s.f (PAR_MAL_CFG_QUIRE 0)) else s.pktDiscard id
    else if p.trunc then
      let s := (s.bump PAR_MAL_TRUNCATED).editPkt id fun p => { p with passes := p.passes + 1 }
      (s.malMark id 0).toQuire id (s.f (PAR_MAL_CFG_QUIRE 0))
    else
      let s := s.editPkt id fun p => { p with passes := p.passes + 1 }
      { s with par.engines := s.par.engines.put n { pkt := id, pc := s.par.entries.lookD entry 0 } }

/-- PARSE_PASS_START: a free engine takes the next visible packet of an ingress quire for its first pass, at the entry that
`PAR_PROG_n` names, or the oldest packet that waits for a later pass. -/
def execParsePassStart (engine : BitVec 5) (quire : Option (BitVec 7)) (header : ReadErr) (s : State) :
    Host.Outcome State Fault Refusal :=
  .next <| s.datapath .par fun s =>
    let n := engine.toNat
    if (s.pe n).isSome || s.par.lost.testBit n then s
    else match quire with
    | some q =>
      let q := q.toNat
      if s.f (PKB_Q_CFG_CONS q) ≠ UnitId.par.num then s
      else match (s.quire q).visible with
      | [] => s
      | id :: rest =>
        let s := s.editQuire q fun k => { k with visible := rest }
        let (s, there) := s.headerRead id header
        if there then s.passStart n id (s.f (PAR_PROG_ENTRY q)) else s
    | none =>
      match s.par.recirc with
      | [] => s
      | id :: rest =>
        let entry := match s.pkt id with | some p => p.entry | none => 0
        { s with par.recirc := rest }.passStart n id entry

/-- PARSE_TIMEOUT: the 512th engine cycle ends without DONE (R114). -/
def execParseTimeout (engine : BitVec 5) (s : State) : Host.Outcome State Fault Refusal :=
  .next <|
    match s.pe engine.toNat with
    | some x => if x.final.isNone then s.passMal engine.toNat 6 else s
    | none => s

/-- FINAL_LOOKUP_RESULT: the lookups answer from the packet's entry edition, and the action is executed. -/
def execFinalLookupResult (engine : BitVec 5) (s : State) : Host.Outcome State Fault Refusal :=
  .next <| s.datapath .par fun s =>
    match s.pe engine.toNat with
    | none => s
    | some x => match x.final with
      | none => s
      | some dflt =>
        let (a, rule) := s.classify x.tkey x.ekey (s.lookupEdition x.pkt) dflt
        s.passAct engine.toNat x a rule

/-! ### Fragment windows (R125, R127) -/

/-- The held fragments of an entry become FRAG_ORPHAN and the entry is freed (R125, R128). -/
def State.fragOrphan (s : State) (i : Nat) : State :=
  match s.par.frags.look i with
  | none => s
  | some e => (s.fragFree i).each e.held fun s h => s.malTake h.1 3

/-- FRAG_HOLD_EXPIRE: 64 ms after the first hold. -/
def execFragHoldExpire (entry : BitVec 12) (s : State) : Host.Outcome State Fault Refusal :=
  .next <|
    match s.par.frags.look entry.toNat with
    | none => s
    | some e => if e.decision.isSome then s else (s.reach (e.since + 64000000)).fragOrphan entry.toNat

/-- FRAG_ACTIVE_EXPIRE: 2 s after the decision. -/
def execFragActiveExpire (entry : BitVec 12) (s : State) : Host.Outcome State Fault Refusal :=
  .next <|
    match s.par.frags.look entry.toNat with
    | none => s
    | some e => if e.decision.isNone then s else (s.reach (e.since + 2000000000)).fragFree entry.toNat

/-! ### Rule commands (R133, R134) -/

/-- The rule commands. -/
def ruleCmd : CmdReg := ⟨PAR_RULE_CMD_STATE.addr, .par, .operator⟩
def commitCmd : CmdReg := ⟨PAR_COMMIT_STATE.addr, .par, .operator⟩

/-- Bytes of `PAR_RULE_BUF` from an offset. -/
def State.ruleBytes (s : State) (off words : Nat) : List Byte :=
  (List.range words).flatMap fun k => natLe 4 (s.rd (0x1100100 + off + 4 * k)).toNat

/-- The rule that the buffer holds, written open from the pending edition (R133). -/
def State.ruleBuf (s : State) (exact : Bool) : Rule :=
  { value := if exact then (s.ruleBytes 0 16).take 48 else s.ruleBytes 0 16
    mask := if exact then [] else s.ruleBytes 0x40 16
    action := leNat (s.ruleBytes 0x80 2)
    fromEd := s.edPending
    override := !exact && s.on PAR_RULE_BUF_FLAGS_OVERRIDE }

/-- A rule is copied into the buffer (R133). -/
def State.ruleToBuf (s : State) (r : Rule) : State :=
  let bytes (s : State) (off : Nat) (l : List Byte) : State :=
    s.each (List.range ((l.length + 3) / 4)) fun s k =>
      s.wr (0x1100100 + off + 4 * k) (BitVec.ofNat 32 (leNat ((l.drop (4 * k)).take 4)))
  let s := bytes s 0 (keyPad 64 r.value)
  let s := bytes s 0x40 (keyPad 64 r.mask)
  let s := bytes s 0x80 (natLe 8 r.action)
  let s := (s.set PAR_RULE_BUF_RANGE_UNTIL r.untilEd).set PAR_RULE_BUF_RANGE_FROM r.fromEd
  ((s.put PAR_RULE_BUF_FLAGS_OPEN r.opened).put PAR_RULE_BUF_FLAGS_OVERRIDE r.override).put PAR_RULE_BUF_FLAGS_SETTLED r.settled

/-- The rule in a ternary slot, or in an exact place; an uncorrectable one is absent (R109). -/
def State.ternaryAt (s : State) (i : Nat) : Option Rule := if s.isBad .par 0 i then none else s.par.ternary.look i
def State.exactAlive (s : State) : List (Nat × Rule) := s.par.exact.filter fun (x : Nat × Rule) => !s.isBad .par 1 x.1

/-- The free places of the two buckets of an exact key. -/
def State.exactPlaces (s : State) (key : List Byte) : List Nat :=
  let b0 := Config.exactBucket key false % 131072
  let b1 := Config.exactBucket key true % 131072
  ((List.range 8).map (8 * b0 + ·) ++ (List.range 8).map (8 * b1 + ·)).filter fun i => !s.par.exact.has i || s.isBad .par 1 i

/-- WRITE (R133). -/
def State.ruleWrite (s : State) (exact : Bool) (i : Nat) : State :=
  let r := s.ruleBuf exact
  if exact then
    if s.exactAlive.any fun (x : Nat × Rule) => decide (x.2.value = r.value) && s.ruleVisible x.2 s.edPending then
      s.cmdError ruleCmd.addr 4
    else
      let places := s.exactPlaces r.value
      if places.isEmpty then s.cmdError ruleCmd.addr 3
      else
        let at_ := places.getD (s.free .exactWay % places.length) 0
        let s := { s.drawn with par.exact := s.par.exact.put at_ r }
        ((s.set PAR_RULE_RES_INDEX at_).unbad .par 1 at_).cmdDone ruleCmd.addr
  else if 16384 ≤ i then s.cmdError ruleCmd.addr 6
  else if (s.ternaryAt i).isSome then s.cmdError ruleCmd.addr 2
  else (({ s with par.ternary := s.par.ternary.put i r }).unbad .par 0 i).cmdDone ruleCmd.addr

/-- What RETIRE makes of a rule: none where it is refused, else the rule as it stays, if it stays (R133). -/
def State.ruleRetired (s : State) (r : Rule) : Option (Option Rule) :=
  if !r.settled && decide (r.fromEd = s.edPending) then some none
  else if r.opened then some (some { r with opened := false, untilEd := s.edPending })
  else none

/-- The exact-match entry of the buffer's key: the open one, else the one at the lowest place (DESIGN CHOICE, log entry 251). -/
def State.exactOf (s : State) : Option (Nat × Rule) :=
  let key := (s.ruleBytes 0 16).take 48
  match s.exactAlive.find? fun (x : Nat × Rule) => decide (x.2.value = key) && x.2.opened with
  | some x => some x
  | none => s.exactAlive.find? fun (x : Nat × Rule) => decide (x.2.value = key)

/-- RETIRE (R133). -/
def State.ruleRetire (s : State) (exact : Bool) (i : Nat) : State :=
  if exact then
    match s.exactOf with
    | none => s.cmdError ruleCmd.addr 5
    | some (i, r) => match s.ruleRetired r with
      | none => s.cmdError ruleCmd.addr 5
      | some o =>
        let m := match o with | some r => s.par.exact.put i r | none => s.par.exact.del i
        ({ s with par.exact := m }.set PAR_RULE_RES_INDEX i).cmdDone ruleCmd.addr
  else if 16384 ≤ i then s.cmdError ruleCmd.addr 6
  else match s.ternaryAt i with
    | none => s.cmdError ruleCmd.addr 5
    | some r => match s.ruleRetired r with
      | none => s.cmdError ruleCmd.addr 5
      | some o =>
        let m := match o with | some r => s.par.ternary.put i r | none => s.par.ternary.del i
        { s with par.ternary := m }.cmdDone ruleCmd.addr

/-- READ (R133): a free slot, or a key that no entry holds, is NOT_FOUND (DESIGN CHOICE, log entry 205). -/
def State.ruleRead (s : State) (exact : Bool) (i : Nat) : State :=
  if exact then
    match s.exactOf with
    | none => s.cmdError ruleCmd.addr 5
    | some (i, r) => ((s.ruleToBuf r).set PAR_RULE_RES_INDEX i).cmdDone ruleCmd.addr
  else if 16384 ≤ i then s.cmdError ruleCmd.addr 6
  else match s.ternaryAt i with
    | none => s.cmdError ruleCmd.addr 5
    | some r => (s.ruleToBuf r).cmdDone ruleCmd.addr

/-- The operations of `PAR_RULE_CMD`: 1 WRITE, 2 RETIRE, 3 READ; 0 is INVALID. While a commit runs, BUSY (R134). -/
def State.ruleOp (s : State) (req : Req) (op : Nat) (exact : Bool) (i : Nat) : State :=
  s.command ruleCmd req fun s =>
    if s.f PAR_COMMIT_STATE = 1 then s.cmdError ruleCmd.addr 1
    else match op with
    | 1 => s.ruleWrite exact i
    | 2 => s.ruleRetire exact i
    | 3 => s.ruleRead exact i
    | _ => s.cmdError ruleCmd.addr 6

/-- RULE_WRITE. -/
def execRuleWrite (req : Req) (exact : Bool) (index : BitVec 20) (s : State) : Host.Outcome State Fault Refusal :=
  .next (s.ruleOp req 1 exact index.toNat)

/-- RULE_RETIRE. -/
def execRuleRetire (req : Req) (exact : Bool) (index : BitVec 20) (s : State) : Host.Outcome State Fault Refusal :=
  .next (s.ruleOp req 2 exact index.toNat)

/-- RULE_READ. -/
def execRuleRead (req : Req) (exact : Bool) (index : BitVec 20) (s : State) : Host.Outcome State Fault Refusal :=
  .next (s.ruleOp req 3 exact index.toNat)

/-- GO to `PAR_COMMIT` (R134): the pending edition becomes current; refused while 4 editions are live or a rule command runs. -/
def State.commitOp (s : State) (req : Req) : State :=
  s.command commitCmd req fun s =>
    if 3 ≤ s.edDist s.edCurrent || decide (s.f PAR_RULE_CMD_STATE = 1) then s.cmdError commitCmd.addr 1
    else (((s.set PAR_EDITION_CURRENT s.edPending).edDrain 3).edSync).cmdDone commitCmd.addr

/-- EDITION_COMMIT. -/
def execEditionCommit (req : Req) (s : State) : Host.Outcome State Fault Refusal := .next (s.commitOp req)

end Sys2Proof.Machine
end

