-- ==== Sys2Proof/Machine/Ple.lean ====
section
/-! DEFINITION. Placement (spec/08): its rows. -/

namespace Sys2Proof.Machine

/-! ### Tier 1 (R187 to R190) -/

/-- The anchor of an ANCHORED TID judged against the other usable links, the best first; one that wins takes effect when no MPDU
is outstanding (R190). A TID without an anchor gets one. -/
def State.anchorEval (s : State) (c t : Nat) : State :=
  let k := s.tid c t
  match k.anchor with
  | none => s.tidSettle c t
  | some a =>
    if k.split || !s.tier1Live c then s
    else
      let above (r : Nat) : Bool := decide (s.linkScore c a + s.margin 1 ≤ s.linkScore c r ∧ s.linkScore c a < s.linkScore c r)
      let cands := sortBy (fun x y => decide (s.linkScore c y ≤ s.linkScore c x))
        ((s.linkRoots c).filter fun r => decide (r ≠ a) && s.linkUsable c r && above r)
      match s.hystEval 1 (natLe 2 c ++ natLe 1 t) cands with
      | (s, some b) => if settled k then s.anchorSet c t b false else s.editTid c t fun k => { k with next := some b }
      | (s, none) => s

/-- TIER1_ANCHOR_EVAL: with AIR of the link roots 8 to 10 over the last 100 ms. While tier 1 is disabled, or a client is frozen,
its last decisions stay (R184, R202). -/
def execTier1AnchorEval (air8 air9 air10 : BitVec 10) (s : State) : Host.Outcome State Fault Refusal :=
  .next <| s.datapath .ple fun s =>
    let s := s.reach (s.ple.evals.lookD 1 0 + 1000000)
    let s := { s with
      ple.evals := s.ple.evals.put 1 s.now
      ple.air := ((s.ple.air.put 8 air8.toNat).put 9 air9.toNat).put 10 air10.toNat }
    s.each ((s.sch.clients.map Prod.fst).filter fun c => decide (1 < (s.linkRoots c).length)) fun s c =>
      (s.each (s.tidsOf c) fun s t => s.anchorEval c t).maskSync c

/-- LINK_USABILITY_CHANGE: what WMA reports of a client's link: awake, and its goodput in Mb/s smoothed over 100 ms. -/
def execLinkUsabilityChange (client : BitVec 13) (root : BitVec 4) (awake : Bool) (goodput : BitVec 16) (s : State) :
    Host.Outcome State Fault Refusal :=
  .next <| s.datapath .ple fun s =>
    let c := client.toNat
    let r := root.toNat
    let lq := min 1023 (goodput.toNat * 1023 / max 1 (s.f PLE_T1_LQ_FULL))
    let l : LinkSt := { awake := awake, lq := lq }
    let s := { s with ple.links := s.ple.links.put (16 * c + r) l }
    let l := { l with usable := s.linkUsable c r }
    { s with ple.links := s.ple.links.put (16 * c + r) l }.clientSettle c

/-- BA_AGREEMENT_CHANGE: size 0 for an agreement that is torn down. A receive agreement that ends releases what it holds, in
order. -/
def execBaAgreementChange (station : BitVec 10) (tid : BitVec 4) (transmit : Bool) (size : BitVec 11) (ssn : BitVec 12)
    (s : State) : Host.Outcome State Fault Refusal :=
  .next <| s.datapath .ple fun s =>
    let i := station.toNat
    let t := tid.toNat
    match s.wma.stations.look i with
    | none => s
    | some st =>
      if transmit then (s.editTid st.client t fun k => { k with size := min 1024 size.toNat }).tidSettle st.client t
      else
        let s := s.with? (s.baOf i t) fun s b => s.baMove i t ((b.win + b.size) % 4096)
        if size = 0 then s.editSta i fun x => { x with ba := x.ba.del t }
        else s.editSta i fun x => { x with ba := x.ba.put t { size := min 1024 size.toNat, win := ssn.toNat } }

/-! ### Tier 2 (R191 to R196) -/

/-- TIER2_EVAL: with DRC's bandwidth use over the last 50 ms. In Limp mode tier 2 stops (R195). A disabled tier 2 changes no entry's
tier and hints to nobody; a hint received is taken up all the same, since its owner, or an operator's pin, has decided (R184, R193;
DEDUCED, log entry 252). -/
def execTier2Eval (dram : BitVec 10) (s : State) : Host.Outcome State Fault Refusal :=
  .next <| s.datapath .ple fun s =>
    let s := s.reach (s.ple.evals.lookD 2 0 + 50000000)
    let s := { s with ple.evals := s.ple.evals.put 2 s.now, ple.reqs := 0, ple.grants := 0, ple.dram := dram.toNat }
    let hints := s.ple.hints
    let s := { s with ple.hints := [] }
    let s :=
      if s.on PLE_STATE_LIMP then s
      else
        let s := s.pinsRetry true
        let (s, budget) := s.tierForced dram.toNat (min 4096 (s.f PLE_T2_BUDGET_TIER))
        let s := s.each hints fun s h => s.moveAsk h.2 h.1
        s.when (s.tierOn 2) fun s => (s.tierNormal dram.toNat budget).hintsSend
    { s with flw.seen := [] }

/-- MOVE_HINT_RX: taken up at the next tier 2 evaluation, whatever the share: an owner hints for a pin too (R203). -/
def execMoveHintRx (src : BitVec 6) (key : BitVec 312) (_share : BitVec 10) (s : State) : Host.Outcome State Fault Refusal :=
  .next <| s.datapath .ple fun s =>
    if s.on PLE_STATE_LIMP then s
    else { s with ple.hints := s.ple.hints ++ [(src.toNat, natLe 39 key.toNat)] }

/-! ### Moves: the old owner (R205, R207, R209) -/

/-- Why a MOVE_REQ is refused, with the owner where another device has the flow. PIN alone refuses none: R205 names DEVICE and
SHELF pins (DEDUCED, log entry 217). -/
def State.moveRefusal (s : State) (src : Nat) (key : List Byte) : Option (MoveReason × List Nat) :=
  let limit := min 256 (s.f PLE_T2_BUDGET_OWN)
  let away := (s.pairPin key 1).any fun (p : Pin) => decide (p.device ≠ src)
  if s.on PLE_STATE_LIMP then some (.limp, [])
  else match s.flowGet key with
  | none => some (.notOwner, [])
  | some f =>
    if s.flowMoving key then some (.moving, [])
    else if f.tier = 3 then some (.notOwner, [f.nh % 64])
    else if away || (s.pairPin key 2).isSome || (f.nat && !s.on PLE_CTL_NAT_MOVE) then some (.pinned, [])
    else if 64 ≤ s.openMoves ∨ limit ≤ s.ple.grants then some (.busy, [])
    else none

/-- The entries of a move become REMOTE together. -/
def State.flowsRemote (s : State) (owner : Nat) : List Flow → Option State
  | [] => some s
  | f :: t => (s.flowRemote f owner).bind (·.flowsRemote owner t)

/-- Packets of a flow that were looked up in its entry and are still in FLW. -/
def State.lookedUp (s : State) (keys : List (List Byte)) : List Nat :=
  (s.flw.wait.filter fun (x : FlwPkt) => keys.contains x.key && (match x.stage with
    | .route true _ _ => true
    | .out _ => true
    | _ => false)).map (·.pkt)

/-- MOVE_REQ_RX: the commit point of the move. -/
def execMoveReqRx (src : BitVec 6) (id : BitVec 32) (key : BitVec 312) (s : State) : Host.Outcome State Fault Refusal :=
  .next <| s.datapath .ple fun s =>
    let k := natLe 39 key.toNat
    let n := src.toNat
    let refuse (s : State) (r : MoveReason) (more : List Nat) : State :=
      (s.smpSend 0x35 (some n) (octets (natLe 4 id.toNat) ++ [r.code] ++ more)).moveLog false k n r.code 1
    match s.moveRefusal n k, s.flowGet k with
    | some (r, more), _ => refuse s r more
    | none, none => s
    | none, some f =>
      let p := s.partner f
      let before := s.lookedUp (k :: p.toList.map (·.key))
      match s.flowsRemote n (f :: p.toList) with
      | none => refuse s .busy []
      | some s =>
        let m : MoveOut := { id := id.toNat, other := n, snapshot := f, partner := p, since := s.now, before := before }
        let s := ({ s with ple.movesOut := s.ple.movesOut ++ [m], ple.grants := s.ple.grants + 1 } : State).movesSync
        s.smpSend 0x32 (some n) (octets (natLe 4 id.toNat ++ flowImage f ++
          (match p with | some g => flowImage g | none => List.replicate 64 0)))

/-- The move as old owner of a device and identifier. -/
def State.moveOutOf (s : State) (other id : Nat) : Option MoveOut :=
  s.ple.movesOut.find? fun m => decide (m.other = other ∧ m.id = id)

/-- A move as old owner that is drained and acknowledged is closed. -/
def State.moveOutSettle (s : State) (other id : Nat) : State :=
  s.with? (s.moveOutOf other id) fun s m =>
    s.when (m.acked && m.drainSent) fun s => (s.moveOutEnd other id).moveLog false m.snapshot.key other id 0

/-- DRAIN_COMPLETE: DRAIN_DONE is sent for the oldest move whose packets have all left FLW. -/
def execDrainComplete (s : State) : Host.Outcome State Fault Refusal :=
  .next <| s.datapath .ple fun s =>
    let left (m : MoveOut) : Bool := s.flw.wait.any fun x => m.before.contains x.pkt
    s.with? (s.ple.movesOut.find? fun m => !m.drainSent && !left m) fun s m =>
      ((s.editMoveOut m.other m.id fun m => { m with drainSent := true }).smpSend 0x34 (some m.other)
        (octets (natLe 4 m.id))).moveOutSettle m.other m.id

/-- MOVE_ACK_RX. -/
def execMoveAckRx (src : BitVec 6) (id : BitVec 32) (s : State) : Host.Outcome State Fault Refusal :=
  .next <| s.datapath .ple fun s =>
    (s.editMoveOut src.toNat id.toNat fun m => { m with acked := true }).moveOutSettle src.toNat id.toNat

/-- PLE_MOVE_UNCONFIRMED: 10 ms after the commit point of the oldest move that no MOVE_ACK has confirmed. -/
def execPleMoveUnconfirmed (s : State) : Host.Outcome State Fault Refusal :=
  .next <| s.datapath .ple fun s =>
    s.with? (s.ple.movesOut.find? fun m => !m.acked) fun s m =>
      let s := ((s.reach (m.since + 10000000)).moveOutEnd m.other m.id).ev .ple Ev.PLE_MOVE_UNCONFIRMED [m.id, m.other]
      s.moveLog false m.snapshot.key m.other m.id 2

/-! ### Moves: the new owner (R204, R206, R208, R209) -/

/-- The move as new owner of an identifier, with a device as old owner. -/
def State.moveInOf (s : State) (other id : Nat) : Option MoveIn :=
  s.ple.movesIn.find? fun m => decide (m.other = other ∧ m.id = id)

/-- An entry as the new owner installs it: ED, PARAM, XLAT and counters kept (R206). -/
def State.arrives (s : State) (image : Nat) : Flow :=
  { flowOf (natLe 64 image) with nh := 0xFFFF, gen := s.f (FLW_VRF_CTL_GEN (keyVrf (flowOf (natLe 64 image)).key)), pin := false }

/-- MOVE_DATA_RX: each image is the number of its 64 bytes, the first one lowest; a partner of zeros is none. The entries' HOLD runs
from here (R186). -/
def execMoveDataRx (src : BitVec 6) (id : BitVec 32) (entry partner : BitVec 512) (s : State) :
    Host.Outcome State Fault Refusal :=
  .next <| s.datapath .ple fun s =>
    match s.moveInOf src.toNat id.toNat with
    | none => s
    | some m =>
      let l := s.arrives entry.toNat :: (if partner = 0 then [] else [s.arrives partner.toNat])
      if m.data then s
      else match s.flowsInstall l with
      | none => s.moveCancel m (some .full) 3 m.id
      | some s =>
        let s := s.each l fun s (f : Flow) => s.hystChange 2 f.key
        ((s.editMoveIn m.id fun m => { m with data := true, keys := (m.keys ++ l.map (·.key)).eraseDups }).smpSend 0x33
          (some m.other) (octets (natLe 4 m.id))).fenceCheck m.id

/-- DRAIN_DONE_RX. -/
def execDrainDoneRx (src : BitVec 6) (id : BitVec 32) (s : State) : Host.Outcome State Fault Refusal :=
  .next <| s.datapath .ple fun s =>
    s.with? (s.moveInOf src.toNat id.toNat) fun s m =>
      (s.editMoveIn m.id fun m => { m with drained := true }).fenceCheck m.id

/-- The old owner has ended a move of this device: refused it, or cancelled it after its commit point. A move refused with BUSY is
asked for again at a later period (R196). -/
def State.moveRefused (s : State) (m : MoveIn) (reason : Nat) : State :=
  let s := if m.data then s.moveCancel m none 3 m.id else s.moveCancel m none 1 reason
  s.when (decide (reason = MoveReason.busy.code)) fun s => { s with ple.hints := s.ple.hints ++ [(m.other, moveKey m)] }

/-- MOVE_CANCEL_RX: the old owner has refused or cancelled a move of this device, or the new owner cancels one away from it. -/
def execMoveCancelRx (src : BitVec 6) (id : BitVec 32) (reason : BitVec 8) (s : State) : Host.Outcome State Fault Refusal :=
  .next <| s.datapath .ple fun s =>
    match s.moveInOf src.toNat id.toNat, s.moveOutOf src.toNat id.toNat with
    | some m, none => s.moveRefused m reason.toNat
    | some m, some o =>
      if reason.toNat = MoveReason.timeout.code ∨ reason.toNat = MoveReason.full.code then s.when (!o.acked) (·.moveRestore o)
      else s.moveRefused m reason.toNat
    | none, some o => s.when (!o.acked) (·.moveRestore o)
    | none, none => s

/-- FENCE_TIMEOUT: 2 ms after the MOVE_REQ of the oldest move. -/
def execFenceTimeout (s : State) : Host.Outcome State Fault Refusal :=
  .next <| s.datapath .ple fun s =>
    s.with? s.ple.movesIn.head? fun s m =>
      let s := s.reach (m.opened + 2000000)
      if m.data then ((s.ev .ple Ev.PLE_FENCE_TIMEOUT [m.id, m.other]).bump PLE_CNT_FENCE_TIMEOUT).fenceRelease m 2
      else s.moveCancel m (some .timeout) 2 m.id

/-! ### Moves: a requester (R204, R205, R210) -/

/-- REDIRECT_RX: the REMOTE entry of the flow is updated, and its waiting lookups go to the new owner in their order. Where that is this
device and it does not have the flow, its REMOTE entry goes and the waiting packets take the flow, as after MISS (R155, R210). -/
def execRedirectRx (src : BitVec 6) (key : BitVec 312) (owner : BitVec 6) (s : State) : Host.Outcome State Fault Refusal :=
  .next <| s.datapath .ple fun s =>
    let k := natLe 39 key.toNat
    let s := if owner.toNat = s.shelfId then s.remoteGone k
      else s.flowEdit k fun f => if f.tier = 3 then { f with nh := owner.toNat } else f
    let l := s.flw.wait.filter fun (x : FlwPkt) =>
      decide (x.stage = .remote ∧ x.owner = src.toNat) && x.key == k && !x.redirected
    (s.each l fun s x =>
      if owner.toNat = s.shelfId then
        (match s.flowGet k with | some f => s.useFlow x f | none => s.flowMiss x)
      else s.askOwner x owner.toNat true).fencesCheck

/-- WAIT_RX: the first waiting lookup of the flow at that owner that has not been restarted. -/
def execWaitRx (src : BitVec 6) (key : BitVec 312) (s : State) : Host.Outcome State Fault Refusal :=
  .next <| s.datapath .ple fun s =>
    let k := natLe 39 key.toNat
    s.with? (s.firstWait fun x => decide (x.stage = .remote ∧ x.owner = src.toNat) && x.key == k && !x.waited) fun s x =>
      s.editWait x.pkt fun y => { y with waited := true, deadline := s.now + max 100 (s.f FLW_REMOTE_TMO_TMO) * 1000 }

/-! ### Tier 3 (R197 to R199) -/

/-- The candidates of a client that its pins leave, with their LQ: for a multi-link client devices only. One of this device has a
BSSID of its radio (R199). -/
def State.steerOptions (s : State) (b : BtmClient) (st : Station) : List (SteerOption × Nat) :=
  let own := s.shelfId
  let mac := b.mac.toNat
  let unit (o : SteerOption) : Nat := match o.radio with | .a => UnitId.rfa.num | .b => UnitId.rfb.num
  let here (o : SteerOption) : Bool := decide (o.device.toNat = own) && (multiLink st || decide (unit o = stationUnit st) ||
    !((List.range 16).any fun n => s.bssOn o.radio n && decide (s.bssMac o.radio n = o.bssid.toNat)))
  let device (o : SteerOption) : Bool := (s.clientPin mac 1).all fun (p : Pin) => decide (o.device.toNat = p.device)
  let radio (o : SteerOption) : Bool := (s.clientPin mac 0).all fun (p : Pin) => decide (unit o = p.unit)
  (b.options.filter fun o => !here o && device o && radio o).filterMap fun o => (s.candLq mac o).map fun q => (o, q)

/-- A pin asks for the client elsewhere: on another device, or on this device's other radio. -/
def State.steerForced (s : State) (mac : Nat) (st : Station) : Bool :=
  ((s.clientPin mac 1).any fun (p : Pin) => decide (p.device ≠ s.shelfId)) ||
    (!multiLink st && (s.clientPin mac 0).any fun (p : Pin) => decide (p.unit ≠ stationUnit st))

/-- One client judged (R186, R197): with the requests left in this second. The candidates of a multi-link client are devices, each at
its best link. -/
def State.steerEval (x : State × Nat) (b : BtmClient) : State × Nat :=
  let s := x.1
  let mac := b.mac.toNat
  match s.staOf mac with
  | none => x
  | some (_, st) =>
    let k := s.steer mac
    if st.backhaul || k.open_.isSome || decide (s.now < k.until_) || (s.clientPin mac 2).isSome then x
    else
      let sc (e : SteerOption × Nat) : Int := s.score3 e.2 e.1.air.toNat e.1.device.toNat
      let num (e : SteerOption × Nat) : Nat := if multiLink st then e.1.device.toNat else 2 * e.1.device.toNat + e.1.radio.num
      let ranked := sortBy (fun x y => decide (sc y ≤ sc x)) (s.steerOptions b st)
      let links := (s.linkRoots st.client).map fun r => s.score3 (s.linkSt st.client r).lq (s.ple.air.lookD r 0) s.shelfId
      let here := (links.foldl (fun (m : Option Int) v => some (match m with | none => v | some k => max k v)) none).getD
        (s.score3 0 0 s.shelfId)
      let above := (ranked.filter fun e => decide (here + s.margin 3 ≤ sc e ∧ here < sc e)).map num
      let forced := s.steerForced mac st
      let (s, go) :=
        if forced then (s, (ranked.map num).head?)
        else if !s.tierOn 3 then (s, none)
        else s.hystEval 3 (natLe 6 mac) above.eraseDups
      match go.bind fun n => ranked.find? fun e => decide (num e = n) with
      | some e => if x.2 ≠ 0 then (s.steerSend b e.1 { forced := forced, scoreFrom := here, scoreTo := sc e }, x.2 - 1) else (s, x.2)
      | none => (s, x.2)

/-- TIER3_EVAL: with the clients that advertise BSS transition management. -/
def execTier3Eval (clients : List BtmClient) (s : State) : Host.Outcome State Fault Refusal :=
  .next <| s.datapath .ple fun s =>
    let s := s.reach (s.ple.evals.lookD 3 0 + 1000000000)
    let s := ({ s with ple.evals := s.ple.evals.put 3 s.now } : State).pinsRetry false
    (clients.foldl State.steerEval (s, min 64 (s.f PLE_T3_RATE))).1

/-- BTM_RESPONSE_RX: status 0 waits for the reassociation, any other is a failure. -/
def execBtmResponseRx (mac : BitVec 48) (status : BitVec 8) (s : State) : Host.Outcome State Fault Refusal :=
  .next <| s.datapath .ple fun s =>
    let m := mac.toNat
    let k := s.steer m
    if k.open_.isNone then s
    else if status = 0 then { s with ple.steers := s.ple.steers.put m { k with accepted := true } }
    else s.steerFail m 1

/-- STEER_TIMEOUT: 5 s after the request. A client found on its target radio of this device has followed it; another one that
had accepted is deleted here. -/
def execSteerTimeout (mac : BitVec 48) (s : State) : Host.Outcome State Fault Refusal :=
  .next <| s.datapath .ple fun s =>
    let m := mac.toNat
    let k := s.steer m
    match k.open_ with
    | none => s
    | some (device, unit, since) =>
      let s := s.reach (since + 5000000000)
      let arrived := decide (device = s.shelfId) && (s.staOf m).any fun e => !multiLink e.2 && decide (stationUnit e.2 = unit)
      if arrived then s.steerDone m
      else
        let s := (s.steerFail m 2).ev .ple Ev.PLE_STEER_TIMEOUT [device, unit]
        s.when (k.accepted && decide (device ≠ s.shelfId)) (·.stationGone m)

/-! ### Load and tier 4 (R200, R201) -/

/-- An overheard client whose LQ would serve (R200). -/
def State.lqServes (s : State) (c : Overheard) : Bool := decide (s.f PLE_T1_LQ_MIN ≤ c.lq.toNat)

/-- The payload of one LOAD frame (R441). -/
def loadBytes (load : Nat) (limp : Bool) (clients : List Overheard) (nodes : List (BitVec 64)) : List Byte :=
  natLe 2 load ++ natLe 1 limp.toNat ++ natLe 1 clients.length ++
    (clients.flatMap fun c => natLe 6 c.mac.toNat ++ natLe 2 c.lq.toNat) ++ natLe 1 nodes.length ++
    nodes.flatMap fun e => natLe 8 e.toNat

/-- A report in the parts that frames of 1,400 bytes hold, 174 clients and nodes each: one frame, and more where it needs them. -/
def loadParts : Nat → List Overheard → List (BitVec 64) → List (List Overheard × List (BitVec 64))
  | 0, _, _ => []
  | n + 1, cs, ns =>
    let c := cs.take 174
    let m := ns.take (174 - c.length)
    (c, m) :: loadParts n (cs.drop 174) (ns.drop m.length)

/-- LOAD_REPORT_SEND: with what this device overhears, up to 256 clients, and DRC's bandwidth use. The lead holds its own receptions too
(R201). A report that one frame does not hold goes out in several (DESIGN CHOICE, log entry 150). -/
def execLoadReportSend (clients : List Overheard) (nodes : List (BitVec 64)) (dram : BitVec 10) (s : State) :
    Host.Outcome State Fault Refusal :=
  .next <| s.datapath .ple fun s =>
    let s := s.reach (s.ple.evals.lookD 5 0 + 1000000000)
    let s := { s with ple.evals := s.ple.evals.put 5 s.now }
    let air := max (max (s.ple.air.lookD 8 0) (s.ple.air.lookD 9 0)) (s.ple.air.lookD 10 0)
    let sum := s.score 4 [(1, air), (2, s.sramX), (3, dram.toNat)]
    let load := min 1023 (sum / 256).toNat
    let s := s.set PLE_STATE_LOAD load
    let r : LoadRep := { load := load, limp := s.on PLE_STATE_LIMP, since := s.now, nodes := nodes.map (·.toNat) }
    let s := { s with ple.loads := s.ple.loads.put s.shelfId r }
    let heard := (clients.filter s.lqServes).take 256
    s.each (loadParts (max 1 ((heard.length + nodes.length + 173) / 174)) heard nodes) fun s p =>
      s.smpSend 0x20 none (octets (loadBytes load (s.on PLE_STATE_LIMP) p.1 p.2))

/-- LOAD_RX. A frame less than half a period after the one before it carries more of the same report (DESIGN CHOICE, log entry 150). -/
def execLoadRx (src : BitVec 6) (load : BitVec 10) (limp : Bool) (clients : List Overheard) (nodes : List (BitVec 64))
    (s : State) : Host.Outcome State Fault Refusal :=
  .next <| s.datapath .ple fun s =>
    let old := (s.ple.loads.look src.toNat).filter fun (r : LoadRep) => decide (s.now < r.since + 500000000)
    let heard := clients.map fun c => (c.mac.toNat, c.lq.toNat)
    let r : LoadRep := { load := load.toNat, limp := limp, since := s.now
                         clients := (old.map (·.clients)).getD [] ++ heard
                         nodes := (old.map (·.nodes)).getD [] ++ nodes.map (·.toNat) }
    { s with ple.loads := s.ple.loads.put src.toNat r }

/-- TIER4_EVAL: on the lead. While tier 4 is disabled it judges no member and orders no node, and goes on telling the members the biases
of its last decision, which stay in force (R184; DEDUCED, log entry 253). -/
def execTier4Eval (s : State) : Host.Outcome State Fault Refusal :=
  .next <| s.datapath .ple fun s =>
    if !s.isLead then s
    else
      let s := s.reach (s.ple.evals.lookD 4 0 + 10000000000)
      let s := { s with ple.evals := s.ple.evals.put 4 s.now }
      let l := s.memberLoads
      let total := l.foldl (fun n (m : Nat × Nat) => n + m.2) 0
      let s := s.when (s.tierOn 4) fun s => s.each l fun s m => s.biasJudge total l.length m
      let orders := if s.tierOn 4 then s.nodeOrders else []
      let s := s.each orders State.orderLog
      let b := s.ple.bias
      let s := s.smpSend 0x21 none (octets (natLe 1 b.length ++ (b.flatMap fun (e : Nat × Nat) => natLe 1 e.1 ++ natLe 2 e.2) ++
        natLe 1 orders.length ++ orders.flatMap fun o => natLe 8 o.eui.toNat ++ natLe 1 o.old.toNat ++ natLe 1 o.new.toNat))
      s.tier4Take b orders

/-- TIER4_RX. -/
def execTier4Rx (biases : List (BitVec 6 × BitVec 10)) (orders : List NodeOrder) (s : State) :
    Host.Outcome State Fault Refusal :=
  .next <| s.datapath .ple fun s => s.tier4Take (biases.map fun b => (b.1.toNat, b.2.toNat)) orders

/-- LEAD_OK_TIMEOUT: 30 s after the last tier 4 message. -/
def execLeadOkTimeout (s : State) : Host.Outcome State Fault Refusal :=
  .next <| s.datapath .ple fun s =>
    if !s.on PLE_STATE_LEAD_OK then s
    else
      let s := s.reach (s.ple.lastTier4 + 30000000000)
      ((({ s with ple.bias := [] } : State).down PLE_STATE_LEAD_OK).set PLE_STATE_BIAS 0)

/-! ### Pins (R202, R203) -/

/-- The pin command register. -/
def pinCmd : CmdReg := ⟨PLE_PIN_CMD_STATE.addr, .ple, .operator⟩

/-- The pin in `PLE_PIN_BUF`. -/
def State.pinBuf (s : State) : Pin :=
  pinOf (((List.range 10).flatMap fun i => natLe 4 (s.f (PLE_PIN_BUF_KEY_W i))) ++ natLe 4 (s.rd PLE_PIN_BUF_DESC_OBJ.addr).toNat)

/-- SET, with what the shelf has to know of it: a SHELF pin, or a DEVICE pin of another device. -/
def State.pinSetCmd (s : State) (req : Req) : State :=
  s.command pinCmd req fun s =>
    let a := pinCmd.addr
    let p := s.pinBuf
    if !pinAllowed p then s.cmdError a 4
    else if !s.pinRoom p then s.cmdError a 2
    else
      let wide := p.level = 2 ∨ (p.level = 1 ∧ p.device ≠ s.shelfId)
      let s := s.pinSet { p with shared := wide }
      let s := if wide then (if s.isLead then s.pinLead p else s.smpSend 0x22 (some 0) (octets (pinImage p))) else s
      s.cmdDone a

/-- CLEAR. -/
def State.pinClearCmd (s : State) (req : Req) : State :=
  s.command pinCmd req fun s =>
    let p := s.pinBuf
    if !(s.ple.pins.any (samePin · p)) then s.cmdError pinCmd.addr 3
    else
      let s := ({ s with ple.pins := s.ple.pins.filter fun (q : Pin) => !samePin q p
                         ple.shelfPins := s.ple.shelfPins.filter fun (q : Pin) => !samePin q p } : State).pinSync
      let s := if p.flow then s.when (decide (p.level = 0)) (·.flowSetPin p.key false)
        else s.with? (s.staOf (pinMac p.key)) fun s e => s.clientSettle e.2.client
      (s.decide_ { kind := 10, tier := 0, forced := true, object := s.pinObject p, arg := p.level }).cmdDone pinCmd.addr

/-- READ: the pin stands in `PLE_PIN_BUF` with its state. -/
def State.pinReadCmd (s : State) (req : Req) : State :=
  s.command pinCmd req fun s =>
    match s.ple.pins.find? (samePin · s.pinBuf) with
    | none => s.cmdError pinCmd.addr 3
    | some p => (((s.set PLE_PIN_BUF_DESC_UNIT p.unit).set PLE_PIN_BUF_DESC_DEVICE p.device).set PLE_PIN_BUF_DESC_STATE
        p.unmet.toNat).cmdDone pinCmd.addr

/-- PIN_SET. -/
def execPinSet (req : Req) (s : State) : Host.Outcome State Fault Refusal := .next (s.pinSetCmd req)
/-- PIN_CLEAR. -/
def execPinClear (req : Req) (s : State) : Host.Outcome State Fault Refusal := .next (s.pinClearCmd req)
/-- PIN_READ. -/
def execPinRead (req : Req) (s : State) : Host.Outcome State Fault Refusal := .next (s.pinReadCmd req)

/-- PIN_RX: the image is the number of its 44 bytes, the first one lowest. The lead keeps the pin and distributes it; the deputy mirrors
the lead's store; every member that has room stores the pin and applies it. -/
def execPinRx (src : BitVec 6) (image : BitVec 352) (s : State) : Host.Outcome State Fault Refusal :=
  .next <| s.datapath .ple fun s =>
    let p := pinOf (natLe 44 image.toNat)
    if !pinAllowed p then s
    else
      let s := s.when (s.isLead && decide (src.toNat ≠ s.shelfId)) (·.pinLead p)
      let s := s.when (decide (s.f SHF_STATUS_ROLE = 1)) (·.pinKeep p)
      s.when (s.pinRoom p) (·.pinSet { p with shared := true })

end Sys2Proof.Machine
end

