-- ==== Sys2Proof/Machine/Wma.lean ====
section
/-! DEFINITION. Wi-Fi MAC services (spec/11): their rows, and the MPDUs they take from SCH (R176). -/

namespace Sys2Proof.Machine

/-! ### Stations (R265 to R267) -/

/-- ASSOC_REQUEST: the status that firmware answers, and the links granted with status 0. -/
def execAssocRequest (mac : BitVec 48) (weak : Bool) (noBasicRate : Bool) (links : BitVec 3) (singleLink : Bool) (s : State) :
    Host.Outcome State Fault Refusal :=
  .next <| s.datapath .wma fun s =>
    let full := decide (1024 ≤ s.wma.stations.length)
    let status := if full then 17 else if weak then 42 else if noBasicRate then 18 else 0
    let l := links.toNat
    let one := if l.testBit 0 then 1 else if l.testBit 1 then 2 else if l.testBit 2 then 4 else 0
    let granted := if status ≠ 0 then 0 else if singleLink then one else l
    let s := s.when full (·.bump WMA_CNT_STA_FULL)
    { s with wma.answers := (mac.toNat, status, granted) :: s.wma.answers }

/-- `WMA_STA_CMD`. -/
def staCmd : CmdReg := ⟨WMA_STA_CMD_STATE.addr, .wma, .vendor⟩

/-- The entry that `WMA_STA_BUF` describes. -/
def State.staBuf (s : State) : Station :=
  { mac := s.f WMA_STA_BUF_ADDR_HI_ADDR * 2 ^ 32 + s.f WMA_STA_BUF_ADDR_LO_ADDR
    links := s.f WMA_STA_BUF_LINKS_LINKS
    bss := s.f WMA_STA_BUF_LINKS_BSS
    mld := s.on WMA_STA_BUF_LINKS_MLD
    backhaul := s.on WMA_STA_BUF_LINKS_BACKHAUL
    client := s.f WMA_STA_BUF_SCHED_CLIENT }

/-- A station that another device steers here is installed: its scheduler client node is created, and that device is told, which then
deletes it (R198, R265, R286). -/
def State.steeredHere (s : State) (i : Nat) (st : Station) : State :=
  s.with? (s.wma.steered.look st.mac) fun s k =>
    let n := s.schC st.client
    let s := (s.nodePut 1 st.client (withBits n.w0 31 31 1) n.w1 n.w2).1
    let s := { (s.editSta i fun x => { x with origin := some k.src }) with wma.steered := s.wma.steered.del st.mac }
    (s.hystChange 3 (natLe 6 st.mac)).smpSend 0x41 (some k.src) ((natLe 6 st.mac).map (·.toNat))

/-- A client reassociates on the other radio of this device, where its steering request has sent it: that has succeeded (R286). -/
def State.steerArrived (s : State) (st : Station) : State :=
  match (s.steer st.mac).open_ with
  | some (device, unit, _) =>
    s.when (decide (device = s.shelfId) && !multiLink st && decide (stationUnit st = unit)) (·.steerDone st.mac)
  | none => s

/-- The entry of a station is in the table: the ROOTS of its scheduler client node are its links (R265), and a backhaul peer's entry is
its link's. The packet numbers accepted from a backhaul peer, whose key is the same each time, stand (R285, R287). -/
def State.staPut (s : State) (i : Nat) (st : Station) : State :=
  let n := s.schC st.client
  let s := (s.nodePut 1 st.client (withBits n.w0 15 0 (256 * st.links)) n.w1 n.w2).1
  let old := ((s.bhOf st).bind s.wma.bhEntry.look).map (·.rxPn)
  let s := ({ s with wma.stations := s.wma.stations.put i { st with rxPn := old.getD [] } } : State).stasSync
  let s := s.with? (s.bhOf st) fun s n =>
    { (s.set (WMA_BH_PEER_STA n) i) with wma.bhHeard := s.wma.bhHeard.put n s.now }
  (s.staSync i).maskSync st.client

/-- ADD: INVALID for no link, or for several without MLD. -/
def State.staAdd (s : State) (req : Req) (i : Nat) : State :=
  s.command staCmd req fun s =>
    let a := staCmd.addr
    let st := s.staBuf
    if 1024 ≤ s.wma.stations.length then s.cmdError a 2
    else if (s.wma.stations.look i).isSome || (s.staOf st.mac).isSome then s.cmdError a 4
    else if st.links = 0 ∨ (!st.mld ∧ st.links ≠ 1 ∧ st.links ≠ 2 ∧ st.links ≠ 4) then s.cmdError a 5
    else (((s.staPut i st).steeredHere i st).steerArrived st).cmdDone a

/-- STA_ADD. -/
def execStaAdd (req : Req) (index : BitVec 10) (s : State) : Host.Outcome State Fault Refusal :=
  .next (s.staAdd req index.toNat)

/-- DEL: RUNNING while an MPDU of the station is outstanding in a PPDU. -/
def State.staDel (s : State) (req : Req) (i : Nat) : State :=
  s.command staCmd req fun s =>
    let a := staCmd.addr
    match s.wma.stations.look i with
    | none => s.cmdError a 3
    | some st =>
      let s := (s.set WMA_STA_CMD_INDEX i).staLeave i
      if s.onAir st.client then s.cmdIs a 1 0 else (s.staRemove i).cmdDone a

/-- STA_DEL. -/
def execStaDel (req : Req) (index : BitVec 10) (s : State) : Host.Outcome State Fault Refusal :=
  .next (s.staDel req index.toNat)

/-- STA_DEL_DONE: no MPDU of a station being deleted is outstanding any more. -/
def execStaDelDone (index : BitVec 10) (s : State) : Host.Outcome State Fault Refusal :=
  .next <| s.datapath .wma fun s =>
    let i := index.toNat
    s.with? (s.wma.stations.look i) fun s st =>
      if !st.deleting then s
      else
        let s := s.staLeave i
        if s.onAir st.client then s
        else
          let mine := s.f (cmdState staCmd.addr) = 1 ∧ s.f WMA_STA_CMD_INDEX = i
          (s.staRemove i).when (decide mine) (·.cmdDone staCmd.addr)

/-- READ: the entry stands in `WMA_STA_BUF`. -/
def State.staRead (s : State) (req : Req) (i : Nat) : State :=
  s.command staCmd req fun s =>
    match s.wma.stations.look i with
    | none => s.cmdError staCmd.addr 3
    | some st =>
      let s := (s.set WMA_STA_BUF_ADDR_HI_ADDR (st.mac / 2 ^ 32)).set WMA_STA_BUF_ADDR_LO_ADDR (st.mac % 2 ^ 32)
      let s := ((s.set WMA_STA_BUF_LINKS_LINKS st.links).set WMA_STA_BUF_LINKS_BSS st.bss).put WMA_STA_BUF_LINKS_MLD st.mld
      ((s.put WMA_STA_BUF_LINKS_BACKHAUL st.backhaul).set WMA_STA_BUF_SCHED_CLIENT st.client).cmdDone staCmd.addr

/-- STA_READ. -/
def execStaRead (req : Req) (index : BitVec 10) (s : State) : Host.Outcome State Fault Refusal :=
  .next (s.staRead req index.toNat)

/-! ### Reception (R267 to R269, R273 to R277, R279, R285) -/

/-- What a frame says about its station's power save, and its buffer status report (R178, R279). -/
def State.staHears (s : State) (i : Nat) (pm : Bool) (poll : Option Nat) (report : Option (BitVec 2 × BitVec 32)) : State :=
  let s := s.editSta i fun st =>
    { st with pm := pm, active := !pm, poll := match poll with | some p => p | none => if pm then st.poll else 0 }
  let s := s.staSync i
  match report, s.wma.stations.look i with
  | some (ac, n), some st => { s with sch.demand := s.sch.demand.put (4 * st.client + ac.toNat) n.toNat }
  | _, _ => s

/-- An MPDU that no agreement covers: the last sequence number decides (R275). -/
def State.mpduLoose (s : State) (i : Nat) (st : Station) (h : MacHdr) (hold : State → State × HeldMpdu) : State :=
  let key := if h.qos then h.tid else 16
  if h.retry && decide (st.last.look key = some h.sn) then s.bump WMA_CNT_DUP
  else
    let s := s.editSta i fun st => { st with last := st.last.put key h.sn }
    let (s, m) := hold s
    s.mpduDeliver i key m

/-- An MPDU under an agreement (R273, R274). -/
def State.mpduBlock (s : State) (i : Nat) (b : RxBa) (h : MacHdr) (hold : State → State × HeldMpdu) : State :=
  let tid := h.tid
  let sn := h.sn
  let d := seqDist b.win sn
  if 2048 ≤ d ∨ (d < b.size ∧ b.held.any fun m => decide (m.sn = sn)) then s.bump WMA_CNT_DUP
  else
    let s := if b.size ≤ d then s.baMove i tid ((sn + 4097 - b.size) % 4096) else s
    let win := match s.baOf i tid with | some b => b.win | none => sn
    let s := if sn ≠ win ∧ 16384 ≤ s.mpdusHeld then
        match s.heldOldest with
        | some (j, t, _) => (s.baFlush j t).bump WMA_CNT_REORDER_FORCED
        | none => s
      else s
    let (s, m) := hold s
    State.baRun 1025 (s.editBa i tid fun b => { b with held := b.held ++ [m] }) i tid

/-- A received MPDU from a transmitter (R267, R273, R275): one that the table does not hold reaches firmware with a management frame
alone. -/
def State.wifiServe (s : State) (x : WifiRx) (h : MacHdr) : State :=
  match s.staOf h.a2 with
  | none =>
    if h.mgmt then
      let bss := (s.bssAt x.link.val h.a3).getD 0
      let (s, l) := s.msdusHold x.link.val (wifiInfo 0xFFFF bss false h x) [x.mpdu]
      s.each l fun s p => s.quireRelease p.1 p.2
    else s.bump WMA_CNT_UNKNOWN_TA
  | some (i, st) =>
    match (if h.qos then s.baOf i h.tid else none) with
    | some b => s.mpduBlock i b h fun s => s.mpduHold i st h x
    | none => s.mpduLoose i st h fun s => s.mpduHold i st h x

/-- A data or management frame (R268, R279): it is acknowledged, says what it says about power save, and is served at once, or while CIP
starts no job waits for that (R326, R329). -/
def State.wifiFrame (s : State) (x : WifiRx) (h : MacHdr) : State :=
  let s := s.ackRx h x
  let s := match s.staOf h.a2 with
    | some (i, st) => (s.staHears i h.pm (if x.trigger then some 2 else none) x.report).bhHears st false
    | none => s
  let s := s.when (h.mgmt && decide (h.sub = 4)) fun s =>
    let k := x.link.val
    let on := (List.range 16).filter fun n => s.bssOn (linkOf k).1 n && decide (s.bssLink (linkOf k).1 n = (linkOf k).2)
    let bss := match s.bssAt k h.a1 with | some n => [n] | none => on
    { s with wma.probes := bss.map (fun n => (n + (if k = 0 then 0 else 16), h.a2)) ++ s.wma.probes }
  if h.prot && s.cipHeld then { s with cip.frames := s.cip.frames ++ [.wifi x] } else s.wifiServe x h

/-- A control frame (R268, R279, R287): RTS is answered with CTS, PS-Poll with ACK and one frame, and a trigger frame of the AP of a
backhaul link with a TB PPDU. -/
def State.wifiControl (s : State) (x : WifiRx) (h : MacHdr) : State :=
  let k := x.link.val
  if h.sub = 11 then s.respond k .cts h.a2 []
  else if h.sub = 10 then
    match s.staOf h.a2 with
    | some (i, _) => (s.staHears i true (some 1) none).respond k .ack h.a2 []
    | none => s.bump WMA_CNT_UNKNOWN_TA
  else if h.sub = 2 then
    s.with? (s.staOf h.a2) fun s e => s.with? (s.bhOf e.2) fun s n =>
      s.when (decide (s.f (WMA_BH_PEER_DEVICE n) < s.shelfId)) (·.respond k .tb h.a2 [])
  else s

/-- A link is receiving: in RX, with no transition, calibration or PPDU of its own (R218). -/
def State.receives (s : State) (r : Radio) (l : Nat) : Bool :=
  let k := s.link r l
  s.linkThere r l && !s.calBoot && decide (k.state = 3) && linkFree k

/-- MPDU_RX: a frame for a group, or for an address of this device. -/
def execMpduRx (mpdu : WifiRx) (s : State) : Host.Outcome State Fault Refusal :=
  .next <| s.datapath .wma fun s =>
    let k := mpdu.link.val
    if !s.receives (linkOf k).1 (linkOf k).2 then s
    else s.with? (macHdr mpdu.mpdu) fun s h =>
      if !h.group && (s.bssAt k h.a1).isNone then s
      else if h.typ = 1 then s.wifiControl mpdu h else s.wifiFrame mpdu h

/-- BAR_RX: acts as an MPDU at SSN + W − 1 ahead of the window would, with nothing held, and is answered with a BlockAck for what has been
received from SSN on (R268). -/
def execBarRx (link : Fin 3) (station : BitVec 10) (tid : BitVec 4) (ssn : BitVec 12) (s : State) :
    Host.Outcome State Fault Refusal :=
  .next <| s.datapath .wma fun s =>
    let k := link.val
    let i := station.toNat
    let t := tid.toNat
    if !s.receives (linkOf k).1 (linkOf k).2 then s
    else s.with? (s.wma.stations.look i) fun s st => s.with? (st.ba.look t) fun s b =>
      let d := seqDist b.win ((ssn.toNat + b.size - 1) % 4096)
      let s := if b.size ≤ d ∧ d < 2048 then s.baMove i t ssn.toNat else s
      s.with? (s.baOf i t) fun s b =>
        let got := ((List.range b.size).map fun n => (ssn.toNat + n) % 4096).filter fun n =>
          decide (2048 ≤ seqDist b.win n) || b.held.any fun m => decide (m.sn = n)
        s.respond k .blockAck st.mac (got.map fun n => (st.mac, t, n))

/-- REORDER_TIMEOUT: the agreement's oldest held MPDU reaches the timeout. -/
def execReorderTimeout (station : BitVec 10) (tid : BitVec 4) (s : State) : Host.Outcome State Fault Refusal :=
  .next <| s.datapath .wma fun s =>
    let i := station.toNat
    s.with? (s.baOf i tid.toNat) fun s b =>
      s.with? (baOldest b) fun s h =>
        ((s.reach (h.since + 16000 * max 1 (s.f WMA_BA_CFG_TIMEOUT))).baFlush i tid.toNat).bump WMA_CNT_REORDER_TMO

/-! ### Power save (R268, R280, R281) -/

/-- The service period of an agreement after an edge: the window [now, now + duration) in LT, or none of it left. -/
def State.twtEdge (s : State) (e : TwtEdge) (old : Option (Nat × Nat)) : Option (Nat × Nat) :=
  match e with
  | .opens d => some (s.lt, s.lt + d.toNat)
  | .closes => old
  | .ends => none

/-- The end of a service period is reached: it closes there (R280). -/
def State.twtReach (s : State) (e : TwtEdge) (old : Option (Nat × Nat)) : State :=
  match e, old with
  | .closes, some w => s.reach (s.now + (w.2 - s.lt))
  | _, _ => s

/-- ASLEEP of a station follows an edge of its service period; what it signalled before is past (log entry 247). -/
def State.twtSync (s : State) (i : Nat) : State := (s.editSta i fun st => { st with active := false }).staSync i

/-- TWT_SP_BOUNDARY: a service period opens or closes, of an individual agreement of a station or of a broadcast schedule of a BSS; the
first one to open sets its agreement up, and one may end with its agreement (DESIGN CHOICE, log entry 247). -/
def execTwtSpBoundary (period : TwtId) (edge : TwtEdge) (s : State) : Host.Outcome State Fault Refusal :=
  .next <| s.datapath .wma fun s =>
    match period with
    | .own station n =>
      let i := station.toNat
      s.with? (s.wma.stations.look i) fun s st =>
        let old := st.twts.look n.val
        let s := s.twtReach edge old
        let new := s.twtEdge edge old
        (s.editSta i fun st => { st with twts := st.twts.set? n.val new }).twtSync i
    | .group radio bss n members =>
      let key := (16 * radio.num + bss.toNat) * 8 + n.val
      let old := s.wma.bcast.look key
      let span := old.map fun b => (b.start, b.ends)
      let s := s.twtReach edge span
      let m := members.map (·.toNat)
      let new := (s.twtEdge edge span).map fun w => ({ members := m, start := w.1, ends := w.2 } : BcastTwt)
      let s := { s with wma.bcast := s.wma.bcast.set? key new }
      s.each ((m ++ (match old with | some b => b.members | none => [])).eraseDups) State.twtSync

/-- A BSS's target beacon time has come; the next one is the beacon interval later, on the same grid (R268; DESIGN CHOICE, log entry 250). -/
def State.tbttReach (s : State) (key : Nat) : State :=
  let step := 1024000 * max 1 (s.f WMA_CTL_BI)
  let at_ := s.wma.tbtt.lookD key s.now
  let s := s.reach at_
  { s with wma.tbtt := s.wma.tbtt.put key (at_ + ((s.now - at_) / step + 1) * step) }

/-- The protection of a beacon of a BSS with a BIGTK (R282): its packet number and MIC. -/
def State.beaconMic (s : State) (key : Nat) (b : BeaconSent) : State × BeaconSent :=
  let i := wmaKeyIndex key 5
  match s.wma.keys.look i with
  | none => (s, b)
  | some k => match s.tableUse i with
    | (s, none) => (s, b)
    | (s, some x) =>
      let h : MacHdr := { fc := 0x80, a1 := 0xFFFFFFFFFFFF, a2 := b.sender, a3 := b.mac, len := 24 }
      let n := micLen k.cipher
      let body := Config.beaconBody key b.tim b.csa b.dtim ++ mmie 6 (k.pn + 1) (List.replicate n 0)
      ({ s.inlineEnd true with wma.keys := s.wma.keys.put i { k with pn := k.pn + 1 } },
        { b with mic := some (k.pn + 1, bipMic k.cipher x h (k.pn + 1) body) })

/-- BEACON_TX: at the target beacon time, from start-up step 10 on, while the link is in RX or TX. The BSS's registers take effect with
it (R240), and each BSS on the link announces a staged channel and counts it down from its first beacon on (R239). -/
def execBeaconTx (radio : Radio) (bss : BitVec 4) (groupClient : BitVec 13) (s : State) : Host.Outcome State Fault Refusal :=
  .next <| s.datapath .wma fun s =>
    let n := bss.toNat
    let key := 16 * radio.num + n
    let t := s.bssTake radio n
    let l := t.bssLink radio n
    let k := t.link radio l
    if s.cfg.stage < 10 ∨ !t.bssOn radio n ∨ (k.state ≠ 3 ∧ k.state ≠ 4) ∨ s.rxOnly radio l then s
    else
      let s := t.tbttReach key
      let csa := if k.staged.isSome then some (match k.csa.look n with | none => k.count | some c => c - 1) else none
      let s := s.with? csa fun s c => s.editLink radio l fun k => { k with csa := k.csa.put n c }
      let count := match s.wma.dtim.look key with | none => 0 | some 0 => max 1 (s.f WMA_CTL_DTIM) - 1 | some c => c - 1
      let g := groupClient.toNat
      let tim := (s.wma.stations.filter fun (e : Nat × Station) =>
        inBss e.2 radio.num n && e.2.pm && s.waits e.2.client).map Prod.fst
      let (s, b) := s.beaconMic key { tim := tim, csa := csa, dtim := decide (count = 0), mac := s.bssMac radio n
                                      sender := s.bssSender radio n, colour := Config.bssColour key }
      let s := { s with
        wma.beacons := s.wma.beacons.put key b
        wma.dtim := s.wma.dtim.put key count
        wma.groupNode := s.wma.groupNode.put key g
        wma.groupOpen := if count = 0 ∧ s.waits g then g :: s.wma.groupOpen.filter fun (c : Nat) => decide (c ≠ g) else s.wma.groupOpen }
      s.groupSync

/-! ### MPDUs taken under a grant (R176, R278, R282, R284) -/

/-- A packet that has left its queue for a PPDU on a root: its words are read (R105), and it is discarded, or an MPDU of the
PPDU. One beyond 11,454 octets is discarded (R215; DESIGN CHOICE, log entry 215). A group's frame is read once and has no
acknowledgement. -/
def State.mpduMake (s : State) (root c tid id : Nat) (errs : List WordErr) : State :=
  s.with? (s.pkt id) fun s p0 =>
  match s.pktScan id p0 errs with
  | (s, none) => s
  | (s, some p) =>
    let s := s.editPkt id fun x => { x with data := p.data }
    if p.poison then (s.pktFree id).bump PKB_CNT_POISON_DROP
    else match s.wifiTo root c p with
    | none => (s.pktFree id).bump WMA_CNT_UNKNOWN_TA
    | some d =>
      if 11450 < s.mpduSize root c p then s.pktFree id
      else match s.sealNew root d with
      | (s, none) => s.pktFree id
      | (s, some k) =>
        let put (s : State) (m : TxMpdu) : State :=
          { s with wma.building := s.wma.building.put root (s.wma.building.lookD root [] ++ [m]) }
        match d.sta with
        | some _ =>
          let (s, sn) := s.mpduTake c tid root id
          let s := { s with wma.seals := match k with | some k => s.wma.seals.put id k | none => s.wma.seals }
          put s { client := c, tid := tid, sn := sn, pkt := id, bytes := s.mpduBytes root c tid sn d p false k }
        | none =>
          let g := d.bss + (if root = 8 then 0 else 16)
          let sn := s.wma.groupSn.lookD g 0
          let m : TxMpdu := { client := c, tid := tid, sn := sn, pkt := id, bytes := s.mpduBytes root c tid sn d p false k, group := true }
          put { (s.pktFree id) with wma.groupSn := s.wma.groupSn.put g ((sn + 1) % 4096) } m

/-- The packet at the head of a queue needs CIP while that starts no job: it waits (R326, R329). -/
def State.headHeld (s : State) (root c id : Nat) : Bool :=
  s.cipHeld && (((s.pkt id).bind fun p => s.wifiTo root c p).any fun d => s.destSealed root d)

/-- One frame for a client has been sent on: a PS-Poll is answered, a service period or the frames after a DTIM end with the
last one. -/
def State.frameGiven (s : State) (c : Nat) : State :=
  let s := match s.stationOf c with
    | some (i, st) =>
      if st.poll = 1 ∨ (st.poll = 2 ∧ !s.waits c) then (s.editSta i fun x => { x with poll := 0 }).staSync i else s
    | none => s
  if s.wma.groupOpen.contains c ∧ !s.waits c then
    ({ s with wma.groupOpen := s.wma.groupOpen.filter fun (x : Nat) => decide (x ≠ c) } : State).groupSync
  else s

/-- MPDUs are taken from a queue while they fit an allowance and an A-MPDU; the result says what is left of it. `errs` is what the reads of
each one's words find. -/
def State.takeRun : Nat → State → Nat → Nat → Nat → Nat → List (List WordErr) → State × Nat
  | 0, s, _, _, _, left, _ => (s, left)
  | n + 1, s, root, q, tid, left, errs =>
    match (s.schQ q).fifo with
    | [] => (s, left)
    | id :: _ =>
      let c := queueClient (s.schQ q)
      let len := s.chargedLen root id
      let octets := ((s.pkt id).map (s.mpduSize root c)).getD 0
      if (left : Int) < len ∨ s.headHeld root c id ∨ (s.schC c).asleep ∨ (!(s.allowed c tid).contains root ∧ 1 < (s.linkRoots c).length) ∨
          !s.ampduFits c octets (s.wma.building.lookD root []) then (s, left)
      else
        let s := ((s.dequeue root q).1.mpduMake root c tid id (errs.headD [])).frameGiven c
        State.takeRun n s root q tid ((left : Int) - len).toNat errs.tail

/-- WIFI_MPDU_TAKE: up to `count` MPDUs of an entry of the root's grant; only what is taken is charged. -/
def execWifiMpduTake (root : BitVec 4) (entry : BitVec 6) (count : BitVec 10) (errs : List (List WordErr)) (s : State) : Host.Outcome State Fault Refusal :=
  .next <| s.datapath .wma fun s =>
    let r := root.toNat
    s.with? (s.sch.grants.look r) fun s g =>
      s.with? (g.entries[entry.toNat]?) fun s e =>
        if g.ul then s
        else
          let (s, left) := State.takeRun count.toNat s r e.queue e.tid e.allowance errs
          let g := { g with entries := editAt g.entries entry.toNat fun x => { x with allowance := left } }
          { s with sch.grants := s.sch.grants.put r g }

/-- TRIG_NORESP: a user of the root's last trigger frame sends no TB PPDU; its demand stays reduced (R271). -/
def execTrigNoresp (root : BitVec 4) (user : BitVec 6) (s : State) : Host.Outcome State Fault Refusal :=
  .next <| s.datapath .wma fun s =>
    s.with? (s.wma.triggers.look root.toNat) fun s l =>
      s.with? (l[user.toNat]?) fun s u =>
        if u.silent then s
        else
          let l := editAt l user.toNat fun u => { u with silent := true }
          ({ s with wma.triggers := s.wma.triggers.put root.toNat l } : State).bump WMA_CNT_TRIG_NORESP

/-! ### Keys (R282, R283) -/

/-- `WMA_KEY_CMD`. -/
def wmaKeyCmd : CmdReg := ⟨WMA_KEY_CMD_STATE.addr, .wma, .vendor⟩

/-- `WMA_KEY_BUF` is cleared. -/
def State.wmaBufClear (s : State) : State := s.each (List.range 10) fun s k => s.wr ((WMA_KEY_BUF_KEY_W 0).addr + 4 * k) 0

/-- A key command of WMA: the index and slot named have to exist; the buffer is cleared after it. -/
def State.wmaKey (s : State) (req : Req) (index slot : Nat) (f : State → Nat → State) : State :=
  s.command wmaKeyCmd req fun s =>
    let s := if 5 < slot then s.cmdError wmaKeyCmd.addr 3
      else if slot < 2 ∧ (s.wma.stations.look index).isNone then s.cmdError wmaKeyCmd.addr 2
      else f s (wmaKeyIndex index slot)
    s.wmaBufClear

/-- INSTALL: CIP wraps the key, and WMA uses it from then on: during an erase that waits (R283, R329). A cipher of the other kind is
INVALID; without a pair in service or the DEVICE root, CIP answers with an error. -/
def State.wmaInstall (s : State) (req : Req) (index slot cipher : Nat) : State :=
  s.wmaKey req index slot fun s i =>
    let a := wmaKeyCmd.addr
    if (slot < 4 ∧ 4 ≤ cipher) ∨ (4 ≤ slot ∧ cipher < 4) then s.cmdError a 3
    else if s.noLane || !s.rootOk 0 then s.cmdError a 4
    else
      let key := s.regBytes (WMA_KEY_BUF_KEY_W 0).addr (if cipher % 2 = 1 then 32 else 16)
      let pn := s.f WMA_KEY_BUF_PN_W + 2 ^ 32 * s.f WMA_KEY_BUF_PN_W_HI
      if s.on CIP_STATUS_ERASING then
        { s.cmdIs a 1 0 with cip.keyOps := s.cip.keyOps ++ [.wifi a i key cipher pn] }
      else (s.wmaKeyPut i key cipher pn).cmdDone a

/-- WMA_KEY_INSTALL. -/
def execWmaKeyInstall (req : Req) (index : BitVec 10) (slot : BitVec 4) (cipher : BitVec 3) (s : State) :
    Host.Outcome State Fault Refusal :=
  .next (s.wmaInstall req index.toNat slot.toNat cipher.toNat)

/-- REMOVE: the slot is empty. -/
def State.wmaKeyRemove (s : State) (req : Req) (index slot : Nat) : State :=
  s.wmaKey req index slot fun s i => ({ s.cipRemove i with wma.keys := s.wma.keys.del i } : State).cmdDone wmaKeyCmd.addr

/-- WMA_KEY_REMOVE. -/
def execWmaKeyRemove (req : Req) (index : BitVec 10) (slot : BitVec 4) (s : State) : Host.Outcome State Fault Refusal :=
  .next (s.wmaKeyRemove req index.toNat slot.toNat)

/-- SET_TX: TXSLOT of a station. -/
def State.wmaSetTx (s : State) (req : Req) (index slot : Nat) : State :=
  s.wmaKey req index 0 fun s _ => (s.editSta index fun st => { st with txSlot := slot }).cmdDone wmaKeyCmd.addr

/-- WMA_KEY_SET_TX. -/
def execWmaKeySetTx (req : Req) (index : BitVec 10) (txSlot : Bool) (s : State) : Host.Outcome State Fault Refusal :=
  .next (s.wmaSetTx req index.toNat txSlot.toNat)

/-! ### Backhaul links (R288) -/

/-- WMA_BH_DOWN: three beacon intervals without a frame of the peer, or at once under RX_ONLY. -/
def execWmaBhDown (link : BitVec 3) (s : State) : Host.Outcome State Fault Refusal :=
  .next <| s.datapath .wma fun s =>
    let n := link.toNat
    if !s.on (WMA_BH_PEER_UP n) then s
    else if s.rxOnly .a 0 then s.bhDown n
    else (s.reach (s.wma.bhHeard.lookD n 0 + 3 * 1024000 * s.f WMA_CTL_BI)).bhDown n

/-- The lowest index that no station has. -/
def State.freeSta (s : State) : Option Nat := (List.range 1024).find? fun i => (s.wma.stations.look i).isNone

/-- The joining side has its peer's entry: the one that is there, or the last one that was, made again (R288). -/
def State.bhEnter (s : State) (n : Nat) : State :=
  if s.wma.stations.any fun (e : Nat × Station) => decide (s.bhOf e.2 = some n) then s
  else match s.wma.bhEntry.look n, s.freeSta with
  | some st, some i => s.staPut i st
  | _, _ => s

/-- BH_REJOIN: the higher-numbered device of a link that is down tries to join, once a second. The link is up where this side derives the
key, and `success` says that the other side holds it. -/
def execBhRejoin (link : BitVec 3) (success : Bool) (s : State) : Host.Outcome State Fault Refusal :=
  .next <| s.datapath .wma fun s =>
    let n := link.toNat
    if !s.on (WMA_BH_PEER_EN n) || s.on (WMA_BH_PEER_UP n) || decide (s.shelfId ≤ s.f (WMA_BH_PEER_DEVICE n)) then s
    else
      let s := match s.wma.bhTried.look n with | some t => s.reach (t + 1000000000) | none => s
      let s := { s with wma.bhTried := s.wma.bhTried.put n s.now }
      if !success || s.rxOnly .a 0 || s.cipHeld || s.noLane then s
      else match s.deriveNow (s.bhTag n) with
      | (s, none) => s.inlineEnd true
      | (s, some _) =>
        let s := (s.inlineEnd true).bhEnter n
        let peer := s.wma.stations.any fun (e : Nat × Station) => decide (s.bhOf e.2 = some n)
        if peer then { s.bhUp n with wma.bhHeard := s.wma.bhHeard.put n s.now } else s

end Sys2Proof.Machine
end

