-- ==== Sys2Proof/Machine/Idle.lean ====
section
/-! DEFINITION. The scrubber of the table SRAMs and what each unit does with an uncorrectable word (R106, R109), and the idle
conditions of the domains (R399, R400). -/

namespace Sys2Proof.Machine

/-! ### Uncorrectable table words (R109) -/

/-- A packet leaves the queue of SCH that it waits in; nodes left with none lose their deficits (R164). -/
def State.queueLose (s : State) (id : Nat) : State :=
  let qs := (s.sch.queues.filter fun (e : Nat × SchNode) => e.2.fifo.contains id).map Prod.fst
  if qs.isEmpty then s
  else
    let lose (s : State) (q : Nat) : State :=
      (s.editQ q fun k => { k with fifo := k.fifo.filter fun x => decide (x ≠ id) }).deficitClear q
    (s.each qs lose).schSync

/-- An entry of the link table that cannot be used: the packet whose chain goes on by it is discarded wherever it waits, with its
reference (R108, R109, R131). The entry is absent until it is written again. -/
def State.linkEntryLost (s : State) (c : Nat) : State :=
  s.with? (s.pkb.pkts.find? fun (e : Nat × Packet) => (e.2.chain.dropLast).contains c) fun s e =>
    ((s.pktRelease e.1).linkLost e.1 (e.2.chain.idxOf c)).queueLose e.1

/-- A fragment-table word, a flow entry, a limp route, a link-table entry. A flow entry is freed without a record, and the other one
of its pair with it (R152), which is recorded as DELETED (DESIGN CHOICE, log entry 211). -/
def State.datapathLost (s : State) (u : UnitId) (source index : Nat) : State :=
  match u, source with
  | .pkb, 1 => s.linkEntryLost index
  | .par, 2 => (s.fragOrphan index).unbad .par 2 index
  | .flw, 0 =>
    let other := (s.flw.sram.look index).bind s.partner
    let s := ({ s with flw.sram := s.flw.sram.del index }.flwSync).unbad .flw 0 index
    s.with? other fun s g => s.flowFree1 g.key 3
  | .flw, 2 => ({ s with flw.limpRoutes := s.flw.limpRoutes.eraseIdx index } : State).unbad .flw 2 index
  | .sch, 0 => s.queueFlush index
  | .sch, 1 =>
    let qs := if index < 8192 then s.queuesOf index else (s.clientsOf (index - 8192)).flatMap s.queuesOf
    s.each qs State.queueFlush
  | .sch, 2 => s.schSync
  | _, _ => s

/-- A pin is dropped; a link mask is rebuilt as ANCHORED on the TID's current anchor; a decision record is gone. -/
def State.pleLost (s : State) (source index : Nat) : State :=
  let s := s.unbad .ple source index
  match source with
  | 0 =>
    { s with
      ple.pins := s.ple.pins.eraseIdx index
      }.set PLE_STATUS_PINS (min 4096 (s.ple.pins.eraseIdx index).length)
  | 2 => (s.editTid (index / 16) (index % 16) fun k => { k with split := false }).maskSync (index / 16)
  | 3 => { s with ple.dlog := s.ple.dlog.del index }
  | _ => s

/-- Radios A and B: a correction word makes the next channel change calibrate in full. -/
def State.rfLost (s : State) (r : Radio) (source index : Nat) : State :=
  match source with
  | 0 => s.rfSync r
  | 1 =>
    (s.editLink r (s.chainLink r (index / 65536)) fun k => { k with stored := [] }).unbad (rfUnit r) 1 index
  | _ => s

/-- Radio C: a correction makes the image calibration due, a tuner word clears TUNED of its port and makes a pass due, a channel
word disables its channel. -/
def State.rfcLost (s : State) (source index : Nat) : State :=
  match source with
  | 0 =>
    (({ s with rfc.stored := s.rfc.stored.eraseIdx index } : State).up RFC_CAL_STAT_DUE).unbad .rfc 0 index
  | 1 =>
    match s.rfc.tuned[index]? with
    | some t => (((({ s with rfc.tuned := s.rfc.tuned.eraseIdx index } : State).tuneAsk t.1).portSync t.1)).unbad .rfc 1 index
    | none => s.unbad .rfc 1 index
  | _ => s

/-- The sub-GHz MAC: a partner is deleted, its history cleared, a block disabled until the next plan, or a bucket counts as 1,000
ms. Bucket `index` is sub-band index / 4,096 and the latest second that is index modulo 4,096. -/
def State.sgmLost (s : State) (source index : Nat) : State :=
  match source with
  | 0 => (s.nodeDelete index).unbad .sgm 0 index
  | 1 => (s.editNode_ index fun n => { n with history := [] }).unbad .sgm 1 index
  | 3 =>
    let now := s.dutySecond s.lt
    let sec := now - (now + 4096 - index % 4096) % 4096
    let j := index / 4096 % 8
    let rest := s.sgm.duty.filter fun (d : Nat × Nat × Nat × Nat) => !(decide (d.1 = sec) && decide (d.2.1 = j))
    ({ s with sgm.duty := rest ++ [(sec, j, 0, 1000000)] } : State).unbad .sgm 3 index
  | _ => s

/-- The cipher engine: a cached key is discarded, and a table entry becomes not valid. -/
def State.cipLost (s : State) (source index : Nat) : State :=
  let s := s.unbad .cip source index
  match source with
  | 0 => { s with cip.derived := s.cip.derived.eraseIdx index }
  | 1 => if s.cip.table.has index then (s.cipRemove index).ev .cip Ev.CIP_KEY_CORRUPT [index] else s
  | 2 => { s with cip.session := s.cip.session.eraseIdx index }
  | _ => s

/-- The shelf: a route is absent until the next LSA rebuilds it; a replay window is reset. -/
def State.shfLost (s : State) (source index : Nat) : State :=
  let s := s.unbad .shf source index
  match source with
  | 0 =>
    let n := index % 64
    let m := s.w SHF_MEMBERS_REACH
    (s.wr (SHF_ROUTE_REACH n).addr 0).setW SHF_MEMBERS_REACH (if m.testBit n then m - 2 ^ n else m)
  | 1 => { s with shf.replay := s.shf.replay.del index }
  | _ => s

/-- Field I/O's echo state and the entries of PRF: a mismatch count starts again; an entry reads as all zeros. -/
def State.otherLost (s : State) (u : UnitId) (source index : Nat) : State :=
  match u, source with
  | .fld, 1 => (s.editDali (index / 64) fun d => { d with misses := d.misses.del (index % 64) }).unbad .fld 1 index
  | .prf, 0 => ({ s with log.ring := s.log.ring.del index } : State).unbad .prf 0 index
  | .prf, 1 => ({ s with prf.samples := s.prf.samples.del index } : State).unbad .prf 1 index
  | .prf, _ => ({ s with log.staging := s.log.staging.eraseIdx index } : State).unbad .prf source index
  | _, _ => s

/-- What a unit does with a word that its decoder could not correct. -/
def State.tableLost (s : State) (u : UnitId) (source index : Nat) : State :=
  match u with
  | .pkb | .par | .flw | .sch => s.datapathLost u source index
  | .ple => s.pleLost source index
  | .rfa => s.rfLost .a source index
  | .rfb => s.rfLost .b source index
  | .rfc => s.rfcLost source index
  | .wma => s.staRemove index
  | .sgm => s.sgmLost source index
  | .cip => s.cipLost source index
  | .drc => s.drcFreeze 0 none none
  | .shf => s.shfLost source index
  | _ => s.otherLost u source index

/-- TABLE_SCRUB (R106, R109): the scrubber reads a word of a table SRAM, which its unit's decoder corrects and writes back, or
finds uncorrectable. It reads while the unit's domain is up. -/
def execTableScrub (u : UnitId) (source : BitVec 4) (index : BitVec 23) (upset : List Upset) (s : State) :
    Host.Outcome State Fault Refusal :=
  .next <|
    let up := match unitDom u with | some d => decide (s.dom d = .up) | none => decide (2 ≤ s.cfg.stage)
    if !up then s
    else
      let t := s.tableRead u source.toNat index.toNat upset
      if t.isBad u source.toNat index.toNat && !s.isBad u source.toNat index.toNat then t.tableLost u source.toNat index.toNat
      else t

/-! ### Idle domains (R399, R400) -/

/-- A radio or the wired ports let CORE sleep: in low power, or with every link OFF. -/
def State.quietDom (s : State) (d : Dom) : Bool :=
  decide (s.dom d = .low) || match d with
    | .rfa => (s.rfa.links.all fun (e : Nat × RfLink) => decide (e.2.state = 0) && e.2.trans.isNone)
    | .rfb => (s.rfb.links.all fun (e : Nat × RfLink) => decide (e.2.state = 0) && e.2.trans.isNone)
    | .rfc => decide (s.rfc.state = 0) && s.rfc.trans.isNone
    | _ => (List.range 8).all fun p => !s.linkUp p

/-- A job is queued in a ring of the cipher engine. -/
def State.ringWaits (s : State) : Bool :=
  (List.range 8).any fun n => s.on (CIP_RING_CFG_EN n) && decide (s.f (CIP_RING_IDX_PROD n) ≠ s.f (CIP_RING_IDX_CONS n))

/-- The idle condition of a domain. -/
def State.domIdle (s : State) (d : Dom) : Bool :=
  match d with
  | .core =>
    s.pkb.pkts.isEmpty && s.cip.jobs.isEmpty && s.cip.inlines.isEmpty && s.cip.frames.isEmpty && s.cip.derivs.isEmpty && !s.ringWaits &&
      s.sch.wheel.isEmpty && s.quietDom .rfa && s.quietDom .rfb && s.quietDom .rfc && s.quietDom .wire
  | .cpu =>
    (List.range 4).all fun c => !s.bit CPU_CTL_RUN c || s.on (haltBit c) ||
      (s.cpu.cores.lookD c {}).waiting
  | .rfa => s.rfa.links.all fun (e : Nat × RfLink) => decide (e.2.state ≤ 1) && e.2.trans.isNone
  | .rfb => s.rfb.links.all fun (e : Nat × RfLink) => decide (e.2.state ≤ 1) && e.2.trans.isNone
  | .rfc =>
    decide (s.rfc.state ≤ 1) && s.rfc.trans.isNone && s.rfc.tx.isNone &&
      (s.sgm.suspended || !(List.range 128).any fun b => s.on (SGM_BLOCK_ACT_EN b))
  | .mem =>
    !s.on DRC_STATUS_FROZEN && (List.range 4).all fun c =>
      (s.drcCh c).reads.isEmpty && (s.drcCh c).writes.isEmpty && (s.drcCh c).stalled.isEmpty
  | .wire => (List.range 8).all fun p => portIdle (s.ethPort p) && (s.ethPort p).hold.isEmpty

/-- DOMAIN_WAKE_DONE: the wake ends and the domain is ready; frames that wait for WIRE go on (R350, R400). -/
def execDomainWakeDone (dom : Dom) (s : State) : Host.Outcome State Fault Refusal :=
  .next (s.when (decide (s.dom dom = .waking)) (·.setDom dom .up)).ethServeAll

/-- DOMAIN_IDLE_EXPIRE (R400): a domain's idle condition has held for its idle time; 0 keeps the domain up. In STANDBY the domain
returns to low power without waiting (R404). -/
def execDomainIdleExpire (dom : Dom) (s : State) : Host.Outcome State Fault Refusal :=
  .next <|
    let idle := s.f (PWR_IDLE_IDLE (dom.num - 1))
    let standby := decide (s.f PWR_STATE_STATE = 2) && s.pwr.transition.isNone
    if decide (s.dom dom ≠ .up) || !s.domIdle dom then s
    else if standby then s.setDom dom .low
    else if idle = 0 then s
    else (s.reach (s.pwr.idleSince.lookD dom.num 0 + idle * 1000)).setDom dom .low

end Sys2Proof.Machine
end

