-- ==== Sys2Proof/Machine/Observe.lean ====
section
/-! DEFINITION. Performance counters, sampling and the event log as software sees them (spec/21), and the test access port
(spec/22, R489 and R490). -/

namespace Sys2Proof.Machine

/-! ### Counters (R466 to R468) -/

/-- A write of `PRF_EVSEL_u_k` clears its counter in the same cycle (R466). -/
def State.evselSet (s : State) (i : Nat) (v : Word) : State :=
  let s := (s.set (PRF_EVSEL_EVENT i) (bitsOf v 7 0)).set (PRF_EVSEL_PORT i) (bitsOf v 10 8)
  { s with prf.cnt := s.prf.cnt.del i }

/-- The same, behind the gate of its register. -/
def State.evselOp (s : State) (req : Req) (i : Nat) (v : Word) : State :=
  s.gate .prf .operator (PRF_EVSEL_EVENT i).addr req fun s => s.evselSet i v

/-- EVSEL_WRITE (R466). -/
def execEvselWrite (req : Req) (index : Fin 184) (value : Word) (s : State) : Host.Outcome State Fault Refusal :=
  .next (s.evselOp req index.val value)

/-- The command register of the snapshot. -/
def prfSnapCmd : CmdReg := ⟨PRF_SNAP_STATE.addr, .prf, .operator⟩

/-- GO to `PRF_SNAP` (R468): every counter is copied into its shadow in one cycle, and MT and LT are captured. -/
def State.prfSnapOp (s : State) (req : Req) : State :=
  s.command prfSnapCmd req fun s =>
    ({ s with prf.shadow := s.prf.cnt }.snapTimes).cmdDone prfSnapCmd.addr

/-- PRF_SNAP (R468). -/
def execPrfSnap (req : Req) (s : State) : Host.Outcome State Fault Refusal := .next (s.prfSnapOp req)

/-- A write of `PRF_FREEZE` (R468): a freeze suspends sampling and discards the pending candidates (R471). -/
def State.prfFreezeSet (s : State) (b : Bool) : State :=
  let s := s.put PRF_FREEZE_FREEZE b
  if b then { s with prf.samplers := s.prf.samplers.map fun e => (e.1, { e.2 with candidate := false }) } else s

/-- The same, behind the gate of its register. -/
def State.prfFreezeOp (s : State) (req : Req) (b : Bool) : State :=
  s.gate .prf .operator PRF_FREEZE_FREEZE.addr req fun s => s.prfFreezeSet b

/-- PRF_FREEZE_WRITE (R468). -/
def execPrfFreezeWrite (req : Req) (freeze : Bool) (s : State) : Host.Outcome State Fault Refusal :=
  .next (s.prfFreezeOp req freeze)

/-! ### Sampling (R470, R471) -/

/-- The engine is selected by `PRF_SAMPLE_CFG.ENGINES`. -/
def State.sampled (s : State) : Engine → Bool
  | .core c => (s.f PRF_SAMPLE_CFG_ENGINES).testBit c.val
  | .pe _ => (s.f PRF_SAMPLE_CFG_ENGINES).testBit 6

/-- A record is written (R471): a full buffer overwrites its oldest record with WRAP 1, else sampling stops. -/
def State.sampleWrite (s : State) (r : SampleRec) : State :=
  let next := s.f PRF_SAMPLE_HEAD_NEXT
  if s.prf.samples.length < 4096 || s.on PRF_SAMPLE_CFG_WRAP then
    let s := s.when (decide (4096 ≤ s.prf.samples.length)) (·.up PRF_SAMPLE_HEAD_WRAPPED)
    { s with prf.samples := s.prf.samples.put next r }.set PRF_SAMPLE_HEAD_NEXT ((next + 1) % 4096)
  else s.down PRF_SAMPLE_CFG_EN

/-- An engine retires a word (R470): the word after PERIOD words is the candidate, the count restarts at a free value 0 to
15, and the first candidate whose latency reaches MIN_LAT is recorded. -/
def State.retire (s : State) (e : Engine) (w : RetiredWord) : State :=
  if s.on PRF_SAMPLE_CFG_EN && !s.on PRF_FREEZE_FREEZE && s.sampled e then
    let p := s.prf.samplers.lookD e.num {}
    let period := max 1 (s.f PRF_SAMPLE_CFG_PERIOD)
    let setS (s : State) (p : Sampler) : State := { s with prf.samplers := s.prf.samplers.put e.num p }
    if p.candidate then
      if w.latency.toNat < s.f PRF_SAMPLE_LAT_MIN_LAT then setS s { p with count := p.count + 1 }
      else
        let s := setS s { candidate := false, count := p.count + 1 }
        if w.level = .vendor && !s.on PRF_SAMPLE_CFG_VENDOR then s
        else s.sampleWrite { lt := s.lt, engine := e, word := w }
    else if period ≤ p.count + 1 then
      setS s.drawn { candidate := true, count := s.free .sampleRestart % 16 }
    else setS s { p with count := p.count + 1 }
  else s

/-- SAMPLE_CANDIDATE (R470): a retired word, which the sampling unit counts, makes a candidate or records. -/
def execSampleCandidate (engine : Engine) (word : RetiredWord) (s : State) : Host.Outcome State Fault Refusal :=
  .next (s.retire engine word)

/-! ### The event log (R473 to R477) -/

/-- LOG_ENTRY (R473, R475): a unit logs an event, 1 ns after its cause where it reacts to another unit. -/
def execLogEntry (u : UnitId) (event : Ev) (args : List (BitVec 32)) (reaction : Bool) (s : State) :
    Host.Outcome State Fault Refusal :=
  .next (s.logAt reaction.toNat u event (args.map (·.toNat)))

/-- STAGED_MOVE (R476): with CORE up PRF moves the staged entries into the ring, oldest first, with STAGED set. -/
def execStagedMove (s : State) : Host.Outcome State Fault Refusal :=
  .next <|
    if s.coreUp then
      { s with log.staging := [] }.each s.log.staging State.ringPush
    else s

/-- Writing 1 to STOPPED empties the ring, clears STOPPED and WRAPPED and returns NEXT to 0 (R477). -/
def State.stoppedSet (s : State) : State :=
  if s.on PRF_LOG_STAT_STOPPED then
    { s with log.ring := [] }.wr PRF_LOG_STAT_NEXT.addr 0
  else s

/-- The same, behind the gate of its register. -/
def State.stoppedOp (s : State) (req : Req) : State :=
  s.gate .prf .operator PRF_LOG_STAT_STOPPED.addr req fun s => s.stoppedSet

/-- LOG_STOPPED_CLEAR (R477). -/
def execLogStoppedClear (req : Req) (s : State) : Host.Outcome State Fault Refusal := .next (s.stoppedOp req)

/-! ### Test access port (R489, R490) -/

/-- The port answers whenever the always-on domain is up (R489). -/
def State.tapUp (s : State) : Bool := decide (2 ≤ s.cfg.stage)

/-- The port acts as BYPASS: its data register holds one 0 bit. -/
def State.tapBypass (s : State) : State :=
  { s with tap.instr := .bypass, tap.data := 0, tap.driving := false, tap.released := false }

/-- BYPASS (R489). -/
def execBypass (s : State) : Host.Outcome State Fault Refusal := .next (if s.tapUp then s.tapBypass else s)

/-- IDCODE (R489): reads 0xB064_0F2B. -/
def execIdcode (s : State) : Host.Outcome State Fault Refusal :=
  .next <| if s.tapUp then
      { s with tap.instr := .idcode, tap.data := 0xB0640F2B, tap.driving := false, tap.released := false }
    else s

/-- SAMPLE/PRELOAD (R489): the boundary cells capture the balls. -/
def execSamplePreload (balls : List Bool) (s : State) : Host.Outcome State Fault Refusal :=
  .next <| if s.tapUp then
      { s with tap.instr := .sample, tap.cells := balls, tap.driving := false, tap.released := false }
    else s

/-- An instruction that takes over the outputs (R490): accepted with TEST_MODE 1, else it acts as BYPASS and is logged. -/
def State.tapTest (s : State) (i : TapInstr) (f : State → State) : State :=
  if !s.tapUp then s
  else if s.cfg.testMode then f { s with tap.instr := i }
  else s.tapBypass.ev .top Ev.JTAG_REFUSED [match i with | .extest => 0 | .clamp => 1 | _ => 2]

/-- EXTEST (R490): the boundary cells drive the balls. -/
def execExtest (s : State) : Host.Outcome State Fault Refusal :=
  .next (s.tapTest .extest fun s => { s with tap.driving := true, tap.released := false })

/-- CLAMP (R490): the boundary cells drive the balls while the data register is the bypass bit. -/
def execClamp (s : State) : Host.Outcome State Fault Refusal :=
  .next (s.tapTest .clamp fun s => { s with tap.driving := true, tap.released := false, tap.data := 0 })

/-- HIGHZ (R490): the balls are released while the data register is the bypass bit. -/
def execHighz (s : State) : Host.Outcome State Fault Refusal :=
  .next (s.tapTest .highz fun s => { s with tap.driving := false, tap.released := true, tap.data := 0 })

end Sys2Proof.Machine
end

