-- ==== Sys2Proof/Machine/CsrRead.lean ====
section
/-! DEFINITION. Reads of the control and status registers (R5 to R12, R18, R27, R28): what a register shows at the instant of
the read, what a Guest may read, the holding copies, read-clear. -/

namespace Sys2Proof.Machine

/-! ### What registers show -/

/-- Word `i` of a list of bytes. -/
def bytesWord (l : List Byte) (i : Nat) : Word := BitVec.ofNat 32 (leNat ((l.drop (4 * i)).take 4))

/-- The 32 bytes of a log entry (R473); CODE and ARG are the event list's. -/
def logBytes (e : LogEntry) : List Byte :=
  let flags := e.unsync.toNat + 2 * e.mtInvalid.toNat + 4 * e.staged.toNat + 8 * e.lostBefore.toNat
  natLe 8 e.lt ++ natLe 6 e.mt ++ natLe 1 e.unit.num ++ natLe 1 flags ++ natLe 2 (Config.eventCode e.code.ctorIdx).toNat ++
    natLe 2 e.seq ++ (List.range 3).flatMap fun i => natLe 4 (Config.eventArg e.code.ctorIdx e.args i).toNat

/-- The 32 bytes of a sampling record (R472). -/
def sampleBytes (r : SampleRec) : List Byte :=
  let w := r.word
  let flags := w.slotB.toNat + 2 * w.dataValid.toNat + 4 * w.pairStall.toNat + 8 * w.exc.toNat + 16 * levelNum w.level
  natLe 8 r.lt ++ natLe 4 w.pc.toNat ++ natLe 4 w.dataAddr.toNat ++ natLe 2 w.latency.toNat ++ natLe 1 r.engine.num ++
    natLe 1 flags ++ natLe 4 w.word.toNat ++ natLe 1 w.ctx.toNat ++ natLe 1 w.pass.toNat ++ natLe 2 0 ++ natLe 4 w.cycle.toNat

/-- PRF's counters, shadows, log and sampling buffer (R466, R468, R471, R473). -/
def State.livePrf (s : State) (a : Nat) : Word :=
  if 0x6002000 ≤ a ∧ a < 0x60025C0 then
    BitVec.ofNat 32 (s.prf.cnt.lookD ((a - 0x6002000) / 8) 0 / 2 ^ (8 * ((a - 0x6002000) % 8)))
  else if 0x6004000 ≤ a ∧ a < 0x60045C0 then
    BitVec.ofNat 32 (s.prf.shadow.lookD ((a - 0x6004000) / 8) 0 / 2 ^ (8 * ((a - 0x6004000) % 8)))
  else if 0x6010000 ≤ a ∧ a < 0x6090000 then
    match s.log.ring.look ((a - 0x6010000) / 32) with
    | some e => bytesWord (logBytes e) ((a - 0x6010000) % 32 / 4)
    | none => 0
  else if 0x60A0000 ≤ a ∧ a < 0x60C0000 then
    match s.prf.samples.look ((a - 0x60A0000) / 32) with
    | some r => bytesWord (sampleBytes r) ((a - 0x60A0000) % 32 / 4)
    | none => 0
  else s.rd a

/-- The time left of the grant in force, in ms (R411). -/
def State.leaseLeft (s : State) (r : Radio) : Nat :=
  match (s.permit r).grant with
  | some g => min 65535 ((grantEnd g - s.now) / 1000000)
  | none => 0

/-- U of a sub-band (R309): for DWELL the highest channel's. -/
def State.subUsed (s : State) (j : Nat) : Nat :=
  if s.on (SGM_SUB_LO_MODE j) then (s.sgm.duty.map fun d => d.2.2.1).foldl (fun m f => max m (s.usage j f / 1000)) 0
  else s.usage j 0 / 1000

/-- The word that a register shows now: what hardware keeps in another form is laid out at the read. -/
def State.live (s : State) (a : Nat) : Word :=
  match unitAt a with
  | some .mtm =>
    if a = 0x100020 then BitVec.ofNat 32 s.mtm.mt
    else if a = 0x100024 then BitVec.ofNat 32 (s.mtm.mt % 2 ^ 48 / 2 ^ 32)
    else if a = 0x100028 then BitVec.ofNat 32 s.lt
    else if a = 0x10002C then BitVec.ofNat 32 (s.lt / 2 ^ 32)
    else if a = MTM_HOLD_BOUND_BOUND.addr then BitVec.ofNat 32 s.holdBound
    else if a = MTM_STATUS_CYC_ADOPTED.addr ∧ s.isLead = true then withBits (s.rd a) 6 6 1
    else s.rd a
  | some .pwr =>
    if a = (PWR_PERMIT_STAT_LEASE_LEFT 0).addr then withBits (s.rd a) 31 16 (s.leaseLeft .a)
    else if a = (PWR_PERMIT_STAT_LEASE_LEFT 1).addr then withBits (s.rd a) 31 16 (s.leaseLeft .b)
    else if a = PWR_WAIT_PEND.addr then 0
    else s.rd a
  | some .ple =>
    if 0x1410000 ≤ a ∧ a < 0x1430000 then bytesWord (s.ple.dlog.lookD ((a - 0x1410000) / 32) []) ((a - 0x1410000) % 32 / 4)
    else s.rd a
  | some .rfc => if a = RFC_STATE_STATE.addr then BitVec.ofNat 32 s.rfcShown else s.rd a
  | some .sgm =>
    if 0x2400200 ≤ a ∧ a < 0x2400280 ∧ a % 16 = 12 then BitVec.ofNat 32 (s.subUsed ((a - 0x2400200) / 16) % 2 ^ 24)
    else s.rd a
  | some .cpu =>
    if 0x5000010 ≤ a ∧ a < 0x5000070 ∧ a % 16 = 0 then
      let k := s.core (coreKey ((a - 0x5000010) / 16))
      withBits (s.rd a) 7 0 (levelNum k.level + 16 * (k.slot % 16))
    else s.rd a
  | some .prf => s.livePrf a
  | some .hif => if a = HIF_STATUS_LINK.addr then withBits (s.rd a) 29 23 (s.free .pcieLink) else s.rd a
  | _ => s.rd a

/-! ### What may be read -/

/-- A trigger field of a command register. -/
def isTrigger (f : FieldDesc) : Bool := decide (f.acc = .cmd) && f.lvl.isSome

/-- The fields that hold a value to read, in word `w`: not those that are only written (R10). -/
def readMask (r : RegDesc) (w : Nat) : Nat :=
  r.fields.foldl (fun m f => if isTrigger f || decide (f.acc = .wo) then m else m ||| fieldMask f w) 0

/-- The read-clear fields in word `w`. -/
def clearMask (r : RegDesc) (w : Nat) : Nat :=
  r.fields.foldl (fun m f => if f.acc = .rc then m ||| fieldMask f w else m) 0

/-- The level of the command fields of a register, if it has any; those of `PKB_QCMD` are at the level of the quire that it
names. -/
def State.cmdLevel (s : State) (a : Nat) (r : RegDesc) : Option Level :=
  if a = PKB_QCMD_STATE.addr then some (s.quireLevel (s.f PKB_QCMD_QUIRE))
  else (r.fields.find? isTrigger).bind (·.lvl)

/-- A Guest may read a counter of PRF (R469). -/
def State.guestCounter (s : State) (a : Nat) : Bool :=
  let i := if a < 0x6004000 then (a - 0x6002000) / 8 else (a - 0x6004000) / 8
  (decide (0x6002000 ≤ a ∧ a < 0x60025C0) || decide (0x6004000 ≤ a ∧ a < 0x60045C0)) && s.on PRF_CTL_GUEST_READ &&
    decide ((s.rd (0x6000040 + 4 * (i / 32))).toNat / 2 ^ (i % 32) % 2 = 1)

/-- The bits of word `w` that a Guest may read (R18, R469). -/
def State.guestMask (s : State) (a : Nat) (r : RegDesc) (w : Nat) : Nat :=
  if s.guestCounter a then 2 ^ 32 - 1
  else
    let status := decide (s.cmdLevel (a - 4 * w) r = some .guest)
    r.fields.foldl (fun m f =>
      if decide (f.lvl = some .guest) || (status && decide (f.acc = .cmd) && f.lvl.isNone) then m ||| fieldMask f w else m) 0

/-- A Guest may read some field of a register. -/
def State.guestAny (s : State) (a : Nat) (r : RegDesc) (w : Nat) : Bool :=
  (List.range r.words).any fun k => decide (s.guestMask (a - 4 * w + 4 * k) r k ≠ 0)

/-! ### The read -/

/-- An access to an address that no register occupies (R7, R27): logged for the unit whose window holds it, else for TOP. -/
def State.unmapped (s : State) (r : Req) (a : Nat) : State := s.ev ((unitAt a).getD .top) Ev.UNMAPPED (a :: reqId r)

/-- A word is masked. -/
def masked (v : Word) (m : Nat) : Word := v &&& BitVec.ofNat 32 m

/-- A read of the lowest word of a wide value: the upper words go to the holding copy, and read-clear fields of all its words
clear (R6); of any other register, its own word's read-clear fields clear (R10). What it returns and clears is the value before
the read: an event that comes with the read is a command after it, so it stays in the field after the clear (R12). -/
def State.readWord (s : State) (r : RegDesc) (w a : Nat) (allowed : Nat) : State :=
  let v := if r.latch && decide (0 < w) then s.hold.lookD a 0 else s.live a
  let t := { s with readData := masked v (readMask r w &&& allowed) }
  let t := if a = HIF_STATUS_LINK.addr then t.drawn else t
  if r.latch && decide (0 < w) then t
  else
    let words := if r.latch then List.range r.words else [w]
    let t := if r.latch then
        { t with hold := ((List.range r.words).drop 1).foldl (fun m k => m.put (a + 4 * k) (masked (s.live (a + 4 * k)) (readMask r k))) t.hold }
      else t
    let at0 := if r.latch then a else a - 4 * w
    t.each words fun t k =>
      let b := at0 + 4 * k
      let m := clearMask r k &&& (if k = w then allowed else 2 ^ 32 - 1)
      if m = 0 then t else t.wr b (t.rd b &&& ~~~(BitVec.ofNat 32 m))

/-- A read of a register by a requester: what it returns stands in `readData`. Its domain wakes (R8), also where the unit is not
ready (R28). In OFF only the maintenance port reaches the device (R9). -/
def State.csrRead (s : State) (req : Req) (addr : Nat) : State :=
  let a := addr / 4 * 4
  if s.isOff && decide (req.path ≠ .maint) then s
  else match regAt a with
  | none => ({ s with readData := 0 } : State).unmapped req a
  | some (u, r, w) =>
    if s.unitDark u then ({ s with readData := 0 } : State).ev u Ev.UNIT_NOT_READY (a :: reqId req)
    else
      let s := (s.demand u).prfCount u 5 none 1
      if decide (req.level = .guest) && !s.guestAny a r w then
        ({ s with readData := 0 } : State).ev u Ev.ACCESS_DENIED (a :: reqId req)
      else if u = .eth ∧ a % 0x10000 = 0x30 ∧ a < 0x3080000 then s.tsRead (a / 0x10000 % 8)
      else s.readWord r w a (if req.level = .guest then s.guestMask a r w else 2 ^ 32 - 1)

/-! ### The rows -/

/-- READ_CLEAR (R10, R12): a read by a requester; events that come after it remain in the field. -/
def execReadClear (req : Req) (addr : BitVec 32) (s : State) : Host.Outcome State Fault Refusal :=
  .next (s.csrRead req addr.toNat)

/-- WIDE_VALUE_LATCH (R6): a read of a word of a wide value. -/
def execWideValueLatch (req : Req) (addr : BitVec 32) (s : State) : Host.Outcome State Fault Refusal :=
  .next (s.csrRead req addr.toNat)

/-- GUEST_READ_CHECK (R18): a read at Guest level. -/
def execGuestReadCheck (path : Path) (addr : BitVec 32) (s : State) : Host.Outcome State Fault Refusal :=
  .next (s.csrRead { path := path, level := .guest } addr.toNat)

end Sys2Proof.Machine
end

