-- ==== Sys2Proof/Machine/FieldIo.lean ====
section
/-! DEFINITION. Field I/O (spec/20): DALI frames and their answers, command echo, PWM periods, slow inputs and pulses. -/

namespace Sys2Proof.Machine

/-! ### DALI ports (R453, R454) -/

/-- The settling time of a priority in ns: 13.5 ms for priority 1 (R453); the others PRESUMED from IEC 62386-101. -/
def settling : Nat → Nat
  | 1 => 13500000 | 2 => 14900000 | 3 => 16300000 | 4 => 17900000 | _ => 19500000

/-- The time of a forward frame in ns: a start bit and its bits at 1,200 b/s (R420: 14.2 ms for 16 bits, R452). -/
def frameTime (bits : Nat) : Nat := (bits + 1) * 2500000 / 3

/-- The line of a port reads low as a bus fault (R457). -/
def busLow (p : Nat) : Field := ⟨FLD_STATUS_BUS_LOW.addr, 18 + p, 18 + p⟩

/-- The command register of a DALI port. -/
def daliCmd (p : Nat) : CmdReg := ⟨(FLD_DALI_CMD_STATE p).addr, .fld, .operator⟩

/-- SEND16 or SEND24 on a port (R453, R454): refused with SAFE where it commands a level in the safe state (R421), with
FULL where the queue is full; else queued. Priorities other than 2 to 5 act as 5. -/
def State.daliSendOp (s : State) (req : Req) (p bits prio : Nat) : State :=
  s.command (daliCmd p) req fun s =>
    let prio := if 2 ≤ prio && prio ≤ 5 then prio else 5
    let f : DaliFrame := { kind := .soft, bits := bits, data := s.f (FLD_DALI_TX_FRAME p) % 2 ^ bits, prio := prio }
    let s := s.down (FLD_DALI_RX_VALID p)
    if s.safe && isLevelFrame f then s.daliResult p 3 6
    else (s.daliResult p 1 0).daliEnqueue p f

/-- DALI_SEND16 (R453). -/
def execDaliSend16 (req : Req) (port : BitVec 2) (prio : BitVec 3) (s : State) : Host.Outcome State Fault Refusal :=
  .next (s.daliSendOp req port.toNat 16 prio.toNat)

/-- DALI_SEND24 (R453). -/
def execDaliSend24 (req : Req) (port : BitVec 2) (prio : BitVec 3) (s : State) : Host.Outcome State Fault Refusal :=
  .next (s.daliSendOp req port.toNat 24 prio.toNat)

/-- DALI_FRAME_START (R453): the bus has been idle for the settling time of the frame at the head of the queue, and the
port starts to send it. Nothing starts on a disabled port, on a low bus (R454), or before a safe broadcast that waits. -/
def execDaliFrameStart (port : BitVec 2) (s : State) : Host.Outcome State Fault Refusal :=
  .next <|
    let p := port.toNat
    let d := s.daliP p
    match d.queue with
    | f :: _ =>
      if d.phase = .idle && s.on (FLD_DALI_CFG_EN p) && !s.on (busLow p) && !d.safePend && !s.cfg.noImage then
        let s := s.reach (d.idleSince + settling f.prio)
        s.editDali p fun d => { d with phase := .sending, frameEnd := s.now + frameTime f.bits }
      else s
    | [] => s

/-- The mismatch of an echo query (R458): counted; the third in a row is logged and raises the command-echo fault. -/
def State.echoMiss (s : State) (p g : Nat) : State :=
  let n := (s.daliP p).misses.lookD g 0 + 1
  let s := (s.editDali p fun d => { d with misses := d.misses.put g n }).bump FLD_CNT_ECHO_MISS
  s.when (decide (n = 3)) fun s => (s.ev .fld Ev.FLD_ECHO_FAIL [p, g]).asyFault .commandEcho .luminaire

/-- The answer to an echo query (R458): a match lies within ±1 arc level of the commanded level, or of the safe level
while SAFE is set, and ends the fault. -/
def State.echoAnswer (s : State) (p g answer : Nat) : State :=
  let want := if s.safe then arcLevel (s.f ASY_STATUS_SAFE_LEVEL) else (s.daliP p).commanded.lookD g 0
  if answer ≤ want + 1 && want ≤ answer + 1 then
    let was := (s.daliP p).misses.lookD g 0
    let s := s.editDali p fun d => { d with misses := d.misses.del g }
    s.when (decide (3 ≤ was)) (·.asyFaultEnd .commandEcho .luminaire)
  else s.echoMiss p g

/-- The frame that the port sends ends: it leaves the queue, is counted, and a level frame changes what is commanded. -/
def State.daliFinish (s : State) (p : Nat) (f : DaliFrame) : State :=
  let s := (s.editDali p fun d => { d with queue := d.queue.drop 1, phase := .idle, idleSince := s.now, collisions := 0 }).bump
    FLD_CNT_DALI_TX
  s.with? (levelTarget f) fun s t => s.levelSent p t.1 t.2

/-- DALI_COLLISION (R453): the port stops driving. A queued frame retries, and ends with COLLISION after 3; the
safe-level broadcast is never abandoned, and its third and later collisions in a row are logged and reported. -/
def execDaliCollision (port : BitVec 2) (s : State) : Host.Outcome State Fault Refusal :=
  .next <|
    let p := port.toNat
    let d := s.daliP p
    if d.phase ≠ .sending then s
    else if d.safeSending then
      let n := d.safeCollisions + 1
      let s := s.editDali p fun d =>
        { d with phase := .idle, idleSince := s.now, safeSending := false, safeCollisions := n }
      let s := s.bump FLD_CNT_COLLISION
      s.when (decide (3 ≤ n)) fun s => (s.ev .fld Ev.FLD_SAFE_COLLISION [p, n]).asyFault .daliBus .luminaire
    else match d.queue with
      | f :: rest =>
        if d.collisions + 1 < 3 then
          s.editDali p fun d => { d with phase := .idle, idleSince := s.now, collisions := d.collisions + 1 }
        else
          let s := s.editDali p fun d => { d with phase := .idle, idleSince := s.now, collisions := 0, queue := rest }
          (s.when (decide (f.kind = .soft)) (·.daliResult p 3 2)).bump FLD_CNT_COLLISION
      | [] => s

/-- DALI_BACKWARD_RX (R453): a backward frame starts in the answer window. A software frame is done when the window
closes, GARBLED where the answer has a framing error; an echo query is judged. -/
def execDaliBackwardRx (port : BitVec 2) (data : BitVec 8) (garbled : Bool) (s : State) :
    Host.Outcome State Fault Refusal :=
  .next <|
    let p := port.toNat
    let d := s.daliP p
    match d.queue with
    | f :: _ =>
      if d.phase = .sending && !d.safeSending then
        let s := (s.reach (d.frameEnd + 12400000)).daliFinish p f
        match f.kind with
        | .level => s
        | .echo g => if garbled then s.echoMiss p g else s.echoAnswer p g data.toNat
        | .soft =>
          if garbled then s.daliResult p 3 4
          else ((s.up (FLD_DALI_RX_VALID p)).set (FLD_DALI_RX_DATA p) data.toNat).daliResult p 2 0
      else s
    | [] => s

/-- DALI_ANSWER_WINDOW_END (R453): no backward frame started within 12.4 ms; the frame ends with NO_ANSWER, and an echo
query counts as a mismatch. -/
def execDaliAnswerWindowEnd (port : BitVec 2) (s : State) : Host.Outcome State Fault Refusal :=
  .next <|
    let p := port.toNat
    let d := s.daliP p
    match d.queue with
    | f :: _ =>
      if d.phase = .sending && !d.safeSending then
        let s := (s.reach (d.frameEnd + 12400000)).daliFinish p f
        match f.kind with
        | .level => s
        | .echo g => s.echoMiss p g
        | .soft => s.daliResult p 2 3
      else s
    | [] => s

/-- DALI_BUS_LOW (R457): the line has read low for 10 ms; the bus fault is raised. -/
def execDaliBusLow (port : BitVec 2) (s : State) : Host.Outcome State Fault Refusal :=
  .next (if s.on (busLow port.toNat) then s else (s.up (busLow port.toNat)).asyFault .daliBus .luminaire)

/-- DALI_BUS_HIGH (R457): the line has read high for 10 ms; the fault ends once no port is low. -/
def execDaliBusHigh (port : BitVec 2) (s : State) : Host.Outcome State Fault Refusal :=
  .next <|
    if s.on (busLow port.toNat) then
      let s := s.down (busLow port.toNat)
      let s := s.editDali port.toNat fun d => { d with idleSince := s.now }
      s.when (decide (s.f FLD_STATUS_BUS_LOW = 0)) (·.asyFaultEnd .daliBus .luminaire)
    else s

/-- ECHO_QUERY (R458): ECHO_WAIT after a level frame, or every ECHO_PERIOD, QUERY ACTUAL LEVEL is queued for a gear of
the echo mask at priority 4. -/
def execEchoQuery (port : BitVec 2) (gear : BitVec 6) (s : State) : Host.Outcome State Fault Refusal :=
  .next <|
    let p := port.toNat
    let g := gear.toNat
    let period := s.f (FLD_DALI_CFG_ECHO_PERIOD p)
    let due := (s.daliP p).echoDue.look g
    if !s.cfg.noImage && s.on (FLD_DALI_CFG_EN p) && (s.w (FLD_ECHO_MASK_MASK p)).testBit g && (due.isSome || decide (period ≠ 0)) then
      let s := s.reach (due.getD s.now)
      let s := s.editDali p fun d => { d with
        echoDue := if period = 0 then d.echoDue.del g else d.echoDue.put g (s.now + period * 1000000000) }
      s.daliEnqueue p { kind := .echo g, bits := 16, data := (2 * g + 1) * 256 + 0xA0, prio := 4 }
    else s

/-! ### The safe-level broadcast (R420, R453) -/

/-- DALI_SAFE_BROADCAST_START (R420): the bus has been idle for 13.5 ms and the broadcast that the port owes begins. -/
def execDaliSafeBroadcastStart (port : BitVec 2) (s : State) : Host.Outcome State Fault Refusal :=
  .next <|
    let p := port.toNat
    let d := s.daliP p
    if d.safePend && d.phase = .idle && !s.on (busLow p) then
      let s := s.reach (d.idleSince + settling 1)
      s.editDali p fun d => { d with phase := .sending, safeSending := true, frameEnd := s.now + frameTime 16 }
    else s

/-- FLD_SAFE_BROADCAST (R420): the broadcast of a port ends and is logged; every gear of the port is commanded to the safe
level. -/
def execFldSafeBroadcast (port : BitVec 2) (s : State) : Host.Outcome State Fault Refusal :=
  .next <|
    let p := port.toNat
    let d := s.daliP p
    if d.safeSending then
      let s := s.reach d.frameEnd
      let arc := arcLevel (s.f ASY_STATUS_SAFE_LEVEL)
      let s := s.editDali p fun d =>
        { d with phase := .idle, idleSince := s.now, safeSending := false, safePend := false, safeCollisions := 0 }
      ((s.bump FLD_CNT_DALI_TX).levelSent p none arc).ev .fld Ev.FLD_SAFE_BROADCAST [p, arc]
    else s

/-! ### PWM outputs (R459, R460) -/

/-- PWM_PERIOD_START (R459): a driven output takes its settings for the period; the HV die reads it back, and a released
output that reads low for 3 consecutive periods is logged. -/
def execPwmPeriodStart (output : BitVec 2) (readsLow : Bool) (s : State) : Host.Outcome State Fault Refusal :=
  .next <|
    let p := output.toNat
    let s := s.editPwm p fun o =>
      if o.drive = .run then
        { o with enabled := s.on (FLD_PWM_EN p), invert := s.on (FLD_PWM_INVERT p), freq := s.f (FLD_PWM_FREQ p)
                 duty := s.f (FLD_PWM_DUTY p) }
      else o
    let n := if readsLow then (s.pwmO p).lowReads + 1 else 0
    let s := s.editPwm p fun o => { o with lowReads := n }
    s.when (decide (n = 3)) (·.ev .fld Ev.FLD_PWM_FAULT [p])

/-- A write of DUTY (R460): refused and logged while SAFE is set, else stored for the next period. -/
def State.dutySet (s : State) (req : Req) (p duty : Nat) : State :=
  if s.safe then s.ev .fld Ev.FLD_SAFE_REFUSED (p :: reqId req) else s.set (FLD_PWM_DUTY p) duty

/-- The same, behind the gate of its register. -/
def State.dutyOp (s : State) (req : Req) (p duty : Nat) : State :=
  s.gate .fld .operator (FLD_PWM_DUTY p).addr req fun s => s.dutySet req p duty

/-- PWM_DUTY_WRITE (R460). -/
def execPwmDutyWrite (req : Req) (output : BitVec 2) (duty : BitVec 16) (s : State) :
    Host.Outcome State Fault Refusal :=
  .next (s.dutyOp req output.toNat duty.toNat)

/-! ### Slow inputs (R462 to R464) -/

/-- The configuration register of a slow input: a GPIO, or WAKE_N under number 16. -/
def inputCfg (n : Nat) : Nat := if n = 16 then FLD_WAKE_CFG_STATE.addr else (FLD_GPIO_CFG_STATE n).addr

/-- STATE of a slow input: 0 GOOD, 1 STUCK, 2 CHATTER. -/
def inputState (n : Nat) : Field := ⟨inputCfg n, 9, 8⟩

/-- The pin is a slow input: WAKE_N, or a GPIO in input mode (R461, R462). -/
def State.isInput (s : State) (n : Nat) : Bool :=
  decide (n = 16) || decide (s.f (FLD_GPIO_CFG_MODE n) = 0) || decide (s.f (FLD_GPIO_CFG_MODE n) = 3)

/-- The asserted level of a slow input (R464); WAKE_N is active low. -/
def State.assertedLevel (s : State) (n : Nat) : Bool := decide (n ≠ 16) && s.on (FLD_GPIO_CFG_ACT_HIGH n)

/-- `FLD_STATUS.IN` reports a GPIO's accepted level, and the deasserted level while it is stuck (R464). -/
def State.inputReport (s : State) (n : Nat) (level : Bool) : State :=
  if n < 16 then s.put ⟨FLD_STATUS_IN.addr, n, n⟩ level else s

/-- The accepted level of an input becomes `level`; a deassertion ends STUCK (R464). -/
def State.inputLevel (s : State) (n : Nat) (level : Bool) : State :=
  let asserted := decide (level = s.assertedLevel n)
  let s := s.editGpio n fun g => { g with level := level, assertedSince := if asserted then some s.now else none }
  let s := s.when (!asserted && decide (s.f (inputState n) = 1)) (·.set (inputState n) 0)
  s.inputReport n level

/-- GPIO_INPUT_ACCEPT (R462, R463): a new level has held for DEGLITCH. More than 8 accepted edges within 1 s make the
input CHATTER: its accepted level stays as it was before the ninth edge for 10 s, and further chatter restarts them. -/
def execGpioInputAccept (input : Fin 17) (level : Bool) (s : State) : Host.Outcome State Fault Refusal :=
  .next <|
    let n := input.val
    let g := s.gpioN n
    if !s.isInput n || g.seen = level then s
    else
      let edges := (s.now :: g.edges.filter fun t => decide (s.now < t + 1000000000)).take 9
      let s := s.editGpio n fun g => { g with seen := level, edges := edges }
      if edges.length = 9 then
        let s := s.when (decide (s.f (inputState n) ≠ 2)) fun s =>
          ((s.set (inputState n) 2).ev .fld Ev.FLD_IN_CHATTER [n]).bump FLD_CNT_IN_EVENTS
        s.editGpio n fun g => { g with chatterEnd := some (s.now + 10000000000) }
      else if g.chatterEnd.isSome then s
      else s.inputLevel n level

/-- CHATTER_HOLD_END (R463): the 10 s end; the input is GOOD and its accepted level follows the pin again. -/
def execChatterHoldEnd (input : Fin 17) (s : State) : Host.Outcome State Fault Refusal :=
  .next <|
    let n := input.val
    let g := s.gpioN n
    match g.chatterEnd with
    | some t =>
      let s := (s.reach t).set (inputState n) 0
      let s := s.editGpio n fun g => { g with chatterEnd := none, edges := [] }
      if g.seen = g.level then s else s.inputLevel n g.seen
    | none => s

/-- STUCK_S of a slow input. -/
def State.stuckS (s : State) (n : Nat) : Nat := s.f ⟨inputCfg n, 27, 16⟩

/-- FLD_IN_STUCK (R464): the asserted level has been held for STUCK_S seconds; the input is reported deasserted. -/
def execFldInStuck (input : Fin 17) (s : State) : Host.Outcome State Fault Refusal :=
  .next <|
    let n := input.val
    match (s.gpioN n).assertedSince with
    | some t =>
      if s.isInput n && decide (s.stuckS n ≠ 0) && decide (s.f (inputState n) = 0) then
        let s := (s.reach (t + s.stuckS n * 1000000000)).set (inputState n) 1
        ((s.inputReport n !(s.assertedLevel n)).ev .fld Ev.FLD_IN_STUCK [n]).bump FLD_CNT_IN_EVENTS
      else s
    | none => s

/-- PULSE_END (R461): the 1 ms ends and the GPIO returns to OUT. -/
def execPulseEnd (gpio : BitVec 4) (s : State) : Host.Outcome State Fault Refusal :=
  .next <| match (s.gpioN gpio.toNat).pulseEnd with
    | some t => (s.reach t).editGpio gpio.toNat fun g => { g with pulseEnd := none }
    | none => s

/-- The level that an output GPIO drives: the pulse's while one runs, else OUT (R461). -/
def State.gpioDrives (s : State) (n : Nat) : Bool :=
  if (s.gpioN n).pulseEnd.isSome then (s.gpioN n).out else s.on (FLD_GPIO_CFG_OUT n)

end Sys2Proof.Machine
end

