-- ==== Sys2Proof/Machine/ShfLead.lean ====
section
/-! DEFINITION. Lead loss and return on the shelf (R446, R447): the takeover and the release of the alias. -/

namespace Sys2Proof.Machine

/-- LEAD_CLAIM (R441): the term, the deputy's number, and whether the acting lead holds an alias. -/
def State.leadClaim (s : State) (deputy : Nat) (alias_ : Bool) : State :=
  s.smpSend 4 none ((natLe 4 (s.f SHF_TERM_TERM)).map (·.toNat) ++ [deputy, alias_.toNat])

/-- The deputy takes over (R446): a new term, stored and claimed; it answers for 0 and for its own number; BAR2 opens, vector 0
is raised; LT is now the shelf's (R45), and a holdover is no longer the shelf's (R38); `MTM_LEARN_A` goes on being applied. -/
def State.takeover (s : State) : State :=
  let old := s
  let own := s.shelfId
  let term := (s.f SHF_TERM_TERM + 1) % 2 ^ 32
  let s := (s.setRole 2).set SHF_TERM_TERM term
  let s := { s with shf.termNvm := term, shf.leadAt := some own, hif.bar2 := true, mtm.acts := true }
  let s := (((s.up SHF_STATUS_ACTING).set SHF_STATUS_NUMBER 0).up SHF_STATUS_ALIAS_V).set SHF_STATUS_ALIAS own
  ((s.routesSync.leadClaim own true).msix 0).roleSync old

/-- `SHF_CMD`. -/
def shfCmd : CmdReg := ⟨SHF_CMD_STATE.addr, .shf, .operator⟩

/-- REJOIN: the acting lead releases the alias to the returned lead (R447); NOT_ACTING on any other device. -/
def State.rejoinOp (s : State) (req : Req) : State :=
  s.command shfCmd req fun s =>
    if !s.on SHF_STATUS_ACTING then s.cmdError shfCmd.addr 2
    else
      let number := s.f SHF_STATUS_ALIAS
      let s := { (s.down SHF_STATUS_ALIAS_V).set SHF_STATUS_ALIAS 0 with shf.leadAt := none }
      (s.routesSync.leadClaim number false).cmdDone shfCmd.addr

/-- TAKEOVER: R446 at once, on the deputy only. -/
def State.takeoverOp (s : State) (req : Req) : State :=
  s.command shfCmd req fun s => if s.f SHF_STATUS_ROLE ≠ 1 then s.cmdError shfCmd.addr 3 else s.takeover.cmdDone shfCmd.addr

end Sys2Proof.Machine
end

