-- ==== Sys2Proof/Machine/CsrWrite.lean ====
section
/-! DEFINITION. Writes of the control and status registers (R5 to R10, R13, R14, R17, R27, R28): the check field by field, the
registers whose write does more than store, and the command registers. -/

namespace Sys2Proof.Machine

/-! ### The check of a write (R17) -/

/-- The fields of a register that a writer may not write: those above its level, and RWL fields once the boot lock is set. -/
def fieldShut (lvl : Level) (locked : Bool) (f : FieldDesc) : Bool :=
  match f.lvl with
  | none => true
  | some l => !lvl.covers l || (decide (f.acc = .rwl) && locked)

/-- A write would change, or act on, a field of word `w`: what makes its refusal a denial. -/
def fieldActs (f : FieldDesc) (w : Nat) (old v : Word) : Bool :=
  let m := BitVec.ofNat 32 (fieldMask f w)
  match f.acc with
  | .rw | .rwl => decide ((old ^^^ v) &&& m ≠ 0)
  | .w1c => decide (v &&& m ≠ 0)
  | .wo | .cmd => decide (m ≠ 0)
  | .ro | .rc => false

/-- An RWL field of word `w` under the boot lock: every write of it is discarded and logged (R10). -/
def fieldLocked (locked : Bool) (f : FieldDesc) (w : Nat) : Bool := locked && decide (f.acc = .rwl) && decide (fieldMask f w ≠ 0)

/-- The stored word of word `w` after a write: the fields that take it, each under its access type. -/
def fieldsTake (lvl : Level) (locked : Bool) (r : RegDesc) (w : Nat) (old v : Word) : Word :=
  r.fields.foldl (fun n f =>
    let m := BitVec.ofNat 32 (fieldMask f w)
    if fieldShut lvl locked f then n
    else match f.acc with
    | .rw | .rwl | .wo => (n &&& ~~~m) ||| (v &&& m)
    | .w1c => n &&& ~~~(v &&& m)
    | _ => n) old

/-- Some field of word `w` takes a write. -/
def someTakes (lvl : Level) (locked : Bool) (r : RegDesc) (w : Nat) : Bool :=
  r.fields.any fun f => decide (fieldMask f w ≠ 0) && !fieldShut lvl locked f && !([Acc.ro, .rc].contains f.acc)

/-- A program slot's number, for the address of its CTL register. -/
def slotCtl (a : Nat) : Option Nat :=
  if 0x5000118 ≤ a ∧ a < 0x5000300 ∧ (a - 0x5000118) % 32 = 0 then some ((a - 0x5000118) / 32) else none

/-- A ring's number, for the address of its CFG register. -/
def ringCfg (a : Nat) : Option Nat :=
  if 0x1500108 ≤ a ∧ a < 0x1500180 ∧ (a - 0x1500108) % 16 = 0 then some ((a - 0x1500108) / 16) else none

/-- A write that is discarded whole under R17 beside the field check: one at Operator level that makes a program slot an
Operator's, or changes one that is (`CPU_SLOT_n`). -/
def State.slotShut (s : State) (lvl : Level) (a : Nat) (v : Word) : Bool :=
  match slotCtl a with
  | some n => decide (lvl = .operator) && (decide (bitsOf v 29 28 = 1) || decide (s.f (CPU_SLOT_CTL_LEVEL n) = 1))
  | none => false

/-- A ring's LEVEL above the writer's level is discarded (`CIP_RING_n`): its field counts as one above that level. -/
def ringShut (lvl : Level) (a : Nat) (v : Word) : Bool :=
  (ringCfg a).isSome && decide ((if bitsOf v 29 28 = 3 then 0 else bitsOf v 29 28) < levelNum lvl)

/-- A write that R17 denies, wholly or for some field. -/
def State.denies (s : State) (req : Req) (r : RegDesc) (w a : Nat) (v : Word) : Bool :=
  let old := s.rd a
  match s.cmdLevel (a - 4 * w) r with
  | some l => !req.level.covers (if a = PKB_QCMD_STATE.addr then s.quireLevel (bitsOf v 22 16) else l)
  | none =>
    (r.fields.any fun f => fieldShut req.level false f && f.lvl.isSome && fieldActs f w old v) ||
      (s.slotShut req.level a v && decide ((old ^^^ v) &&& 0xB000FFFF ≠ 0)) ||
      (ringShut req.level a v && !old.getLsbD 31 && decide (bitsOf v 29 28 ≠ bitsOf old 29 28))

/-! ### Command registers (R14) -/

/-- A write of a command register of a device-wide unit. -/
def State.cmdWriteAon (s : State) (req : Req) (a : Nat) (v : Word) : State :=
  let op := bitsOf v 11 8
  if a = resetCmd.addr then s.resetOp req (bitsOf v 31 16) (bitsOf v 9 8)
  else if a = folioCmd.addr then
    if v.getLsbD 10 then s.folioNext req (bitsOf v 9 8) else s.folioRequest req (bitsOf v 9 8)
  else if a = mtSnapCmd.addr then if v.getLsbD 8 then s.mtSnapOp req else s.command mtSnapCmd req id
  else if a = ltLoadCmd.addr then if v.getLsbD 8 then s.ltLoadOp req else s.command ltLoadCmd req id
  else if a = ltStepCmd.addr then s.ltStepOp req (bitsOf v 31 8)
  else if a = pwrStateCmd.addr then s.targetOp req (bitsOf v 9 8)
  else if a = pwrCmd.addr then
    if op = 1 then s.powerCycleOp req (bitsOf v 23 16) .ok else s.command pwrCmd req (·.cmdError pwrCmd.addr 4)
  else if a = asyCmd.addr then
    match op with
    | 1 => s.forceRungOp req (bitsOf v 19 16) (bitsOf v 13 12)
    | 2 => s.asyReleaseOp req
    | 3 => s.enterSafeOp req
    | 4 => s.clearReplaceOp req
    | 5 => s.lftNowOp req
    | _ => s.command asyCmd req (·.cmdError asyCmd.addr 3)
  else if a = cfgCmd.addr then
    match op with
    | 1 => s.confirmOp req
    | 2 => s.eraseOp req
    | _ => s.command cfgCmd req (·.cmdError cfgCmd.addr 3)
  else
    let p := (a - 0x8000104) / 16
    match op with
    | 1 => s.daliSendOp req p 16 (bitsOf v 14 12)
    | 2 => s.daliSendOp req p 24 (bitsOf v 14 12)
    | _ => s.command (daliCmd p) req fun s => s.daliResult p 3 7

/-- A write of a command register of the packet system or the cipher engine. -/
def State.cmdWriteCore (s : State) (req : Req) (a : Nat) (v : Word) : State :=
  let op := bitsOf v 11 8
  if a = PKB_QCMD_STATE.addr then
    let q := bitsOf v 22 16
    match op with
    | 1 => s.dropPktOp req q
    | 2 => s.flushOp req q
    | _ => s.command (s.qcmd q) req (·.cmdError PKB_QCMD_STATE.addr 3)
  else if a = commitCmd.addr then if v.getLsbD 8 then s.commitOp req else s.command commitCmd req id
  else if a = ruleCmd.addr then s.ruleOp req (bitsOf v 31 30) (v.getLsbD 29) (bitsOf v 28 9)
  else if a = flowCmd.addr then s.flowOp req op
  else if a = routeCmd.addr then s.routeOp req op (bitsOf v 21 16)
  else if a = schCmd.addr then s.schNodeOp req (bitsOf v 29 28) (bitsOf v 31 30) (bitsOf v 23 8)
  else if a = pinCmd.addr then
    match bitsOf v 9 8 with
    | 1 => s.pinSetCmd req
    | 2 => s.pinClearCmd req
    | 3 => s.pinReadCmd req
    | _ => s.command pinCmd req (·.cmdError pinCmd.addr 4)
  else if a = rootCmd.addr then
    if op = 1 then s.rootProgram req (bitsOf v 13 12) (bitsOf v 14 14) true else s.command rootCmd req fun s => (s.cmdError rootCmd.addr 5).rootBufClear
  else if a = keyCmd.addr then
    let i := bitsOf v 27 16
    match op with
    | 1 => s.keyCommand req (.install i (v.getLsbD 14))
    | 2 => s.keyCommand req (.remove i)
    | 3 => s.keyCommand req (.derive i (v.getLsbD 14) (bitsOf v 13 12) req.level)
    | 4 => s.evictSlot req (bitsOf v 13 12)
    | 5 => s.keyErase req 0
    | _ => s.command keyCmd req fun s => (s.cmdError keyCmd.addr 2).keyBufClear
  else if a = prfSnapCmd.addr then if v.getLsbD 8 then s.prfSnapOp req else s.command prfSnapCmd req id
  else
    match op with
    | 1 => s.rejoinOp req
    | 2 => s.takeoverOp req
    | _ => s.command shfCmd req (·.cmdError shfCmd.addr 4)

/-- A write of a command register of a radio, its MAC, a port or the DRAM controller. -/
def State.cmdWriteLink (s : State) (req : Req) (a : Nat) (v : Word) : State :=
  let op := bitsOf v 11 8
  let link := bitsOf v 12 12
  if a = (rfCmd .a).addr then s.rfGo req .a link op
  else if a = (rfCmd .b).addr then s.rfGo req .b link op
  else if a = (rfCalCmd .a).addr then s.rfCalOp req .a link op
  else if a = (rfCalCmd .b).addr then s.rfCalOp req .b link op
  else if a = rfGrantCmd.addr then s.rfGrantOp req op
  else if a = rfcCmd.addr then s.rfcGo req op
  else if a = rfcOpCmd.addr then
    match op with
    | 1 => s.applyPlan req
    | 2 => s.calReq req
    | 3 => s.tuneReq req link
    | _ => s.command rfcOpCmd req (·.cmdError rfcOpCmd.addr 2)
  else if a = staCmd.addr then
    let i := bitsOf v 25 16
    match op with
    | 1 => s.staAdd req i
    | 2 => s.staDel req i
    | 3 => s.staRead req i
    | _ => s.command staCmd req (·.cmdError staCmd.addr 5)
  else if a = wmaKeyCmd.addr then
    match op with
    | 1 => s.wmaInstall req (bitsOf v 29 20) (bitsOf v 19 16) (bitsOf v 14 12)
    | 2 => s.wmaKeyRemove req (bitsOf v 29 20) (bitsOf v 19 16)
    | 3 => s.wmaSetTx req (bitsOf v 29 20) (bitsOf v 15 15)
    | _ => s.command wmaKeyCmd req fun s => (s.cmdError wmaKeyCmd.addr 3).wmaBufClear
  else if a = sgmCmd.addr then
    match op with
    | 1 => s.planCommit req
    | 2 => s.planCancel req
    | _ => s.command sgmCmd req (·.cmdError sgmCmd.addr 2)
  else if a = nodeCmd.addr then
    let i := bitsOf v 27 16
    match op with
    | 1 => s.nodeAdd req i
    | 2 => s.nodeDel req i
    | 3 => s.nodeRead req i
    | 4 => s.nodeUpdate req i
    | 5 => s.nodeMove req i
    | _ => s.command nodeCmd req (·.cmdError nodeCmd.addr 5)
  else if a = drcCmd.addr then s.drcOp req op (bitsOf v 13 12)
  else s.saOp req ((a - 0x3000060) / 0x10000) op (bitsOf v 15 12) (bitsOf v 17 16)

/-- A write of a command register: its action, behind the gate of its level. -/
def State.cmdWrite (s : State) (req : Req) (u : UnitId) (a : Nat) (v : Word) : State :=
  match u with
  | .top | .mtm | .pwr | .asy | .cfg | .fld => s.cmdWriteAon req a v
  | .rfa | .rfb | .rfc | .wma | .sgm | .eth | .drc => s.cmdWriteLink req a v
  | _ => s.cmdWriteCore req a v

/-! ### Registers whose write does more than store -/

/-- Mains time: `MTM_ALM_CTL_n` arms and disarms; an armed alarm's other registers refuse (R52). -/
def State.storeMtm (s : State) (a : Nat) (new : Word) : State :=
  if 0x101000 ≤ a ∧ a < 0x102000 then
    let n := (a - 0x101000) / 16
    if a % 16 = 12 then s.almCtlSet n new
    else if s.on (almEn n) then s.ev .mtm Ev.ALARM_BUSY [n] else s.wr a new
  else s.wr a new

/-- A quire that is enabled keeps its other fields (R90); the log names those that a write would have changed. -/
def State.storePkb (s : State) (a : Nat) (new : Word) : State :=
  if 0x1001000 ≤ a ∧ a < 0x1002000 ∧ a % 32 < 8 then
    let q := (a - 0x1001000) / 32
    if !s.on (PKB_Q_CFG_EN q) then s.wr a new
    else
      let keep := if a % 32 = 0 then withBits (s.rd a) 31 31 (bitsOf new 31 31) else s.rd a
      (s.wr a keep).when (decide (keep ≠ new)) (·.ev .pkb Ev.QUIRE_BUSY [q])
  else s.wr a new

/-- Field outputs: DUTY in the safe state (R421, R460); WAKE_N's asserted level reads 0 (R464). -/
def State.storeFld (s : State) (req : Req) (a : Nat) (new : Word) : State :=
  if isDuty a then
    let p := (a - 0x8000304) / 8
    let s' := s.wr a (withBits new 31 16 (s.f (FLD_PWM_DUTY p)))
    if bitsOf new 31 16 = s.f (FLD_PWM_DUTY p) then s' else s'.dutySet req p (bitsOf new 31 16)
  else if a = FLD_WAKE_CFG_ACT_HIGH.addr then s.wr a (withBits new 28 28 0)
  else s.wr a new

/-- PRF: event selections, the freeze, and the log's STOPPED (R466, R468, R477). -/
def State.storePrf (s : State) (a : Nat) (new : Word) : State :=
  if 0x6001000 ≤ a ∧ a < 0x60012E0 then s.evselSet ((a - 0x6001000) / 4) new
  else if a = PRF_FREEZE_FREEZE.addr then s.prfFreezeSet (new.getLsbD 0)
  else if a = PRF_LOG_STAT_STOPPED.addr then if new = s.rd a then s else s.stoppedSet
  else s.wr a new

/-- Radios A and B: channels, SPLIT, BSSs (R109, R213, R239). -/
def State.storeRf (s : State) (r : Radio) (a : Nat) (new : Word) : State :=
  let o := a % 0x100000
  if 0x10 ≤ o ∧ o < 0x20 then s.chanSet r ((o - 0x10) / 8) (decide (o % 8 = 4)) new
  else if o = 0 ∧ r = .b then
    let s' := s.wr a (withBits new 0 0 s.split.toNat)
    if new.getLsbD 0 = s.split then s' else s'.splitSet (new.getLsbD 0)
  else if 0x1000 ≤ o ∧ o < 0x1080 then (s.wr a new).unbad (rfUnit r) 2 ((o - 0x1000) / 8)
  else s.wr a new

/-- Radio C: channel configurations (R245), the span (R241), the receiving port. -/
def State.storeRfc (s : State) (a : Nat) (new : Word) : State :=
  if 0x2200100 ≤ a ∧ a < 0x2200200 then s.chCfgWrite ((a - 0x2200100) / 4) new
  else if a = RFC_SPAN_CENTRE.addr then
    if spanDenied new then s.ev .rfc Ev.RF_CHAN_DENIED [bitsOf new 19 0] else s.wr a new
  else if a = RFC_CTL_RX_PORT.addr then (s.wr a new).when (decide (s.rd a ≠ new)) State.rxAbort
  else s.wr a new

/-- Wired ports: the mode (R334), preemption (R337), neighbours (R109). -/
def State.storeEth (s : State) (a : Nat) (new : Word) : State :=
  let p := a / 0x10000 % 16
  if a % 0x10000 = 0 then (s.portSettle p).portCfgWrite p new
  else if a % 0x10000 = 0x14 then (s.portSettle p).preemptWrite p new
  else if 0x3008000 ≤ a ∧ a < 0x3010000 then (s.wr a new).unbad .eth 2 ((a - 0x3008000) / 8)
  else s.wr a new

/-- The cipher engine's rings (R318): BASE, LEVEL and SIZE stay while EN is 1; PROD may not overrun. -/
def State.storeCip (s : State) (req : Req) (a : Nat) (v new : Word) : State :=
  if 0x1500100 ≤ a ∧ a < 0x1500180 then
    let n := (a - 0x1500100) / 16
    let old := s.rd a
    match a % 16 with
    | 8 =>
      if s.on (CIP_RING_CFG_EN n) then s.wr a (withBits (withBits new 29 28 (bitsOf old 29 28)) 3 0 (bitsOf old 3 0))
      else if ringShut req.level a v then s.wr a (withBits new 29 28 (bitsOf old 29 28))
      else s.wr a new
    | 12 => s.prodWrite n (bitsOf new 7 0)
    | _ => if s.on (CIP_RING_CFG_EN n) then s else s.wr a new
  else s.wr a new

/-- A write of `CPU_CTL` (R389): every 1 of RUN starts its core again at `CPU_VBASE`, a 0 halts a core that runs. -/
def State.runWrite (s : State) (new : Word) : State :=
  let t := s.wr CPU_CTL_RUN.addr new
  t.each (List.range 4) fun t c =>
    if new.getLsbD c then t.coreStart c else t.when (s.bit CPU_CTL_RUN c) (·.coreHalt c)

/-- The state with software interrupts raised (R390). -/
def State.swiSet (s : State) (bits : Nat) : State := s.set CPU_SWI_PEND_PEND (Nat.lor (s.f CPU_SWI_PEND_PEND) (bits % 16))

/-- The Bodkin cluster: RUN, software interrupts, program slots. -/
def State.storeCpu (s : State) (req : Req) (a : Nat) (v new : Word) : State :=
  if a = CPU_CTL_RUN.addr then s.runWrite new
  else if a = CPU_SWI_SET.addr then s.swiSet (bitsOf v 3 0)
  else if s.slotShut req.level a v then s
  else s.wr a new

/-- A doorbell of the host (R451). -/
def State.doorbell (s : State) (v : Word) : State := (s.wr HIF_DB_LAST_LAST.addr v).irq 7

/-- The host interface's doorbells. -/
def State.storeHif (s : State) (a : Nat) (v new : Word) : State :=
  if a = HIF_DOORBELL_VALUE.addr then s.doorbell v
  else if a = HIF_HOST_DB_VALUE.addr then s.msix 2
  else s.wr a new

/-- A register takes the word `new` that the field check gives for a written word `v`. -/
def State.regStore (s : State) (req : Req) (u : UnitId) (a : Nat) (v new : Word) : State :=
  match u with
  | .top => if a = TOP_LOCK_BOOT.addr then s.wr a (new ||| s.rd a) else s.wr a new
  | .mtm => s.storeMtm a new
  | .cfg =>
    if a = CFG_NVM_DATA_DATA.addr then s.nvmSet v v
    else if a = CFG_NVM_PTR_OFFSET.addr then s.wr a (withBits new 1 0 0)
    else s.wr a new
  | .fld => s.storeFld req a new
  | .pkb => s.storePkb a new
  | .par =>
    let t := s.wr a new
    if 0x1100200 ≤ a ∧ a < 0x110021C then { t with par.malSeen := t.par.malSeen.del ((a - 0x1100200) / 4) } else t
  | .sch => if 0x1300170 ≤ a ∧ a < 0x1300180 then s else s.wr a new
  | .cip => s.storeCip req a v new
  | .rfa => s.storeRf .a a new
  | .rfb => s.storeRf .b a new
  | .rfc => s.storeRfc a new
  | .eth => s.storeEth a new
  | .cpu => s.storeCpu req a v new
  | .prf => s.storePrf a new
  | .hif => s.storeHif a v new
  | _ => s.wr a new

/-! ### The write -/

/-- A write of word `w` of a register that takes no command: field by field, with what follows from a change (R17). A Bodkin
core's write that R17 denies has no effect beside its log entry and the exception (R388). One that meets an RWL field under the
boot lock is logged, whoever writes, and its other fields are stored: it is R10 that logs it, so no exception follows (R387). -/
def State.fieldWrite (s : State) (req : Req) (u : UnitId) (r : RegDesc) (w a : Nat) (v : Word) : State :=
  let locked := s.on TOP_LOCK_BOOT
  let denied := s.denies req r w a v
  match req.path, denied with
  | .core _, true => s.denied u req a
  | _, _ =>
    let t := if someTakes req.level locked r w then
        (s.regStore req u a v (fieldsTake req.level locked r w (s.rd a) v)).follow s
      else s
    if denied then t.denied u req a
    else t.when (r.fields.any fun f => fieldLocked locked f w) (·.ev u Ev.ACCESS_DENIED (a :: reqId req))

/-- A write of a register by a requester (R5, R7, R9, R17, R28). -/
def State.csrWrite (s : State) (req : Req) (addr : Nat) (v : Word) : State :=
  let a := addr / 4 * 4
  if s.isOff && decide (req.path ≠ .maint) then s
  else match regAt a with
  | none => s.unmapped req a
  | some (u, r, w) =>
    if (s.cmdLevel (a - 4 * w) r).isSome then s.cmdWrite req u a v
    else s.gate u .guest a req fun s => s.fieldWrite req u r w a v

/-- A write by a requester denied by R17, as a Bodkin core sees it before it acts: the unit takes writes, and the check fails. -/
def State.csrDenies (s : State) (req : Req) (addr : Nat) (v : Word) : Bool :=
  let a := addr / 4 * 4
  match regAt a with
  | none => false
  | some (u, r, w) => !s.isOff && !s.unitDark u && (s.ready u || decide (req.level = .vendor)) && s.denies req r w a v

/-! ### The rows -/

/-- REGISTER_WRITE (R5, R17): a write whose byte enables do not cover all four bytes is discarded and logged, after its domain has
woken (R8). Where its address is
unmapped, or its unit not ready, R5 and R27 or R28 each name an event and give no precedence: it is logged as `ACCESS_PARTIAL`
alone (DESIGN CHOICE, log entry 189). -/
def execRegisterWrite (req : Req) (addr value : BitVec 32) (be : BitVec 4) (s : State) : Host.Outcome State Fault Refusal :=
  .next <|
    if s.isOff && decide (req.path ≠ .maint) then s
    else if be ≠ 15 then
      (s.with? (regAt (addr.toNat / 4 * 4)) fun s r => s.demand r.1).ev ((unitAt addr.toNat).getD .top) Ev.ACCESS_PARTIAL
        (addr.toNat :: reqId req)
    else s.csrWrite req addr.toNat value

/-- BOOT_LOCK_SET (R13): a write of 1 to `TOP_LOCK.BOOT`, as firmware makes it at the end of start-up. -/
def execBootLockSet (req : Req) (s : State) : Host.Outcome State Fault Refusal := .next (s.csrWrite req TOP_LOCK_BOOT.addr 1)

/-- An address on the maintenance port: the match works in every state and changes nothing (R84), but one made while the
maintenance logic was stopped is logged (R83). R83 names no unit for the entry: it is CFG's (DESIGN CHOICE, log entry 190). -/
def State.maintMatch (s : State) (address : BitVec 7) (stopped : Bool) : State :=
  s.when (decide (address.toNat = 0x58 + s.f TOP_STRAP_MADDR) && stopped) (·.ev .cfg Ev.MAINT_WAKE)

/-- MAINT_ADDRESS_MATCH (R83, R84): the address, and whether the maintenance logic was stopped as it matched. -/
def execMaintAddressMatch (address : BitVec 7) (stopped : Bool) (s : State) : Host.Outcome State Fault Refusal :=
  .next (s.maintMatch address stopped)

/-- MAINT_WRITE (R84): a register write over the maintenance port, at Operator level; a transaction that ends early has no
effect. -/
def execMaintWrite (addr value : BitVec 32) (complete : Bool) (s : State) : Host.Outcome State Fault Refusal :=
  .next (if complete then s.csrWrite { path := .maint, level := .operator } addr.toNat value else s)

end Sys2Proof.Machine
end

