-- ==== Sys2Proof/Machine/Operands.lean ====
section
/-! DEFINITION. What a Bodkin core's operations act on: the core address space (R374), the regions of program slots (R391),
loads, stores and atomic operations, and the address generators (R385, R386). -/

namespace Sys2Proof.Machine

/-! ### The core address space (R374) -/

/-- Where a core address leads. -/
inductive Place where
  | sram (offset : Nat)
  | csr (addr : Nat)
  | shared (offset : Nat)
  | dram (addr : Nat)
  | none
  deriving DecidableEq, Repr

/-- The place of a core address, with the core's DRAM window. -/
def placeOf (dwin : Word) (a : Nat) : Place :=
  if a < 0x80000 then .sram a
  else if 0x10000000 ≤ a ∧ a < 0x19000000 then .csr (a - 0x10000000)
  else if 0x20000000 ≤ a ∧ a < 0x20800000 then .shared (a - 0x20000000)
  else if 0x40000000 ≤ a ∧ a < 0x80000000 then .dram (dwin.toNat * 0x100000 + (a - 0x40000000))
  else .none

/-- The local SRAM of a core (R372). -/
def State.localMem (s : State) (c : Nat) : Memory :=
  match c with
  | 0 => s.cpu.local0 | 1 => s.cpu.local1 | 2 => s.cpu.local2 | 3 => s.cpu.local3 | _ => s.cpu.localS

/-- The state with a core's local SRAM replaced. -/
def State.setLocal (s : State) (c : Nat) (m : Memory) : State :=
  match c with
  | 0 => { s with cpu.local0 := m }
  | 1 => { s with cpu.local1 := m }
  | 2 => { s with cpu.local2 := m }
  | 3 => { s with cpu.local3 := m }
  | _ => { s with cpu.localS := m }

/-- A 32-byte word of a core's local SRAM as its unit counts and logs it: the unit, SOURCE and index (R111); the safety pair's
belongs to ASY. -/
def localWord (c o : Nat) : UnitId × Nat × Nat := if c < 4 then (.cpu, 0, c * 2 ^ 20 + o / 32) else (.asy, 0, o / 32)

/-- A word of a core's local SRAM is known uncorrectable (R109). -/
def State.localBad (s : State) (c o : Nat) : Bool := s.bad.contains (localWord c o)

/-! ### Program slots (R391) -/

/-- A range lies in a region. -/
def inRegion (base len a n : Nat) : Bool := decide (base ≤ a) && decide (a + n ≤ base + len)

/-- A range lies in DATA of a slot. A slot that is not enabled has no regions (DEDUCED). -/
def State.inData (s : State) (slot a n : Nat) : Bool :=
  s.on (CPU_SLOT_CTL_EN slot) && inRegion (s.f (CPU_SLOT_DATA_BASE_W slot)) (s.f (CPU_SLOT_DATA_LEN_W slot)) a n

/-- A range lies in CODE of a slot. -/
def State.inCode (s : State) (slot a n : Nat) : Bool :=
  s.on (CPU_SLOT_CTL_EN slot) && inRegion (s.f (CPU_SLOT_CODE_BASE_W slot)) (s.f (CPU_SLOT_CODE_LEN_W slot)) a n

/-- A range of DRAM addresses lies in the slot's DRAM range. -/
def State.inSlotDram (s : State) (slot a n : Nat) : Bool :=
  s.on (CPU_SLOT_CTL_EN slot) &&
    inRegion (s.f (CPU_SLOT_DRAM_BASE_W slot) * 0x100000) (s.f (CPU_SLOT_DRAM_LEN_W slot) * 0x100000) a n

/-- An access of a program slot outside its regions raises PROT: loads in DATA and CODE, stores in DATA, the DRAM range
through the window; CSRs are under R17 and R18. Vendor mode has no region checks. -/
def State.slotProtects (s : State) (k : Core) (store : Bool) (a n : Nat) : Bool :=
  decide (k.level ≠ .vendor) &&
    match placeOf k.dwin a with
    | .csr _ => false
    | .dram d => !(s.inSlotDram k.slot d n || s.inData k.slot a n || (!store && s.inCode k.slot a n))
    | _ => !(s.inData k.slot a n || (!store && s.inCode k.slot a n))

/-! ### Exceptions of an access -/

/-- An exception: its code and its data address, if it has one (R387). -/
structure Exc where
  code : Nat
  ea : Option Nat := none
  deriving DecidableEq, Repr

/-- Of two exceptions of one operation the lower code is raised (R387). -/
def Exc.lower : Option Exc → Option Exc → Option Exc
  | some a, some b => if b.code < a.code then some b else some a
  | some a, none => some a
  | none, b => b

/-- The source number of a core in DRC (R372). -/
def coreSource (c : Nat) : Nat := if c < 4 then c + 1 else 0

/-- What an access of `n` bytes raises before it is made: PROT, ALIGN (also for a CSR, word accesses alone), MEM. -/
def State.accessExc (s : State) (c : Nat) (store : Bool) (a n : Nat) : Option Exc :=
  let k := s.core c
  let p := placeOf k.dwin a
  let csr := match p with | .csr _ => true | _ => false
  if s.slotProtects k store a n then some { code := 2, ea := some a }
  else if a % n ≠ 0 || (csr && decide (n ≠ 4)) then some { code := 3, ea := some a }
  else match p with
    | .none => some { code := 4, ea := some a }
    | .dram d => if 0x1C7000000 ≤ d || !s.dramUp then some { code := 4, ea := some a } else none
    | _ => none

/-- An access that DRC refuses for its address is logged there (R360, R374). -/
def State.accessLog (s : State) (c a : Nat) : State :=
  match placeOf (s.core c).dwin a with
  | .dram d => s.when (decide (0x1C7000000 ≤ d) && !s.unitDark .drc) (·.ev .drc Ev.DRC_BAD_ADDR [d])
  | _ => s

/-! ### Loads, stores -/

/-- How a load ends: with a value; stalled in `PWR_WAIT`; with the exception of an uncorrectable word. -/
inductive Loaded where
  | value (v : Nat)
  | stall
  | exc (e : Exc)
  deriving DecidableEq, Repr

/-- IRQ_PEND of a core (R380, R390): sources 0 to 10, and its software interrupt at 11 + its number. -/
def State.irqPend (s : State) (c : Nat) : Word :=
  (s.core c).pend ||| (if c < 4 ∧ s.bit CPU_SWI_PEND_PEND c = true then BitVec.ofNat 32 (2 ^ (11 + c)) else 0)

/-- An interrupt of the core that is enabled is pending. -/
def State.irqReady (s : State) (c : Nat) : Bool := decide (s.irqPend c &&& (s.core c).irqEn ≠ 0)

/-- A word of a memory of the cores is read with upsets (R105): the state, and whether it is uncorrectable. -/
def State.cpuWord (s : State) (w : UnitId × Nat × Nat) (upset : List Upset) : State × Bool :=
  let t := if s.bad.contains w then s.wgcUncorr w.1 w.2.1 w.2.2 else s.tableRead w.1 w.2.1 w.2.2 upset
  (t, t.bad.contains w)

/-- A load that may be made (R374 to R376); the upsets are those of the word that holds its first byte. -/
def State.coreLoad (s : State) (c a n : Nat) (upset : List Upset) : State × Loaded :=
  let k := s.core c
  let bad : Loaded := .exc { code := 4, ea := some a }
  match placeOf k.dwin a with
  | .sram o => match s.cpuWord (localWord c o) upset with
    | (t, true) => (t, bad)
    | (t, false) => (t, .value ((t.localMem c).le o n))
  | .shared o => match s.cpuWord (.cpu, 1, o / 32) upset with
    | (t, true) => (t, bad)
    | (t, false) => (t, .value (t.shared.le o n))
  | .dram d =>
    match (s.demand .drc).drcDecode (coreSource c) (s.f (DRC_SRC_CLASS (coreSource c))) (d / 32 * 32) upset with
    | (t, none) => (t, bad)
    | (t, some l) => (t, .value (leNat ((l.drop (d % 32)).take n)))
  | .csr x =>
    if decide (x = PWR_WAIT_PEND.addr) && decide (c < 4) && decide (k.level ≠ .guest) then
      if s.irqReady c then (s, .value (s.irqPend c).toNat) else (s, .stall)
    else
      let t := s.csrRead { path := .core (Fin.ofNat 6 c), level := k.level } x
      (t, .value t.readData.toNat)
  | .none => (s, bad)

/-- A store that may be made, but to a CSR. -/
def State.coreStore (s : State) (c a n v : Nat) : State :=
  match placeOf (s.core c).dwin a with
  | .sram o => s.setLocal c ((s.localMem c).setLe o n v)
  | .shared o => s.sharedPut o (natLe n v)
  | .dram d => { s.demand .drc with dram := (s.demand .drc).dram.setDram d (natLe n v) }
  | _ => s

/-! ### Address generators (R385, R386) -/

/-- A generator of a core. -/
def Core.ag (k : Core) (g : Nat) : AddrGen := k.ags.lookD g {}

/-- The modulus of the index. -/
def AddrGen.modulus (g : AddrGen) : Nat := if g.len = 0 then 2 ^ 24 else g.len

/-- The element size in bytes. -/
def AddrGen.size (g : AddrGen) : MemSize := match g.ctl % 4 with | 1 => .half | 2 => .byte | _ => .word

/-- Bit-reversed addressing. -/
def AddrGen.reversed (g : AddrGen) : Bool := decide (g.ctl / 4 % 2 = 1)

/-- The index moved by `d` elements. -/
def AddrGen.moved (g : AddrGen) (d : Int) : AddrGen :=
  { g with idx := (((g.idx : Int) + d) % ((g.modulus : Nat) : Int)).toNat }

/-- The low `k` bits of a number in reverse order. -/
def revBits : Nat → Nat → Nat
  | 0, _ => 0
  | k + 1, n => n % 2 * 2 ^ k + revBits k (n / 2)

/-- k where LEN is 2 to the power k. -/
def AddrGen.log (g : AddrGen) : Option Nat := ((List.range 21).drop 1).find? fun k => decide (g.len = 2 ^ k)

/-- The address of the present element; none where bit-reversed addressing has no power of two. -/
def AddrGen.address (g : AddrGen) : Option Nat :=
  let e := g.size.bytes
  if !g.reversed then some ((g.base.toNat + e * g.idx) % 2 ^ 32)
  else g.log.map fun k => (g.base.toNat + e * (g.idx / 2 ^ k * 2 ^ k + revBits k (g.idx % 2 ^ k))) % 2 ^ 32

/-- The generator after an access (R385). -/
def AddrGen.accessed (g : AddrGen) (advance : Bool) : AddrGen := if advance then g.moved (sx 24 g.step) else g

/-- A field of a generator, as AGR reads it; none for the reserved numbers. -/
def AddrGen.read (g : AddrGen) (field : Nat) : Option Word :=
  match field with
  | 0 => some g.base
  | 1 => some (BitVec.ofNat 32 g.len)
  | 2 => some (BitVec.ofNat 32 g.step)
  | 3 => some (BitVec.ofNat 32 g.idx)
  | 4 => some (BitVec.ofNat 32 g.ctl)
  | _ => none

/-- A generator with a field written by AGW. -/
def AddrGen.write (g : AddrGen) (field : Nat) (v : Word) : AddrGen :=
  match field with
  | 0 => { g with base := v }
  | 1 => { g with len := bitsOf v 20 0 }
  | 2 => { g with step := bitsOf v 23 0 }
  | 3 => { g with idx := bitsOf v 23 0 % g.modulus }
  | 4 => { g with ctl := bitsOf v 2 0 }
  | _ => g

end Sys2Proof.Machine
end

