-- ==== Sys2Proof/Machine/BodkinOps.lean ====
section
/-! DEFINITION. How a Bodkin operation runs (spec/16): the stacks with their spill (R378, R379), issue and dependence (R381, R382),
exceptions (R387, R388) on a core, and the end of a pass on a parse engine (R394, R396). -/

namespace Sys2Proof.Machine

/-! ### Stacks -/

/-- An operation at work: the state it makes, and the lowest exception it has met (R387). -/
structure Work where
  s : State
  exc : Option Exc := none

/-- The operation meets an exception. -/
def Work.fail (w : Work) (e : Exc) : Work := { w with exc := Exc.lower w.exc (some e) }

/-- The operation meets an exception, if there is one. -/
def Work.need (w : Work) (e : Option Exc) : Work := { w with exc := Exc.lower w.exc e }

/-- What a spill or fill of a core's word at an address raises (R374, R375, R378, R391): stacks spill to local SRAM alone. -/
def State.spillExc (s : State) (c a : Nat) : Option Exc :=
  let k := s.core c
  if k.level ≠ .vendor ∧ s.inData k.slot a 4 = false then some { code := 2, ea := some a }
  else if a % 4 ≠ 0 then some { code := 3, ea := some a }
  else if 0x80000 ≤ a then some { code := 4, ea := some a }
  else none

/-- A spill or fill is counted (R378). -/
def State.spillCount (s : State) (c : Nat) : State := s.each (coreNums c) fun s n => s.bump (CPU_CNT_SPILL n)

/-- The spill pointer, base and limit of the operand stack or the return stack. -/
def Core.spill (k : Core) (ret : Bool) : Word × Word × Word :=
  if ret then (k.rsp, k.rspBase, k.rspLimit) else (k.sp, k.spBase, k.spLimit)

/-- A stack's entries on the core, top first. -/
def Core.entries (k : Core) (ret : Bool) : List Word := if ret then k.rstack else k.stack

/-- The core with a stack's entries and spill pointer. -/
def Core.withStack (k : Core) (ret : Bool) (l : List Word) (sp : Word) : Core :=
  if ret then { k with rstack := l, rsp := sp } else { k with stack := l, sp := sp }

/-- A pop on a core: the entry on the core, else one filled from the spill region (R378, R379). -/
def Work.popCore (w : Work) (c : Nat) (ret : Bool) : Word × Work :=
  let k := w.s.core c
  let (sp, base, _) := k.spill ret
  match k.entries ret with
  | v :: t => (v, { w with s := w.s.editCore c fun k => k.withStack ret t sp })
  | [] =>
    if base.toNat ≤ sp.toNat then (0, w.fail { code := if ret then 8 else 7 })
    else
      let bad := if w.s.localBad c sp.toNat then some { code := 4, ea := some sp.toNat } else none
      match Exc.lower (w.s.spillExc c sp.toNat) bad with
      | some e => (0, w.fail e)
      | none =>
        let v := BitVec.ofNat 32 ((w.s.localMem c).le sp.toNat 4)
        (v, { w with s := (w.s.editCore c fun k => k.withStack ret [] (sp + 4)).spillCount c })

/-- A push on a core: with 16 entries on the core the deepest is spilled first (R378, R379). -/
def Work.pushCore (w : Work) (c : Nat) (ret : Bool) (v : Word) : Work :=
  let k := w.s.core c
  let (sp, _, limit) := k.spill ret
  let l := k.entries ret
  if l.length < 16 then { w with s := w.s.editCore c fun k => k.withStack ret (v :: l) sp }
  else if sp.toNat < limit.toNat + 4 then w.fail { code := if ret then 8 else 6 }
  else match w.s.spillExc c (sp.toNat - 4) with
  | some e => w.fail e
  | none =>
    let s := w.s.setLocal c ((w.s.localMem c).setLe (sp.toNat - 4) 4 (l.getLastD 0).toNat)
    { w with s := (s.editCore c fun k => k.withStack ret (v :: l.dropLast) (sp - 4)).spillCount c }

/-- A parse engine's stack, top first (R394). -/
def PeCtx.entries (x : PeCtx) (ret : Bool) : List Word := if ret then x.rstack else x.stack

/-- A pass with a stack replaced. -/
def PeCtx.withStack (x : PeCtx) (ret : Bool) (l : List Word) : PeCtx := if ret then { x with rstack := l } else { x with stack := l }

/-- A pop on a parse engine. -/
def Work.popPe (w : Work) (n : Nat) (ret : Bool) : Word × Work :=
  match (w.s.pe n).map (·.entries ret) with
  | some (v :: t) => (v, { w with s := w.s.editPe n fun x => x.withStack ret t })
  | _ => (0, w.fail { code := if ret then 8 else 7 })

/-- A push on a parse engine: 16 operand entries, 4 return entries, no spill. -/
def Work.pushPe (w : Work) (n : Nat) (ret : Bool) (v : Word) : Work :=
  match (w.s.pe n).map (·.entries ret) with
  | some l =>
    if l.length < (if ret then 4 else 16) then { w with s := w.s.editPe n fun x => x.withStack ret (v :: l) }
    else w.fail { code := if ret then 8 else 6 }
  | none => w

/-- The engine as the cores are held: the safety pair under number 4. -/
def Engine.core? : Engine → Option Nat
  | .core c => some (coreKey c.val)
  | .pe _ => none

/-- A pop of an engine's stack. -/
def Work.pop (w : Work) (e : Engine) (ret : Bool := false) : Word × Work :=
  match e with
  | .core c => w.popCore (coreKey c.val) ret
  | .pe n => w.popPe n.val ret

/-- A push to an engine's stack. -/
def Work.push (w : Work) (e : Engine) (ret : Bool) (v : Word) : Work :=
  match e with
  | .core c => w.pushCore (coreKey c.val) ret v
  | .pe n => w.pushPe n.val ret v

/-- `n` pops, the top entry first. -/
def Work.pops (w : Work) (e : Engine) (ret : Bool) : Nat → List Word × Work
  | 0 => ([], w)
  | n + 1 =>
    let (v, w) := w.pop e ret
    let (l, w) := w.pops e ret n
    (v :: l, w)

/-- Pushes of a list whose last element ends on top. -/
def Work.pushes (w : Work) (e : Engine) (ret : Bool) : List Word → Work
  | [] => w
  | v :: t => (w.push e ret v).pushes e ret t

/-! ### Issue (R381, R382) -/

/-- Slot B, with these traits, depends on slot A (R382). -/
def depends (a b : OpTraits) : Bool :=
  (a.pushes && b.pops) || (a.ag.isSome && decide (a.ag = b.ag)) || (a.load && b.load) || (a.store && b.store) ||
    (a.store && b.load) || (a.writesR && b.readsR)

/-- The form of an operation: short, with its traits, a control operation (RET, JMPS, CALLS, BRK) or not; or long. `cycles` is what
a long one costs a parse engine (R396). -/
inductive OpForm where
  | short (t : OpTraits) (control : Bool := false)
  | long (cycles : Nat := 1)

/-- How an operation ends: it is performed, goes on at a word address or at the next operation, and has then an effect outside
the engine; it raises an exception on a state; or it has done all that is to be done. -/
inductive OpEnd where
  | done (s : State) (jump : Option Word := none) (post : State → State := id)
  | exc (s : State) (e : Exc)
  | all (s : State)

/-- An operation at work ends with its lowest exception, which has no effect on the state it began in, or is performed. -/
def Work.finish (w : Work) (s : State) (jump : Option Word := none) (post : State → State := id) : OpEnd :=
  match w.exc with
  | some e => .exc s e
  | none => .done w.s jump post

/-! ### Cores -/

/-- What the fetch of a core's next word raises (R374, R387, R391); an instruction has no data address. -/
def State.fetchExc (s : State) (c : Nat) : Option Exc :=
  let k := s.core c
  let a := k.pc.toNat * 4
  if k.level ≠ .vendor ∧ s.inCode k.slot a 4 = false then some { code := 2 }
  else match placeOf k.dwin a with
    | .none => some { code := 4 }
    | .sram o => if s.localBad c o then some { code := 4 } else none
    | .shared o => if s.sharedBad o 4 then some { code := 4 } else none
    | .dram d => if 0x1C7000000 ≤ d || !s.dramUp then some { code := 4 } else none
    | .csr _ => none

/-- The core goes on after an operation: to slot B, or to the next word or the jump's target; a dependent pair stalls (R382). -/
def State.coreNext (s : State) (c : Nat) (form : OpForm) (jump : Option Word) : State :=
  let k := s.core c
  let word (s : State) : State :=
    s.editCore c fun k => { k with pc := jump.getD (k.pc + 1), slotA := none }
  match form with
  | .long _ => word s
  | .short t _ =>
    match k.slotA with
    | none => s.editCore c fun k => { k with slotA := some t }
    | some a => (word s).when (depends a t) fun s => s.each (coreNums c) fun s n => s.bump (CPU_CNT_PAIR_STALL n)

/-- A core executes: it runs, or it ends the word that its halt found it in (`CPU_CTL.RUN`); and no load holds it (R401). -/
def State.coreAble (s : State) (c : Nat) : Bool :=
  !(s.core c).waiting && (s.coreRuns c || ((s.core c).slotA.isSome && !s.unitDark .cpu))

/-- An operation on a core. One of a long word in the place of slot B is none. -/
def State.coreOp (s : State) (c : Nat) (form : OpForm) (f : State → OpEnd) : State :=
  let inB := (s.core c).slotA.isSome
  let raise (s : State) (e : Exc) : State := s.coreRaise c e.code e.ea
  let run (s : State) : State :=
    match f s with
    | .done t jump post => post (t.coreNext c form jump)
    | .exc t e => raise t e
    | .all t => t
  if !s.coreAble c then s
  else
    let s := if c < 4 then s.demand .cpu else s
    match form, inB with
    | .long _, true => s
    | .short _ true, false => match s.fetchExc c with
      | some e => raise s e
      | none => raise s { code := 0 }
    | _, true => run s
    | _, false => match s.fetchExc c with
      | some e => raise s e
      | none => run s

/-! ### Parse engines (R394, R396) -/

/-- An operation that a core would raise an exception for ends the pass (R394). -/
def State.peFault (s : State) (n cause : Nat) : State :=
  let pc := match s.pe n with | some x => x.pc | none => 0
  (s.ev .par Ev.PAR_PROG_FAULT [cause, pc]).passMal n 6

/-- Cycles that an operation costs a parse engine; slot B of a paired word costs one only where it depends on slot A (R382, R396). -/
def OpForm.cost (form : OpForm) (slotA : Option OpTraits) : Nat :=
  match form, slotA with
  | .long n, _ => n
  | .short t _, some a => (depends a t).toNat
  | .short _ _, none => 1

/-- The engine goes on after an operation; a word that ends with the 512th cycle ends the pass (R114). -/
def State.peNext (s : State) (n : Nat) (form : OpForm) (jump : Option Word) : State :=
  match s.pe n with
  | none => s
  | some x =>
    if x.final.isSome then s
    else
      let word (s : State) : State :=
        let s := s.editPe n fun x => { x with pc := (jump.map (·.toNat)).getD (x.pc + 1), slotA := none }
        if 512 ≤ x.cycles then s.passMal n 6 else s
      match form, x.slotA with
      | .short t _, none => s.editPe n fun x => { x with slotA := some t }
      | _, _ => word s

/-- An operation on a parse engine whose pass runs. -/
def State.peOp (s : State) (n : Nat) (form : OpForm) (f : State → OpEnd) : State :=
  match s.pe n with
  | none => s
  | some x =>
    let cost := form.cost x.slotA
    let run (s : State) : State :=
      if 512 < x.cycles + cost then s.passMal n 6
      else
        let s := s.editPe n fun x => { x with cycles := x.cycles + cost }
        match f s with
        | .done t jump post => post (t.peNext n form jump)
        | .exc t e => t.peFault n e.code
        | .all t => t
    if x.final.isSome then s
    else match form, x.slotA with
    | .long _, some _ => s
    | .short _ true, none => s.peFault n 0
    | _, _ => run s

/-- An operation that every engine has. -/
def State.engineOp (s : State) (e : Engine) (form : OpForm) (f : State → OpEnd) : State :=
  match e with
  | .core c => s.coreOp (coreKey c.val) form f
  | .pe n => s.datapath .par fun s => s.peOp n.val form f

/-- An operation of the cores alone: ILLEGAL on a parse engine (R394). -/
def State.coreOnly (s : State) (e : Engine) (form : OpForm) (f : Nat → State → OpEnd) : State :=
  s.engineOp e form fun s => match e with
    | .core c => f (coreKey c.val) s
    | .pe _ => .exc s { code := 0 }

/-- An operation of the parse engines alone: ILLEGAL on a core (R384). -/
def State.peOnly (s : State) (e : Engine) (cycles : Nat) (f : Nat → PeCtx → State → OpEnd) : State :=
  s.engineOp e (.long cycles) fun s => match e with
    | .core _ => .exc s { code := 0 }
    | .pe n => match s.pe n.val with
      | some x => f n.val x s
      | none => .all s

/-! ### Stack operations -/

/-- An operation that takes `n` entries off the operand stack, top first, and pushes what it makes of them, the last on top. -/
def stackWork (e : Engine) (n : Nat) (f : List Word → List Word) (s : State) : Work :=
  let (l, w) := ({ s := s } : Work).pops e false n
  w.pushes e false (f l)

/-- A short stack operation; `pops` and `pushes` are by its stack effect in R383. -/
def State.stackShort (s : State) (e : Engine) (n : Nat) (f : List Word → List Word) (pops pushes : Bool) : State :=
  s.engineOp e (.short { pops := pops, pushes := pushes }) fun s => (stackWork e n f s).finish s

/-- A short operation of one entry. -/
def State.unary (s : State) (e : Engine) (f : Word → Word) : State :=
  s.stackShort e 1 (fun l => match l with | [a] => [f a] | _ => []) true true

/-- A short operation of two entries, `b` on top. -/
def State.binary (s : State) (e : Engine) (f : (a b : Word) → Word) : State :=
  s.stackShort e 2 (fun l => match l with | [b, a] => [f a b] | _ => []) true true

/-- A long operation of one entry and an immediate. -/
def State.immediate (s : State) (e : Engine) (f : Word → Word) : State :=
  s.engineOp e (.long) fun s => (stackWork e 1 (fun l => match l with | [a] => [f a] | _ => []) s).finish s

/-- The address of the next word. -/
def State.nextWord (s : State) (e : Engine) : Word :=
  match e with
  | .core c => (s.core (coreKey c.val)).pc + 1
  | .pe n => match s.pe n.val with | some x => BitVec.ofNat 32 (x.pc + 1) | none => 0

/-- The target of a branch or call: an offset in words from the next word (R384). -/
def State.target (s : State) (e : Engine) (offset : BitVec 20) : Word := s.nextWord e + offset.signExtend 32

end Sys2Proof.Machine
end

