-- ==== Sys2Proof/Machine/Bodkin.lean ====
section
/-! DEFINITION. Bodkin (spec/16): the operations of R383 and R384, interrupts, program slots and the safety pair. -/

namespace Sys2Proof.Machine

/-! ### Stack operations (R383) -/

/-- NOP. -/
def execNop (engine : Engine) (s : State) : Host.Outcome State Fault Refusal :=
  .next (s.stackShort engine 0 (fun _ => []) false false)

/-- PUSHS: arg9 sign-extended. -/
def execPushs (engine : Engine) (value : BitVec 9) (s : State) : Host.Outcome State Fault Refusal :=
  .next (s.stackShort engine 0 (fun _ => [value.signExtend 32]) false true)

/-- DUP. -/
def execDup (engine : Engine) (s : State) : Host.Outcome State Fault Refusal :=
  .next (s.stackShort engine 1 (fun l => match l with | [a] => [a, a] | _ => []) true true)

/-- DROP. -/
def execDrop (engine : Engine) (s : State) : Host.Outcome State Fault Refusal :=
  .next (s.stackShort engine 1 (fun _ => []) true false)

/-- SWAP. -/
def execSwap (engine : Engine) (s : State) : Host.Outcome State Fault Refusal :=
  .next (s.stackShort engine 2 (fun l => match l with | [b, a] => [b, a] | _ => []) true true)

/-- OVER. -/
def execOver (engine : Engine) (s : State) : Host.Outcome State Fault Refusal :=
  .next (s.stackShort engine 2 (fun l => match l with | [b, a] => [a, b, a] | _ => []) true true)

/-- ROT. -/
def execRot (engine : Engine) (s : State) : Host.Outcome State Fault Refusal :=
  .next (s.stackShort engine 3 (fun l => match l with | [c, b, a] => [b, c, a] | _ => []) true true)

/-- PICK: entry `entry`, counted from the top, is copied to the top; it pops nothing. -/
def execPick (engine : Engine) (entry : BitVec 4) (s : State) : Host.Outcome State Fault Refusal :=
  .next (s.stackShort engine (entry.toNat + 1) (fun l => l.reverse ++ [l.getLastD 0]) false true)

/-- ADD. -/
def execAdd (engine : Engine) (s : State) : Host.Outcome State Fault Refusal := .next (s.binary engine fun a b => a + b)

/-- SUB. -/
def execSub (engine : Engine) (s : State) : Host.Outcome State Fault Refusal := .next (s.binary engine fun a b => a - b)

/-- AND. -/
def execAnd (engine : Engine) (s : State) : Host.Outcome State Fault Refusal := .next (s.binary engine fun a b => a &&& b)

/-- OR. -/
def execOr (engine : Engine) (s : State) : Host.Outcome State Fault Refusal := .next (s.binary engine fun a b => a ||| b)

/-- XOR. -/
def execXor (engine : Engine) (s : State) : Host.Outcome State Fault Refusal := .next (s.binary engine fun a b => a ^^^ b)

/-- NOT. -/
def execNot (engine : Engine) (s : State) : Host.Outcome State Fault Refusal := .next (s.unary engine fun a => ~~~a)

/-- NEG. -/
def execNeg (engine : Engine) (s : State) : Host.Outcome State Fault Refusal := .next (s.unary engine fun a => -a)

/-- A shift: by the argument, or by the low five bits of a popped entry. -/
def State.shift (s : State) (e : Engine) (popped : Bool) (count : BitVec 5) (f : Word → Nat → Word) : State :=
  if popped then s.binary e fun a n => f a (n.toNat % 32) else s.unary e fun a => f a count.toNat

/-- SHL. -/
def execShl (engine : Engine) (popped : Bool) (count : BitVec 5) (s : State) : Host.Outcome State Fault Refusal :=
  .next (s.shift engine popped count fun a n => a <<< n)

/-- SHR. -/
def execShr (engine : Engine) (popped : Bool) (count : BitVec 5) (s : State) : Host.Outcome State Fault Refusal :=
  .next (s.shift engine popped count fun a n => a >>> n)

/-- SAR. -/
def execSar (engine : Engine) (popped : Bool) (count : BitVec 5) (s : State) : Host.Outcome State Fault Refusal :=
  .next (s.shift engine popped count fun a n => a.sshiftRight n)

/-- MUL. -/
def execMul (engine : Engine) (s : State) : Host.Outcome State Fault Refusal := .next (s.binary engine fun a b => a * b)

/-- MULHU. -/
def execMulhu (engine : Engine) (s : State) : Host.Outcome State Fault Refusal :=
  .next (s.binary engine fun a b => BitVec.ofNat 32 (a.toNat * b.toNat / 2 ^ 32))

/-- MULHS. -/
def execMulhs (engine : Engine) (s : State) : Host.Outcome State Fault Refusal :=
  .next (s.binary engine fun a b => BitVec.ofInt 32 (a.toInt * b.toInt / 2 ^ 32))

/-- EQ. -/
def execEq (engine : Engine) (s : State) : Host.Outcome State Fault Refusal :=
  .next (s.binary engine fun a b => truth (decide (a = b)))

/-- LT. -/
def execLt (engine : Engine) (s : State) : Host.Outcome State Fault Refusal := .next (s.binary engine fun a b => truth (lessS a b))

/-- LTU. -/
def execLtu (engine : Engine) (s : State) : Host.Outcome State Fault Refusal := .next (s.binary engine fun a b => truth (lessU a b))

/-- SEL. -/
def execSel (engine : Engine) (s : State) : Host.Outcome State Fault Refusal :=
  .next (s.stackShort engine 3 (fun l => match l with | [b, a, c] => [if isZero c then b else a] | _ => []) true true)

/-! ### Loads and stores (R375, R383 to R386) -/

/-- A load of `n` bytes at an address, where `commit` is what the operation does with the value. A stalled load's value is
awaited (R401). -/
def State.loadEnd (s : State) (c n a : Nat) (upset : List Upset) (commit : State → Word → Work) : OpEnd :=
  match Exc.lower (s.accessExc c false a n) (commit s 0).exc with
  | some e => .exc (s.when (decide (e.code = 4)) (·.accessLog c a)) e
  | none => match s.coreLoad c a n upset with
    | (t, .exc e) => .exc t e
    | (t, .value v) => (commit t (BitVec.ofNat 32 v)).finish t
    | (t, .stall) => (commit t 0).finish t none (·.editCore c fun k => { k with waiting := true })

/-- A store of `n` bytes at an address, `w` being the operation so far. A CSR write that R17 denies raises PRIV (R387). -/
def State.storeEnd (s : State) (c n a : Nat) (v : Word) (w : Work) : OpEnd :=
  match Exc.lower (s.accessExc c true a n) w.exc with
  | some e => .exc (s.when (decide (e.code = 4)) (·.accessLog c a)) e
  | none => match placeOf (s.core c).dwin a with
    | .csr x =>
      let req : Req := { path := .core (Fin.ofNat 6 c), level := (s.core c).level }
      if s.csrDenies req x v then .all (s.denied ((unitAt x).getD .top) req x) else .done w.s none (·.csrWrite req x v)
    | _ => .done (w.s.coreStore c a n v.toNat)

/-- LD and LDO: at a popped address plus an offset. -/
def State.loadPopped (s : State) (e : Engine) (form : OpForm) (size : MemSize) (offset : Word) (upset : List Upset) : State :=
  s.coreOnly e form fun c s =>
    let (a, w) := ({ s := s } : Work).pop e
    match w.exc with
    | some x => .exc s x
    | none => s.loadEnd c size.bytes (a + offset).toNat upset fun t v => (({ s := t } : Work).pop e).2.push e false v

/-- ST and STO: at a popped address plus an offset, the value below it. -/
def State.storePopped (s : State) (e : Engine) (form : OpForm) (size : MemSize) (offset : Word) : State :=
  s.coreOnly e form fun c s =>
    let (a, w) := ({ s := s } : Work).pop e
    match w.exc with
    | some x => .exc s x
    | none =>
      let (v, w) := w.pop e
      s.storeEnd c size.bytes (a + offset).toNat v w

/-- LD. -/
def execLd (engine : Engine) (size : MemSize) (upset : List Upset) (s : State) : Host.Outcome State Fault Refusal :=
  .next (s.loadPopped engine (.short { pops := true, pushes := true, load := true }) size 0 upset)

/-- ST. -/
def execSt (engine : Engine) (size : MemSize) (s : State) : Host.Outcome State Fault Refusal :=
  .next (s.storePopped engine (.short { pops := true, store := true }) size 0)

/-- LDO. -/
def execLdo (engine : Engine) (size : MemSize) (offset : BitVec 20) (upset : List Upset) (s : State) :
    Host.Outcome State Fault Refusal :=
  .next (s.loadPopped engine .long size (offset.signExtend 32) upset)

/-- STO. -/
def execSto (engine : Engine) (size : MemSize) (offset : BitVec 20) (s : State) : Host.Outcome State Fault Refusal :=
  .next (s.storePopped engine .long size (offset.signExtend 32))

/-- The core with a generator changed. -/
def State.editAg (s : State) (c g : Nat) (f : AddrGen → AddrGen) : State :=
  s.editCore c fun k => { k with ags := k.ags.put g (f (k.ag g)) }

/-- LDA. -/
def execLda (engine : Engine) (ag : BitVec 3) (advance : Bool) (upset : List Upset) (s : State) :
    Host.Outcome State Fault Refusal :=
  .next <| s.coreOnly engine (.short { pushes := true, ag := some ag.toNat, load := true }) fun c s =>
    let g := (s.core c).ag ag.toNat
    let commit (t : State) (v : Word) : Work :=
      ({ s := t.editAg c ag.toNat (·.accessed advance) } : Work).push engine false v
    match g.address with
    | none => ((commit s 0).fail { code := 5 }).finish s
    | some a => s.loadEnd c g.size.bytes a upset commit

/-- STA. -/
def execSta (engine : Engine) (ag : BitVec 3) (advance : Bool) (s : State) : Host.Outcome State Fault Refusal :=
  .next <| s.coreOnly engine (.short { pops := true, ag := some ag.toNat, store := true }) fun c s =>
    let g := (s.core c).ag ag.toNat
    let (v, w) := ({ s := s } : Work).pop engine
    let w := { w with s := w.s.editAg c ag.toNat (·.accessed advance) }
    match g.address with
    | none => (w.fail { code := 5 }).finish s
    | some a => s.storeEnd c g.size.bytes a v w

/-! ### Return stack and control (R379, R382, R383) -/

/-- TO_R (>R). -/
def execToR (engine : Engine) (s : State) : Host.Outcome State Fault Refusal :=
  .next <| s.engineOp engine (.short { pops := true, writesR := true }) fun s =>
    let (v, w) := ({ s := s } : Work).pop engine
    (w.push engine true v).finish s

/-- R_FROM (R>). -/
def execRFrom (engine : Engine) (s : State) : Host.Outcome State Fault Refusal :=
  .next <| s.engineOp engine (.short { pushes := true, readsR := true }) fun s =>
    let (v, w) := ({ s := s } : Work).pop engine true
    (w.push engine false v).finish s

/-- R_FETCH (R@). -/
def execRFetch (engine : Engine) (s : State) : Host.Outcome State Fault Refusal :=
  .next <| s.engineOp engine (.short { pushes := true, readsR := true }) fun s =>
    let (v, w) := ({ s := s } : Work).pop engine true
    ((w.push engine true v).push engine false v).finish s

/-- RET. -/
def execRet (engine : Engine) (s : State) : Host.Outcome State Fault Refusal :=
  .next <| s.engineOp engine (.short { readsR := true } true) fun s =>
    let (v, w) := ({ s := s } : Work).pop engine true
    w.finish s (some v)

/-- JMPS. -/
def execJmps (engine : Engine) (s : State) : Host.Outcome State Fault Refusal :=
  .next <| s.engineOp engine (.short { pops := true } true) fun s =>
    let (v, w) := ({ s := s } : Work).pop engine
    w.finish s (some v)

/-- CALLS. -/
def execCalls (engine : Engine) (s : State) : Host.Outcome State Fault Refusal :=
  .next <| s.engineOp engine (.short { pops := true, writesR := true } true) fun s =>
    let (v, w) := ({ s := s } : Work).pop engine
    (w.push engine true (s.nextWord engine)).finish s (some v)

/-- FENCE: every earlier access of the core has been performed, since the model performs each at once. -/
def execFence (engine : Engine) (s : State) : Host.Outcome State Fault Refusal :=
  .next (s.coreOnly engine (.short {}) fun _ s => .done s)

/-- BRK. -/
def execBrk (engine : Engine) (s : State) : Host.Outcome State Fault Refusal :=
  .next (s.engineOp engine (.short {} true) fun s => .exc s { code := 11 })

/-! ### Long operations (R384) -/

/-- PUSH 0. -/
def execPush (engine : Engine) (imm : BitVec 20) (s : State) : Host.Outcome State Fault Refusal :=
  .next (s.engineOp engine .long fun s => (stackWork engine 0 (fun _ => [imm.signExtend 32]) s).finish s)

/-- PUSH 1. -/
def execPushUpper (engine : Engine) (imm : BitVec 20) (s : State) : Host.Outcome State Fault Refusal :=
  .next (s.engineOp engine .long fun s => (stackWork engine 0 (fun _ => [imm.zeroExtend 32 <<< 12]) s).finish s)

/-- ADDI. -/
def execAddi (engine : Engine) (imm : BitVec 20) (s : State) : Host.Outcome State Fault Refusal :=
  .next (s.immediate engine fun a => a + imm.signExtend 32)

/-- ANDI. -/
def execAndi (engine : Engine) (imm : BitVec 20) (s : State) : Host.Outcome State Fault Refusal :=
  .next (s.immediate engine fun a => a &&& imm.signExtend 32)

/-- ORI. -/
def execOri (engine : Engine) (imm : BitVec 20) (s : State) : Host.Outcome State Fault Refusal :=
  .next (s.immediate engine fun a => a ||| imm.zeroExtend 32)

/-- XORI. -/
def execXori (engine : Engine) (imm : BitVec 20) (s : State) : Host.Outcome State Fault Refusal :=
  .next (s.immediate engine fun a => a ^^^ imm.zeroExtend 32)

/-- EQI. -/
def execEqi (engine : Engine) (imm : BitVec 20) (s : State) : Host.Outcome State Fault Refusal :=
  .next (s.immediate engine fun a => truth (decide (a = imm.signExtend 32)))

/-- LTI. -/
def execLti (engine : Engine) (imm : BitVec 20) (s : State) : Host.Outcome State Fault Refusal :=
  .next (s.immediate engine fun a => truth (lessS a (imm.signExtend 32)))

/-- LTUI. -/
def execLtui (engine : Engine) (imm : BitVec 20) (s : State) : Host.Outcome State Fault Refusal :=
  .next (s.immediate engine fun a => truth (lessU a (imm.zeroExtend 32)))

/-- BR 0. -/
def execBrAlways (engine : Engine) (offset : BitVec 20) (s : State) : Host.Outcome State Fault Refusal :=
  .next (s.engineOp engine .long fun s => .done s (some (s.target engine offset)))

/-- A branch on a popped condition. -/
def State.branch (s : State) (e : Engine) (offset : BitVec 20) (taken : Word → Bool) : State :=
  s.engineOp e .long fun s =>
    let (v, w) := ({ s := s } : Work).pop e
    w.finish s (if taken v then some (s.target e offset) else none)

/-- BR 1. -/
def execBrZero (engine : Engine) (offset : BitVec 20) (s : State) : Host.Outcome State Fault Refusal :=
  .next (s.branch engine offset isZero)

/-- BR 2. -/
def execBrNonzero (engine : Engine) (offset : BitVec 20) (s : State) : Host.Outcome State Fault Refusal :=
  .next (s.branch engine offset fun v => !isZero v)

/-- CALL. -/
def execCall (engine : Engine) (offset : BitVec 20) (s : State) : Host.Outcome State Fault Refusal :=
  .next <| s.engineOp engine .long fun s =>
    (({ s := s } : Work).push engine true (s.nextWord engine)).finish s (some (s.target engine offset))

/-- AGW: the reserved field numbers raise ILLEGAL (R385). -/
def execAgw (engine : Engine) (ag field : BitVec 3) (s : State) : Host.Outcome State Fault Refusal :=
  .next <| s.coreOnly engine .long fun c s =>
    let (v, w) := ({ s := s } : Work).pop engine
    let w := { w with s := w.s.editAg c ag.toNat (·.write field.toNat v) }
    (if 5 ≤ field.toNat then w.fail { code := 0 } else w).finish s

/-- AGR. -/
def execAgr (engine : Engine) (ag field : BitVec 3) (s : State) : Host.Outcome State Fault Refusal :=
  .next <| s.coreOnly engine .long fun c s =>
    match ((s.core c).ag ag.toNat).read field.toNat with
    | some v => (({ s := s } : Work).push engine false v).finish s
    | none => .exc s { code := 0 }

/-- AGADD. -/
def execAgadd (engine : Engine) (ag : BitVec 3) (imm : BitVec 20) (s : State) : Host.Outcome State Fault Refusal :=
  .next (s.coreOnly engine .long fun c s => .done (s.editAg c ag.toNat (·.moved imm.toInt)))

/-! ### Atomic operations (R377) -/

/-- What an atomic operation raises for its address: PROT, ALIGN, MEM outside the shared SRAM. -/
def State.atomicExc (s : State) (c a : Nat) : Option Exc :=
  let k := s.core c
  if s.slotProtects k true a 4 then some { code := 2, ea := some a }
  else if a % 4 ≠ 0 then some { code := 3, ea := some a }
  else match placeOf k.dwin a with
    | .shared _ => none
    | _ => some { code := 4, ea := some a }

/-- An atomic operation: the address on top of `n` other entries, of which and of the old word `f` makes the new one. -/
def State.atomic (s : State) (e : Engine) (n : Nat) (upset : List Upset) (f : List Word → Word → Word) : State :=
  s.coreOnly e .long fun c s =>
    let (a, w) := ({ s := s } : Work).pop e
    match w.exc with
    | some x => .exc s x
    | none =>
      let a := a.toNat
      match Exc.lower (s.atomicExc c a) (w.pops e false n).2.exc with
      | some x => .exc (s.when (decide (x.code = 4)) (·.accessLog c a)) x
      | none =>
        let o := a - 0x20000000
        match s.cpuWord (.cpu, 1, o / 32) upset with
        | (t, true) => .exc t { code := 4, ea := some a }
        | (t, false) =>
          let old := BitVec.ofNat 32 (t.shared.le o 4)
          let (l, w) := (({ s := t } : Work).pop e).2.pops e false n
          let w := w.push e false old
          .done (w.s.sharedPut o (natLe 4 (f l old).toNat))

/-- AMOADD. -/
def execAmoadd (engine : Engine) (upset : List Upset) (s : State) : Host.Outcome State Fault Refusal :=
  .next (s.atomic engine 1 upset fun l old => match l with | [v] => old + v | _ => old)

/-- AMOSWAP. -/
def execAmoswap (engine : Engine) (upset : List Upset) (s : State) : Host.Outcome State Fault Refusal :=
  .next (s.atomic engine 1 upset fun l old => match l with | [v] => v | _ => old)

/-- AMOCAS: the new value on top of the expected one. -/
def execAmocas (engine : Engine) (upset : List Upset) (s : State) : Host.Outcome State Fault Refusal :=
  .next (s.atomic engine 2 upset fun l old => match l with | [new, expected] => if old = expected then new else old | _ => old)

/-! ### Special registers (R380) -/

/-- MODE. -/
def Core.mode (k : Core) : Word := BitVec.ofNat 32 (levelNum k.level + k.slot % 16 * 2 ^ 4 + k.exc.toNat * 2 ^ 8)

/-- The special register `r` of a core that a row names as `number`; CYCLE is free. -/
def State.special (s : State) (c number r : Nat) : Word :=
  let k := s.core c
  match r with
  | 0 => k.sp | 1 => k.spBase | 2 => k.spLimit | 3 => k.rsp | 4 => k.rspBase | 5 => k.rspLimit | 6 => k.dwin
  | 7 => BitVec.ofNat 32 k.stack.length + (k.spBase - k.sp) / 4
  | 8 => k.mode | 9 => k.epc | 10 => k.ecause | 11 => k.eaddr | 12 => k.irqEn
  | 13 => s.irqPend c
  | 14 => BitVec.ofNat 32 (s.free .cycle)
  | _ => BitVec.ofNat 32 number

/-- SRR. -/
def execSrr (engine : Engine) (reg : BitVec 4) (s : State) : Host.Outcome State Fault Refusal :=
  .next <| s.coreOnly engine .long fun c s =>
    let number := match engine with | .core n => n.val | .pe _ => 0
    let t := if reg = 14 then s.drawn else s
    (({ s := t } : Work).push engine false (s.special c number reg.toNat)).finish s

/-- What a write of a special register raises for its number and the mode (R380). -/
def srwExc (level : Level) (r : Nat) : Option Exc :=
  if r = 7 ∨ 13 ≤ r then some { code := 0 }
  else if level ≠ .vendor ∧ !([0, 3, 6].contains r) then some { code := 1 }
  else none

/-- A word address of a spill region. -/
def wordAligned (v : Word) : Word := v &&& 0xFFFFFFFC#32

/-- A core with a special register written; reserved bits stay 0. -/
def Core.setSpecial (k : Core) (r : Nat) (v : Word) : Core :=
  match r with
  | 0 => { k with sp := v }
  | 1 => { k with spBase := wordAligned v }
  | 2 => { k with spLimit := wordAligned v }
  | 3 => { k with rsp := v }
  | 4 => { k with rspBase := wordAligned v }
  | 5 => { k with rspLimit := wordAligned v }
  | 6 => { k with dwin := v &&& 0x1FFF#32 }
  | 8 => { k with level := levelOf (bitsOf v 1 0), slot := bitsOf v 7 4, exc := v.getLsbD 8 }
  | 9 => { k with epc := v }
  | 10 => { k with ecause := v &&& 0x80000FFF#32 }
  | 11 => { k with eaddr := v }
  | 12 => { k with irqEn := v }
  | _ => k

/-- SRW. -/
def execSrw (engine : Engine) (reg : BitVec 4) (s : State) : Host.Outcome State Fault Refusal :=
  .next <| s.coreOnly engine .long fun c s =>
    let (v, w) := ({ s := s } : Work).pop engine
    let w := { w with s := w.s.editCore c (·.setSpecial reg.toNat v) }
    (w.need (srwExc (s.core c).level reg.toNat)).finish s

/-! ### Exceptions and interrupts (R387 to R392) -/

/-- SYS. -/
def execSys (engine : Engine) (imm : BitVec 20) (s : State) : Host.Outcome State Fault Refusal :=
  .next (s.coreOnly engine .long fun _ s => .exc s { code := 10, ea := some imm.toNat })

/-- RETX (R388): EXC is cleared, level and slot are restored from ECAUSE, and the core goes on at EPC, at slot B if SLOT is 1. -/
def execRetx (engine : Engine) (s : State) : Host.Outcome State Fault Refusal :=
  .next <| s.coreOnly engine .long fun c s =>
    if (s.core c).level ≠ .vendor then .exc s { code := 1 }
    else .all <| s.editCore c fun k =>
      { k with
        exc := false
        level := levelOf (bitsOf k.ecause 7 6)
        slot := bitsOf k.ecause 11 8
        pc := k.epc
        slotA := if k.ecause.getLsbD 5 then some {} else none }

/-- INTERRUPT_ENTRY (R390): between two words, while EXC is 0, the core pushes the return address (R379) and goes to
`CPU_VBASE` + 0x200. The cause bits of ECAUSE, EADDR, and which of sources 0 to 10 stay pending are free. -/
def State.interruptEntry (s : State) (c : Nat) : State :=
  let k := s.core c
  if !s.coreAble c || k.slotA.isSome || k.exc || !s.irqReady c then s
  else
    let s := s.demand .cpu
    let w := ({ s := s } : Work).pushCore c true k.pc
    match w.exc with
    | some e => s.coreRaise c e.code e.ea
    | none =>
      let s := w.s
      let taken := (s.core c).pend &&& (s.core c).irqEn
      let cause := s.free .irqCode % 32
      let s := s.drawn
      let ea := BitVec.ofNat 32 (s.free .eaddr)
      let s := s.drawn
      let stay := BitVec.ofNat 32 (s.free .irqAck)
      let s := s.drawn
      let s := (s.coreEnter c (2 ^ 31 + cause) ea 0x200).set (CPU_CORE_EPC_EPC c) k.pc.toNat
      s.editCore c fun k => { k with pend := (k.pend &&& ~~~taken) ||| (taken &&& stay) }

/-- INTERRUPT_ENTRY. -/
def execInterruptEntry (core : Fin 4) (s : State) : Host.Outcome State Fault Refusal := .next (s.interruptEntry core.val)

/-- CORE_RUN (R389): a write of `CPU_CTL.RUN`. -/
def execCoreRun (req : Req) (run : BitVec 4) (s : State) : Host.Outcome State Fault Refusal :=
  .next (s.csrWrite req CPU_CTL_RUN.addr (run.zeroExtend 32))

/-- SWI_SET (R390): a write of `CPU_SWI`. -/
def execSwiSet (req : Req) (cores : BitVec 4) (s : State) : Host.Outcome State Fault Refusal :=
  .next (s.csrWrite req CPU_SWI_SET.addr (cores.zeroExtend 32))

/-- SLOT_BUDGET_EXPIRE (R392): the slot that the core runs has a nonzero BUDGET, which is spent. -/
def execSlotBudgetExpire (core : Fin 4) (s : State) : Host.Outcome State Fault Refusal :=
  .next <|
    let c := core.val
    let k := s.core c
    if !s.coreAble c || decide (k.level = .vendor) || decide (s.f (CPU_SLOT_CTL_BUDGET k.slot) = 0) then s
    else s.coreRaise c 9 none

/-- LOCKSTEP_DIFFERENCE (R393): both safety cores halt, and Assay is told (R417). -/
def execLockstepDifference (s : State) : Host.Outcome State Fault Refusal :=
  .next <|
    if !s.coreRuns 4 then s
    else ((s.coreHalt 4).editCore 4 fun k => { k with slotA := none }).asyFault .lockstep .assay

/-- PWR_WAIT_RELEASE (R401): an enabled interrupt is pending, and the core's load of `PWR_WAIT` returns IRQ_PEND. -/
def execPwrWaitRelease (core : Fin 4) (s : State) : Host.Outcome State Fault Refusal :=
  .next <|
    let c := core.val
    if !(s.core c).waiting || !s.irqReady c then s
    else (s.demand .cpu).editCore c fun k => { k with waiting := false, stack := s.irqPend c :: k.stack.tail }

/-- ILLEGAL (R387, R394): a reserved word or operation. -/
def execIllegal (engine : Engine) (s : State) : Host.Outcome State Fault Refusal :=
  .next <| s.engineOp engine (.short {}) fun s => .exc s { code := 0 }

end Sys2Proof.Machine
end

