-- ==== Sys2Proof/Machine/BodkinP.lean ====
section
/-! DEFINITION. Bodkin-P (R394 to R397): the operations of the parse engines alone. -/

namespace Sys2Proof.Machine

/-- The pass ends with a malformed class (R113, R114, R123). -/
def State.passEnds (s : State) (n cls : Nat) : OpEnd := .all (s.passMal n cls)

/-- What stands against a window access of `n` bytes at an offset (R113): DEPTH past the window, which wins; TRUNCATED past the
packet. -/
def windowEnd (p : Packet) (off n : Nat) : Option Nat :=
  if 384 < off + n then some 1 else if p.data.length < p.start + off + n then some 0 else none

/-- A word found poisoned during the pass: the packet goes on with the action FORWARD and no flow parameters (R107, R115). -/
def State.passPoisoned (s : State) (n id : Nat) : State :=
  (s.peFree n).verdictOr id none

/-- The packet of a pass is gone with its header slot or a link entry (R108): the engine is free and the packet's reference
released (R131). -/
def State.passGone (s : State) (n : Nat) (p : Packet) : State :=
  ((s.peFree n).with? p.edition State.edRelease).parDrain

/-- A window access goes on with the bytes of the packet words that it reads (R105), unless R113 or what it reads ends the pass. -/
def State.window (s : State) (n : Nat) (x : PeCtx) (off len : Nat) (errs : List WordErr) (f : State → List Byte → OpEnd) : OpEnd :=
  match s.pkt x.pkt with
  | none => .all s
  | some p => match windowEnd p off len with
    | some cls => s.passEnds n cls
    | none =>
      let first := p.start + off
      match s.pktScan x.pkt { p with poison := false } (wordsIn (first / 32 + 1) ((first + len - 1) / 32 + 1) errs) with
      | (t, none) => .all (t.passGone n p)
      | (t, some k) => if k.poison then .all (t.passPoisoned n x.pkt) else f t ((k.data.drop first).take len)

/-- WLD. -/
def execWld (engine : Engine) (size : BitVec 2) (popped : Bool) (offset : BitVec 9) (errs : List WordErr) (s : State) :
    Host.Outcome State Fault Refusal :=
  .next <| s.peOnly engine 2 fun n x s =>
    let len := 2 ^ size.toNat
    let take (s : State) : Word × Work := if popped then ({ s := s } : Work).pop engine else (0, { s := s })
    let (d, w) := take s
    match w.exc with
    | some e => .exc s e
    | none => s.window n x (offset.toNat + d.toNat) len errs fun t l =>
      let v := beNat l
      let words := if len = 8 then [BitVec.ofNat 32 (v / 2 ^ 32), BitVec.ofNat 32 v] else [BitVec.ofNat 32 v]
      ((take t).2.pushes engine false words).finish t

/-- MLD reads the header slot (R105, R108): size 3 and a read past byte 31 are ILLEGAL. -/
def execMld (engine : Engine) (size : BitVec 2) (byte : BitVec 5) (err : ReadErr) (s : State) : Host.Outcome State Fault Refusal :=
  .next <| s.peOnly engine 2 fun n x s =>
    let len := 2 ^ size.toNat
    match s.pkt x.pkt with
    | none => .all s
    | some p => match s.headerRead x.pkt err with
      | (t, false) => .all (t.passGone n p)
      | (t, true) =>
        let v := leNat ((t.pkb.readWord.drop byte.toNat).take len)
        let w := ({ s := t } : Work).push engine false (BitVec.ofNat 32 v)
        (if size = 3 ∨ 32 < byte.toNat + len then w.fail { code := 0 } else w).finish t

/-- BEXT: `len` is the length less one. -/
def execBext (engine : Engine) (pos len : BitVec 5) (s : State) : Host.Outcome State Fault Refusal :=
  .next <| s.peOnly engine 1 fun _ _ s =>
    (stackWork engine 1 (fun l => match l with
      | [v] => [BitVec.ofNat 32 (v.toNat / 2 ^ pos.toNat % 2 ^ (len.toNat + 1))]
      | _ => []) s).finish s

/-- The layer type codes that are not reserved (R397). -/
def layerCode (c : Nat) : Bool :=
  decide (0x80 ≤ c) || [0x01, 0x02, 0x03, 0x10, 0x11, 0x12, 0x13, 0x20, 0x21, 0x22, 0x23, 0x30, 0x31, 0x32].contains c

/-- LAYER: a 13th ends the pass with DEPTH (R114). -/
def execLayer (engine : Engine) (code : BitVec 8) (s : State) : Host.Outcome State Fault Refusal :=
  .next <| s.peOnly engine 1 fun n x s =>
    let (v, w) := ({ s := s } : Work).pop engine
    let w := if layerCode code.toNat then w else w.fail { code := 0 }
    match w.exc with
    | some e => .exc s e
    | none =>
      if 12 ≤ x.layers.length then s.passEnds n 1
      else .done (w.s.editPe n fun x => { x with layers := x.layers ++ [(code.toNat, v.toNat)] })

/-- The pass with bytes appended to a key. -/
def PeCtx.append (x : PeCtx) (exact : Bool) (l : List Byte) : PeCtx :=
  if exact then { x with ekey := x.ekey ++ l } else { x with tkey := x.tkey ++ l }

/-- KEY: `len` is the number of bytes less one. -/
def execKey (engine : Engine) (exact value : Bool) (len : BitVec 6) (errs : List WordErr) (s : State) :
    Host.Outcome State Fault Refusal :=
  let count := len.toNat + 1
  .next <| s.peOnly engine ((count + 7) / 8) fun n x s =>
    let room := if exact then 48 - x.ekey.length else 64 - x.tkey.length
    let (v, w) := ({ s := s } : Work).pop engine
    let w := if (value && decide (4 < count)) || decide (room < count) then w.fail { code := 0 } else w
    match w.exc with
    | some e => .exc s e
    | none =>
      let put (t : State) (l : List Byte) : OpEnd :=
        .done ((({ s := t } : Work).pop engine).2.s.editPe n fun x => x.append exact l)
      if value then put s (natBe count (v.toNat % 2 ^ (8 * count)))
      else s.window n x v.toNat count errs put

/-- LOOKUP (R116): the exact key in the packet's entry edition; `stall` is how long the engine waits, at most 64 cycles. What a
miss pushes for the action word is free. -/
def execLookup (engine : Engine) (stall : BitVec 7) (s : State) : Host.Outcome State Fault Refusal :=
  .next <| s.peOnly engine (1 + min 64 stall.toNat) fun _ x s =>
    let t := s.stampEdition x.pkt
    let hit := t.exactHit x.ekey (t.lookupEdition x.pkt)
    let (t, a, h) : State × Nat × Word := match hit with
      | some (_, r) => (t, r.action, 1)
      | none => (t.drawn, t.free .lookupMiss, 0)
    (({ s := t } : Work).pushes engine false [BitVec.ofNat 32 a, BitVec.ofNat 32 (a / 2 ^ 32), h]).finish s

/-- LENCHK (R123): a second one checks nothing. -/
def execLenchk (engine : Engine) (s : State) : Host.Outcome State Fault Refusal :=
  .next <| s.peOnly engine 1 fun n x s =>
    let (e, w) := ({ s := s } : Work).pop engine
    match w.exc, s.pkt x.pkt with
    | some e, _ => .exc s e
    | none, none => .all s
    | none, some p =>
      let l := p.data.length - p.start
      if x.lenchk.isSome then .done w.s
      else if l < e.toNat || 63 < l - e.toNat then s.passEnds n 2
      else .done (w.s.editPe n fun x => { x with lenchk := some (l - e.toNat) })

/-- MAL: class 2 LENGTH or 5 BAD_OPTION. -/
def execMal (engine : Engine) (cls : BitVec 3) (s : State) : Host.Outcome State Fault Refusal :=
  .next <| s.peOnly engine 1 fun n _ s =>
    if cls = 2 ∨ cls = 5 then s.passEnds n cls.toNat else .exc s { code := 0 }

/-- DONE (R116): the default action word is at program memory byte 8 × index. -/
def execDone (engine : Engine) (index : BitVec 18) (s : State) : Host.Outcome State Fault Refusal :=
  .next <| s.peOnly engine 1 fun n _ s => .all (s.passDone n (s.par.prog.le (8 * index.toNat) 8))

/-- FRAG (R124): the addresses are read from the IP header in the window. A second FRAG in a pass is ILLEGAL. -/
def execFrag (engine : Engine) (v6 : Bool) (errs : List WordErr) (s : State) : Host.Outcome State Fault Refusal :=
  .next <| s.peOnly engine 1 fun n x s =>
    let (l, w) := ({ s := s } : Work).pops engine false 6
    let w := if x.frag.isSome then w.fail { code := 0 } else w
    match w.exc, l with
    | some e, _ => .exc s e
    | none, [mf, off, len, ident, proto, hdr] =>
      let size := if v6 then 16 else 4
      s.window n x (hdr.toNat + (if v6 then 8 else 12)) (2 * size) errs fun t b =>
        let r : FragReport :=
          { v6 := v6, src := b.take size, dst := b.drop size
            ident := ident.toNat % 2 ^ (if v6 then 32 else 16), proto := proto.toNat % 256
            offset := off.toNat, len := len.toNat, more := decide (mf ≠ 0) }
        .done ((({ s := t } : Work).pops engine false 6).2.s.editPe n fun x => { x with frag := some r })
    | none, _ => .all s

end Sys2Proof.Machine
end

