-- ==== Sys2Proof/Machine/Shf.lean ====
section
/-! DEFINITION. The shelf (spec/19): frames on its links, adjacencies and routes, the lead, remote register access, and what the
messages of R441 do on the device that receives them. -/

namespace Sys2Proof.Machine

/-- A frame of a member has been heard; the deputy watches member 0 (R446). -/
def State.heardFrom (s : State) (src : Nat) : State := if src = 0 then { s with shf.lastLead := s.now } else s

/-- The device takes part in its shelf's protocol (R434, R72). -/
def State.shelfUp (s : State) : Bool := s.on SHF_CFG_EN && s.shf.joined

/-! ### HELLO and LSA (R435, R437) -/

/-- The MAC address of a shelf link: of its port, or the one in force of the BSS of its backhaul peer (R240, R287). -/
def State.linkMac (s : State) (n : Nat) : Nat :=
  if n < 8 then s.f (ETH_PORT_MAC_MAC_HI n) * 2 ^ 32 + s.f (ETH_PORT_MAC_MAC_LO n)
  else
    s.bssMac .a (s.f (WMA_BH_PEER_BSS (n - 8)))

/-- The payload of HELLO on a link (R441). -/
def State.helloBytes (s : State) (n : Nat) : List Nat :=
  let heard := match s.shf.links.look n with | some k => 2 ^ k.member | none => 0
  (natLe 8 (s.w SGM_EUI_EUI) ++ natLe 6 (s.linkMac n) ++ natLe 8 heard).map (·.toNat)

/-- HELLO_SEND: 100 ms after the last one, on each shelf link that is up. -/
def execHelloSend (s : State) : Host.Outcome State Fault Refusal :=
  .next <|
    if !s.shelfUp then s
    else
      let s := s.reach (s.shf.helloAt + 100000000)
      ({ s with shf.helloAt := s.now } : State).each s.shelfLinks fun t n => t.smpHello n (s.helloBytes n)

/-- An adjacency has changed: the LSA is due, and the routes follow. -/
def State.adjacencyChanged (s : State) : State := ({ s with shf.lsaDue := true } : State).routesSync

/-- What was heard on a link is replaced. -/
def State.neighbourSet (s : State) (n : Nat) (k : Neighbour) : State :=
  let old := s.shf.links.look n
  let s := { s with shf.links := s.shf.links.put n k }
  let was := match old with | some o => if o.hearsUs then some o.member else none | none => none
  let now := if k.hearsUs then some k.member else none
  if was = now then s else s.adjacencyChanged

/-- HELLO_RX. One that carries this device's number is of another device with that number (R435), but between an acting lead and a
returned lead, which have both the number 0 until REJOIN (R446, R447): such a pair makes no adjacency. -/
def execHelloRx (link : BitVec 4) (member : BitVec 6) (eui mask : BitVec 64) (s : State) : Host.Outcome State Fault Refusal :=
  .next <| s.datapath .shf fun s =>
    let n := link.toNat
    let m := member.toNat
    let pair := s.on SHF_STATUS_ACTING || decide (s.f SHF_STATUS_ROLE = 3)
    if !s.shelfUp || !s.shelfLink n then s
    else if m = s.shelfId then
      let s := s.neighbourSet n { member := m, hearsUs := false, lastHello := s.now }
      if pair then s
      else
        let s := (s.up SHF_STATUS_CONFLICT).ev .shf Ev.SHF_ID_CONFLICT [m, eui.toNat]
        if eui.toNat < s.w SGM_EUI_EUI then { s with shf.quiet := true } else s
    else
      let listed := s.ownNumbers.any fun k => decide (mask.toNat / 2 ^ k % 2 = 1)
      (s.heardFrom m).neighbourSet n { member := m, hearsUs := listed, lastHello := s.now }

/-- ADJACENCY_TIMEOUT: 300 ms after the last HELLO on a link. A conflict ends when no link hears this device's number any more. -/
def execAdjacencyTimeout (link : BitVec 4) (s : State) : Host.Outcome State Fault Refusal :=
  .next <|
    match s.shf.links.look link.toNat with
    | none => s
    | some k =>
      let s := (s.reach (k.lastHello + 300000000)).neighbourLost link.toNat
      if s.shf.links.any fun (e : Nat × Neighbour) => decide (e.2.member = s.shelfId) then s
      else { s.down SHF_STATUS_CONFLICT with shf.quiet := false }

/-- The payload of this device's LSA. -/
def State.lsaBytes (s : State) : List Nat :=
  let l := s.adjacencies
  ((natLe 4 s.shf.lsaSeq).map (·.toNat)) ++ [l.length] ++ l.flatMap fun a => [a.2, if a.1 < 8 then 0 else 1]

/-- LSA_SEND: at once where an adjacency has changed, else 1 s after the last one. -/
def execLsaSend (s : State) : Host.Outcome State Fault Refusal :=
  .next <|
    if !s.shelfUp then s
    else
      let s := if s.shf.lsaDue then s else s.reach (s.shf.lsaAt + 1000000000)
      let s := { s with shf.lsaDue := false, shf.lsaAt := s.now, shf.lsaSeq := (s.shf.lsaSeq + 1) % 2 ^ 32 }
      s.smpSend 2 none s.lsaBytes

/-- LSA_RX: a newer one replaces the member's; a route entry that was uncorrectable is rebuilt. -/
def execLsaRx (member : BitVec 6) (seq : BitVec 32) (edges : List (BitVec 6 × Bool)) (s : State) :
    Host.Outcome State Fault Refusal :=
  .next <| s.datapath .shf fun s =>
    let m := member.toNat
    let newer := match s.shf.lsas.look m with | some r => decide (r.seq < seq.toNat) | none => true
    if !s.shelfUp || s.isOwn m then s
    else if !newer then s.heardFrom m
    else
      let r : LsaRec := { seq := seq.toNat, edges := edges.map fun e => { member := e.1.toNat, backhaul := e.2 } }
      ({ s.heardFrom m with shf.lsas := s.shf.lsas.put m r } : State).routesSync

/-- ROUTE_HOLD_END: 500 µs after a route changed; the frames held for that member go out in their order (R438). -/
def execRouteHoldEnd (member : BitVec 6) (s : State) : Host.Outcome State Fault Refusal :=
  .next <|
    match s.shf.holdEnd.look member.toNat with
    | none => s
    | some t =>
      let s := s.reach t
      let mine (f : SmpSent) : Bool := decide (f.dst = some member.toNat)
      let s := { s with shf.holdEnd := s.shf.holdEnd.del member.toNat }
      let out := s.shf.held.filter mine
      ({ s with shf.held := s.shf.held.filter fun f => !mine f } : State).each out State.smpOut

/-! ### The lead (R446, R447) -/

/-- A device that claims member 0 has received a higher term: it is a returned lead (R447). If it was serving it makes a warm
reset, after which it joins as one. -/
def State.yield (s : State) (term : Nat) : State :=
  let old := s
  let s := (((s.set SHF_TERM_TERM term).ev .shf Ev.SHF_LEAD_YIELD [term]).setRole 3).roleSync old
  if s.cfg.stage = 10 then
    ({ s with shf.yielded := true } : State).warmReset
  else
    let s := (s.down SHF_STATUS_ACTING).down SHF_STATUS_ALIAS_V
    ({ s.set SHF_STATUS_ALIAS 0 with hif.bar2 := false, shf.leadAt := none } : State).routesSync.msix 0

/-- The device claims member 0 in a shelf (R447). -/
def State.claimsLead (s : State) : Bool := s.shelfUp && decide (s.f SHF_STATUS_ROLE = 2)

/-- LEAD_CLAIM_RX (R446, R447): a term that is not lower reroutes member 0 to the acting lead, or back; once the alias is released,
a returned lead is the deputy under it. -/
def execLeadClaimRx (src : BitVec 6) (term : BitVec 32) (deputy : BitVec 6) (alias_ : Bool) (s : State) :
    Host.Outcome State Fault Refusal :=
  .next <| s.datapath .shf fun s =>
    let own := s.f SHF_TERM_TERM
    if !s.shelfUp || decide (term.toNat < own) then s
    else if s.claimsLead then (if own < term.toNat then s.yield term.toNat else s)
    else
      let s := (s.set SHF_TERM_TERM term.toNat).heardFrom src.toNat
      let s := { s with shf.leadAt := if alias_ then some deputy.toNat else none }
      if s.f SHF_STATUS_ROLE = 3 && !alias_ then
        let s := (s.setRole 1).set SHF_STATUS_NUMBER deputy.toNat
        ({ s with shf.returnedAs := some deputy.toNat, shf.lastLead := s.now } : State).routesSync.msix 0
      else s.routesSync

/-- LEAD_LOST: the deputy has heard no frame of member 0 for 300 ms. -/
def execLeadLost (s : State) : Host.Outcome State Fault Refusal :=
  .next <|
    if !s.shelfUp || decide (s.f SHF_STATUS_ROLE ≠ 1) then s
    else (s.reach (s.shf.lastLead + 300000000)).takeover

/-- SHF_REJOIN. -/
def execShfRejoin (req : Req) (s : State) : Host.Outcome State Fault Refusal := .next (s.rejoinOp req)

/-- SHF_TAKEOVER. -/
def execShfTakeover (req : Req) (s : State) : Host.Outcome State Fault Refusal := .next (s.takeoverOp req)

/-- LEAVE_RX: the member's SMP state goes (R434). -/
def execLeaveRx (src : BitVec 6) (s : State) : Host.Outcome State Fault Refusal :=
  .next <| s.datapath .shf fun s =>
    let m := src.toNat
    if !s.shelfUp then s
    else
      let s := s.heardFrom m
      let links := (s.shf.links.filter fun (e : Nat × Neighbour) => decide (e.2.member = m)).map fun e => e.1
      let s := s.each links State.neighbourLost
      ({ s with shf.lsas := s.shf.lsas.del m, shf.replay := s.shf.replay.del m } : State).routesSync

/-! ### Mains time (R35, R38, R43, R442) -/

/-- TIME_SEND: at a phase-0 instant of the lead while its MT is VALID, once for each. -/
def execTimeSend (s : State) : Host.Outcome State Fault Refusal :=
  .next <|
    let cycle := s.mtm.mt / 65536
    if !s.isLead || !s.on MTM_STATUS_VALID || decide (s.mtm.mt % 65536 ≠ 0) || decide (s.shf.timeCycle = some cycle) then s
    else
      let s := { s with shf.timeCycle := some cycle }
      s.smpSend 3 none ((natLe 4 cycle ++ natLe 8 s.lt ++ natLe 4 (s.f MTM_FREQ_FREQ)).map (·.toNat) ++ [1])

/-- The lead's MT now, by its last message and LT. -/
def State.leadNow (s : State) : Int := (s.mtm.leadMt : Int) + ((s.lt : Int) - s.mtm.leadLt) * s.mtm.leadFreq / 1000000000

/-- The lead's published cycle number differs from this device's: by more than half a cycle of MT (R43). -/
def State.cycleDiffers (s : State) : Bool :=
  let d := sx 48 (toBits 48 (s.leadNow - s.mtm.mt))
  decide (d < -32768 ∨ 32768 ≤ d)

/-- TIME_RX: `sync` is whether the servo finds LT within ±500 ns of the lead (R45). An adoption follows where LT_SYNC rises; a former
lead that is a member with LT_SYNC at 1 adopts once it has fallen and risen again (DESIGN CHOICE, log entry 233: R43 says 'becomes
1'). -/
def execTimeRx (cycle : BitVec 32) (lt : BitVec 64) (freq : BitVec 32) (valid sync : Bool) (s : State) :
    Host.Outcome State Fault Refusal :=
  .next <| s.datapath .shf fun s =>
    if !s.shelfUp || s.isLead then s
    else
      let s := { s.heardFrom 0 with
        mtm.leadMt := cycle.toNat * 65536, mtm.leadLt := lt.toNat, mtm.leadFreq := freq.toNat, mtm.leadValid := valid }
      let s := if sync && !s.on MTM_STATUS_LT_SYNC then { s.up MTM_STATUS_LT_SYNC with mtm.adoptPend := true } else s
      let s := if s.on MTM_STATUS_LT_SYNC && s.on MTM_STATUS_CYC_ADOPTED && !s.mtm.adoptPend && s.cycleDiffers then
          ({ s with mtm.mismatch := true, mtm.adoptPend := true } : State).ev .mtm Ev.MT_CYCLE_MISMATCH [cycle.toNat, s.mtm.mt / 65536]
            |>.asyFault .mainsPlaus .time
        else s
      let s := s.when s.inHoldover State.holdKind
      if s.f MTM_STATUS_SRC = 4 then (s.set MTM_FREQ_FREQ freq.toNat).correct (wrapErr (s.shelfPhase - s.mtm.mt)) else s

/-! ### Remote register access (R443, R444) -/

/-- A remote access fails: a read returns 0, a write is discarded; the host is told of its own. -/
def State.remoteFail (s : State) (x : RemoteAcc) : State :=
  let s := if x.write then s else { s with readData := 0 }
  let s := (s.ev .shf Ev.SHF_UNREACHABLE (x.device :: x.addr :: reqId x.req)).bump SHF_CNT_UNREACHABLE
  if x.req.path = .host then (s.up HIF_STATUS_REMOTE_ERR).msix 3 else s

/-- An access is sent as REG_REQ, or fails at once where its member is unreachable. -/
def State.remoteIssue (s : State) (x : RemoteAcc) : State :=
  if !s.smpTalks || !s.reaches x.device then s.remoteFail x
  else
    let x := { x with since := s.now }
    let s := { s with shf.outstanding := s.shf.outstanding ++ [x] }
    s.smpSendAt (levelNum x.req.level) 0x10 (some x.device)
      ((natLe 8 (x.device * 2 ^ 32 + x.addr) ++ natLe 1 x.write.toNat ++ natLe 4 x.data ++ natLe 4 x.reqId).map (·.toNat))

/-- Accesses that wait are sent while fewer than 16 are outstanding. -/
def State.remoteNext (s : State) : State :=
  s.each s.shf.waiting fun s x =>
    if 16 ≤ s.shf.outstanding.length then s
    else ({ s with shf.waiting := s.shf.waiting.drop 1 } : State).remoteIssue x

/-- An access to a device of the shelf: a local one, or a remote one. -/
def State.shelfAccess (s : State) (req : Req) (device addr : Nat) (write : Bool) (v : Word) : State :=
  if s.isOwn device then (if write then s.csrWrite req addr v else s.csrRead req addr)
  else
    let x : RemoteAcc := { reqId := s.shf.nextReq, device := device, addr := addr, write := write, data := v.toNat, req := req, since := s.now }
    let s := { s with shf.nextReq := (s.shf.nextReq + 1) % 2 ^ 32 }
    if 16 ≤ s.shf.outstanding.length then { s with shf.waiting := s.shf.waiting ++ [x] } else s.remoteIssue x

/-- An access that goes nowhere reads 0. -/
def State.accessVoid (s : State) (write : Bool) : State := if write then s else { s with readData := 0 }

/-- REMOTE_REG_ACCESS (R443, R450): through a shelf address, of which bits [63:38] are 0 (R15); or of the host through BAR2, whose
aperture maps a unit window, while BAR2 is open (R448). An aperture that is not mapped behaves as R7. -/
def execRemoteRegAccess (req : Req) (target : RemoteTarget) (write : Bool) (value : Word) (s : State) :
    Host.Outcome State Fault Refusal :=
  .next <| s.datapath .shf fun s =>
    if req.path = .host ∧ s.hif.bar2 = false then (s.accessVoid write).ev .shf Ev.SHF_NOT_LEAD
    else match target with
    | .shelf a =>
      if 2 ^ 38 ≤ a.toNat then (s.accessVoid write).ev .top Ev.UNMAPPED (a.toNat :: reqId req)
      else s.shelfAccess req (a.toNat / 2 ^ 32) (a.toNat % 2 ^ 32) write value
    | .aperture o =>
      let n := o.toNat / 2 ^ 20
      if !s.on (HIF_APER_EN n) then (s.accessVoid write).ev .hif Ev.UNMAPPED (o.toNat :: reqId req)
      else s.shelfAccess req (s.f (HIF_APER_DEVICE n)) (s.f (HIF_APER_WINDOW n) * 2 ^ 20 + o.toNat % 2 ^ 20) write value

/-- REG_REQ_RX: performed as a local access at the carried level, and answered. A member is unreachable until its SHF is ready. -/
def execRegReqRx (src : BitVec 6) (level : BitVec 2) (addr : BitVec 64) (write : Bool) (value : Word) (request : BitVec 32)
    (s : State) : Host.Outcome State Fault Refusal :=
  .next <| s.datapath .shf fun s =>
    let req : Req := { path := .shelf src, level := levelOf level.toNat }
    let a := addr.toNat % 2 ^ 32
    if !s.shelfUp || !s.ready .shf || !s.isOwn (addr.toNat / 2 ^ 32 % 64) then s
    else
      let s := (s.heardFrom src.toNat).bump SHF_CNT_REMOTE
      let s := if 2 ^ 38 ≤ addr.toNat then (s.accessVoid write).ev .top Ev.UNMAPPED (addr.toNat :: reqId req)
        else if write then s.csrWrite req a value else s.csrRead req a
      s.smpSend 0x11 (some src.toNat)
        ((natLe 4 request.toNat ++ natLe 1 0 ++ natLe 4 (if write then 0 else s.readData.toNat)).map (·.toNat))

/-- REG_RESP_RX: the answer to an outstanding access completes it. -/
def execRegRespRx (src : BitVec 6) (request : BitVec 32) (unreachable : Bool) (value : Word) (s : State) :
    Host.Outcome State Fault Refusal :=
  .next <| s.datapath .shf fun s =>
    let s := s.when s.shelfUp (·.heardFrom src.toNat)
    let mine (x : RemoteAcc) : Bool := decide (x.reqId = request.toNat ∧ x.device = src.toNat)
    s.with? (s.shf.outstanding.find? mine) fun s x =>
      let s := { s with shf.outstanding := s.shf.outstanding.filter fun x => !mine x }
      let s := if unreachable then s.remoteFail x else if x.write then s else { s with readData := value }
      s.remoteNext

/-- SHF_UNREACHABLE: 1 ms after the oldest outstanding access was sent. -/
def execShfUnreachable (s : State) : Host.Outcome State Fault Refusal :=
  .next <|
    match s.shf.outstanding with
    | [] => s
    | x :: rest =>
      let s := s.reach (x.since + 1000000)
      (({ s with shf.outstanding := rest } : State).remoteFail x).remoteNext

/-! ### Placement messages (R286, R308) -/

/-- A client is expected here, with the PMKSA that came for it. -/
def State.steerExpect (s : State) (src mac bssid : Nat) (pmksa : Option (Nat × Nat)) : State :=
  { s with wma.steered := s.wma.steered.put mac { src := src, bssid := bssid, pmksa := pmksa } }

/-- A PMK of 48 bytes that came wrapped is unwrapped under the SMP key, one job of CIP (R286): the frame is discarded where no pair is in
service (R330), and waits while CIP starts no job (R326, R329); a key whose wrap fails its check is not kept. -/
def State.steerIn (s : State) (src mac bssid pmkid wrapped : Nat) : State :=
  if s.noLane then s.inlineLost
  else if s.cipHeld then { s with cip.frames := s.cip.frames ++ [.steer src mac bssid pmkid wrapped] }
  else
    let (s, kek) := s.deriveNow s.smpTag
    let key := kek.bind fun k => keyUnwrap k (natLe 56 wrapped)
    (s.inlineEnd key.isSome).steerExpect src mac bssid (key.map fun p => (pmkid, leNat p))

/-- STEER_RX: the client is expected here, with its PMKSA where it uses SAE. -/
def execSteerRx (src : BitVec 6) (mac bssid : BitVec 48) (pmkid : BitVec 128) (wrapped : BitVec 448) (s : State) :
    Host.Outcome State Fault Refusal :=
  .next <| s.datapath .shf fun s =>
    if !s.shelfUp then s
    else
      let s := s.heardFrom src.toNat
      if wrapped = 0 then s.steerExpect src.toNat mac.toNat bssid.toNat none
      else s.steerIn src.toNat mac.toNat bssid.toNat pmkid.toNat wrapped.toNat

/-- STEER_DONE_RX: the target has the client; its steering has succeeded, and this device deletes the station (R267, R286). -/
def execSteerDoneRx (src : BitVec 6) (mac : BitVec 48) (s : State) : Host.Outcome State Fault Refusal :=
  .next <| s.datapath .shf fun s =>
    if !s.shelfUp then s
    else
      let s := s.heardFrom src.toNat
      (s.when (s.steer mac.toNat).open_.isSome (·.steerDone mac.toNat)).stationGone mac.toNat

/-- NODE_MOVE_RX: the new device of a reassignment agrees while its node table has room, and answers; the agreement stands for the
firmware of both, which add the partner with ANNOUNCE and reassign it (R308). -/
def execNodeMoveRx (src : BitVec 6) (eui : BitVec 64) (addr : BitVec 16) (old new : BitVec 6) (accepted : Bool) (s : State) :
    Host.Outcome State Fault Refusal :=
  .next <| s.datapath .shf fun s =>
    let note (s : State) : State :=
      { s with sgm.agreed := (eui.toNat, addr.toNat, old.toNat, new.toNat) :: s.sgm.agreed }
    if !s.shelfUp then s
    else
      let s := s.heardFrom src.toNat
      if accepted then (if s.isOwn old.toNat then note s else s)
      else if s.isOwn new.toNat && decide (s.sgm.nodes.length < 4096) then
        (note s).smpSend 0x42 (some src.toNat)
          ((natLe 8 eui.toNat ++ natLe 2 addr.toNat ++ natLe 1 old.toNat ++ natLe 1 new.toNat).map (·.toNat) ++ [1])
      else s

/-! ### Reports to the lead (R442, R445) -/

/-- The lead writes a received message of types 0x50 to 0x53 into the host message ring. -/
def State.reportRx (s : State) (head : SmpHead) (typ : Nat) (payload : List Nat) : State :=
  s.datapath .shf fun s =>
    if !s.shelfUp || !s.isLead then s
    else s.hostMessage
      { typ := typ, dst := some 0, level := head.level.toNat, payload := payload, epoch := head.epoch.toNat, ctr := head.ctr.toNat
        term := head.term.toNat, lt := head.lt.toNat, hops := head.hops.toNat, src := head.src.toNat }

/-- FAULT_RX. -/
def execFaultRx (head : SmpHead) (func row cls rung : Byte) (s : State) : Host.Outcome State Fault Refusal :=
  .next (s.reportRx head 0x50 [func.toNat, row.toNat, cls.toNat, rung.toNat])

/-- SAFE_RX. -/
def execSafeRx (head : SmpHead) (exit : Bool) (causes : BitVec 16) (level : Byte) (s : State) : Host.Outcome State Fault Refusal :=
  .next (s.reportRx head 0x51 (exit.toNat :: (natLe 2 causes.toNat).map (·.toNat) ++ [level.toNat]))

/-- REPLACE_RX. -/
def execReplaceRx (head : SmpHead) (cause : Byte) (s : State) : Host.Outcome State Fault Refusal :=
  .next (s.reportRx head 0x52 [cause.toNat])

/-- CYCLE_REQ_RX. -/
def execCycleReqRx (head : SmpHead) (func : Byte) (s : State) : Host.Outcome State Fault Refusal :=
  .next (s.reportRx head 0x53 [func.toNat])

/-! ### Frames (R438 to R441) -/

/-- A received SMP frame, taken apart. -/
structure SmpRx where
  host : Bool
  bcast : Bool
  frame : SmpSent
  dst : Nat
  tag : List Byte
  body : List Byte
  deriving DecidableEq, Repr

/-- A little-endian field of a frame. -/
def leField (l : List Byte) (i n : Nat) : Nat := leNat ((l.drop i).take n)

/-- A frame of version 1 whose length is that of its LEN. -/
def smpParse (l : List Byte) : Option SmpRx :=
  let ctl := leField l 0 1
  let len := leField l 6 2
  if l.length < 40 ∨ ctl % 16 ≠ 1 ∨ 1400 < len ∨ l.length ≠ 40 + len then none
  else
    let bcast := decide (ctl / 32 % 2 = 1)
    let dst := leField l 3 1 % 64
    let seq := leField l 8 4
    some {
      host := decide (ctl / 64 % 2 = 1), bcast := bcast, dst := dst
      frame := { typ := leField l 1 1, dst := if bcast then none else some dst, level := leField l 5 1 % 4
                 payload := ((l.drop 24).take len).map (·.toNat), epoch := seq / 2 ^ 20, ctr := seq % 2 ^ 20, term := leField l 12 4
                 lt := leField l 16 8, hops := leField l 4 1 % 16, src := leField l 2 1 % 64 }
      tag := l.drop (24 + len), body := l.take (24 + len) }

/-- The port is the management port, with MACsec on and strict (R440). -/
def State.mgmtPort (s : State) (n : Nat) : Bool :=
  s.on SHF_MGMT_EN && decide (n = s.f SHF_MGMT_PORT) && decide (n < 4) && s.on (ETH_MACSEC_EN n) &&
    decide (s.f (ETH_MACSEC_VALIDATE n) = 2)

/-- The replay state of a source after a frame; none where the frame is older than the window or already seen (R440). -/
def replayTake (r : Option Replay) (epoch ctr : Nat) : Option Replay :=
  let fresh : Replay := { epoch := epoch, top := ctr, seen := [ctr] }
  match r with
  | none => some fresh
  | some k =>
    if k.epoch < epoch then some fresh
    else if epoch < k.epoch then none
    else if k.top < ctr then some { k with top := ctr, seen := ctr :: k.seen.filter fun x => decide (ctr ≤ x + 64) }
    else if k.top ≤ ctr + 64 && !k.seen.contains ctr then some { k with seen := ctr :: k.seen }
    else none

/-- The message types of R441. -/
def smpType (t : Nat) : Bool :=
  [0x01, 0x02, 0x03, 0x04, 0x05, 0x10, 0x11, 0x20, 0x21, 0x22, 0x30, 0x31, 0x32, 0x33, 0x34, 0x35, 0x36, 0x37, 0x38, 0x39, 0x40, 0x41,
   0x42, 0x50, 0x51, 0x52, 0x53].contains t

/-- A frame goes on to other links (R438): a broadcast floods, but for HELLO; one for another member follows its route. Each hop
takes one from HOPS; a frame that reaches 0 away from its destination is discarded. -/
def State.smpForward (s : State) (n : Nat) (r : SmpRx) : State :=
  let f := { r.frame with hops := r.frame.hops - 1 }
  if !s.smpTalks then s
  else if r.bcast then
    if r.frame.typ = 1 ∨ f.hops = 0 then s
    else s.each (s.shelfLinks.filter fun k => decide (k ≠ n)) fun s k =>
      s.smpGo { f with link := some k }
  else if s.isOwn r.dst then s
  else if f.hops = 0 then s.bump SHF_CNT_HOPS
  else if s.reaches r.dst then s.smpGo f
  else s

/-- A frame has passed its checks: what its source and term tell, its delivery here, its way on. What a delivered message does is its
own row's effect. -/
def State.smpAccept (s : State) (n : Nat) (r : SmpRx) : State :=
  let f := r.frame
  if !smpType f.typ then s.ev .shf Ev.SHF_BAD_TYPE [f.typ, f.src]
  else
    let s := s.heardFrom f.src
    let higher := decide (s.f SHF_TERM_TERM < f.term)
    if higher && s.claimsLead then s.yield f.term
    else
      let s := s.when (higher && decide (f.typ ≠ 4)) (·.set SHF_TERM_TERM f.term)
      let s := if r.bcast || s.isOwn r.dst then { s with shf.delivered := (f.typ, f.src, f.payload) :: s.shf.delivered } else s
      s.smpForward n r

/-- A frame whose tag is good meets the replay window (R440). A frame of this device's own number that is not a HELLO of another device
with it has come back, and is a replay. -/
def State.smpTagged (s : State) (n : Nat) (r : SmpRx) : State :=
  let f := r.frame
  if s.isOwn f.src then (if f.typ = 1 then s.smpAccept n r else s.bump SHF_CNT_REPLAY)
  else
    let old := s.shf.replay.look f.src
    match replayTake old f.epoch f.ctr with
    | none => s.bump SHF_CNT_REPLAY
    | some k =>
      let again := match old with | some o => decide (o.epoch < f.epoch) | none => false
      let s := { s with
        shf.replay := s.shf.replay.put f.src k
        shf.lsas := if again then s.shf.lsas.del f.src else s.shf.lsas }
      s.smpAccept n r

/-- A frame is checked where it arrived (R436, R440): a host frame's tag is zero, on the management port; another's is the CMAC under the
SMP key, on a shelf link, a job of CIP: without a pair in service the frame is discarded (R330), and it waits while CIP starts no job
(R326, R329). -/
def State.smpIn (s : State) (n : Nat) (frame : List Byte) : State :=
  match smpParse frame with
  | none => s.bump SHF_CNT_AUTH
  | some r =>
    if r.host then
      if s.mgmtPort n && decide (r.tag = List.replicate 16 0) then s.smpAccept n { r with frame := { r.frame with level := 1 } }
      else s.bump SHF_CNT_AUTH
    else if !s.shelfLink n then s.bump SHF_CNT_AUTH
    else if s.noLane then s.inlineLost
    else if s.cipHeld then { s with cip.frames := s.cip.frames ++ [.smp n frame] }
    else
      let (s, key) := s.deriveNow s.smpTag
      let ok := match key with | some k => decide (r.tag = cmac k r.body) | none => false
      if ok then (s.inlineEnd true).smpTagged n r else (s.inlineEnd key.isNone).bump SHF_CNT_AUTH

/-- SMP_FRAME_RX: a frame of EtherType 0x88B5 from a shelf link or the management port. -/
def execSmpFrameRx (link : BitVec 4) (frame : List Byte) (s : State) : Host.Outcome State Fault Refusal :=
  .next <| s.datapath .shf fun s => if s.shelfUp then s.smpIn link.toNat frame else s

end Sys2Proof.Machine
end

