-- ==== Sys2Proof/Machine/CipServe.lean ====
section
/-! DEFINITION. The cipher engine (spec/13): the rows after which it starts jobs again, and the units whose frames waited for that. -/

namespace Sys2Proof.Machine

/-- A received frame that has waited is served by its unit. -/
def State.frameServe (s : State) (f : CipFrame) : State :=
  match f with
  | .wifi x => s.with? (macHdr x.mpdu) fun s h => s.wifiServe x h
  | .sgm r => s.onReport r
  | .smp link frame => s.smpIn link frame
  | .steer src mac bssid pmkid wrapped => s.steerIn src mac bssid pmkid wrapped

/-- Where CIP starts jobs again, those that waited start: inline jobs, received frames in arrival order, frames to be tagged, and the
frames of the wired ports (R326, R329). -/
def State.cipGo (s : State) : State :=
  if s.cipHeld then s
  else
    let s := s.inlineStart
    let frames := s.cip.frames
    let s := ({ s with cip.frames := [] } : State).each frames State.frameServe
    let tags := s.shf.tagging
    (({ s with shf.tagging := [] } : State).each tags State.smpGo).ethServeAll

/-- RNG_HEALTH_PASS: waiting jobs start. -/
def execRngHealthPass (s : State) : Host.Outcome State Fault Refusal :=
  .next <| s.datapath .cip fun s => ((s.down CIP_STATUS_RNG_FAIL).asyFaultEnd .entropy .cipher).cipGo

/-- The stations that have keys. -/
def State.keyedStas (s : State) : List Nat :=
  (s.wma.stations.map Prod.fst).filter fun i => [2 * i, 2 * i + 1].any fun k => (s.wma.keys.look k).isSome

/-- The keys of WMA are gone with the wrapped-key table: firmware deauthenticates every station that had one (R282), and no retransmission
has its key. -/
def State.wmaKeysLost (s : State) : State :=
  { s with wma.deauth := s.keyedStas, wma.seals := s.wma.seals.map fun (e : Nat × TxSeal) => (e.1, if e.2.derived then e.2 else { e.2 with key := [] }) }

/-- CIP_ERASE: the erase completes; what waited starts with the cleared state, WMA proceeds without its keys, and the ports with MACsec
log the loss of theirs (R329, R357). -/
def execCipErase (s : State) : Host.Outcome State Fault Refusal :=
  .next <| s.datapath .cip fun s =>
    s.with? s.cip.eraseEnd fun s t =>
      let s := s.reach t
      let causes := s.cip.causes
      let ops := s.cip.keyOps
      let s := { s with cip.table := [], cip.derived := [], cip.session := [], cip.eraseEnd := none, cip.causes := 0, cip.keyOps := [] }
      let s := ((s.keyBufClear.rootBufClear.down CIP_STATUS_ERASING).ev .cip Ev.CIP_ERASE [causes]).bump CIP_CNT_ERASE
      let ports := (List.range 4).filter fun p => s.on (ETH_MACSEC_EN p)
      ((s.wmaKeysLost.each ops State.keyOp).cipGo).each ports fun s p => s.ev .eth Ev.ETH_MACSEC_KEYS_LOST [p]

end Sys2Proof.Machine
end

