-- ==== Sys2Proof/Machine/HostIf.lean ====
section
/-! DEFINITION. The host interface (spec/19, R449 to R451): BAR4 and the doorbells. -/

namespace Sys2Proof.Machine

/-- What BAR4 maps at an offset (R450): the shared SRAM, the MSI-X table, the pending bits, a DRAM address. -/
inductive Bar4 where
  | shared (offset : Nat)
  | table (offset : Nat)
  | pending
  | dram (addr : Nat)
  | none
  deriving DecidableEq, Repr

/-- The place of an offset; `base` is `HIF_DWIN`, of which values above 454 act as 454. -/
def bar4At (base o : Nat) : Bar4 :=
  if o < 0x800000 then .shared o
  else if o < 0x801000 then .table (o - 0x800000)
  else if o < 0x802000 then .pending
  else if o < 0x1000000 then .none
  else .dram (min base 454 * 0x1000000 + (o - 0x1000000))

/-- The host's access completes with data, poisoned or not. -/
def State.hostReturns (s : State) (l : List Byte) (poisoned : Bool) : State := { s with hif.readBytes := l, hif.poisoned := poisoned }

/-- A host read of BAR4: an uncorrectable word, and DRAM while the controller is frozen, complete with a poisoned completion (R450). -/
def State.bar4Read (s : State) (o n : Nat) (upset : List Upset) : State :=
  let zeros := List.replicate n 0
  match bar4At (s.f HIF_DWIN_BASE) o with
  | .shared a =>
    let s := s.tableRead .cpu 1 (a / 32) upset
    let bad := s.sharedBad a n
    s.hostReturns (if bad then zeros else s.shared.bytes a n) bad
  | .table a => s.hostReturns (s.hif.table.bytes a n) false
  | .pending => s.hostReturns zeros false
  | .dram a =>
    if s.unitDark .drc || !s.dramUp then s.hostReturns zeros true
    else match (s.demand .drc).drcDecode 16 (s.f (DRC_SRC_CLASS 16)) (a / 32 * 32) upset with
      | (t, none) => t.hostReturns zeros true
      | (t, some l) =>
        let first := l.drop (a % 32)
        let rest := t.dram.bytes (a / 32 * 32 + 32) (n - first.length)
        t.hostReturns ((first ++ rest).take n) false
  | .none => s.hostReturns zeros false

/-- A host write of BAR4. -/
def State.bar4Write (s : State) (o : Nat) (l : List Byte) : State :=
  match bar4At (s.f HIF_DWIN_BASE) o with
  | .shared a => s.sharedPut a l
  | .table a => { s with hif.table := s.hif.table.setBytes a l }
  | .dram a => if s.unitDark .drc || !s.dramUp then s else { s.demand .drc with dram := (s.demand .drc).dram.setDram a l }
  | .pending | .none => s

/-- HOST_MEMORY_ACCESS: `len` bytes, within one 64-byte aligned block; the upsets are those of the first stored word. -/
def execHostMemoryAccess (write : Bool) (offset : BitVec 25) (len : BitVec 7) (data : List Byte) (upset : List Upset) (s : State) :
    Host.Outcome State Fault Refusal :=
  .next <|
    let n := len.toNat
    if s.isOff || decide (n = 0) || decide (64 < offset.toNat % 64 + n) then s
    else s.datapath .hif fun s =>
      if write then s.bar4Write offset.toNat (data.take n) else s.bar4Read offset.toNat n upset

/-- HIF_DOORBELL: a write of `HIF_DOORBELL`. -/
def execHifDoorbell (req : Req) (value : Word) (s : State) : Host.Outcome State Fault Refusal :=
  .next (s.csrWrite req HIF_DOORBELL_VALUE.addr value)

/-- HIF_HOST_DB: a write of `HIF_HOST_DB`. -/
def execHifHostDb (req : Req) (value : Word) (s : State) : Host.Outcome State Fault Refusal :=
  .next (s.csrWrite req HIF_HOST_DB_VALUE.addr value)

end Sys2Proof.Machine
end

