-- ==== Sys2Proof/Machine/Dispatch.lean ====
section
/-! DEFINITION. One arm per command: a direct call of its meaning. -/

namespace Sys2Proof.Machine

def exec (i : Instr) (s : State) : Host.Outcome State Fault Refusal :=
  match i with
  | .registerWrite req addr value be => Sys2Proof.Machine.execRegisterWrite req addr value be s
  | .guestReadCheck path addr => Sys2Proof.Machine.execGuestReadCheck path addr s
  | .readClear req addr => Sys2Proof.Machine.execReadClear req addr s
  | .wideValueLatch req addr => Sys2Proof.Machine.execWideValueLatch req addr s
  | .bootLockSet req => Sys2Proof.Machine.execBootLockSet req s
  | .maintAddressMatch address stopped => Sys2Proof.Machine.execMaintAddressMatch address stopped s
  | .maintWrite addr value complete => Sys2Proof.Machine.execMaintWrite addr value complete s
  | .refInputChange input level time => Sys2Proof.Machine.execRefInputChange input level time s
  | .refEdgeAccept input => Sys2Proof.Machine.execRefEdgeAccept input s
  | .mtRefStuck input => Sys2Proof.Machine.execMtRefStuck input s
  | .chatterPeriodEnd input => Sys2Proof.Machine.execChatterPeriodEnd input s
  | .mtHoldSlot => Sys2Proof.Machine.execMtHoldSlot s
  | .mtHoldAmbig => Sys2Proof.Machine.execMtHoldAmbig s
  | .mtStep => Sys2Proof.Machine.execMtStep s
  | .mtCycleBoundary => Sys2Proof.Machine.execMtCycleBoundary s
  | .offsetLearn input => Sys2Proof.Machine.execOffsetLearn input s
  | .ltLoad req => Sys2Proof.Machine.execLtLoad req s
  | .ltStep req amount => Sys2Proof.Machine.execLtStep req amount s
  | .ltSyncLost => Sys2Proof.Machine.execLtSyncLost s
  | .mtSnap req => Sys2Proof.Machine.execMtSnap req s
  | .alarm n => Sys2Proof.Machine.execAlarm n s
  | .alarmCtlWrite req n value => Sys2Proof.Machine.execAlarmCtlWrite req n value s
  | .vinValid mv => Sys2Proof.Machine.execVinValid mv s
  | .aonUp => Sys2Proof.Machine.execAonUp s
  | .strapSampleDone samples => Sys2Proof.Machine.execStrapSampleDone samples s
  | .assayBistDone pass => Sys2Proof.Machine.execAssayBistDone pass s
  | .cfgHeadersRead => Sys2Proof.Machine.execCfgHeadersRead s
  | .criticalSectionsLoaded => Sys2Proof.Machine.execCriticalSectionsLoaded s
  | .luminaireControlReady => Sys2Proof.Machine.execLuminaireControlReady s
  | .calibrationSectionLoaded => Sys2Proof.Machine.execCalibrationSectionLoaded s
  | .dramTrainingDone pass => Sys2Proof.Machine.execDramTrainingDone pass s
  | .deferredSectionsLoaded failed => Sys2Proof.Machine.execDeferredSectionsLoaded failed s
  | .radioCalibrationDone spans => Sys2Proof.Machine.execRadioCalibrationDone spans s
  | .bootComplete => Sys2Proof.Machine.execBootComplete s
  | .bootLate stage => Sys2Proof.Machine.execBootLate stage s
  | .confirm req => Sys2Proof.Machine.execConfirm req s
  | .eraseBank req => Sys2Proof.Machine.execEraseBank req s
  | .eraseBankDone => Sys2Proof.Machine.execEraseBankDone s
  | .nvmDataWrite req data readBack => Sys2Proof.Machine.execNvmDataWrite req data readBack s
  | .warmReset req key => Sys2Proof.Machine.execWarmReset req key s
  | .coldReset req key => Sys2Proof.Machine.execColdReset req key s
  | .folioSwitchRequest req folio => Sys2Proof.Machine.execFolioSwitchRequest req folio s
  | .folioAtReset req folio => Sys2Proof.Machine.execFolioAtReset req folio s
  | .folioSwitch => Sys2Proof.Machine.execFolioSwitch s
  | .quireReconfig quire => Sys2Proof.Machine.execQuireReconfig quire s
  | .quireStartBeat quire info data => Sys2Proof.Machine.execQuireStartBeat quire info data s
  | .quireDataBeat quire data => Sys2Proof.Machine.execQuireDataBeat quire data s
  | .quireEndBeat quire data close => Sys2Proof.Machine.execQuireEndBeat quire data close s
  | .quireWordRead quire err => Sys2Proof.Machine.execQuireWordRead quire err s
  | .dropPkt req quire => Sys2Proof.Machine.execDropPkt req quire s
  | .flush req quire => Sys2Proof.Machine.execFlush req quire s
  | .quireDisable req quire => Sys2Proof.Machine.execQuireDisable req quire s
  | .tableScrub unit source index upset => Sys2Proof.Machine.execTableScrub unit source index upset s
  | .wgcRateWindowEnd unit => Sys2Proof.Machine.execWgcRateWindowEnd unit s
  | .parsePassStart engine quire header => Sys2Proof.Machine.execParsePassStart engine quire header s
  | .parseTimeout engine => Sys2Proof.Machine.execParseTimeout engine s
  | .finalLookupResult engine => Sys2Proof.Machine.execFinalLookupResult engine s
  | .fragHoldExpire entry => Sys2Proof.Machine.execFragHoldExpire entry s
  | .fragActiveExpire entry => Sys2Proof.Machine.execFragActiveExpire entry s
  | .ruleWrite req exact index => Sys2Proof.Machine.execRuleWrite req exact index s
  | .ruleRetire req exact index => Sys2Proof.Machine.execRuleRetire req exact index s
  | .ruleRead req exact index => Sys2Proof.Machine.execRuleRead req exact index s
  | .editionCommit req => Sys2Proof.Machine.execEditionCommit req s
  | .flowLookup => Sys2Proof.Machine.execFlowLookup s
  | .flowDramReadDone => Sys2Proof.Machine.execFlowDramReadDone s
  | .routeLookupDone => Sys2Proof.Machine.execRouteLookupDone s
  | .remoteLookupTimeout => Sys2Proof.Machine.execRemoteLookupTimeout s
  | .remoteLookupRx src request key edition param len redirected => Sys2Proof.Machine.execRemoteLookupRx src request key edition param len redirected s
  | .lookupRespRx request miss nat xlat => Sys2Proof.Machine.execLookupRespRx request miss nat xlat s
  | .ageingSweep sram index => Sys2Proof.Machine.execAgeingSweep sram index s
  | .flwLimp => Sys2Proof.Machine.execFlwLimp s
  | .flowRead req => Sys2Proof.Machine.execFlowRead req s
  | .flowDelete req => Sys2Proof.Machine.execFlowDelete req s
  | .flowPin req => Sys2Proof.Machine.execFlowPin req s
  | .flowUnpin req => Sys2Proof.Machine.execFlowUnpin req s
  | .flowTierMove key toSram => Sys2Proof.Machine.execFlowTierMove key toSram s
  | .routeAdd req => Sys2Proof.Machine.execRouteAdd req s
  | .routeDel req => Sys2Proof.Machine.execRouteDel req s
  | .routeCommit req vrf => Sys2Proof.Machine.execRouteCommit req vrf s
  | .schEnqueue queue packet => Sys2Proof.Machine.execSchEnqueue queue packet s
  | .wiredDequeue port errs => Sys2Proof.Machine.execWiredDequeue port errs s
  | .pauseStateReport port => Sys2Proof.Machine.execPauseStateReport port s
  | .wheelSlotRelease => Sys2Proof.Machine.execWheelSlotRelease s
  | .overflowSlotMove => Sys2Proof.Machine.execOverflowSlotMove s
  | .shaperPendingRefill shaper => Sys2Proof.Machine.execShaperPendingRefill shaper s
  | .wifiGrantRequest root ul mimo users airtime cls => Sys2Proof.Machine.execWifiGrantRequest root ul mimo users airtime cls s
  | .wifiMpduTake root entry count errs => Sys2Proof.Machine.execWifiMpduTake root entry count errs s
  | .cellFrameReturn => Sys2Proof.Machine.execCellFrameReturn s
  | .schNodeRead req kind index => Sys2Proof.Machine.execSchNodeRead req kind index s
  | .schNodeWrite req kind index => Sys2Proof.Machine.execSchNodeWrite req kind index s
  | .schNodeFlush req kind index => Sys2Proof.Machine.execSchNodeFlush req kind index s
  | .schNodeReadClr req kind index => Sys2Proof.Machine.execSchNodeReadClr req kind index s
  | .tier1AnchorEval air8 air9 air10 => Sys2Proof.Machine.execTier1AnchorEval air8 air9 air10 s
  | .linkUsabilityChange client root awake goodput => Sys2Proof.Machine.execLinkUsabilityChange client root awake goodput s
  | .baAgreementChange station tid transmit size ssn => Sys2Proof.Machine.execBaAgreementChange station tid transmit size ssn s
  | .tier2Eval dram => Sys2Proof.Machine.execTier2Eval dram s
  | .moveHintRx src key share => Sys2Proof.Machine.execMoveHintRx src key share s
  | .moveReqRx src id key => Sys2Proof.Machine.execMoveReqRx src id key s
  | .moveDataRx src id entry partner => Sys2Proof.Machine.execMoveDataRx src id entry partner s
  | .moveAckRx src id => Sys2Proof.Machine.execMoveAckRx src id s
  | .drainDoneRx src id => Sys2Proof.Machine.execDrainDoneRx src id s
  | .moveCancelRx src id reason => Sys2Proof.Machine.execMoveCancelRx src id reason s
  | .redirectRx src key owner => Sys2Proof.Machine.execRedirectRx src key owner s
  | .waitRx src key => Sys2Proof.Machine.execWaitRx src key s
  | .drainComplete => Sys2Proof.Machine.execDrainComplete s
  | .fenceTimeout => Sys2Proof.Machine.execFenceTimeout s
  | .pleMoveUnconfirmed => Sys2Proof.Machine.execPleMoveUnconfirmed s
  | .tier3Eval clients => Sys2Proof.Machine.execTier3Eval clients s
  | .steerTimeout mac => Sys2Proof.Machine.execSteerTimeout mac s
  | .loadReportSend clients nodes dram => Sys2Proof.Machine.execLoadReportSend clients nodes dram s
  | .loadRx src load limp clients nodes => Sys2Proof.Machine.execLoadRx src load limp clients nodes s
  | .tier4Eval => Sys2Proof.Machine.execTier4Eval s
  | .tier4Rx biases orders => Sys2Proof.Machine.execTier4Rx biases orders s
  | .leadOkTimeout => Sys2Proof.Machine.execLeadOkTimeout s
  | .pinSet req => Sys2Proof.Machine.execPinSet req s
  | .pinClear req => Sys2Proof.Machine.execPinClear req s
  | .pinRead req => Sys2Proof.Machine.execPinRead req s
  | .pinRx src image => Sys2Proof.Machine.execPinRx src image s
  | .rfGoOff req radio link => Sys2Proof.Machine.execRfGoOff req radio link s
  | .rfGoSleep req radio link => Sys2Proof.Machine.execRfGoSleep req radio link s
  | .rfGoIdle req radio link => Sys2Proof.Machine.execRfGoIdle req radio link s
  | .rfGoRx req radio link => Sys2Proof.Machine.execRfGoRx req radio link s
  | .rfTransitionDone radio link => Sys2Proof.Machine.execRfTransitionDone radio link s
  | .txCommand radio link cls len what errs receiving => Sys2Proof.Machine.execTxCommand radio link cls len what errs receiving s
  | .heldCommandStart radio link => Sys2Proof.Machine.execHeldCommandStart radio link s
  | .txLate radio link => Sys2Proof.Machine.execTxLate radio link s
  | .holdExpired radio link => Sys2Proof.Machine.execHoldExpired radio link s
  | .ppduTxEnd radio link vswr acked discarded => Sys2Proof.Machine.execPpduTxEnd radio link vswr acked discarded s
  | .calSegmentStart radio chain receiving due => Sys2Proof.Machine.execCalSegmentStart radio chain receiving due s
  | .calSegmentEnd radio chain => Sys2Proof.Machine.execCalSegmentEnd radio chain s
  | .dpdPermitRetry radio => Sys2Proof.Machine.execDpdPermitRetry radio s
  | .rfCalFull req radio link => Sys2Proof.Machine.execRfCalFull req radio link s
  | .rfDpdClear req radio link => Sys2Proof.Machine.execRfDpdClear req radio link s
  | .rfCalDone radio link => Sys2Proof.Machine.execRfCalDone radio link s
  | .paTempChange radio chain lna temp => Sys2Proof.Machine.execPaTempChange radio chain lna temp s
  | .mismatchProbe radio chain vswr => Sys2Proof.Machine.execMismatchProbe radio chain vswr s
  | .grantLoad req => Sys2Proof.Machine.execGrantLoad req s
  | .grantClear req => Sys2Proof.Machine.execGrantClear req s
  | .grantExpiring => Sys2Proof.Machine.execGrantExpiring s
  | .grantExpired => Sys2Proof.Machine.execGrantExpired s
  | .rfChanWrite req radio link second data => Sys2Proof.Machine.execRfChanWrite req radio link second data s
  | .channelMove radio link => Sys2Proof.Machine.execChannelMove radio link s
  | .rfbSplitWrite req split => Sys2Proof.Machine.execRfbSplitWrite req split s
  | .rfcGoOff req => Sys2Proof.Machine.execRfcGoOff req s
  | .rfcGoSleep req => Sys2Proof.Machine.execRfcGoSleep req s
  | .rfcGoIdle req => Sys2Proof.Machine.execRfcGoIdle req s
  | .rfcGoRx req => Sys2Proof.Machine.execRfcGoRx req s
  | .rfcTransitionDone => Sys2Proof.Machine.execRfcTransitionDone s
  | .applyPlan req => Sys2Proof.Machine.execApplyPlan req s
  | .spanRetuneDone => Sys2Proof.Machine.execSpanRetuneDone s
  | .calReq req => Sys2Proof.Machine.execCalReq req s
  | .tuneReq req port => Sys2Proof.Machine.execTuneReq req port s
  | .preambleDetect channel entry rssi current offset same => Sys2Proof.Machine.execPreambleDetect channel entry rssi current offset same s
  | .sfdDetect channel entry rssi fofs => Sys2Proof.Machine.execSfdDetect channel entry rssi fofs s
  | .phrDecode channel ms fcs16 dw length => Sys2Proof.Machine.execPhrDecode channel ms fcs16 dw length s
  | .rfcRxReport channel fcsOk psdu => Sys2Proof.Machine.execRfcRxReport channel fcsOk psdu s
  | .rfcTxCommand channel profile port level turn ref time deadline dw psdu => Sys2Proof.Machine.execRfcTxCommand channel profile port level turn ref time deadline dw psdu s
  | .rfcTxStart errs => Sys2Proof.Machine.execRfcTxStart errs s
  | .rfcTxLate => Sys2Proof.Machine.execRfcTxLate s
  | .rfcTxEnd vswr => Sys2Proof.Machine.execRfcTxEnd vswr s
  | .calSlotOpen image port0 port1 => Sys2Proof.Machine.execCalSlotOpen image port0 port1 s
  | .rfcTempChange temp => Sys2Proof.Machine.execRfcTempChange temp s
  | .rfcChLost channel => Sys2Proof.Machine.execRfcChLost channel s
  | .rfcChCfgWrite req channel data => Sys2Proof.Machine.execRfcChCfgWrite req channel data s
  | .assocRequest mac weak noBasicRate links singleLink => Sys2Proof.Machine.execAssocRequest mac weak noBasicRate links singleLink s
  | .staAdd req index => Sys2Proof.Machine.execStaAdd req index s
  | .staDel req index => Sys2Proof.Machine.execStaDel req index s
  | .staRead req index => Sys2Proof.Machine.execStaRead req index s
  | .staDelDone index => Sys2Proof.Machine.execStaDelDone index s
  | .mpduRx mpdu => Sys2Proof.Machine.execMpduRx mpdu s
  | .barRx link station tid ssn => Sys2Proof.Machine.execBarRx link station tid ssn s
  | .reorderTimeout station tid => Sys2Proof.Machine.execReorderTimeout station tid s
  | .twtSpBoundary period edge => Sys2Proof.Machine.execTwtSpBoundary period edge s
  | .beaconTx radio bss groupClient => Sys2Proof.Machine.execBeaconTx radio bss groupClient s
  | .wmaKeyInstall req index slot cipher => Sys2Proof.Machine.execWmaKeyInstall req index slot cipher s
  | .wmaKeyRemove req index slot => Sys2Proof.Machine.execWmaKeyRemove req index slot s
  | .wmaKeySetTx req index txSlot => Sys2Proof.Machine.execWmaKeySetTx req index txSlot s
  | .btmResponseRx mac status => Sys2Proof.Machine.execBtmResponseRx mac status s
  | .wmaBhDown link => Sys2Proof.Machine.execWmaBhDown link s
  | .bhRejoin link success => Sys2Proof.Machine.execBhRejoin link success s
  | .planCommit req => Sys2Proof.Machine.execPlanCommit req s
  | .planCancel req => Sys2Proof.Machine.execPlanCancel req s
  | .slotFrameStart => Sys2Proof.Machine.execSlotFrameStart s
  | .beaconSend => Sys2Proof.Machine.execBeaconSend s
  | .gackSend block => Sys2Proof.Machine.execGackSend block s
  | .cellFrameAsk block => Sys2Proof.Machine.execCellFrameAsk block s
  | .downSend block errs => Sys2Proof.Machine.execDownSend block errs s
  | .safeLevelSend block => Sys2Proof.Machine.execSafeLevelSend block s
  | .sgmRxReport => Sys2Proof.Machine.execSgmRxReport s
  | .downAckRx => Sys2Proof.Machine.execDownAckRx s
  | .downAckTimeout => Sys2Proof.Machine.execDownAckTimeout s
  | .keepalivePeriodEnd node => Sys2Proof.Machine.execKeepalivePeriodEnd node s
  | .sgmNodeAdd req index => Sys2Proof.Machine.execSgmNodeAdd req index s
  | .sgmNodeDel req index => Sys2Proof.Machine.execSgmNodeDel req index s
  | .sgmNodeRead req index => Sys2Proof.Machine.execSgmNodeRead req index s
  | .sgmNodeUpdate req index => Sys2Proof.Machine.execSgmNodeUpdate req index s
  | .sgmNodeReassign req index => Sys2Proof.Machine.execSgmNodeReassign req index s
  | .dutyBucketRoll => Sys2Proof.Machine.execDutyBucketRoll s
  | .ringProdWrite req ring prod => Sys2Proof.Machine.execRingProdWrite req ring prod s
  | .ringJobStart ring => Sys2Proof.Machine.execRingJobStart ring s
  | .jobStatusWrite ring count badWord => Sys2Proof.Machine.execJobStatusWrite ring count badWord s
  | .inlineJob unit key => Sys2Proof.Machine.execInlineJob unit key s
  | .keyDerivationDone => Sys2Proof.Machine.execKeyDerivationDone s
  | .cipQuarantine pairs inlines => Sys2Proof.Machine.execCipQuarantine pairs inlines s
  | .cipAlarmInput alarm inlines => Sys2Proof.Machine.execCipAlarmInput alarm inlines s
  | .cipErase => Sys2Proof.Machine.execCipErase s
  | .rngHealthFail => Sys2Proof.Machine.execRngHealthFail s
  | .rngHealthPass => Sys2Proof.Machine.execRngHealthPass s
  | .cipKeyInstall req index k256 => Sys2Proof.Machine.execCipKeyInstall req index k256 s
  | .cipKeyRemove req index => Sys2Proof.Machine.execCipKeyRemove req index s
  | .cipKeyDerive req index k256 slot => Sys2Proof.Machine.execCipKeyDerive req index k256 slot s
  | .evictSlot req slot => Sys2Proof.Machine.execEvictSlot req slot s
  | .cipKeyErase req inlines => Sys2Proof.Machine.execCipKeyErase req inlines s
  | .rootProgram req slot bank readBack => Sys2Proof.Machine.execRootProgram req slot bank readBack s
  | .ethFrameRx port frame => Sys2Proof.Machine.execEthFrameRx port frame s
  | .pauseRx port quanta => Sys2Proof.Machine.execPauseRx port quanta s
  | .pfcRx port enable quanta => Sys2Proof.Machine.execPfcRx port enable quanta s
  | .pauseTimerExpire port => Sys2Proof.Machine.execPauseTimerExpire port s
  | .ethFrameSend port errs => Sys2Proof.Machine.execEthFrameSend port errs s
  | .preemptFragmentEnd port => Sys2Proof.Machine.execPreemptFragmentEnd port s
  | .verifySend port => Sys2Proof.Machine.execVerifySend port s
  | .verifyResponseRx port => Sys2Proof.Machine.execVerifyResponseRx port s
  | .xoffReached port => Sys2Proof.Machine.execXoffReached port s
  | .pauseRepeat port => Sys2Proof.Machine.execPauseRepeat port s
  | .xonReached port => Sys2Proof.Machine.execXonReached port s
  | .lpiEnter port side => Sys2Proof.Machine.execLpiEnter port side s
  | .lpiExit port side => Sys2Proof.Machine.execLpiExit port side s
  | .linkDown port => Sys2Proof.Machine.execLinkDown port s
  | .linkUp port speed => Sys2Proof.Machine.execLinkUp port speed s
  | .tsFifoRead req port => Sys2Proof.Machine.execTsFifoRead req port s
  | .saInstall req port sc an => Sys2Proof.Machine.execSaInstall req port sc an s
  | .saRemove req port sc an => Sys2Proof.Machine.execSaRemove req port sc an s
  | .saSetTx req port sc an => Sys2Proof.Machine.execSaSetTx req port sc an s
  | .ethPortCfgWrite req port value => Sys2Proof.Machine.execEthPortCfgWrite req port value s
  | .preemptEnWrite req port value => Sys2Proof.Machine.execPreemptEnWrite req port value s
  | .dramRequest source addr words data => Sys2Proof.Machine.execDramRequest source addr words data s
  | .dramReadComplete channel word upset => Sys2Proof.Machine.execDramReadComplete channel word upset s
  | .strobeTimeout channel => Sys2Proof.Machine.execStrobeTimeout channel s
  | .wqEntryFreed channel => Sys2Proof.Machine.execWqEntryFreed channel s
  | .requestAged channel => Sys2Proof.Machine.execRequestAged channel s
  | .refreshDue channel sub util narrow => Sys2Proof.Machine.execRefreshDue channel sub util narrow s
  | .refreshWindowClose channel sub => Sys2Proof.Machine.execRefreshWindowClose channel sub s
  | .dieTempRead channel temp0 temp1 => Sys2Proof.Machine.execDieTempRead channel temp0 temp1 s
  | .temperDue channel => Sys2Proof.Machine.execTemperDue channel s
  | .loadTemperDue channel util => Sys2Proof.Machine.execLoadTemperDue channel util s
  | .loadTemperDeadline channel => Sys2Proof.Machine.execLoadTemperDeadline channel s
  | .drcRetrain req channel => Sys2Proof.Machine.execDrcRetrain req channel s
  | .drcTemper req channel => Sys2Proof.Machine.execDrcTemper req channel s
  | .retrainDone channel ok => Sys2Proof.Machine.execRetrainDone channel ok s
  | .dramScrub upset => Sys2Proof.Machine.execDramScrub upset s
  | .freezeHoldExpire => Sys2Proof.Machine.execFreezeHoldExpire s
  | .nop engine => Sys2Proof.Machine.execNop engine s
  | .pushs engine value => Sys2Proof.Machine.execPushs engine value s
  | .dup engine => Sys2Proof.Machine.execDup engine s
  | .drop engine => Sys2Proof.Machine.execDrop engine s
  | .swap engine => Sys2Proof.Machine.execSwap engine s
  | .overCopy engine => Sys2Proof.Machine.execOver engine s
  | .rot engine => Sys2Proof.Machine.execRot engine s
  | .pick engine entry => Sys2Proof.Machine.execPick engine entry s
  | .add engine => Sys2Proof.Machine.execAdd engine s
  | .sub engine => Sys2Proof.Machine.execSub engine s
  | .and engine => Sys2Proof.Machine.execAnd engine s
  | .or engine => Sys2Proof.Machine.execOr engine s
  | .xor engine => Sys2Proof.Machine.execXor engine s
  | .not engine => Sys2Proof.Machine.execNot engine s
  | .neg engine => Sys2Proof.Machine.execNeg engine s
  | .shl engine popped count => Sys2Proof.Machine.execShl engine popped count s
  | .shr engine popped count => Sys2Proof.Machine.execShr engine popped count s
  | .sar engine popped count => Sys2Proof.Machine.execSar engine popped count s
  | .mul engine => Sys2Proof.Machine.execMul engine s
  | .mulhu engine => Sys2Proof.Machine.execMulhu engine s
  | .mulhs engine => Sys2Proof.Machine.execMulhs engine s
  | .eq engine => Sys2Proof.Machine.execEq engine s
  | .lt engine => Sys2Proof.Machine.execLt engine s
  | .ltu engine => Sys2Proof.Machine.execLtu engine s
  | .sel engine => Sys2Proof.Machine.execSel engine s
  | .ld engine size upset => Sys2Proof.Machine.execLd engine size upset s
  | .st engine size => Sys2Proof.Machine.execSt engine size s
  | .lda engine ag advance upset => Sys2Proof.Machine.execLda engine ag advance upset s
  | .sta engine ag advance => Sys2Proof.Machine.execSta engine ag advance s
  | .toR engine => Sys2Proof.Machine.execToR engine s
  | .rFrom engine => Sys2Proof.Machine.execRFrom engine s
  | .rFetch engine => Sys2Proof.Machine.execRFetch engine s
  | .ret engine => Sys2Proof.Machine.execRet engine s
  | .jmps engine => Sys2Proof.Machine.execJmps engine s
  | .calls engine => Sys2Proof.Machine.execCalls engine s
  | .fence engine => Sys2Proof.Machine.execFence engine s
  | .brk engine => Sys2Proof.Machine.execBrk engine s
  | .push engine imm => Sys2Proof.Machine.execPush engine imm s
  | .pushUpper engine imm => Sys2Proof.Machine.execPushUpper engine imm s
  | .addi engine imm => Sys2Proof.Machine.execAddi engine imm s
  | .andi engine imm => Sys2Proof.Machine.execAndi engine imm s
  | .ori engine imm => Sys2Proof.Machine.execOri engine imm s
  | .xori engine imm => Sys2Proof.Machine.execXori engine imm s
  | .eqi engine imm => Sys2Proof.Machine.execEqi engine imm s
  | .lti engine imm => Sys2Proof.Machine.execLti engine imm s
  | .ltui engine imm => Sys2Proof.Machine.execLtui engine imm s
  | .brAlways engine offset => Sys2Proof.Machine.execBrAlways engine offset s
  | .brZero engine offset => Sys2Proof.Machine.execBrZero engine offset s
  | .brNonzero engine offset => Sys2Proof.Machine.execBrNonzero engine offset s
  | .call engine offset => Sys2Proof.Machine.execCall engine offset s
  | .ldo engine size offset upset => Sys2Proof.Machine.execLdo engine size offset upset s
  | .sto engine size offset => Sys2Proof.Machine.execSto engine size offset s
  | .agw engine ag field => Sys2Proof.Machine.execAgw engine ag field s
  | .agr engine ag field => Sys2Proof.Machine.execAgr engine ag field s
  | .agadd engine ag imm => Sys2Proof.Machine.execAgadd engine ag imm s
  | .amoadd engine upset => Sys2Proof.Machine.execAmoadd engine upset s
  | .amoswap engine upset => Sys2Proof.Machine.execAmoswap engine upset s
  | .amocas engine upset => Sys2Proof.Machine.execAmocas engine upset s
  | .srr engine reg => Sys2Proof.Machine.execSrr engine reg s
  | .srw engine reg => Sys2Proof.Machine.execSrw engine reg s
  | .sys engine imm => Sys2Proof.Machine.execSys engine imm s
  | .retx engine => Sys2Proof.Machine.execRetx engine s
  | .wld engine size popped offset errs => Sys2Proof.Machine.execWld engine size popped offset errs s
  | .mld engine size byte err => Sys2Proof.Machine.execMld engine size byte err s
  | .bext engine pos len => Sys2Proof.Machine.execBext engine pos len s
  | .layer engine code => Sys2Proof.Machine.execLayer engine code s
  | .key engine exact value len errs => Sys2Proof.Machine.execKey engine exact value len errs s
  | .lookup engine stall => Sys2Proof.Machine.execLookup engine stall s
  | .lenchk engine => Sys2Proof.Machine.execLenchk engine s
  | .mal engine cls => Sys2Proof.Machine.execMal engine cls s
  | .done engine index => Sys2Proof.Machine.execDone engine index s
  | .frag engine v6 errs => Sys2Proof.Machine.execFrag engine v6 errs s
  | .interruptEntry core => Sys2Proof.Machine.execInterruptEntry core s
  | .coreRun req run => Sys2Proof.Machine.execCoreRun req run s
  | .swiSet req cores => Sys2Proof.Machine.execSwiSet req cores s
  | .slotBudgetExpire core => Sys2Proof.Machine.execSlotBudgetExpire core s
  | .lockstepDifference => Sys2Proof.Machine.execLockstepDifference s
  | .pwrWaitRelease core => Sys2Proof.Machine.execPwrWaitRelease core s
  | .pwrVinLow mv => Sys2Proof.Machine.execPwrVinLow mv s
  | .vinLowClear mv => Sys2Proof.Machine.execVinLowClear mv s
  | .vinFail mv => Sys2Proof.Machine.execVinFail mv s
  | .pwrVinHigh mv => Sys2Proof.Machine.execPwrVinHigh mv s
  | .vinHighClear mv => Sys2Proof.Machine.execVinHighClear mv s
  | .domainIdleExpire dom => Sys2Proof.Machine.execDomainIdleExpire dom s
  | .domainWakeDemand dom => Sys2Proof.Machine.execDomainWakeDemand dom s
  | .domainWakeDone dom => Sys2Proof.Machine.execDomainWakeDone dom s
  | .targetFull req => Sys2Proof.Machine.execTargetFull req s
  | .targetReduced req => Sys2Proof.Machine.execTargetReduced req s
  | .targetStandby req => Sys2Proof.Machine.execTargetStandby req s
  | .targetOff req => Sys2Proof.Machine.execTargetOff req s
  | .stateTransitionDone => Sys2Proof.Machine.execStateTransitionDone s
  | .wakeNAssert => Sys2Proof.Machine.execWakeNAssert s
  | .wakeListenerEvent listener => Sys2Proof.Machine.execWakeListenerEvent listener s
  | .pwrBrownout => Sys2Proof.Machine.execPwrBrownout s
  | .brownoutLatchRelease => Sys2Proof.Machine.execBrownoutLatchRelease s
  | .permitRequest radio result => Sys2Proof.Machine.execPermitRequest radio result s
  | .permitPoll radio status result => Sys2Proof.Machine.execPermitPoll radio status result s
  | .permitTimeout radio => Sys2Proof.Machine.execPermitTimeout radio s
  | .permitRetryEnd radio => Sys2Proof.Machine.execPermitRetryEnd radio s
  | .permitRenewal radio => Sys2Proof.Machine.execPermitRenewal radio s
  | .pmbAlert word statusA statusB => Sys2Proof.Machine.execPmbAlert word statusA statusB s
  | .grantLeaseEnd radio => Sys2Proof.Machine.execGrantLeaseEnd radio s
  | .txopEndReport radio => Sys2Proof.Machine.execTxopEndReport radio s
  | .monitorRead values result => Sys2Proof.Machine.execMonitorRead values result s
  | .pmbusNackRetry again => Sys2Proof.Machine.execPmbusNackRetry again s
  | .powerCycle req offTime result => Sys2Proof.Machine.execPowerCycle req offTime result s
  | .asyFault monitor func => Sys2Proof.Machine.execAsyFault monitor func s
  | .heartbeatTimeout unit => Sys2Proof.Machine.execHeartbeatTimeout unit s
  | .daliSafeBroadcastStart port => Sys2Proof.Machine.execDaliSafeBroadcastStart port s
  | .fldSafeBroadcast port => Sys2Proof.Machine.execFldSafeBroadcast port s
  | .safeQuietExpire => Sys2Proof.Machine.execSafeQuietExpire s
  | .asyRelease req => Sys2Proof.Machine.execAsyRelease req s
  | .enterSafe req => Sys2Proof.Machine.execEnterSafe req s
  | .clearReplace req => Sys2Proof.Machine.execClearReplace req s
  | .lftNow req => Sys2Proof.Machine.execLftNow req s
  | .forceRung req func rung => Sys2Proof.Machine.execForceRung req func rung s
  | .hvWatchdogExpire => Sys2Proof.Machine.execHvWatchdogExpire s
  | .rungTimeout func => Sys2Proof.Machine.execRungTimeout func s
  | .lftDue => Sys2Proof.Machine.execLftDue s
  | .asyLftOverdue => Sys2Proof.Machine.execAsyLftOverdue s
  | .lftComplete fail => Sys2Proof.Machine.execLftComplete fail s
  | .tempRecovered => Sys2Proof.Machine.execTempRecovered s
  | .asyFaultEnd monitor func => Sys2Proof.Machine.execAsyFaultEnd monitor func s
  | .helloSend => Sys2Proof.Machine.execHelloSend s
  | .helloRx link member eui mask => Sys2Proof.Machine.execHelloRx link member eui mask s
  | .adjacencyTimeout link => Sys2Proof.Machine.execAdjacencyTimeout link s
  | .lsaSend => Sys2Proof.Machine.execLsaSend s
  | .lsaRx member seq edges => Sys2Proof.Machine.execLsaRx member seq edges s
  | .smpFrameRx link frame => Sys2Proof.Machine.execSmpFrameRx link frame s
  | .routeHoldEnd member => Sys2Proof.Machine.execRouteHoldEnd member s
  | .timeSend => Sys2Proof.Machine.execTimeSend s
  | .timeRx cycle lt freq valid sync => Sys2Proof.Machine.execTimeRx cycle lt freq valid sync s
  | .leadClaimRx src term deputy alias_ => Sys2Proof.Machine.execLeadClaimRx src term deputy alias_ s
  | .leaveRx src => Sys2Proof.Machine.execLeaveRx src s
  | .remoteRegAccess req target write value => Sys2Proof.Machine.execRemoteRegAccess req target write value s
  | .regReqRx src level addr write value request => Sys2Proof.Machine.execRegReqRx src level addr write value request s
  | .regRespRx src request unreachable value => Sys2Proof.Machine.execRegRespRx src request unreachable value s
  | .shfUnreachable => Sys2Proof.Machine.execShfUnreachable s
  | .steerRx src mac bssid pmkid wrapped => Sys2Proof.Machine.execSteerRx src mac bssid pmkid wrapped s
  | .steerDoneRx src mac => Sys2Proof.Machine.execSteerDoneRx src mac s
  | .nodeMoveRx src eui addr old new accepted => Sys2Proof.Machine.execNodeMoveRx src eui addr old new accepted s
  | .faultRx head func row cls rung => Sys2Proof.Machine.execFaultRx head func row cls rung s
  | .safeRx head exit causes level => Sys2Proof.Machine.execSafeRx head exit causes level s
  | .replaceRx head cause => Sys2Proof.Machine.execReplaceRx head cause s
  | .cycleReqRx head func => Sys2Proof.Machine.execCycleReqRx head func s
  | .leadLost => Sys2Proof.Machine.execLeadLost s
  | .shfRejoin req => Sys2Proof.Machine.execShfRejoin req s
  | .shfTakeover req => Sys2Proof.Machine.execShfTakeover req s
  | .hostMemoryAccess write offset len data upset => Sys2Proof.Machine.execHostMemoryAccess write offset len data upset s
  | .hifDoorbell req value => Sys2Proof.Machine.execHifDoorbell req value s
  | .hifHostDb req value => Sys2Proof.Machine.execHifHostDb req value s
  | .daliSend16 req port prio => Sys2Proof.Machine.execDaliSend16 req port prio s
  | .daliSend24 req port prio => Sys2Proof.Machine.execDaliSend24 req port prio s
  | .daliFrameStart port => Sys2Proof.Machine.execDaliFrameStart port s
  | .daliCollision port => Sys2Proof.Machine.execDaliCollision port s
  | .daliBackwardRx port data garbled => Sys2Proof.Machine.execDaliBackwardRx port data garbled s
  | .daliAnswerWindowEnd port => Sys2Proof.Machine.execDaliAnswerWindowEnd port s
  | .daliBusLow port => Sys2Proof.Machine.execDaliBusLow port s
  | .daliBusHigh port => Sys2Proof.Machine.execDaliBusHigh port s
  | .echoQuery port gear => Sys2Proof.Machine.execEchoQuery port gear s
  | .pwmPeriodStart output readsLow => Sys2Proof.Machine.execPwmPeriodStart output readsLow s
  | .pwmDutyWrite req output duty => Sys2Proof.Machine.execPwmDutyWrite req output duty s
  | .gpioInputAccept input level => Sys2Proof.Machine.execGpioInputAccept input level s
  | .chatterHoldEnd input => Sys2Proof.Machine.execChatterHoldEnd input s
  | .fldInStuck input => Sys2Proof.Machine.execFldInStuck input s
  | .pulseEnd gpio => Sys2Proof.Machine.execPulseEnd gpio s
  | .evselWrite req index value => Sys2Proof.Machine.execEvselWrite req index value s
  | .prfSnap req => Sys2Proof.Machine.execPrfSnap req s
  | .prfFreezeWrite req freeze => Sys2Proof.Machine.execPrfFreezeWrite req freeze s
  | .sampleCandidate engine word => Sys2Proof.Machine.execSampleCandidate engine word s
  | .logEntry unit event args reaction => Sys2Proof.Machine.execLogEntry unit event args reaction s
  | .stagedMove => Sys2Proof.Machine.execStagedMove s
  | .logStoppedClear req => Sys2Proof.Machine.execLogStoppedClear req s
  | .bypass => Sys2Proof.Machine.execBypass s
  | .idcode => Sys2Proof.Machine.execIdcode s
  | .samplePreload balls => Sys2Proof.Machine.execSamplePreload balls s
  | .extest => Sys2Proof.Machine.execExtest s
  | .clamp => Sys2Proof.Machine.execClamp s
  | .highz => Sys2Proof.Machine.execHighz s
  | .trigNoresp root user => Sys2Proof.Machine.execTrigNoresp root user s
  | .dieErrorFlag channel sub => Sys2Proof.Machine.execDieErrorFlag channel sub s
  | .illegal engine => Sys2Proof.Machine.execIllegal engine s
  | .rungComplete func => Sys2Proof.Machine.execRungComplete func s

end Sys2Proof.Machine
end

