-- ==== Sys2Proof/Safety.lean ====
section
/-! DEFINITION. The terms that claims about the block use: when the gate lets a register write through, what the shared
services (power demand, counters, the event log) may change, and the canonical form that every step keeps. -/

namespace Sys2Proof.Machine

/-! ### Outcomes -/

/-- The outcome is a next state, of which `P` holds. -/
def Gives (o : Host.Outcome State Fault Refusal) (P : State → Prop) : Prop := ∃ t, o = .next t ∧ P t

/-- A command register reports that its command has ended DONE with a result (R14). -/
def State.ended (s : State) (a result : Nat) : Prop := s.f (cmdState a) = 2 ∧ s.f (cmdResult a) = result

/-! ### Admission of a write (R9, R28, R17, R14) -/

/-- A write by a requester to a register of a unit that needs a level reaches the register: the device is not in OFF (but
for the maintenance port), the unit has power, it is ready or the writer is Vendor, and the level suffices (R9, R28, R17). -/
def State.admits (s : State) (u : UnitId) (need : Level) (r : Req) : Bool :=
  !(s.isOff && decide (r.path ≠ .maint)) && !s.unitDark u && (s.ready u || decide (r.level = .vendor)) && r.level.covers need

/-- The state in which an admitted write acts: the unit's domain is awake and the write counted (R8, R467). -/
def State.entered (s : State) (u : UnitId) : State := (s.demand u).prfCount u 5 none 1

/-- A command register accepts a command: the write is admitted and no action runs (R14). -/
def State.accepts (s : State) (c : CmdReg) (r : Req) : Bool :=
  s.admits c.unit c.level r && decide (s.f (cmdState c.addr) ≠ 1)

/-- The requester is the Bodkin firmware or the safety cores at Vendor level. -/
def vendorReq : Req := { path := .core 0, level := .vendor }

/-- The maintenance port at Operator level (R83). -/
def maintReq : Req := { path := .maint, level := .operator }

/-! ### What the shared services may change -/

/-- The registers that waking a domain, counting and logging write: `PWR_STATE` and `PWR_CNT_WAKE` (R400), the overflow
words of the counters (R467), `PRF_LOG_STAT` and `PRF_LOG_LOST` (R477). -/
def serviceReg (a : Nat) : Bool :=
  decide (a = PWR_STATE_DOM_LP.addr) || decide (a = PWR_CNT_WAKE.addr) || decide (a = PWR_CNT_WAKE.addr + 4) ||
    (decide (0x6000020 ≤ a) && decide (a < 0x6000020 + 24)) || decide (a = PRF_LOG_STAT_NEXT.addr) ||
    decide (a = PRF_LOG_LOST.addr) || decide (a = PRF_LOG_LOST.addr + 4)

/-- What the shared services never touch: everything but the register file, the log, the counters, the domains' condition and
the cores. -/
def State.quiet (s : State) : State :=
  { s with
    regs := []
    log := {}
    prf := {}
    pwr := { s.pwr with doms := [], idleSince := [] }
    cpu := { s.cpu with cores := [] } }

/-- The second state differs from the first by no more than waking domains, counting, logging, and interrupts made pending:
of `PWR_STATE` its STATE and RETURN stay. -/
structure ServiceOnly (s t : State) : Prop where
  regs : ∀ a, serviceReg a = false → t.rd a = s.rd a
  rest : t.quiet = s.quiet
  state : t.f PWR_STATE_STATE = s.f PWR_STATE_STATE ∧ t.f PWR_STATE_RETURN = s.f PWR_STATE_RETURN
  cores : ∀ c, { t.core c with pend := 0 } = { s.core c with pend := 0 }

/-! ### A Bodkin or Bodkin-P engine at work -/

/-- The operand stack, or the return stack, of an engine, top first (R378, R379, R394). -/
def State.stackOf (s : State) (e : Engine) (ret : Bool := false) : List Word :=
  match e with
  | .core c => (s.core (coreKey c.val)).entries ret
  | .pe n => match s.pe n.val with | some x => x.entries ret | none => []

/-- The word address of an engine's word in progress (R381). -/
def State.pcOf (s : State) (e : Engine) : Word :=
  match e with
  | .core c => (s.core (coreKey c.val)).pc
  | .pe n => match s.pe n.val with | some x => BitVec.ofNat 32 x.pc | none => 0

/-- Slot A of an engine's word in progress has executed (R381). -/
def State.inSlotB (s : State) (e : Engine) : Bool :=
  match e with
  | .core c => (s.core (coreKey c.val)).slotA.isSome
  | .pe n => match s.pe n.val with | some x => x.slotA.isSome | none => false

/-- An engine issues its next operation: a core that executes and whose word, where it is a new one, can be fetched (R389,
R391); a parse engine whose pass has more than `cycles` cycles left (R114, R396). -/
def State.issues (s : State) (e : Engine) (cycles : Nat := 1) : Bool :=
  match e with
  | .core c =>
    s.coreAble (coreKey c.val) && ((s.core (coreKey c.val)).slotA.isSome || (s.fetchExc (coreKey c.val)).isNone)
  | .pe n =>
    !s.unitDark .par && match s.pe n.val with | some x => x.final.isNone && decide (x.cycles + cycles < 512) | none => false

/-- The entries of an engine's return stack that need no spill (R379, R394). -/
def returnRoom : Engine → Nat
  | .core _ => 16
  | .pe _ => 4

/-- The data memories of the cluster and DRAM are those of the other state. -/
def State.sameMemories (s t : State) : Prop :=
  t.shared = s.shared ∧ t.dram = s.dram ∧ ∀ c, t.localMem c = s.localMem c

/-- An operation of an engine has left everything but that engine as it was: the data memories, the registers but those of the
shared services, every other core but for interrupts made pending, and every other parse engine. -/
def State.sameData (s t : State) (e : Engine) : Prop :=
  s.sameMemories t ∧ (∀ a, serviceReg a = false → t.rd a = s.rd a) ∧
    (∀ c : Fin 6, (∀ d, e = .core d → coreKey c.val ≠ coreKey d.val) →
      { t.core (coreKey c.val) with pend := 0 } = { s.core (coreKey c.val) with pend := 0 }) ∧
    ∀ n : Fin 32, e ≠ .pe n → t.pe n.val = s.pe n.val

/-- An engine has performed an operation: its stacks, the word in progress, and whether slot B is next. -/
structure Ran (t : State) (e : Engine) (stack rstack : List Word) (pc : Word) (slotB : Bool) : Prop where
  stack : t.stackOf e = stack
  rstack : t.stackOf e true = rstack
  pc : t.pcOf e = pc
  slotB : t.inSlotB e = slotB

/-- A short operation that is no jump has been performed: slot B of the word follows slot A, and the next word slot B (R381). -/
def RanShort (s t : State) (e : Engine) (stack rstack : List Word) : Prop :=
  Ran t e stack rstack (if s.inSlotB e then s.pcOf e + 1 else s.pcOf e) (!s.inSlotB e)

/-- A core has taken an exception (R387, R388): EPC, ECAUSE, Vendor mode with EXC 1, and the vector of the code. -/
structure Trapped (s t : State) (k code : Nat) (slotB : Bool) : Prop where
  epc : (t.core k).epc = (s.core k).pc
  ecause : (t.core k).ecause =
    BitVec.ofNat 32 (code + slotB.toNat * 2 ^ 5 + levelNum (s.core k).level * 2 ^ 6 + (s.core k).slot * 2 ^ 8)
  mode : (t.core k).level = .vendor ∧ (t.core k).exc = true ∧ (t.core k).slotA = none
  pc : (t.core k).pc = BitVec.ofNat 32 ((s.f CPU_VBASE_BASE * 1024 + 32 * code) / 4)

/-! ### What a command may change -/

/-- The parts of the state, one for each of its fields but the queue. -/
inductive Part where
  | regs | hold | readData | now | lt | freeCtr | shared | bad | dram | mtm | log | prf | cfg | pwr | asy
  | fld | tap | cpu | shf | hif | sgm | rfc | pkb | wgc | par | flw | sch | ple | rfa | rfb | wma | cip | eth
  | drc
  deriving DecidableEq, Repr

/-- The state with some of its parts blank. -/
def State.forget (s : State) (ps : List Part) : State where
  pending := s.pending
  regs := if Part.regs ∈ ps then State.reset.regs else s.regs
  hold := if Part.hold ∈ ps then State.reset.hold else s.hold
  readData := if Part.readData ∈ ps then State.reset.readData else s.readData
  now := if Part.now ∈ ps then State.reset.now else s.now
  lt := if Part.lt ∈ ps then State.reset.lt else s.lt
  freeCtr := if Part.freeCtr ∈ ps then State.reset.freeCtr else s.freeCtr
  shared := if Part.shared ∈ ps then State.reset.shared else s.shared
  bad := if Part.bad ∈ ps then State.reset.bad else s.bad
  dram := if Part.dram ∈ ps then State.reset.dram else s.dram
  mtm := if Part.mtm ∈ ps then State.reset.mtm else s.mtm
  log := if Part.log ∈ ps then State.reset.log else s.log
  prf := if Part.prf ∈ ps then State.reset.prf else s.prf
  cfg := if Part.cfg ∈ ps then State.reset.cfg else s.cfg
  pwr := if Part.pwr ∈ ps then State.reset.pwr else s.pwr
  asy := if Part.asy ∈ ps then State.reset.asy else s.asy
  fld := if Part.fld ∈ ps then State.reset.fld else s.fld
  tap := if Part.tap ∈ ps then State.reset.tap else s.tap
  cpu := if Part.cpu ∈ ps then State.reset.cpu else s.cpu
  shf := if Part.shf ∈ ps then State.reset.shf else s.shf
  hif := if Part.hif ∈ ps then State.reset.hif else s.hif
  sgm := if Part.sgm ∈ ps then State.reset.sgm else s.sgm
  rfc := if Part.rfc ∈ ps then State.reset.rfc else s.rfc
  pkb := if Part.pkb ∈ ps then State.reset.pkb else s.pkb
  wgc := if Part.wgc ∈ ps then State.reset.wgc else s.wgc
  par := if Part.par ∈ ps then State.reset.par else s.par
  flw := if Part.flw ∈ ps then State.reset.flw else s.flw
  sch := if Part.sch ∈ ps then State.reset.sch else s.sch
  ple := if Part.ple ∈ ps then State.reset.ple else s.ple
  rfa := if Part.rfa ∈ ps then State.reset.rfa else s.rfa
  rfb := if Part.rfb ∈ ps then State.reset.rfb else s.rfb
  wma := if Part.wma ∈ ps then State.reset.wma else s.wma
  cip := if Part.cip ∈ ps then State.reset.cip else s.cip
  eth := if Part.eth ∈ ps then State.reset.eth else s.eth
  drc := if Part.drc ∈ ps then State.reset.drc else s.drc

/-- The second state differs from the first in no part but those listed: the queue and every other part stay. -/
def OnlyIn (ps : List Part) (s t : State) : Prop := t.forget ps = s.forget ps

/-- The groups of commands that one statement each covers: time, start-up, power, safety, field I/O and observation; packets;
radios; the processors, memories, ciphers and links. -/
inductive Area where
  | control | packets | radios | engines
  deriving DecidableEq, Repr

/-- Parts of the state that many commands may change: what entering a unit touches (R8, R467), with what logging touches (R473). -/
def partsEnter : List Part := [.regs, .prf, .pwr, .cpu]
def partsLog : List Part := .log :: partsEnter
def partsCmd : List Part := .freeCtr :: partsLog
/-- Time by the reference passes (R45, R46). -/
def partsTime : List Part := [.now, .lt, .mtm]
/-- The units outside the always-on domain, as a reset of their domains clears them. -/
def partsUnits : List Part :=
  [.hold, .bad, .shf, .hif, .sgm, .rfc, .pkb, .par, .flw, .sch, .ple, .rfa, .rfb, .wma, .cip, .eth, .drc]

/-! The sets that occur: the parts that the name says. -/
def partsFld : List Part := [.fld]
def partsTap : List Part := [.tap]
def partsRegs : List Part := [.regs]
def partsRegsCfg : List Part := [.regs, .cfg]
def partsRegsLog : List Part := [.regs, .log]
def partsRegsSch : List Part := [.regs, .sch]
def partsCmdAsy : List Part := partsCmd ++ [.asy]
def partsCmdCfg : List Part := partsCmd ++ [.cfg]
def partsCmdCip : List Part := partsCmd ++ [.cip]
def partsCmdDrc : List Part := partsCmd ++ [.drc]
def partsCmdFld : List Part := partsCmd ++ [.fld]
def partsCmdFlw : List Part := partsCmd ++ [.flw]
def partsCmdPar : List Part := partsCmd ++ [.par]
def partsCmdPkb : List Part := partsCmd ++ [.pkb]
def partsCmdRfc : List Part := partsCmd ++ [.rfc]
def partsCmdSgm : List Part := partsCmd ++ [.sgm]
def partsCmdWma : List Part := partsCmd ++ [.wma]
def partsLogAsy : List Part := partsLog ++ [.asy]
def partsLogDrc : List Part := partsLog ++ [.drc]
def partsLogFld : List Part := partsLog ++ [.fld]
def partsLogMtm : List Part := partsLog ++ [.mtm]
def partsLogRfc : List Part := partsLog ++ [.rfc]
def partsLogShf : List Part := partsLog ++ [.shf]
def partsLogTap : List Part := partsLog ++ [.tap]
def partsRegsCfgPwr : List Part := [.regs, .cfg, .pwr]
def partsTimeFld : List Part := partsTime ++ [.fld]
def partsEnterDrc : List Part := partsEnter ++ [.drc]
def partsEnterEth : List Part := partsEnter ++ [.eth]
def partsEnterFlw : List Part := partsEnter ++ [.flw]
def partsEnterPle : List Part := partsEnter ++ [.ple]
def partsEnterRfc : List Part := partsEnter ++ [.rfc]
def partsEnterSch : List Part := partsEnter ++ [.sch]
def partsEnterShf : List Part := partsEnter ++ [.shf]
def partsEnterWma : List Part := partsEnter ++ [.wma]
def partsLogTime : List Part := partsLog ++ partsTime
def partsCmdLtMtm : List Part := partsCmd ++ [.lt, .mtm]
def partsRegsFreeCtrMtm : List Part := [.regs, .freeCtr, .mtm]
def partsRegsFreeCtrPrf : List Part := [.regs, .freeCtr, .prf]
def partsCmdBadPar : List Part := partsCmd ++ [.bad, .par]
def partsCmdBadRfc : List Part := partsCmd ++ [.bad, .rfc]
def partsCmdWmaCip : List Part := partsCmd ++ [.wma, .cip]
def partsLogAsyFld : List Part := partsLog ++ [.asy, .fld]
def partsLogCfgPkb : List Part := partsLog ++ [.cfg, .pkb]
def partsLogPkbWma : List Part := partsLog ++ [.pkb, .wma]
def partsLogSgmSch : List Part := partsLog ++ [.sgm, .sch]
def partsEnterRfaRfb : List Part := partsEnter ++ [.rfa, .rfb]
def partsEnterRfcSch : List Part := partsEnter ++ [.rfc, .sch]
def partsEnterSchPle : List Part := partsEnter ++ [.sch, .ple]
def partsEnterSgmSch : List Part := partsEnter ++ [.sgm, .sch]
def partsTimeRegsAsy : List Part := partsTime ++ [.regs, .asy]
def partsTimeRegsFld : List Part := partsTime ++ [.regs, .fld]
def partsTimeRegsPar : List Part := partsTime ++ [.regs, .par]
def partsTimeRegsPwr : List Part := partsTime ++ [.regs, .pwr]
def partsTimeRegsSch : List Part := partsTime ++ [.regs, .sch]
def partsTimeRegsShf : List Part := partsTime ++ [.regs, .shf]
def partsEnterDramDrc : List Part := partsEnter ++ [.dram, .drc]
def partsEnterSharedHif : List Part := partsEnter ++ [.shared, .hif]
def partsCmdBadCipEth : List Part := partsCmd ++ [.bad, .cip, .eth]
def partsCmdBadWmaCip : List Part := partsCmd ++ [.bad, .wma, .cip]
def partsCmdFlwSchPle : List Part := partsCmd ++ [.flw, .sch, .ple]
def partsCmdMtmFldSgm : List Part := partsCmd ++ [.mtm, .fld, .sgm]
def partsEnterFreeCtrSch : List Part := partsEnter ++ [.freeCtr, .sch]
def partsLogAsySgmRfa : List Part := partsLog ++ [.asy, .sgm, .rfa]
def partsLogBadSgmRfc : List Part := partsLog ++ [.bad, .sgm, .rfc]
def partsLogTimeCfg : List Part := partsLog ++ partsTime ++ [.cfg]
def partsLogTimeEth : List Part := partsLog ++ partsTime ++ [.eth]
def partsLogTimeFld : List Part := partsLog ++ partsTime ++ [.fld]
def partsLogTimePle : List Part := partsLog ++ partsTime ++ [.ple]
def partsLogTimeRfa : List Part := partsLog ++ partsTime ++ [.rfa]
def partsLogTimeShf : List Part := partsLog ++ partsTime ++ [.shf]
def partsRegsCfgPwrFldShf : List Part := [.regs, .cfg, .pwr, .fld, .shf]
def partsEnterPkbParSch : List Part := partsEnter ++ [.pkb, .par, .sch]
def partsUnitsCmdCfg : List Part := partsUnits ++ partsCmd ++ [.cfg]
def partsEnterTimeDrc : List Part := partsEnter ++ partsTime ++ [.drc]
def partsEnterTimeEth : List Part := partsEnter ++ partsTime ++ [.eth]
def partsEnterTimePle : List Part := partsEnter ++ partsTime ++ [.ple]
def partsEnterTimeRfc : List Part := partsEnter ++ partsTime ++ [.rfc]
def partsEnterTimeSgm : List Part := partsEnter ++ partsTime ++ [.sgm]
def partsUnitsEnterCfg : List Part := partsUnits ++ partsEnter ++ [.cfg]
def partsCmdHoldReadDataEth : List Part := partsCmd ++ [.hold, .readData, .eth]
def partsCmdPkbParFlwSch : List Part := partsCmd ++ [.pkb, .par, .flw, .sch]
def partsLogPkbParFlwSch : List Part := partsLog ++ [.pkb, .par, .flw, .sch]
def partsLogPkbSchPleWma : List Part := partsLog ++ [.pkb, .sch, .ple, .wma]
def partsLogTimeFldSgm : List Part := partsLog ++ partsTime ++ [.fld, .sgm]
def partsLogTimePkbWma : List Part := partsLog ++ partsTime ++ [.pkb, .wma]
def partsEnterSgmRfcPkbSch : List Part := partsEnter ++ [.sgm, .rfc, .pkb, .sch]
def partsTimeRegsPrfCpuSch : List Part := partsTime ++ [.regs, .prf, .cpu, .sch]
def partsEnterTimeRfaRfb : List Part := partsEnter ++ partsTime ++ [.rfa, .rfb]
def partsEnterTimeSchPle : List Part := partsEnter ++ partsTime ++ [.sch, .ple]
def partsUnitsLogSharedDram : List Part := partsUnits ++ partsLog ++ [.shared, .dram]
def partsLogTimeAsyFldSgm : List Part := partsLog ++ partsTime ++ [.asy, .fld, .sgm]
def partsLogTimeSgmPkbSch : List Part := partsLog ++ partsTime ++ [.sgm, .pkb, .sch]
def partsLogTimeSgmRfcPkb : List Part := partsLog ++ partsTime ++ [.sgm, .rfc, .pkb]
def partsRegsPrfCpuPkbParFlwSch : List Part := [.regs, .prf, .cpu, .pkb, .par, .flw, .sch]
def partsEnterTimeSgmPkbSch : List Part := partsEnter ++ partsTime ++ [.sgm, .pkb, .sch]
def partsUnitsCmdSharedCfgAsy : List Part := partsUnits ++ partsCmd ++ [.shared, .cfg, .asy]
def partsEnterSharedBadDramHifCip : List Part := partsEnter ++ [.shared, .bad, .dram, .hif, .cip]
def partsUnitsCmdSharedCfgAsyFld : List Part := partsUnits ++ partsCmd ++ [.shared, .cfg, .asy, .fld]
def partsUnitsLogSharedCfgAsyFld : List Part := partsUnits ++ partsLog ++ [.shared, .cfg, .asy, .fld]
def partsCmdBadShfPkbSchPleWmaCip : List Part := partsCmd ++ [.bad, .shf, .pkb, .sch, .ple, .wma, .cip]
def partsLogBadShfPkbSchPleWmaCip : List Part := partsLog ++ [.bad, .shf, .pkb, .sch, .ple, .wma, .cip]
def partsTimeRegsPrfCpuPkbParFlwSch : List Part := partsTime ++ [.regs, .prf, .cpu, .pkb, .par, .flw, .sch]
def partsUnitsCmdSharedCfgAsyFldWgc : List Part := partsUnits ++ partsCmd ++ [.shared, .cfg, .asy, .fld, .wgc]
def partsUnitsCmdSharedMtmCfgAsyFld : List Part := partsUnits ++ partsCmd ++ [.shared, .mtm, .cfg, .asy, .fld]
def partsUnitsLogSharedMtmCfgAsyFld : List Part := partsUnits ++ partsLog ++ [.shared, .mtm, .cfg, .asy, .fld]
def partsUnitsLogTimeSharedCfgAsy : List Part := partsUnits ++ partsLog ++ partsTime ++ [.shared, .cfg, .asy]
def partsUnitsCmdSharedDramCfgAsyFldWgc : List Part := partsUnits ++ partsCmd ++ [.shared, .dram, .cfg, .asy, .fld, .wgc]
def partsUnitsCmdTimeSharedCfgAsyFld : List Part := partsUnits ++ partsCmd ++ partsTime ++ [.shared, .cfg, .asy, .fld]
def partsUnitsLogTimeSharedCfgAsyFld : List Part := partsUnits ++ partsLog ++ partsTime ++ [.shared, .cfg, .asy, .fld]
def partsLogTimeBadShfPkbSchPleWmaCip : List Part := partsLog ++ partsTime ++ [.bad, .shf, .pkb, .sch, .ple, .wma, .cip]
def partsUnitsCmdReadDataSharedCfgAsyFldWgc : List Part := partsUnits ++ partsCmd ++ [.readData, .shared, .cfg, .asy, .fld, .wgc]
def partsUnitsCmdTimeSharedCfgAsyFldWgc : List Part := partsUnits ++ partsCmd ++ partsTime ++ [.shared, .cfg, .asy, .fld, .wgc]
def partsUnitsLogTimeSharedCfgAsyFldWgc : List Part := partsUnits ++ partsLog ++ partsTime ++ [.shared, .cfg, .asy, .fld, .wgc]
def partsUnitsCmdReadDataLtSharedDramMtmCfgAsyFldWgc : List Part := partsUnits ++ partsCmd ++ [.readData, .lt, .shared, .dram, .mtm, .cfg, .asy, .fld, .wgc]
def partsUnitsLogReadDataLtSharedDramMtmCfgAsyFldWgc : List Part := partsUnits ++ partsLog ++ [.readData, .lt, .shared, .dram, .mtm, .cfg, .asy, .fld, .wgc]
def partsLogMtmCfgAsyShfSgm : List Part := partsLog ++ [.mtm, .cfg, .asy, .shf, .sgm]
def partsLogMtmCfgCip : List Part := partsLog ++ [.mtm, .cfg, .cip]
def partsUnitsCmdSharedMtmCfgAsy : List Part := partsUnits ++ partsCmd ++ [.shared, .mtm, .cfg, .asy]
def partsEnterFreeCtrBadPkb : List Part := partsEnter ++ [.freeCtr, .bad, .pkb]
def partsUnitsLogSharedCfgAsyFldWgc : List Part := partsUnits ++ partsLog ++ [.shared, .cfg, .asy, .fld, .wgc]
def partsEnterFreeCtrBadPkbFlw : List Part := partsEnter ++ [.freeCtr, .bad, .pkb, .flw]
def partsCmdBadPkbFlw : List Part := partsCmd ++ [.bad, .pkb, .flw]
def partsEnterFreeCtrBadPkbParFlwSch : List Part := partsEnter ++ [.freeCtr, .bad, .pkb, .par, .flw, .sch]
def partsCmdShfRfa : List Part := partsCmd ++ [.shf, .rfa]
def partsLogTimeShfRfa : List Part := partsLog ++ partsTime ++ [.shf, .rfa]
def partsEnterSchEth : List Part := partsEnter ++ [.sch, .eth]
def partsEnterShfSchEth : List Part := partsEnter ++ [.shf, .sch, .eth]
def partsCmdSchEth : List Part := partsCmd ++ [.sch, .eth]
def partsCmdShfSchEth : List Part := partsCmd ++ [.shf, .sch, .eth]
def partsEnterTimeSchEth : List Part := partsEnter ++ partsTime ++ [.sch, .eth]
def partsRegsPwrRfaRfb : List Part := [.regs, .pwr, .rfa, .rfb]
def partsUnitsLogMtmCfg : List Part := partsUnits ++ partsLog ++ [.mtm, .cfg]
def partsLogSharedCfgAsyShfHifCip : List Part := partsLog ++ [.shared, .cfg, .asy, .shf, .hif, .cip]
def partsLogSharedMtmCfgAsyFldShfHifSgmCip : List Part := partsLog ++ [.shared, .mtm, .cfg, .asy, .fld, .shf, .hif, .sgm, .cip]
def partsCmdBadShfPkbFlwPleCipDrc : List Part := partsCmd ++ [.bad, .shf, .pkb, .flw, .ple, .cip, .drc]
def partsCmdBadShfPkbParFlwSchCipDrc : List Part := partsCmd ++ [.bad, .shf, .pkb, .par, .flw, .sch, .cip, .drc]
def partsCmdBadShfPkbParFlwSchPleCipDrc : List Part := partsCmd ++ [.bad, .shf, .pkb, .par, .flw, .sch, .ple, .cip, .drc]
def partsCmdBadShfPkbParFlwSchPleCip : List Part := partsCmd ++ [.bad, .shf, .pkb, .par, .flw, .sch, .ple, .cip]
def partsCmdTimeBadShfPkbParFlwSchPleCipDrc : List Part := partsCmd ++ partsTime ++ [.bad, .shf, .pkb, .par, .flw, .sch, .ple, .cip, .drc]
def partsCmdBadPkbSchPle : List Part := partsCmd ++ [.bad, .pkb, .sch, .ple]
def partsEnterShfPleCip : List Part := partsEnter ++ [.shf, .ple, .cip]
def partsEnterShfFlwPleCip : List Part := partsEnter ++ [.shf, .flw, .ple, .cip]
def partsLogShfFlwPleCip : List Part := partsLog ++ [.shf, .flw, .ple, .cip]
def partsEnterShfFlwSchPleCip : List Part := partsEnter ++ [.shf, .flw, .sch, .ple, .cip]
def partsEnterTimeShfPleCip : List Part := partsEnter ++ partsTime ++ [.shf, .ple, .cip]
def partsCmdShfFlwSchPleCip : List Part := partsCmd ++ [.shf, .flw, .sch, .ple, .cip]
def partsEnterTimeShfFlwSchPleCip : List Part := partsEnter ++ partsTime ++ [.shf, .flw, .sch, .ple, .cip]
def partsEnterTimeShfFlwSchPleWmaCip : List Part := partsEnter ++ partsTime ++ [.shf, .flw, .sch, .ple, .wma, .cip]
def partsLogShfRfaRfb : List Part := partsLog ++ [.shf, .rfa, .rfb]
def partsCmdShfSch : List Part := partsCmd ++ [.shf, .sch]
def partsLogShfSchPleRfaRfb : List Part := partsLog ++ [.shf, .sch, .ple, .rfa, .rfb]
def partsLogBadShfSchPleRfaRfb : List Part := partsLog ++ [.bad, .shf, .sch, .ple, .rfa, .rfb]
def partsCmdShfSchPleRfaRfb : List Part := partsCmd ++ [.shf, .sch, .ple, .rfa, .rfb]
def partsLogTimeBadShfSchPleRfaRfb : List Part := partsLog ++ partsTime ++ [.bad, .shf, .sch, .ple, .rfa, .rfb]
def partsLogTimeShfSchPleRfaRfb : List Part := partsLog ++ partsTime ++ [.shf, .sch, .ple, .rfa, .rfb]
def partsEnterTimeSchWma : List Part := partsEnter ++ partsTime ++ [.sch, .wma]
def partsEnterShfWmaCip : List Part := partsEnter ++ [.shf, .wma, .cip]
def partsCmdBadPkbSchWmaCip : List Part := partsCmd ++ [.bad, .pkb, .sch, .wma, .cip]
def partsLogTimeSchRfaRfbWmaCip : List Part := partsLog ++ partsTime ++ [.sch, .rfa, .rfb, .wma, .cip]
def partsCmdBadShfSchPleWmaCip : List Part := partsCmd ++ [.bad, .shf, .sch, .ple, .wma, .cip]
def partsLogTimeBadSchPleWmaCip : List Part := partsLog ++ partsTime ++ [.bad, .sch, .ple, .wma, .cip]
def partsEnterShfSgmCip : List Part := partsEnter ++ [.shf, .sgm, .cip]
def partsEnterFreeCtrBadSgmRfcPkbSchCip : List Part := partsEnter ++ [.freeCtr, .bad, .sgm, .rfc, .pkb, .sch, .cip]
def partsLogTimeSgmRfcCip : List Part := partsLog ++ partsTime ++ [.sgm, .rfc, .cip]
def partsCmdTimeSgmRfcCip : List Part := partsCmd ++ partsTime ++ [.sgm, .rfc, .cip]
def partsLogCip : List Part := partsLog ++ [.cip]
def partsUnitsCmdSharedMtmCfgAsyFldWgc : List Part := partsUnits ++ partsCmd ++ [.shared, .mtm, .cfg, .asy, .fld, .wgc]
def partsLogTimeCip : List Part := partsLog ++ partsTime ++ [.cip]
def partsUnitsLogSharedDramCfgAsyFld : List Part := partsUnits ++ partsLog ++ [.shared, .dram, .cfg, .asy, .fld]
def partsRegsPrfCpuSchEth : List Part := [.regs, .prf, .cpu, .sch, .eth]
def partsCmdSharedAsyShfHifCip : List Part := partsCmd ++ [.shared, .asy, .shf, .hif, .cip]
def partsLogTimeSharedAsyShfHifCip : List Part := partsLog ++ partsTime ++ [.shared, .asy, .shf, .hif, .cip]
def partsCmdSharedAsyParSchRfaRfb : List Part := partsCmd ++ [.shared, .asy, .par, .sch, .rfa, .rfb]
def partsLogSharedAsyShfHifCip : List Part := partsLog ++ [.shared, .asy, .shf, .hif, .cip]
def partsCmdSharedAsyFldShfHifSgmCip : List Part := partsCmd ++ [.shared, .asy, .fld, .shf, .hif, .sgm, .cip]
def partsLogTimeSharedAsyFldShfHifSgmCip : List Part := partsLog ++ partsTime ++ [.shared, .asy, .fld, .shf, .hif, .sgm, .cip]
def partsRegsPrfCpuShfCip : List Part := [.regs, .prf, .cpu, .shf, .cip]
def partsTimeRegsPrfCpuShfCip : List Part := partsTime ++ [.regs, .prf, .cpu, .shf, .cip]
def partsCmdShfCip : List Part := partsCmd ++ [.shf, .cip]
def partsLogReadDataShfHifCip : List Part := partsLog ++ [.readData, .shf, .hif, .cip]
def partsCmdMtmShfHifCip : List Part := partsCmd ++ [.mtm, .shf, .hif, .cip]
def partsLogTimeShfHifCip : List Part := partsLog ++ partsTime ++ [.shf, .hif, .cip]
def partsLogTimeReadDataShfHifCip : List Part := partsLog ++ partsTime ++ [.readData, .shf, .hif, .cip]

/-- The group that a command belongs to, and the parts of the state that it may change. -/
def reachOf : Instr → Area × List Part
  | .guestReadCheck _ _ | .readClear _ _ | .wideValueLatch _ _ =>
    (.control, partsCmdHoldReadDataEth)
  | .registerWrite _ _ _ _ | .bootLockSet _ | .maintWrite _ _ _ | .warmReset _ _ | .coldReset _ _ =>
    (.control, partsUnitsCmdReadDataLtSharedDramMtmCfgAsyFldWgc)
  | .refInputChange _ _ _ =>
    (.control, partsTime)
  | .offsetLearn _ =>
    (.control, partsRegsFreeCtrMtm)
  | .mtSnap _ | .folioAtReset _ _ | .lftNow _ | .pwmDutyWrite _ _ _ | .evselWrite _ _ _ | .prfSnap _
  | .prfFreezeWrite _ _ | .logStoppedClear _ =>
    (.control, partsCmd)
  | .ltSyncLost =>
    (.control, partsLogMtm)
  | .ltStep _ _ | .ltLoad _ =>
    (.control, partsCmdLtMtm)
  | .mtHoldSlot | .mtHoldAmbig | .permitPoll _ _ _ | .permitTimeout _ | .permitRenewal _ | .asyLftOverdue
  | .fldInStuck _ =>
    (.control, partsLogTime)
  | .alarmCtlWrite _ _ _ =>
    (.control, partsCmdMtmFldSgm)
  | .alarm _ =>
    (.control, partsLogTimeFldSgm)
  | .mtCycleBoundary =>
    (.control, partsLogTimeAsyFldSgm)
  | .mtRefStuck _ | .chatterPeriodEnd _ | .mtStep | .daliBackwardRx _ _ _ | .daliAnswerWindowEnd _ =>
    (.control, partsUnitsLogTimeSharedCfgAsyFld)
  | .refEdgeAccept _ =>
    (.control, partsUnitsCmdTimeSharedCfgAsyFld)
  | .calibrationSectionLoaded | .eraseBankDone =>
    (.control, partsRegsCfg)
  | .aonUp =>
    (.control, partsRegsCfgPwrFldShf)
  | .maintAddressMatch _ _ | .permitRequest _ _ | .logEntry _ _ _ _ =>
    (.control, partsLog)
  | .strapSampleDone _ =>
    (.control, partsLogMtmCfgAsyShfSgm)
  | .confirm _ | .eraseBank _ | .nvmDataWrite _ _ _ | .folioSwitchRequest _ _ =>
    (.control, partsCmdCfg)
  | .quireReconfig _ =>
    (.control, partsLogCfgPkb)
  | .cfgHeadersRead =>
    (.control, partsLogMtmCfgCip)
  | .bootLate _ =>
    (.control, partsLogTimeCfg)
  | .assayBistDone _ =>
    (.control, partsLogSharedCfgAsyShfHifCip)
  | .luminaireControlReady =>
    (.control, partsLogSharedMtmCfgAsyFldShfHifSgmCip)
  | .bootComplete =>
    (.control, partsUnitsCmdSharedMtmCfgAsy)
  | .dramTrainingDone _ =>
    (.control, partsUnitsCmdSharedCfgAsyFld)
  | .deferredSectionsLoaded _ | .criticalSectionsLoaded =>
    (.control, partsUnitsCmdSharedMtmCfgAsyFld)
  | .folioSwitch =>
    (.control, partsUnitsLogSharedMtmCfgAsyFld)
  | .quireStartBeat _ _ _ | .quireDataBeat _ _ | .quireEndBeat _ _ _ =>
    (.packets, partsEnterFreeCtrBadPkb)
  | .quireDisable _ _ | .pinRead _ =>
    (.packets, partsCmd)
  | .dropPkt _ _ | .flush _ _ =>
    (.packets, partsCmdPkb)
  | .quireWordRead _ _ | .parsePassStart _ _ _ | .wiredDequeue _ _ | .wifiMpduTake _ _ _ _ =>
    (.packets, partsUnitsLogSharedCfgAsyFldWgc)
  | .tableScrub _ _ _ _ | .wld _ _ _ _ _ =>
    (.packets, partsUnitsCmdSharedCfgAsyFldWgc)
  | .wgcRateWindowEnd _ =>
    (.packets, partsUnitsLogTimeSharedCfgAsyFldWgc)
  | .fragActiveExpire _ =>
    (.packets, partsTimeRegsPar)
  | .editionCommit _ =>
    (.packets, partsCmdPar)
  | .parseTimeout _ =>
    (.packets, partsRegsPrfCpuPkbParFlwSch)
  | .ruleWrite _ _ _ | .ruleRetire _ _ _ | .ruleRead _ _ _ =>
    (.packets, partsCmdBadPar)
  | .finalLookupResult _ =>
    (.packets, partsLogPkbParFlwSch)
  | .layer _ _ | .lookup _ _ | .lenchk _ | .done _ _ =>
    (.packets, partsCmdPkbParFlwSch)
  | .fragHoldExpire _ =>
    (.packets, partsTimeRegsPrfCpuPkbParFlwSch)
  | .flowTierMove _ _ | .waitRx _ _ =>
    (.packets, partsEnterFlw)
  | .routeAdd _ | .routeDel _ | .routeCommit _ _ =>
    (.packets, partsCmdFlw)
  | .ageingSweep _ _ =>
    (.packets, partsEnterFreeCtrBadPkbFlw)
  | .flowRead _ | .flowDelete _ | .flowPin _ | .flowUnpin _ =>
    (.packets, partsCmdBadPkbFlw)
  | .routeLookupDone =>
    (.packets, partsEnterFreeCtrBadPkbParFlwSch)
  | .remoteLookupRx _ _ _ _ _ _ _ =>
    (.packets, partsCmdBadShfPkbFlwPleCipDrc)
  | .flowDramReadDone =>
    (.packets, partsCmdBadShfPkbParFlwSchCipDrc)
  | .lookupRespRx _ _ _ _ | .flowLookup | .drainDoneRx _ _ | .redirectRx _ _ _ | .moveDataRx _ _ _ _ =>
    (.packets, partsCmdBadShfPkbParFlwSchPleCipDrc)
  | .flwLimp =>
    (.packets, partsCmdBadShfPkbParFlwSchPleCip)
  | .remoteLookupTimeout | .fenceTimeout =>
    (.packets, partsCmdTimeBadShfPkbParFlwSchPleCipDrc)
  | .shaperPendingRefill _ =>
    (.packets, partsRegsSch)
  | .wheelSlotRelease =>
    (.packets, partsTimeRegsSch)
  | .pauseStateReport _ =>
    (.packets, partsEnterSch)
  | .wifiGrantRequest _ _ _ _ _ _ =>
    (.packets, partsEnterFreeCtrSch)
  | .cellFrameReturn =>
    (.packets, partsEnterSgmSch)
  | .overflowSlotMove =>
    (.packets, partsTimeRegsPrfCpuSch)
  | .schEnqueue _ _ =>
    (.packets, partsEnterPkbParSch)
  | .schNodeRead _ _ _ | .schNodeWrite _ _ _ | .schNodeFlush _ _ _ | .schNodeReadClr _ _ _ =>
    (.packets, partsCmdBadPkbSchPle)
  | .cellFrameAsk _ =>
    (.packets, partsEnterTimeSgmPkbSch)
  | .moveHintRx _ _ _ | .moveAckRx _ _ | .loadRx _ _ _ _ _ =>
    (.packets, partsEnterPle)
  | .linkUsabilityChange _ _ _ _ =>
    (.packets, partsEnterSchPle)
  | .drainComplete | .tier4Rx _ _ =>
    (.packets, partsEnterShfPleCip)
  | .moveReqRx _ _ _ =>
    (.packets, partsEnterShfFlwPleCip)
  | .moveCancelRx _ _ _ =>
    (.packets, partsLogShfFlwPleCip)
  | .leadOkTimeout =>
    (.packets, partsEnterTimePle)
  | .pinRx _ _ =>
    (.packets, partsEnterShfFlwSchPleCip)
  | .pinClear _ =>
    (.packets, partsCmdFlwSchPle)
  | .baAgreementChange _ _ _ _ _ =>
    (.packets, partsLogPkbSchPleWma)
  | .pleMoveUnconfirmed =>
    (.packets, partsLogTimePle)
  | .tier1AnchorEval _ _ _ =>
    (.packets, partsEnterTimeSchPle)
  | .loadReportSend _ _ _ | .tier4Eval =>
    (.packets, partsEnterTimeShfPleCip)
  | .pinSet _ =>
    (.packets, partsCmdShfFlwSchPleCip)
  | .tier2Eval _ =>
    (.packets, partsEnterTimeShfFlwSchPleCip)
  | .tier3Eval _ =>
    (.packets, partsEnterTimeShfFlwSchPleWmaCip)
  | .steerTimeout _ =>
    (.packets, partsLogTimeBadShfPkbSchPleWmaCip)
  | .calSegmentStart _ _ _ _ =>
    (.radios, partsEnterRfaRfb)
  | .paTempChange _ _ _ _ =>
    (.radios, partsLogShfRfaRfb)
  | .grantLoad _ | .grantClear _ =>
    (.radios, partsCmdShfRfa)
  | .rfbSplitWrite _ _ =>
    (.radios, partsCmdShfSch)
  | .heldCommandStart _ _ | .channelMove _ _ =>
    (.radios, partsLogShfSchPleRfaRfb)
  | .rfCalDone _ _ =>
    (.radios, partsLogBadShfSchPleRfaRfb)
  | .grantExpiring =>
    (.radios, partsLogTimeRfa)
  | .grantExpired =>
    (.radios, partsLogTimeShfRfa)
  | .dpdPermitRetry _ =>
    (.radios, partsEnterTimeRfaRfb)
  | .txCommand _ _ _ _ _ _ _ =>
    (.radios, partsUnitsLogSharedCfgAsyFldWgc)
  | .rfGoOff _ _ _ | .rfGoSleep _ _ _ | .rfGoIdle _ _ _ | .rfGoRx _ _ _ | .rfCalFull _ _ _ | .rfDpdClear _ _ _
  | .rfChanWrite _ _ _ _ _ =>
    (.radios, partsCmdShfSchPleRfaRfb)
  | .calSegmentEnd _ _ =>
    (.radios, partsLogTimeBadShfSchPleRfaRfb)
  | .rfTransitionDone _ _ | .txLate _ _ | .holdExpired _ _ =>
    (.radios, partsLogTimeShfSchPleRfaRfb)
  | .radioCalibrationDone _ =>
    (.radios, partsUnitsLogSharedCfgAsyFld)
  | .ppduTxEnd _ _ _ _ _ | .mismatchProbe _ _ _ | .calSlotOpen _ _ _ | .safeLevelSend _ =>
    (.radios, partsUnitsLogTimeSharedCfgAsyFld)
  | .preambleDetect _ _ _ _ _ _ | .sfdDetect _ _ _ _ | .phrDecode _ _ _ _ _ | .rfcTxCommand _ _ _ _ _ _ _ _ _ _
  | .rfcTempChange _ =>
    (.radios, partsEnterRfc)
  | .calReq _ | .staRead _ _ | .sgmNodeRead _ _ =>
    (.radios, partsCmd)
  | .rfcChLost _ =>
    (.radios, partsLogRfc)
  | .rfcTxLate =>
    (.radios, partsEnterRfcSch)
  | .rfcGoOff _ | .rfcGoSleep _ | .rfcGoIdle _ | .rfcGoRx _ | .applyPlan _ | .tuneReq _ _ =>
    (.radios, partsCmdRfc)
  | .rfcChCfgWrite _ _ _ =>
    (.radios, partsCmdBadRfc)
  | .rfcTransitionDone | .spanRetuneDone | .rfcRxReport _ _ _ =>
    (.radios, partsEnterTimeRfc)
  | .rfcTxStart _ | .downSend _ _ =>
    (.radios, partsUnitsLogTimeSharedCfgAsyFldWgc)
  | .rfcTxEnd _ =>
    (.radios, partsLogTimeSgmRfcPkb)
  | .trigNoresp _ _ | .assocRequest _ _ _ _ _ =>
    (.radios, partsEnterWma)
  | .btmResponseRx _ _ =>
    (.radios, partsEnterPle)
  | .twtSpBoundary _ _ =>
    (.radios, partsEnterTimeSchWma)
  | .steerRx _ _ _ _ _ =>
    (.radios, partsEnterShfWmaCip)
  | .wmaKeySetTx _ _ _ =>
    (.radios, partsCmdWma)
  | .barRx _ _ _ _ =>
    (.radios, partsLogPkbWma)
  | .wmaKeyRemove _ _ _ =>
    (.radios, partsCmdWmaCip)
  | .mpduRx _ =>
    (.radios, partsCmdBadPkbSchWmaCip)
  | .beaconTx _ _ _ =>
    (.radios, partsLogTimeSchRfaRfbWmaCip)
  | .wmaKeyInstall _ _ _ _ =>
    (.radios, partsCmdBadWmaCip)
  | .staAdd _ _ =>
    (.radios, partsCmdBadShfSchPleWmaCip)
  | .wmaBhDown _ =>
    (.radios, partsLogTimeShf)
  | .bhRejoin _ _ =>
    (.radios, partsLogTimeBadSchPleWmaCip)
  | .reorderTimeout _ _ =>
    (.radios, partsLogTimePkbWma)
  | .staDelDone _ | .steerDoneRx _ _ =>
    (.radios, partsLogBadShfPkbSchPleWmaCip)
  | .staDel _ _ =>
    (.radios, partsCmdBadShfPkbSchPleWmaCip)
  | .nodeMoveRx _ _ _ _ _ _ =>
    (.radios, partsEnterShfSgmCip)
  | .planCommit _ | .planCancel _ | .sgmNodeAdd _ _ | .sgmNodeDel _ _ | .sgmNodeUpdate _ _ | .sgmNodeReassign _ _ =>
    (.radios, partsCmdSgm)
  | .keepalivePeriodEnd _ =>
    (.radios, partsLogSgmSch)
  | .slotFrameStart =>
    (.radios, partsLogBadSgmRfc)
  | .dutyBucketRoll =>
    (.radios, partsEnterTimeSgm)
  | .sgmRxReport =>
    (.radios, partsEnterFreeCtrBadSgmRfcPkbSchCip)
  | .downAckRx =>
    (.radios, partsEnterSgmRfcPkbSch)
  | .gackSend _ =>
    (.radios, partsLogTimeSgmRfcCip)
  | .beaconSend =>
    (.radios, partsCmdTimeSgmRfcCip)
  | .downAckTimeout =>
    (.radios, partsLogTimeSgmPkbSch)
  | .ringJobStart _ | .inlineJob _ _ =>
    (.engines, partsLogCip)
  | .ringProdWrite _ _ _ | .interruptEntry _ | .slotBudgetExpire _ =>
    (.engines, partsCmd)
  | .rootProgram _ _ _ _ =>
    (.engines, partsCmdCip)
  | .rngHealthPass =>
    (.engines, partsUnitsCmdSharedMtmCfgAsyFldWgc)
  | .cipKeyInstall _ _ _ | .cipKeyRemove _ _ | .cipKeyDerive _ _ _ _ | .evictSlot _ _ =>
    (.engines, partsCmdBadWmaCip)
  | .keyDerivationDone =>
    (.engines, partsLogTimeCip)
  | .jobStatusWrite _ _ _ =>
    (.engines, partsEnterSharedBadDramHifCip)
  | .cipErase | .ethFrameSend _ _ | .dramScrub _ =>
    (.engines, partsUnitsCmdTimeSharedCfgAsyFldWgc)
  | .cipQuarantine _ _ =>
    (.engines, partsUnitsLogSharedDramCfgAsyFld)
  | .cipAlarmInput _ _ | .rngHealthFail | .lockstepDifference =>
    (.engines, partsUnitsLogSharedCfgAsyFld)
  | .cipKeyErase _ _ | .strobeTimeout _ | .retrainDone _ _ | .dieErrorFlag _ _ =>
    (.engines, partsUnitsCmdSharedCfgAsyFld)
  | .verifyResponseRx _ =>
    (.engines, partsEnter)
  | .pauseRx _ _ | .pfcRx _ _ _ =>
    (.engines, partsRegsPrfCpuSchEth)
  | .xoffReached _ | .xonReached _ | .linkUp _ _ =>
    (.engines, partsEnterEth)
  | .lpiExit _ _ =>
    (.engines, partsEnterSchEth)
  | .ethFrameRx _ _ | .dramReadComplete _ _ _ | .mld _ _ _ _ | .amoadd _ _ | .amoswap _ _ | .amocas _ _
  | .key _ _ _ _ _ | .frag _ _ _ =>
    (.engines, partsUnitsCmdSharedCfgAsyFldWgc)
  | .linkDown _ =>
    (.engines, partsEnterShfSchEth)
  | .preemptEnWrite _ _ _ =>
    (.engines, partsCmdSchEth)
  | .ethPortCfgWrite _ _ _ =>
    (.engines, partsCmdShfSchEth)
  | .pauseTimerExpire _ | .preemptFragmentEnd _ | .lpiEnter _ _ =>
    (.engines, partsEnterTimeSchEth)
  | .pauseRepeat _ =>
    (.engines, partsEnterTimeEth)
  | .saInstall _ _ _ _ | .saRemove _ _ _ _ | .saSetTx _ _ _ _ =>
    (.engines, partsCmdBadCipEth)
  | .tsFifoRead _ _ =>
    (.engines, partsCmdHoldReadDataEth)
  | .verifySend _ =>
    (.engines, partsLogTimeEth)
  | .loadTemperDue _ _ =>
    (.engines, partsEnterDrc)
  | .wqEntryFreed _ =>
    (.engines, partsEnterDramDrc)
  | .dramRequest _ _ _ _ =>
    (.engines, partsLogDrc)
  | .drcRetrain _ _ | .drcTemper _ _ =>
    (.engines, partsCmdDrc)
  | .requestAged _ | .refreshDue _ _ _ _ | .refreshWindowClose _ _ | .dieTempRead _ _ _ | .temperDue _
  | .loadTemperDeadline _ =>
    (.engines, partsEnterTimeDrc)
  | .freezeHoldExpire =>
    (.engines, partsUnitsLogTimeSharedCfgAsy)
  | .nop _ | .pushs _ _ | .dup _ | .drop _ | .swap _ | .overCopy _ | .rot _ | .pick _ _ | .add _ | .sub _ | .and _
  | .or _ | .xor _ | .not _ | .neg _ | .shl _ _ _ | .shr _ _ _ | .sar _ _ _ | .mul _ | .mulhu _ | .mulhs _ | .eq _
  | .lt _ | .ltu _ | .sel _ | .toR _ | .rFrom _ | .rFetch _ | .ret _ | .jmps _ | .calls _ | .fence _ | .brk _
  | .push _ _ | .pushUpper _ _ | .addi _ _ | .andi _ _ | .ori _ _ | .xori _ _ | .eqi _ _ | .lti _ _ | .ltui _ _
  | .brAlways _ _ | .brZero _ _ | .brNonzero _ _ | .call _ _ | .agw _ _ _ | .agr _ _ _ | .agadd _ _ _ | .srr _ _
  | .srw _ _ | .sys _ _ | .retx _ | .bext _ _ _ | .mal _ _ | .illegal _ =>
    (.engines, partsCmdPkbParFlwSch)
  | .ld _ _ _ | .lda _ _ _ _ | .ldo _ _ _ _ =>
    (.engines, partsUnitsCmdReadDataSharedCfgAsyFldWgc)
  | .st _ _ | .sta _ _ _ | .sto _ _ _ | .coreRun _ _ | .swiSet _ _ | .remoteRegAccess _ _ _ _ | .regReqRx _ _ _ _ _ _
  | .hifDoorbell _ _ | .hifHostDb _ _ =>
    (.engines, partsUnitsCmdReadDataLtSharedDramMtmCfgAsyFldWgc)
  | .brownoutLatchRelease =>
    (.control, partsFld)
  | .vinLowClear _ | .vinHighClear _ =>
    (.control, partsRegs)
  | .domainWakeDone _ =>
    (.control, partsUnitsCmdSharedCfgAsyFldWgc)
  | .txopEndReport _ =>
    (.control, partsRegsPwrRfaRfb)
  | .vinValid _ =>
    (.control, partsRegsCfgPwr)
  | .pwrWaitRelease _ | .domainWakeDemand _ =>
    (.control, partsEnter)
  | .domainIdleExpire _ | .permitRetryEnd _ | .grantLeaseEnd _ =>
    (.control, partsTimeRegsPwr)
  | .pwrBrownout | .pwmPeriodStart _ _ | .gpioInputAccept _ _ =>
    (.control, partsLogFld)
  | .powerCycle _ _ _ =>
    (.control, partsCmdSharedAsyShfHifCip)
  | .pmbusNackRetry _ =>
    (.control, partsLogTimeSharedAsyShfHifCip)
  | .wakeNAssert | .wakeListenerEvent _ =>
    (.control, partsUnitsEnterCfg)
  | .targetFull _ | .targetReduced _ | .targetStandby _ | .targetOff _ =>
    (.control, partsUnitsCmdCfg)
  | .stateTransitionDone =>
    (.control, partsUnitsLogSharedDram)
  | .pwrVinLow _ | .pwrVinHigh _ | .pmbAlert _ _ _ | .monitorRead _ _ | .asyFault _ _ | .heartbeatTimeout _
  | .hvWatchdogExpire | .daliCollision _ | .daliBusLow _ =>
    (.control, partsUnitsLogSharedCfgAsyFld)
  | .vinFail _ =>
    (.control, partsUnitsLogReadDataLtSharedDramMtmCfgAsyFldWgc)
  | .daliSafeBroadcastStart _ | .daliFrameStart _ | .pulseEnd _ =>
    (.control, partsTimeFld)
  | .lftDue =>
    (.control, partsTimeRegsAsy)
  | .asyFaultEnd _ _ =>
    (.control, partsLogAsy)
  | .clearReplace _ =>
    (.control, partsCmdAsy)
  | .rungComplete _ =>
    (.control, partsCmdSharedAsyParSchRfaRfb)
  | .tempRecovered =>
    (.control, partsLogAsySgmRfa)
  | .fldSafeBroadcast _ | .echoQuery _ _ =>
    (.control, partsLogTimeFld)
  | .lftComplete _ =>
    (.control, partsLogSharedAsyShfHifCip)
  | .asyRelease _ | .enterSafe _ =>
    (.control, partsCmdSharedAsyFldShfHifSgmCip)
  | .safeQuietExpire =>
    (.control, partsLogTimeSharedAsyFldShfHifSgmCip)
  | .forceRung _ _ _ =>
    (.control, partsUnitsCmdSharedCfgAsy)
  | .rungTimeout _ =>
    (.control, partsUnitsLogTimeSharedCfgAsy)
  | .timeSend =>
    (.engines, partsRegsPrfCpuShfCip)
  | .helloSend | .lsaSend | .routeHoldEnd _ =>
    (.engines, partsTimeRegsPrfCpuShfCip)
  | .adjacencyTimeout _ =>
    (.engines, partsTimeRegsShf)
  | .lsaRx _ _ _ | .leaveRx _ =>
    (.engines, partsEnterShf)
  | .helloRx _ _ _ _ =>
    (.engines, partsLogShf)
  | .faultRx _ _ _ _ _ | .safeRx _ _ _ _ | .replaceRx _ _ | .cycleReqRx _ _ =>
    (.engines, partsEnterSharedHif)
  | .shfRejoin _ =>
    (.engines, partsCmdShfCip)
  | .regRespRx _ _ _ _ =>
    (.engines, partsLogReadDataShfHifCip)
  | .shfTakeover _ =>
    (.engines, partsCmdMtmShfHifCip)
  | .leadLost =>
    (.engines, partsLogTimeShfHifCip)
  | .shfUnreachable =>
    (.engines, partsLogTimeReadDataShfHifCip)
  | .smpFrameRx _ _ | .leadClaimRx _ _ _ _ =>
    (.engines, partsUnitsLogMtmCfg)
  | .timeRx _ _ _ _ _ =>
    (.engines, partsUnitsLogSharedMtmCfgAsyFld)
  | .hostMemoryAccess _ _ _ _ _ =>
    (.engines, partsUnitsCmdSharedDramCfgAsyFldWgc)
  | .chatterHoldEnd _ =>
    (.control, partsTimeRegsFld)
  | .daliSend16 _ _ _ | .daliSend24 _ _ _ =>
    (.control, partsCmdFld)
  | .daliBusHigh _ =>
    (.control, partsLogAsyFld)
  | .stagedMove =>
    (.control, partsRegsLog)
  | .sampleCandidate _ _ =>
    (.control, partsRegsFreeCtrPrf)
  | .bypass | .idcode | .samplePreload _ =>
    (.control, partsTap)
  | .extest | .clamp | .highz =>
    (.control, partsLogTap)

/-! ### The units whose registers a command may change -/

/-- The units whose registers a command may change: its own, PWR where entering a unit demands its domain, PRF where it counts or
logs, CPU where it interrupts a core; every unit for a row that writes, reads, loads or resets registers of any unit. -/
def regUnits : Instr → List UnitId
  | .refInputChange _ _ _ | .brownoutLatchRelease | .daliSafeBroadcastStart _ | .daliFrameStart _ | .pulseEnd _
  | .bypass | .idcode | .samplePreload _ =>
    []
  | .offsetLearn _ =>
    [.mtm]
  | .calibrationSectionLoaded | .eraseBankDone =>
    [.cfg]
  | .fragActiveExpire _ =>
    [.par]
  | .shaperPendingRefill _ | .wheelSlotRelease =>
    [.sch]
  | .vinLowClear _ | .vinHighClear _ | .txopEndReport _ | .domainIdleExpire _ | .permitRetryEnd _ | .grantLeaseEnd _ =>
    [.pwr]
  | .lftDue =>
    [.asy]
  | .adjacencyTimeout _ =>
    [.shf]
  | .chatterHoldEnd _ =>
    [.fld]
  | .stagedMove | .sampleCandidate _ _ =>
    [.prf]
  | .mtHoldSlot | .permitPoll _ _ _ | .permitTimeout _ | .permitRenewal _ | .maintAddressMatch _ _
  | .permitRequest _ _ | .logEntry _ _ _ _ | .bootLate _ | .waitRx _ _ | .moveHintRx _ _ _ | .loadRx _ _ _ _ _
  | .grantExpiring | .dpdPermitRetry _ | .twtSpBoundary _ _ | .dutyBucketRoll | .xoffReached _ | .xonReached _
  | .pauseRepeat _ | .requestAged _ | .temperDue _ | .loadTemperDeadline _ | .pwrWaitRelease _ | .domainWakeDemand _
  | .pwrBrownout | .pwmPeriodStart _ _ | .extest | .clamp | .highz =>
    [.pwr, .prf]
  | .overflowSlotMove =>
    [.sch, .prf]
  | .vinValid _ =>
    [.pwr, .cfg]
  | .timeSend | .helloSend | .lsaSend | .routeHoldEnd _ =>
    [.cip, .prf]
  | .evselWrite _ _ _ | .prfFreezeWrite _ _ | .logStoppedClear _ | .interruptEntry _ | .slotBudgetExpire _
  | .tsFifoRead _ _ =>
    [.pwr, .cpu, .prf]
  | .ltSyncLost | .mtHoldAmbig =>
    [.mtm, .pwr, .prf]
  | .asyLftOverdue | .asyFaultEnd _ _ | .tempRecovered =>
    [.pwr, .asy, .prf]
  | .fldInStuck _ | .gpioInputAccept _ _ | .fldSafeBroadcast _ | .echoQuery _ _ =>
    [.pwr, .prf, .fld]
  | .aonUp =>
    [.pwr, .cfg, .shf]
  | .strapSampleDone _ =>
    [.top, .pwr, .prf]
  | .quireStartBeat _ _ _ | .quireDataBeat _ _ | .quireEndBeat _ _ _ | .downAckRx =>
    [.pwr, .pkb, .prf]
  | .pauseStateReport _ | .wifiGrantRequest _ _ _ _ _ _ | .cellFrameReturn =>
    [.pwr, .sch, .prf]
  | .moveAckRx _ _ | .linkUsabilityChange _ _ _ _ | .leadOkTimeout | .pleMoveUnconfirmed | .tier1AnchorEval _ _ _
  | .btmResponseRx _ _ =>
    [.pwr, .ple, .prf]
  | .preambleDetect _ _ _ _ _ _ | .sfdDetect _ _ _ _ | .phrDecode _ _ _ _ _ | .rfcTxCommand _ _ _ _ _ _ _ _ _ _
  | .rfcTempChange _ | .rfcChLost _ | .rfcTransitionDone | .spanRetuneDone | .rfcRxReport _ _ _ =>
    [.pwr, .rfc, .prf]
  | .trigNoresp _ _ | .assocRequest _ _ _ _ _ =>
    [.pwr, .wma, .prf]
  | .steerRx _ _ _ _ _ | .nodeMoveRx _ _ _ _ _ _ | .gackSend _ | .ringJobStart _ | .inlineJob _ _ | .keyDerivationDone
  | .jobStatusWrite _ _ _ =>
    [.pwr, .cip, .prf]
  | .keepalivePeriodEnd _ =>
    [.pwr, .sgm, .prf]
  | .verifyResponseRx _ | .linkUp _ _ | .verifySend _ =>
    [.pwr, .eth, .prf]
  | .loadTemperDue _ _ | .wqEntryFreed _ | .dramRequest _ _ _ _ | .refreshDue _ _ _ _ | .refreshWindowClose _ _
  | .dieTempRead _ _ _ =>
    [.pwr, .drc, .prf]
  | .lsaRx _ _ _ | .leaveRx _ | .helloRx _ _ _ _ =>
    [.pwr, .prf, .shf]
  | .faultRx _ _ _ _ _ | .safeRx _ _ _ _ | .replaceRx _ _ | .cycleReqRx _ _ =>
    [.pwr, .prf, .hif]
  | .mtSnap _ | .prfSnap _ | .ltStep _ _ | .ltLoad _ =>
    [.mtm, .pwr, .cpu, .prf]
  | .folioAtReset _ _ | .folioSwitchRequest _ _ =>
    [.top, .pwr, .cpu, .prf]
  | .lftNow _ =>
    [.pwr, .asy, .cpu, .prf]
  | .pwmDutyWrite _ _ _ | .daliSend16 _ _ _ | .daliSend24 _ _ _ =>
    [.pwr, .cpu, .prf, .fld]
  | .confirm _ | .eraseBank _ | .nvmDataWrite _ _ _ =>
    [.pwr, .cfg, .cpu, .prf]
  | .quireDisable _ _ | .dropPkt _ _ | .flush _ _ =>
    [.pwr, .pkb, .cpu, .prf]
  | .pinRead _ | .pinClear _ =>
    [.pwr, .ple, .cpu, .prf]
  | .editionCommit _ | .ruleWrite _ _ _ | .ruleRetire _ _ _ | .ruleRead _ _ _ =>
    [.pwr, .par, .cpu, .prf]
  | .parseTimeout _ | .fragHoldExpire _ =>
    [.pkb, .par, .sch, .prf]
  | .flowTierMove _ _ =>
    [.pwr, .flw, .ple, .prf]
  | .routeAdd _ | .routeDel _ | .routeCommit _ _ =>
    [.pwr, .flw, .cpu, .prf]
  | .ageingSweep _ _ =>
    [.pwr, .pkb, .flw, .prf]
  | .cellFrameAsk _ =>
    [.pwr, .pkb, .sch, .prf]
  | .drainComplete | .tier4Rx _ _ | .loadReportSend _ _ _ | .tier4Eval =>
    [.pwr, .ple, .cip, .prf]
  | .calSegmentStart _ _ _ _ =>
    [.pwr, .rfa, .rfb, .prf]
  | .calReq _ | .rfcGoOff _ | .rfcGoSleep _ | .rfcGoIdle _ | .rfcGoRx _ | .applyPlan _ | .tuneReq _ _
  | .rfcChCfgWrite _ _ _ =>
    [.pwr, .rfc, .cpu, .prf]
  | .staRead _ _ | .wmaKeySetTx _ _ _ | .wmaKeyRemove _ _ _ =>
    [.pwr, .wma, .cpu, .prf]
  | .sgmNodeRead _ _ | .planCommit _ | .planCancel _ | .sgmNodeAdd _ _ | .sgmNodeDel _ _ | .sgmNodeUpdate _ _
  | .sgmNodeReassign _ _ =>
    [.pwr, .sgm, .cpu, .prf]
  | .rfcTxLate =>
    [.pwr, .sch, .rfc, .prf]
  | .rfcTxEnd _ =>
    [.pwr, .pkb, .rfc, .prf]
  | .barRx _ _ _ _ | .reorderTimeout _ _ =>
    [.pwr, .pkb, .wma, .prf]
  | .wmaBhDown _ =>
    [.pwr, .wma, .prf, .shf]
  | .slotFrameStart =>
    [.pwr, .rfc, .sgm, .prf]
  | .beaconSend =>
    [.pwr, .cip, .sgm, .prf]
  | .ringProdWrite _ _ _ | .rootProgram _ _ _ _ | .cipKeyInstall _ _ _ | .cipKeyRemove _ _ | .cipKeyDerive _ _ _ _
  | .evictSlot _ _ =>
    [.pwr, .cip, .cpu, .prf]
  | .pauseRx _ _ | .pfcRx _ _ _ =>
    [.pkb, .sch, .eth, .prf]
  | .drcRetrain _ _ | .drcTemper _ _ =>
    [.pwr, .drc, .cpu, .prf]
  | .daliBusHigh _ =>
    [.pwr, .asy, .prf, .fld]
  | .alarm _ | .mtCycleBoundary =>
    [.mtm, .pwr, .asy, .prf, .fld]
  | .finalLookupResult _ | .schEnqueue _ _ =>
    [.pwr, .pkb, .par, .sch, .prf]
  | .flowRead _ | .flowDelete _ | .flowPin _ | .flowUnpin _ =>
    [.pwr, .pkb, .flw, .cpu, .prf]
  | .moveReqRx _ _ _ | .moveCancelRx _ _ _ | .pinRx _ _ | .tier2Eval _ | .tier3Eval _ =>
    [.pwr, .flw, .ple, .cip, .prf]
  | .baAgreementChange _ _ _ _ _ =>
    [.pwr, .pkb, .ple, .wma, .prf]
  | .mpduRx _ =>
    [.pwr, .pkb, .cip, .wma, .prf]
  | .beaconTx _ _ _ =>
    [.pwr, .cip, .rfa, .rfb, .prf]
  | .wmaKeyInstall _ _ _ _ =>
    [.pwr, .cip, .wma, .cpu, .prf]
  | .bhRejoin _ _ =>
    [.pwr, .ple, .cip, .wma, .prf]
  | .sgmRxReport =>
    [.pwr, .pkb, .cip, .sgm, .prf]
  | .downAckTimeout =>
    [.pwr, .pkb, .sch, .sgm, .prf]
  | .lpiExit _ _ | .pauseTimerExpire _ | .preemptFragmentEnd _ | .lpiEnter _ _ =>
    [.pwr, .pkb, .sch, .eth, .prf]
  | .saInstall _ _ _ _ | .saRemove _ _ _ _ | .saSetTx _ _ _ _ =>
    [.pwr, .cip, .eth, .cpu, .prf]
  | .clearReplace _ =>
    [.pwr, .asy, .cpu, .prf, .fld]
  | .shfRejoin _ =>
    [.pwr, .cip, .cpu, .prf, .shf]
  | .regRespRx _ _ _ _ | .shfUnreachable =>
    [.pwr, .cip, .prf, .shf, .hif]
  | .alarmCtlWrite _ _ _ =>
    [.mtm, .pwr, .asy, .cpu, .prf, .fld]
  | .layer _ _ | .lookup _ _ | .lenchk _ | .done _ _ | .nop _ | .pushs _ _ | .dup _ | .drop _ | .swap _ | .overCopy _
  | .rot _ | .pick _ _ | .add _ | .sub _ | .and _ | .or _ | .xor _ | .not _ | .neg _ | .shl _ _ _ | .shr _ _ _
  | .sar _ _ _ | .mul _ | .mulhu _ | .mulhs _ | .eq _ | .lt _ | .ltu _ | .sel _ | .toR _ | .rFrom _ | .rFetch _
  | .ret _ | .jmps _ | .calls _ | .fence _ | .brk _ | .push _ _ | .pushUpper _ _ | .addi _ _ | .andi _ _ | .ori _ _
  | .xori _ _ | .eqi _ _ | .lti _ _ | .ltui _ _ | .brAlways _ _ | .brZero _ _ | .brNonzero _ _ | .call _ _
  | .agw _ _ _ | .agr _ _ _ | .agadd _ _ _ | .srr _ _ | .srw _ _ | .sys _ _ | .retx _ | .bext _ _ _ | .mal _ _
  | .illegal _ =>
    [.pwr, .pkb, .par, .sch, .cpu, .prf]
  | .remoteLookupRx _ _ _ _ _ _ _ =>
    [.pwr, .pkb, .flw, .cip, .drc, .prf]
  | .schNodeRead _ _ _ | .schNodeWrite _ _ _ | .schNodeFlush _ _ _ | .schNodeReadClr _ _ _ =>
    [.pwr, .pkb, .sch, .ple, .cpu, .prf]
  | .pinSet _ =>
    [.pwr, .flw, .ple, .cip, .cpu, .prf]
  | .steerTimeout _ | .staDelDone _ | .steerDoneRx _ _ =>
    [.pwr, .pkb, .ple, .wma, .prf, .shf]
  | .paTempChange _ _ _ _ | .grantExpired =>
    [.pwr, .rfa, .rfb, .wma, .prf, .shf]
  | .staAdd _ _ =>
    [.pwr, .ple, .cip, .wma, .cpu, .prf]
  | .linkDown _ =>
    [.pwr, .pkb, .sch, .eth, .prf, .shf]
  | .preemptEnWrite _ _ _ =>
    [.pwr, .pkb, .sch, .eth, .cpu, .prf]
  | .pmbusNackRetry _ | .lftComplete _ =>
    [.pwr, .asy, .cip, .prf, .hif, .fld]
  | .leadLost =>
    [.mtm, .pwr, .cip, .prf, .shf, .hif]
  | .cfgHeadersRead =>
    [.mtm, .pwr, .asy, .cfg, .cip, .prf, .fld]
  | .assayBistDone _ =>
    [.pwr, .asy, .cfg, .cip, .prf, .hif, .fld]
  | .routeLookupDone =>
    [.pwr, .pkb, .par, .flw, .sch, .wma, .prf]
  | .grantLoad _ | .grantClear _ | .rfbSplitWrite _ _ =>
    [.pwr, .rfa, .rfb, .wma, .cpu, .prf, .shf]
  | .heldCommandStart _ _ | .channelMove _ _ | .rfCalDone _ _ | .calSegmentEnd _ _ | .rfTransitionDone _ _
  | .txLate _ _ | .holdExpired _ _ =>
    [.pwr, .ple, .rfa, .rfb, .wma, .prf, .shf]
  | .staDel _ _ =>
    [.pwr, .pkb, .ple, .wma, .cpu, .prf, .shf]
  | .ethPortCfgWrite _ _ _ =>
    [.pwr, .pkb, .sch, .eth, .cpu, .prf, .shf]
  | .powerCycle _ _ _ =>
    [.pwr, .asy, .cip, .cpu, .prf, .hif, .fld]
  | .safeQuietExpire =>
    [.pwr, .asy, .cip, .sgm, .prf, .hif, .fld]
  | .shfTakeover _ =>
    [.mtm, .pwr, .cip, .cpu, .prf, .shf, .hif]
  | .flwLimp =>
    [.pwr, .pkb, .par, .flw, .sch, .ple, .cip, .prf]
  | .rfGoOff _ _ _ | .rfGoSleep _ _ _ | .rfGoIdle _ _ _ | .rfGoRx _ _ _ | .rfCalFull _ _ _ | .rfDpdClear _ _ _
  | .rfChanWrite _ _ _ _ _ =>
    [.pwr, .ple, .rfa, .rfb, .wma, .cpu, .prf, .shf]
  | .asyRelease _ | .enterSafe _ =>
    [.pwr, .asy, .cip, .sgm, .cpu, .prf, .hif, .fld]
  | .flowDramReadDone =>
    [.pwr, .pkb, .par, .flw, .sch, .cip, .wma, .drc, .prf]
  | .luminaireControlReady =>
    [.top, .mtm, .pwr, .asy, .cfg, .cip, .sgm, .prf, .hif, .fld]
  | .lookupRespRx _ _ _ _ | .flowLookup | .drainDoneRx _ _ | .redirectRx _ _ _ | .moveDataRx _ _ _ _
  | .remoteLookupTimeout | .fenceTimeout =>
    [.pwr, .pkb, .par, .flw, .sch, .ple, .cip, .wma, .drc, .prf]
  | .guestReadCheck _ _ | .readClear _ _ | .wideValueLatch _ _ | .registerWrite _ _ _ _ | .bootLockSet _
  | .maintWrite _ _ _ | .warmReset _ _ | .coldReset _ _ | .mtRefStuck _ | .chatterPeriodEnd _ | .mtStep
  | .daliBackwardRx _ _ _ | .daliAnswerWindowEnd _ | .refEdgeAccept _ | .quireReconfig _ | .bootComplete
  | .dramTrainingDone _ | .deferredSectionsLoaded _ | .criticalSectionsLoaded | .folioSwitch | .quireWordRead _ _
  | .parsePassStart _ _ _ | .wiredDequeue _ _ | .wifiMpduTake _ _ _ _ | .tableScrub _ _ _ _ | .wld _ _ _ _ _
  | .wgcRateWindowEnd _ | .txCommand _ _ _ _ _ _ _ | .radioCalibrationDone _ | .ppduTxEnd _ _ _ _ _
  | .mismatchProbe _ _ _ | .calSlotOpen _ _ _ | .safeLevelSend _ | .rfcTxStart _ | .downSend _ _ | .rngHealthPass
  | .cipErase | .cipQuarantine _ _ | .cipAlarmInput _ _ | .rngHealthFail | .lockstepDifference | .cipKeyErase _ _
  | .strobeTimeout _ | .retrainDone _ _ | .dieErrorFlag _ _ | .ethFrameRx _ _ | .ethFrameSend _ _ | .dramScrub _
  | .dramReadComplete _ _ _ | .mld _ _ _ _ | .amoadd _ _ | .amoswap _ _ | .amocas _ _ | .key _ _ _ _ _ | .frag _ _ _
  | .freezeHoldExpire | .ld _ _ _ | .lda _ _ _ _ | .ldo _ _ _ _ | .st _ _ | .sta _ _ _ | .sto _ _ _ | .coreRun _ _
  | .swiSet _ _ | .remoteRegAccess _ _ _ _ | .regReqRx _ _ _ _ _ _ | .hifDoorbell _ _ | .hifHostDb _ _
  | .domainWakeDone _ | .wakeNAssert | .wakeListenerEvent _ | .targetFull _ | .targetReduced _ | .targetStandby _
  | .targetOff _ | .stateTransitionDone | .pwrVinLow _ | .pwrVinHigh _ | .pmbAlert _ _ _ | .monitorRead _ _
  | .asyFault _ _ | .heartbeatTimeout _ | .hvWatchdogExpire | .daliCollision _ | .daliBusLow _ | .vinFail _
  | .rungComplete _ | .forceRung _ _ _ | .rungTimeout _ | .smpFrameRx _ _ | .leadClaimRx _ _ _ _ | .timeRx _ _ _ _ _
  | .hostMemoryAccess _ _ _ _ _ =>
    UnitId.all

/-! ### What every step keeps -/

/-- The registers and memories are in canonical form: addresses rise strictly, and nothing is listed that reads as an unlisted
address does; MT has 48 bits and LT 64 (R29, R45). -/
structure State.Canonical (s : State) : Prop where
  regs : s.regs.sorted = true ∧ ∀ e ∈ s.regs, e.2 ≠ regReset e.1
  shared : s.shared.wf = true
  dram : s.dram.wf = true
  table : s.hif.table.wf = true
  prog : s.par.prog.wf = true
  nor : s.cfg.nor.wf = true ∧ s.cfg.norExt.wf = true
  locals : s.cpu.local0.wf = true ∧ s.cpu.local1.wf = true ∧ s.cpu.local2.wf = true ∧ s.cpu.local3.wf = true ∧
    s.cpu.localS.wf = true
  time : s.mtm.mt < 2 ^ 48 ∧ s.lt < 2 ^ 64

/-- The rows that can make a cold reset: the loss of the 12 V input, the reset command, and every row that writes a register of
its own choice (R80, R398). -/
def coldResets (i : Instr) : Bool := (reachOf i).2.contains .readData && (reachOf i).2.contains .dram

end Sys2Proof.Machine
end

