-- ==== Sys2Proof/Certificates/Slice0/Obligations.lean ====
section
/-! DEFINITION. The statements for the provers. Each docstring names the rules of spec/ that its statement formalises. Completion
statements give, for each row, conditions under which the row's own effect happens, and what then holds. -/

open Sys2Proof Sys2Proof.Machine

/-! ### The block: its queue, reset, registers and frames -/

/-- A step carries out the command at the front of the queue, on the state with the queue's rest (the block convention of this
model). -/
def Obligations.StepRunsTheFrontCommand : Prop :=
  ∀ (s : State) c rest, s.pending = c :: rest → step s = exec c { s with pending := rest }

/-- The queue is consumed in order: a step takes the command in front and no other, and its effect puts none into the queue. On an
empty queue a step passes 1 ns (the model's choice, log entry 1). -/
def Obligations.QueueIsConsumedInOrder : Prop :=
  (∀ (s t : State) c rest, s.pending = c :: rest → step s = .next t → t.pending = rest) ∧
  (∀ s : State, s.pending = [] → Gives (step s) fun t => t.pending = [] ∧ t.now = s.now + 1 ∧ t.regs = s.regs)

/-- R1: the identity registers, read by any requester at Operator level or above, right after reset. -/
def Obligations.IdentityRegisters : Prop :=
  ∀ req : Req, req.level ≠ .guest →
    (Gives (exec (.readClear req 0x00000000) State.reset) fun t => t.readData = 0x47030640) ∧
    (Gives (exec (.readClear req 0x00000004) State.reset) fun t => t.readData = 0x000000B0)

/-- The registers and memories are in canonical form after reset. -/
def Obligations.ResetIsCanonical : Prop := State.reset.Canonical

/-- Every step keeps the registers and memories in canonical form, MT within 48 bits and LT within 64. -/
def Obligations.EveryStepKeepsTheCanonicalForm : Prop :=
  ∀ s t : State, s.Canonical → step s = .next t → t.Canonical

/-- R4: reserved bits read 0 in every state, and a 1 written to one is ignored: a write has the effect of the write with its
reserved bits clear. -/
def Obligations.ReservedBits : Prop :=
  (∀ s req (addr : BitVec 32) u r w, regAt (addr.toNat / 4 * 4) = some (u, r, w) → (s.isOff = false ∨ req.path = .maint) →
    Gives (exec (.readClear req addr) s) fun t =>
      t.readData &&& ~~~ (BitVec.ofNat 32 (r.fields.foldl (fun m f => m ||| fieldMask f w) 0)) = 0) ∧
  (∀ s req (addr value : BitVec 32) be u r w, regAt (addr.toNat / 4 * 4) = some (u, r, w) →
      s.cmdLevel (addr.toNat / 4 * 4 - 4 * w) r = none →
    exec (.registerWrite req addr value be) s =
      exec (.registerWrite req addr (value &&& BitVec.ofNat 32 (r.fields.foldl (fun m f => m ||| fieldMask f w) 0)) be) s)

/-- R5, R8: a read ignores the lowest two address bits, and a write whose byte enables do not cover all four bytes is discarded and
logged by the unit addressed, whose domain it has woken. -/
def Obligations.AlignedWholeWordAccess : Prop :=
  (∀ s req (addr : BitVec 32), exec (.readClear req addr) s = exec (.readClear req (addr &&& 0xFFFFFFFC)) s) ∧
  (∀ s req (addr value : BitVec 32) (be : BitVec 4) u v, be ≠ 15 → (s.isOff = false ∨ req.path = .maint) →
      u = (unitAt addr.toNat).getD .top → v = (match regAt (addr.toNat / 4 * 4) with | some (x, _) => s.demand x | none => s) →
    Gives (exec (.registerWrite req addr value be) s) fun t =>
      t = v.ev u Ev.ACCESS_PARTIAL (addr.toNat :: reqId req) ∧ ServiceOnly v t ∧
        t.log.seq.lookD u.num 0 = (v.log.seq.lookD u.num 0 + 1) % 65536)

/-- R7, R27: an access to an address that no register occupies reads 0, or is discarded, and is logged. -/
def Obligations.UnmappedAccess : Prop :=
  ∀ s req (addr value : BitVec 32) u a, a = addr.toNat / 4 * 4 → regAt a = none → (s.isOff = false ∨ req.path = .maint) →
      u = (unitAt a).getD .top →
    (Gives (exec (.readClear req addr) s) fun t =>
      t.readData = 0 ∧ t = ({ s with readData := 0 } : State).ev u Ev.UNMAPPED (a :: reqId req) ∧
        ServiceOnly { s with readData := 0 } t ∧ t.log.seq.lookD u.num 0 = (s.log.seq.lookD u.num 0 + 1) % 65536) ∧
    (Gives (exec (.registerWrite req addr value 15) s) fun t =>
      t = s.ev u Ev.UNMAPPED (a :: reqId req) ∧ ServiceOnly s t ∧
        t.log.seq.lookD u.num 0 = (s.log.seq.lookD u.num 0 + 1) % 65536)

/-- R13, R16, R17: a write of a register that takes no command leaves every field above the writer's level as it was, one that
changes no field it may change has no effect beside the shared services, and none clears `TOP_LOCK.BOOT`. -/
def Obligations.WritePrivilege : Prop :=
  (∀ s t req (addr value : BitVec 32) be a u r w, a = addr.toNat / 4 * 4 → regAt a = some (u, r, w) →
      s.cmdLevel (a - 4 * w) r = none → exec (.registerWrite req addr value be) s = .next t →
    (∀ f ∈ r.fields, ∀ l, f.lvl = some l → req.level.covers l = false → f.acc = .rw ∨ f.acc = .rwl →
      t.rd a &&& BitVec.ofNat 32 (fieldMask f w) = s.rd a &&& BitVec.ofNat 32 (fieldMask f w)) ∧
    (someTakes req.level (s.on TOP_LOCK_BOOT) r w = false → (∀ c, req.path ≠ .core c) → ServiceOnly s t) ∧
    (s.on TOP_LOCK_BOOT = true → t.on TOP_LOCK_BOOT = true))

/-- R30: MT never decreases, but when it wraps after 2³² cycles, which `MTM_EPOCH` counts, and when a cycle adoption (R43) lowers
the cycle number; a cold reset starts it again (R80). -/
def Obligations.MainsTimeNeverDecreases : Prop :=
  ∀ (i : Instr) (s t : State), coldResets i = false → s.mtm.mt < 2 ^ 48 → exec i s = .next t →
    s.mtm.mt ≤ t.mtm.mt ∨
      (s.mtm.mt / 65536 = 2 ^ 32 - 1 ∧ t.mtm.mt / 65536 = 0 ∧ t.f MTM_EPOCH_WRAPS = (s.f MTM_EPOCH_WRAPS + 1) % 65536) ∨
      (s.mtm.adoptPend = true ∧ t.mtm.adoptPend = false ∧ t.on MTM_STATUS_CYC_ADOPTED = true)

/-- R14: a write of a command register whose action runs is rejected: the action goes on, STATE stays RUNNING, RESULT reads BUSY, and
nothing else changes but what entering the unit does. -/
def Obligations.RunningCommandsRejectWrites : Prop :=
  ∀ (s : State) (req : Req) (v16 : BitVec 16) (v24 : BitVec 24) (folio : BitVec 2) (radio : Radio) (link : Bool) (p2 : BitVec 2)
    (sc : BitVec 4) (prio : BitVec 3) (idx10 : BitVec 10) (idx12 : BitVec 12) (idx16 : BitVec 16) (idx20 : BitVec 20) (b : Bool),
    let busy := fun (o : Host.Outcome State Fault Refusal) (c : CmdReg) =>
      s.admits c.unit c.level req = true → s.f (cmdState c.addr) = 1 →
        Gives o fun t => t.f (cmdState c.addr) = 1 ∧ t.f (cmdResult c.addr) = 1 ∧ ServiceOnly (s.set (cmdResult c.addr) 1) t
    busy (exec (.ltLoad req) s) ltLoadCmd ∧ busy (exec (.ltStep req v24) s) ltStepCmd ∧
    busy (exec (.mtSnap req) s) mtSnapCmd ∧ busy (exec (.confirm req) s) cfgCmd ∧ busy (exec (.eraseBank req) s) cfgCmd ∧
    busy (exec (.warmReset req v16) s) resetCmd ∧ busy (exec (.coldReset req v16) s) resetCmd ∧
    busy (exec (.folioSwitchRequest req folio) s) folioCmd ∧ busy (exec (.folioAtReset req folio) s) folioCmd ∧
    busy (exec (.ruleWrite req b idx20) s) ruleCmd ∧ busy (exec (.ruleRetire req b idx20) s) ruleCmd ∧
    busy (exec (.ruleRead req b idx20) s) ruleCmd ∧ busy (exec (.editionCommit req) s) commitCmd ∧
    busy (exec (.flowRead req) s) flowCmd ∧ busy (exec (.flowDelete req) s) flowCmd ∧ busy (exec (.flowPin req) s) flowCmd ∧
    busy (exec (.flowUnpin req) s) flowCmd ∧ busy (exec (.routeAdd req) s) routeCmd ∧
    busy (exec (.routeDel req) s) routeCmd ∧ busy (exec (.schNodeRead req p2 idx16) s) schCmd ∧
    busy (exec (.schNodeWrite req p2 idx16) s) schCmd ∧ busy (exec (.schNodeFlush req p2 idx16) s) schCmd ∧
    busy (exec (.schNodeReadClr req p2 idx16) s) schCmd ∧ busy (exec (.pinSet req) s) pinCmd ∧
    busy (exec (.pinClear req) s) pinCmd ∧ busy (exec (.pinRead req) s) pinCmd ∧
    busy (exec (.rfGoOff (some req) radio link) s) (rfCmd radio) ∧
    busy (exec (.rfGoRx (some req) radio link) s) (rfCmd radio) ∧
    busy (exec (.rfCalFull req radio link) s) (rfCalCmd radio) ∧ busy (exec (.grantLoad req) s) rfGrantCmd ∧
    busy (exec (.grantClear req) s) rfGrantCmd ∧ busy (exec (.rfcGoOff req) s) rfcCmd ∧ busy (exec (.rfcGoRx req) s) rfcCmd ∧
    busy (exec (.applyPlan req) s) rfcOpCmd ∧ busy (exec (.calReq req) s) rfcOpCmd ∧
    busy (exec (.tuneReq req b) s) rfcOpCmd ∧ busy (exec (.staAdd req idx10) s) staCmd ∧
    busy (exec (.staRead req idx10) s) staCmd ∧ busy (exec (.wmaKeyInstall req idx10 sc prio) s) wmaKeyCmd ∧
    busy (exec (.wmaKeySetTx req idx10 b) s) wmaKeyCmd ∧ busy (exec (.planCommit req) s) sgmCmd ∧
    busy (exec (.planCancel req) s) sgmCmd ∧ busy (exec (.sgmNodeAdd req idx12) s) nodeCmd ∧
    busy (exec (.sgmNodeDel req idx12) s) nodeCmd ∧ busy (exec (.cipKeyRemove req idx12) s) keyCmd ∧
    (∀ n, busy (exec (.cipKeyErase req n) s) keyCmd) ∧ busy (exec (.rootProgram req p2 b b) s) rootCmd ∧
    busy (exec (.saInstall req p2 sc p2) s) (saCmd p2.toNat) ∧ busy (exec (.drcRetrain req p2) s) drcCmd ∧
    busy (exec (.drcTemper req p2) s) drcCmd ∧ busy (exec (.targetFull req) s) pwrStateCmd ∧
    busy (exec (.targetOff req) s) pwrStateCmd ∧ busy (exec (.asyRelease req) s) asyCmd ∧
    busy (exec (.enterSafe req) s) asyCmd ∧ busy (exec (.clearReplace req) s) asyCmd ∧ busy (exec (.lftNow req) s) asyCmd ∧
    busy (exec (.shfRejoin req) s) shfCmd ∧ busy (exec (.shfTakeover req) s) shfCmd ∧
    busy (exec (.daliSend16 req p2 prio) s) (daliCmd p2.toNat) ∧ busy (exec (.daliSend24 req p2 prio) s) (daliCmd p2.toNat) ∧
    busy (exec (.prfSnap req) s) prfSnapCmd

/-- R102: the codeword of a word is systematic, of 36 bytes, with the check bytes that make the polynomial of the codeword a multiple
of the generator: every syndrome is 0. The manual's example word has the check bytes it gives. -/
def Obligations.WordCodeEncoder : Prop :=
  (∀ d : List Byte, d.length = 32 →
    (wgcEncode d).length = 36 ∧ (wgcEncode d).take 32 = d ∧ ∀ k, k < 4 → wgcSyndrome (wgcEncode d) k = 0) ∧
  wgcCheck (List.replicate 32 0) = [0, 0, 0, 0] ∧
  wgcCheck (List.replicate 31 0 ++ [1]) = [0x0F, 0x36, 0x78, 0x40]

/-- R103: the decoder acts on the syndromes as the rule says; it corrects every single-byte error and detects every error of two or
three bytes. -/
def Obligations.WordCodeDecoder : Prop :=
  (∀ cw : List Byte, cw.length = 36 →
    let s := wgcSyndrome cw
    (s 0 = 0 → s 1 = 0 → s 2 = 0 → s 3 = 0 → wgcDecode cw = .correct) ∧
    (∀ p, p < 36 → s 0 ≠ 0 → s 1 = gfMul (s 0) (gfPow p) → s 2 = gfMul (s 1) (gfPow p) → s 3 = gfMul (s 2) (gfPow p) →
      wgcDecode cw = .corrected (35 - p) (s 0)) ∧
    (¬ (s 0 = 0 ∧ s 1 = 0 ∧ s 2 = 0 ∧ s 3 = 0) →
      (∀ p, p < 36 → ¬ (s 0 ≠ 0 ∧ s 1 = gfMul (s 0) (gfPow p) ∧ s 2 = gfMul (s 1) (gfPow p) ∧ s 3 = gfMul (s 2) (gfPow p))) →
      wgcDecode cw = .uncorrectable)) ∧
  (∀ (d : List Byte) (i : Fin 36) (x : Byte), d.length = 32 → x ≠ 0 →
    let cw := editAt (wgcEncode d) i.val (· ^^^ x)
    wgcDecode cw = .corrected i.val x.toNat ∧ wgcData cw (wgcDecode cw) = d) ∧
  (∀ (d : List Byte) (i j : Fin 36) (x y : Byte), d.length = 32 → i < j → x ≠ 0 → y ≠ 0 →
    wgcDecode (editAt (editAt (wgcEncode d) i.val (· ^^^ x)) j.val (· ^^^ y)) = .uncorrectable) ∧
  (∀ (d : List Byte) (i j k : Fin 36) (x y z : Byte), d.length = 32 → i < j → j < k → x ≠ 0 → y ≠ 0 → z ≠ 0 →
    wgcDecode (editAt (editAt (editAt (wgcEncode d) i.val (· ^^^ x)) j.val (· ^^^ y)) k.val (· ^^^ z)) = .uncorrectable)

/-! ### Register access (spec/00, spec/01, spec/03) -/

/-- R5, R10, R17: a whole-word write by a requester that reaches a register without a command, and is not denied, stores in each
field what the field's access type makes of the written bits, and is logged where it meets a field that the boot lock guards (R10);
the maintenance port writes at Operator level (R84). R6, R10, R18:
what a read returns, and what it clears or holds. -/
def Obligations.RegisterAccessRowsComplete : Prop :=
  ((∀ s req (addr value : BitVec 32) u r w e, e = s.entered u → regAt (addr.toNat / 4 * 4) = some (u, r, w) →
      s.cmdLevel (addr.toNat / 4 * 4 - 4 * w) r = none → s.admits u .guest req = true →
      e.denies req r w (addr.toNat / 4 * 4) value = false → someTakes req.level (s.on TOP_LOCK_BOOT) r w = true →
    exec (.registerWrite req addr value 15) s = .next (((e.regStore req u (addr.toNat / 4 * 4) value
      (fieldsTake req.level (s.on TOP_LOCK_BOOT) r w (e.rd (addr.toNat / 4 * 4)) value)).follow e).when
        (r.fields.any fun f => fieldLocked (s.on TOP_LOCK_BOOT) f w)
        (·.ev u Ev.ACCESS_DENIED (addr.toNat / 4 * 4 :: reqId req)))) ∧
  (∀ s (addr value : BitVec 32) u r w e, e = s.entered u → regAt (addr.toNat / 4 * 4) = some (u, r, w) →
      s.cmdLevel (addr.toNat / 4 * 4 - 4 * w) r = none → s.admits u .guest maintReq = true →
      e.denies maintReq r w (addr.toNat / 4 * 4) value = false → someTakes .operator (s.on TOP_LOCK_BOOT) r w = true →
    exec (.maintWrite addr value true) s = .next (((e.regStore maintReq u (addr.toNat / 4 * 4) value
      (fieldsTake .operator (s.on TOP_LOCK_BOOT) r w (e.rd (addr.toNat / 4 * 4)) value)).follow e).when
        (r.fields.any fun f => fieldLocked (s.on TOP_LOCK_BOOT) f w)
        (·.ev u Ev.ACCESS_DENIED (addr.toNat / 4 * 4 :: reqId maintReq)))) ∧
  (∀ s req, s.admits .top .vendor req = true → s.on TOP_LOCK_BOOT = false →
    exec (.bootLockSet req) s = .next (((s.entered .top).wr TOP_LOCK_BOOT.addr 1).follow (s.entered .top))) ∧
  (∀ s (a : BitVec 7), a.toNat = 0x58 + s.f TOP_STRAP_MADDR →
    exec (.maintAddressMatch a true) s = .next (s.ev .cfg Ev.MAINT_WAKE))) ∧
  ((∀ s req (addr : BitVec 32) u r a, a = addr.toNat → regAt a = some (u, r, 0) →
      u ∈ [UnitId.pkb, .par, .flw, .sch, .cip, .wma, .shf, .fld, .asy, .drc] → r.latch = true → r.words = 2 →
      r.fields = [⟨47, 0, .rc, none, 0, false⟩] → a % 4 = 0 → s.unitDark u = false → s.isOff = false → req.level ≠ .guest →
    Gives (exec (.readClear req addr) s) fun t =>
      t.readData = s.rd a ∧ t.rd a = 0 ∧ t.rd (a + 4) &&& 0xFFFF = 0 ∧
        t.hold.lookD (a + 4) 0 = s.rd (a + 4) &&& 0xFFFF) ∧
  (∀ s req (addr : BitVec 32) u r a e, a = addr.toNat → regAt a = some (u, r, 0) → r.latch = true → a % 4 = 0 →
      (u = .eth → ¬ (a % 0x10000 = 0x30 ∧ a < 0x3080000)) → s.unitDark u = false → s.isOff = false → req.level ≠ .guest →
      e = (s.demand u).prfCount u 5 none 1 →
    Gives (exec (.wideValueLatch req addr) s) fun t =>
      t.readData = masked (e.live a) (readMask r 0) ∧
        ∀ k, 0 < k → k < r.words → t.hold.lookD (a + 4 * k) 0 = masked (e.live (a + 4 * k)) (readMask r k)) ∧
  (∀ s req (addr : BitVec 32) u r w a, a = addr.toNat → regAt a = some (u, r, w) → 0 < w → r.latch = true → a % 4 = 0 →
      s.unitDark u = false → s.isOff = false → req.level ≠ .guest →
    Gives (exec (.wideValueLatch req addr) s) fun t =>
      t.readData = s.hold.lookD a 0 &&& BitVec.ofNat 32 (readMask r w) ∧ t.hold = s.hold) ∧
  (∀ s path (addr : BitVec 32) u r w a, a = addr.toNat → regAt a = some (u, r, w) → a % 4 = 0 → s.unitDark u = false →
      s.isOff = false → s.guestAny a r w = false →
    Gives (exec (.guestReadCheck path addr) s) fun t =>
      t.readData = 0 ∧ ∀ b, serviceReg b = false → t.rd b = s.rd b) ∧
  (∀ s path (addr : BitVec 32) u r a, a = addr.toNat → regAt a = some (u, r, 0) → a % 4 = 0 →
      u ∈ [UnitId.pkb, .par, .flw, .sch, .cip, .wma, .shf, .fld, .asy, .drc] → r.latch = false → s.unitDark u = false →
      s.isOff = false → s.guestAny a r 0 = true →
    Gives (exec (.guestReadCheck path addr) s) fun t =>
      t.readData = s.rd a &&& BitVec.ofNat 32 (readMask r 0 &&& s.guestMask a r 0)))

/-! ### Mains time and local time (spec/02) -/

/-- R31 to R44: what the rows of the mains reference do where their condition holds. -/
def Obligations.MainsReferenceRowsComplete : Prop :=
  (∀ s x b time, 2 ≤ s.cfg.stage → (s.refIn x).raw ≠ b →
    Gives (exec (.refInputChange x b time) s) fun t =>
      (t.refIn x).raw = b ∧ (t.refIn x).change =
        if b = (s.refIn x).level then none else some (s.reach time.toNat).edgeNow) ∧
  (∀ s x c k, (s.refIn x).change = some k → k.time = c → (s.refIn x).raw = false → s.f (refStat x) ≠ 2 → (s.refIn x).recent = [] →
    Gives (exec (.refEdgeAccept x) s) fun t =>
      (t.refIn x).level = false ∧ (t.refIn x).change = none ∧ (t.refIn x).lastEdge = c ∧
        (t.refIn x).falls = (s.refIn x).falls + 1) ∧
  (∀ s x, s.f (refStat x) = 0 ∨ s.f (refStat x) = 3 → s.on MTM_STATUS_VALID = false →
    Gives (exec (.mtRefStuck x) s) fun t => t.f (refStat x) = 1) ∧
  (∀ s x c, (s.refIn x).chatterEnd = some c → c < (s.refIn x).lastEdge + 3 * s.expectedCycle →
    Gives (exec (.chatterPeriodEnd x) s) fun t => t.f (refStat x) = 0 ∧ (t.refIn x).chatterEnd = none) ∧
  (∀ s t0, s.mtm.freeSince = some t0 → s.mtm.slotLogged = false → s.f MTM_HOLD_DRIFT_D ≠ 0 →
    Gives (exec .mtHoldSlot s) fun t => t.mtm.slotLogged = true ∧ t.now = max s.now (s.boundAt t0 4096)) ∧
  (∀ s t0, s.mtm.freeSince = some t0 → s.on MTM_STATUS_CYC_AMBIG = false → s.f MTM_HOLD_DRIFT_D ≠ 0 →
    Gives (exec .mtHoldAmbig s) fun t => t.on MTM_STATUS_CYC_AMBIG = true ∧ t.now = max s.now (s.boundAt t0 32768)) ∧
  (∀ s x e, s.on MTM_STATUS_STEP_PEND = true → s.source = some x → s.mtm.firstStep = false →
      e = wrapErr (((s.reach (s.refInstant x)).mtm.holdTicks : Int) - ((s.reach (s.refInstant x)).mtm.mt % 65536 : Nat)) →
      e < -4096 → s.mtm.steps = [] →
    Gives (exec .mtStep s) fun t => t.on MTM_STATUS_STEP_PEND = false ∧
      t.mtm.holdTicks = (s.reach (s.refInstant x)).mtm.holdTicks + e.natAbs ∧ t.mtm.stepErr = 0) ∧
  (∀ s x e, s.on MTM_STATUS_STEP_PEND = true → s.source = some x → s.mtm.firstStep = false →
      e = wrapErr (((s.reach (s.refInstant x)).mtm.holdTicks : Int) - ((s.reach (s.refInstant x)).mtm.mt % 65536 : Nat)) →
      -4096 ≤ e → e ≤ 4096 →
    Gives (exec .mtStep s) fun t => t.on MTM_STATUS_STEP_PEND = false ∧
      t.mtm.slew = e - (s.reach (s.refInstant x)).adjLeft) ∧
  (∀ s, s.mtm.mt < 2 ^ 48 - 65536 → s.mtm.adoptPend = false → s.mtm.mismatch = false →
    Gives (exec .mtCycleBoundary s) fun t => t.mtm.mt = (s.mtm.mt / 65536 + 1) * 65536 ∧ t.mtm.holdTicks = 0) ∧
  (∀ s x, (s.refIn x).learnCount = 64 → (s.refIn x).learnSum % 64 = 0 → s.source ≠ some x →
    Gives (exec (.offsetLearn x) s) fun t =>
      t.f (learnOfs x) = toBits 16 ((s.refIn x).learnBase + (s.refIn x).learnSum / 64) ∧ t.on (learnFlag x) = true ∧
        (t.refIn x).learnCount = 0)

/-- R45 to R47: the commands of local time. R50 to R52: an alarm fires in its window, or as skipped after it, and EN arms and
disarms it. -/
def Obligations.LocalTimeRowsComplete : Prop :=
  ((∀ s req, s.accepts ltLoadCmd req = true → s.mtm.ltLoaded = false → s.lt ≤ s.w MTM_LT_LOAD_VAL_VALUE →
    Gives (exec (.ltLoad req) s) fun t =>
      t.lt = s.w MTM_LT_LOAD_VAL_VALUE ∧ t.mtm.ltLoaded = true ∧ t.ended ltLoadCmd.addr 0) ∧
  (∀ s req (n : BitVec 24), s.accepts ltStepCmd req = true → n ≠ 0 →
    Gives (exec (.ltStep req n) s) fun t => t.lt = (s.lt + n.toNat * 1000) % 2 ^ 64 ∧ t.ended ltStepCmd.addr 0) ∧
  (∀ s, s.isLead = false → s.on MTM_STATUS_LT_SYNC = true → s.inHoldover = false →
    Gives (exec .ltSyncLost s) fun t => t.on MTM_STATUS_LT_SYNC = false) ∧
  (∀ s req, s.accepts mtSnapCmd req = true →
    Gives (exec (.mtSnap req) s) fun t =>
      t.w MTM_SNAP_MT_VALUE = s.mtm.mt % 2 ^ 48 ∧ t.w MTM_SNAP_LT_VALUE = s.lt % 2 ^ 64 ∧ t.ended mtSnapCmd.addr 0)) ∧
  ((∀ s (n : BitVec 8) a, s.mtm.armed.look n.toNat = some a → s.w (almOpen n.toNat) / 65536 ≠ s.mtm.mt / 65536 →
      (s.mtm.mt + 2 ^ 48 - s.w (almOpen n.toNat)) % 2 ^ 48 < a.width → bitsOf a.ctl 7 4 = 0 →
    Gives (exec (.alarm n) s) fun t =>
      t.f ⟨0x100080 + 4 * (n.toNat / 32), n.toNat % 32, n.toNat % 32⟩ = 1 ∧ t.on (almSkipped n.toNat) = false ∧
        (bitsOf a.ctl 31 16 = 0 → t.mtm.armed.look n.toNat = none)) ∧
  (∀ s (n : BitVec 8) a, s.mtm.armed.look n.toNat = some a → s.w (almOpen n.toNat) / 65536 ≠ s.mtm.mt / 65536 →
      a.width ≤ (s.mtm.mt + 2 ^ 48 - s.w (almOpen n.toNat)) % 2 ^ 48 →
      (s.mtm.mt + 2 ^ 48 - s.w (almOpen n.toNat)) % 2 ^ 48 < 2 ^ 47 → bitsOf a.ctl 7 4 = 0 →
    Gives (exec (.alarm n) s) fun t =>
      t.f ⟨0x100080 + 4 * (n.toNat / 32), n.toNat % 32, n.toNat % 32⟩ = 1 ∧ t.on (almSkipped n.toNat) = true) ∧
  (∀ s req (n : BitVec 8) v, s.admits .mtm (almLevel n.toNat) req = true → (s.rd (almCtl n.toNat)).getLsbD 0 = false →
      v.getLsbD 0 = true →
      (s.mtm.mt + 2 ^ 48 - s.w (almOpen n.toNat)) % 2 ^ 48 < max 1 (s.f (almWidth n.toNat)) ∨
        2 ^ 47 ≤ (s.mtm.mt + 2 ^ 48 - s.w (almOpen n.toNat)) % 2 ^ 48 →
    Gives (exec (.alarmCtlWrite req n v) s) fun t =>
      t.on (almEn n.toNat) = true ∧
        (t.mtm.armed.look n.toNat).map (fun a => a.width) = some (max 1 (s.f (almWidth n.toNat)))) ∧
  (∀ s req (n : BitVec 8) v, s.admits .mtm (almLevel n.toNat) req = true → (s.rd (almCtl n.toNat)).getLsbD 0 = true →
      v.getLsbD 0 = false →
    Gives (exec (.alarmCtlWrite req n v) s) fun t =>
      t.on (almEn n.toNat) = false ∧ t.mtm.armed.look n.toNat = none))

/-! ### Start-up, configuration and folios (spec/03) -/

/-- R70, R72, R74, R398: steps 1 to 4 of start-up, and a late step. R72 to R76, R491: steps 6 to 10 of start-up. -/
def Obligations.StartUpRowsComplete : Prop :=
  ((∀ s (mv : BitVec 16), 10600 ≤ mv.toNat → s.on PWR_VIN_VALID = false →
    Gives (exec (.vinValid mv) s) fun t =>
      t.on PWR_VIN_VALID = true ∧ t.f PWR_VIN_MV = mv.toNat ∧ t.cfg.stage = 1 ∧ t.cfg.bootStart = s.now) ∧
  (∀ s (x : StrapSample), s.cfg.stage = 1 → s.cfg.strapped = false →
    Gives (exec (.strapSampleDone (List.replicate 8 x)) s) fun t =>
      t.f TOP_STRAP_FOLIO = x.folio.toNat ∧ t.f TOP_FOLIO_STAT_ACTIVE = x.folio.toNat ∧
        t.f TOP_STRAP_CFG_SRC = x.cfgSrc.toNat ∧ t.f TOP_STRAP_PWM_PRE = x.pwmPre.toNat ∧
        t.f TOP_STRAP_MADDR = x.maddr.toNat ∧ t.on TOP_STRAP_UNSTABLE = false ∧ t.cfg.strapped = true ∧
        t.cfg.testMode = decide (x.testMode.toNat = 1)) ∧
  (∀ s, s.cfg.stage = 1 → s.cfg.strapped = true →
    Gives (exec .aonUp s) fun t =>
      t.cfg.stage = (if s.cfg.testMode then 2 else 3) ∧
        (s.cfg.testMode = false → t.shf.epoch = (s.shf.epoch + 1) % 4096 ∧ ∀ d, t.dom d = .up)) ∧
  (∀ s, s.cfg.stage = 3 → s.cfg.warm = false → s.cfg.bistDead = false →
    (Gives (exec (.assayBistDone true) s) fun t => t.cfg.stage = 4) ∧
      (s.cfg.bistFailed = false → Gives (exec (.assayBistDone false) s) fun t => t.cfg.bistFailed = true ∧ t.cfg.stage = 3)) ∧
  (∀ s (n : BitVec 4), s.booting = true → 2 ≤ n.toNat → n.toNat ≤ 10 → s.cfg.stage < n.toNat →
      s.cfg.late.contains n.toNat = false → s.cfg.warm = false →
    Gives (exec (.bootLate n) s) fun t =>
      t.cfg.late = n.toNat :: s.cfg.late ∧ t.now = max s.now (s.cfg.bootStart + stepBound n.toNat * 1000000) ∧
        t.cfg.stage = s.cfg.stage)) ∧
  ((∀ s, s.cfg.stage = 5 →
    exec .luminaireControlReady s = .next (
      let u := (({ s.each [UnitId.mtm, .pwr, .asy, .cfg, .fld] (fun s u => s.setReady u true) with
        asy.armed := true, asy.watchdog := true } : State).stageIs 6)
      let v := u.when (!s.asy.armed) State.startLevels
      ({ v.each v.cfg.alarmsDue (fun s n => (s.almArm n).almCheck n) with cfg.alarmsDue := [] } : State).safeResume)) ∧
  (∀ s, s.cfg.stage = 6 → s.sectionPass (s.on CFG_STATUS_BANK) 5 0 = true →
    Gives (exec .calibrationSectionLoaded s) fun t => t.cfg.calOk = true) ∧
  (∀ s, s.cfg.stage = 6 → s.sectionPass (s.on CFG_STATUS_BANK) 5 0 = false →
    Gives (exec .calibrationSectionLoaded s) fun t => t.cfg.calOk = false ∧ t.f CFG_STATUS_BAD_SECTION = 0x50) ∧
  (∀ s, s.cfg.stage = 6 →
    exec (.dramTrainingDone true) s = .next (((((s.stageIs 7).up DRC_STATUS_TRAINED).setReady .drc true).each (List.range 4)
      State.drcTrained).asyFaultEnd .dramFreeze .dram)) ∧
  (∀ s, s.cfg.stage = 6 → exec (.dramTrainingDone false) s = .next ((s.stageIs 7).drcFreeze 2 none none)) ∧
  (∀ s failed load, s.cfg.stage = 7 → load = s.deferredLoad (s.on CFG_STATUS_BANK) → s.deferredBad load = [] →
    exec (.deferredSectionsLoaded failed) s = .next (
      let u := (({ s.put CFG_STATUS_PARTIAL false with cfg.deferred := some load } : State).folioStore load).loadPar
      let v := u.each ([UnitId.pkb, .par, .flw, .sch, .ple, .cip, .eth, .cpu, .prf, .shf, .hif].filter fun x => !(s.unitsLacking load).contains x)
        fun s x => s.setReady x true
      let w := v.when (v.ready .ple) (·.loadPins load.pins)
      (((w.stageIs 8).calShow.takeRole).partialImage (s.unitsLacking load)).enginesLost failed)) ∧
  (∀ s spans, s.cfg.stage = 8 → s.cfg.calOk = false →
    exec (.radioCalibrationDone spans) s = .next (
      (((((s.planStart.each [0, 1] fun s p => s.portSync p).setReady .wma true).setReady .sgm true).stageIs 9).calShow))) ∧
  (∀ s spans, s.cfg.stage = 8 → s.cfg.calOk = true →
    Gives (exec (.radioCalibrationDone spans) s) fun t => t.cfg.stage = 9 ∧ t.f CFG_STATUS_PHASE = 8) ∧
  (∀ s u v w, s.cfg.stage = 9 → u = ((s.stageIs 10).up TOP_LOCK_BOOT).ev .top Ev.BOOT_COMPLETE →
      v = ({ u.evictKeys 3 with cfg.failedBank := none } : State) → w = v.judgeLadders → w.cfg.resumeStandby = false →
      w.shelfJoin.pwr.transition = none →
    exec .bootComplete s = .next w.shelfJoin))

/-- R65 to R68: the headers are read once, and a bank's critical sections are loaded; without one, NO_IMAGE. R69, R76: the
commands of the configuration unit and the device resets. -/
def Obligations.ImageRowsComplete : Prop :=
  ((∀ s, s.cfg.hdrRead = false → s.cfg.stage = 4 → s.cfg.bistDead = false → s.cfg.failedBank = none → s.cfg.warm = true →
    Gives (exec .cfgHeadersRead s) fun t =>
      t.cfg.hdrRead = true ∧ t.cfg.hdrA = s.bankHdr false ∧ t.cfg.hdrB = s.bankHdr true ∧
        t.on CFG_BANK_VALID_A = (s.bankHdr false).valid ∧ t.on CFG_BANK_VALID_B = (s.bankHdr true).valid ∧
        (s.rootOk 3 = true → (s.cip.derivs.any fun (d : CipDeriv) => decide (d.tag = s.imageTag)) = false →
          ∃ d ∈ t.cip.derived, d.tag = s.imageTag ∧ d.evict = false)) ∧
  (∀ s, s.cfg.hdrRead = true → s.cfg.noImage = false → s.cfg.bistDead = false → s.cfg.stage = 4 → s.cfg.candidates = [] →
    Gives (exec .criticalSectionsLoaded s) fun t =>
      t.cfg.noImage = true ∧ t.f CFG_STATUS_PHASE = 10 ∧ t.on FLD_STATUS_FAULT = true ∧ t.ready .cfg = true) ∧
  (∀ s, s.cfg.hdrRead = true → s.cfg.noImage = false → s.cfg.bistDead = false → s.cfg.stage = 4 →
      s.cfg.candidates = [false] → critFailed (s.critLoad false) (s.f TOP_FOLIO_STAT_ACTIVE) = none →
    exec .criticalSectionsLoaded s = .next (s.bootBank false (s.critLoad false) (s.f TOP_FOLIO_STAT_ACTIVE)))) ∧
  ((∀ s req, s.accepts cfgCmd req = true → s.cfg.stage = 10 →
    Gives (exec (.confirm req) s) fun t =>
      t.cfg.confSeq = (s.hdr (s.on CFG_STATUS_BANK)).seq ∧ t.cfg.trials = 0 ∧
        t.cfg.otp = max s.cfg.otp (s.hdr (s.on CFG_STATUS_BANK)).rollback ∧ t.ended cfgCmd.addr 0) ∧
  (∀ s req, s.accepts cfgCmd req = true → s.runningBank ≠ some (s.on CFG_NVM_PTR_BANK) →
    Gives (exec (.eraseBank req) s) fun t =>
      t.cfg.erasing = some (s.on CFG_NVM_PTR_BANK) ∧ t.f (cmdState cfgCmd.addr) = 1) ∧
  (∀ s b, s.cfg.erasing = some b →
    Gives (exec .eraseBankDone s) fun t =>
      t.cfg.erasing = none ∧ t.ended cfgCmd.addr 0 ∧
        (∀ k, bankBase b ≤ k → k < bankBase b + bankSize → t.norMem.byte k = 0) ∧
        (∀ k, k < bankBase b ∨ bankBase b + bankSize ≤ k → t.norMem.byte k = s.norMem.byte k)) ∧
  (∀ s req (v : Word), s.admits .cfg .operator req = true → s.runningBank ≠ some (s.on CFG_NVM_PTR_BANK) →
      s.f CFG_NVM_PTR_OFFSET + 4 ≤ bankSize → s.f CFG_NVM_PTR_OFFSET % 4 = 0 →
    Gives (exec (.nvmDataWrite req v v) s) fun t =>
      t.norMem.le (bankBase (s.on CFG_NVM_PTR_BANK) + s.f CFG_NVM_PTR_OFFSET) 4 = (~~~v).toNat ∧
        t.f CFG_NVM_PTR_OFFSET = s.f CFG_NVM_PTR_OFFSET + 4 ∧ t.on CFG_STATUS_PROG_ERR = s.on CFG_STATUS_PROG_ERR) ∧
  (∀ s req, s.accepts resetCmd req = true → exec (.warmReset req 0xC1A0) s = .next (s.entered .top).warmReset) ∧
  (∀ s req, s.accepts resetCmd req = true →
    Gives (exec (.coldReset req 0xC1A0) s) fun t =>
      t.cfg.stage = 1 ∧ t.cfg.nor = s.cfg.nor ∧ t.cfg.norExt = s.cfg.norExt ∧
        t.cfg.learned = s.cfg.learned ∧ t.cfg.confSeq = s.cfg.confSeq ∧
        t.cfg.otp = s.cfg.otp ∧ t.mtm.mt = 0 ∧ t.lt = 0 ∧ t.shared = [] ∧ t.on PWR_VIN_VALID = true ∧
        t.on TOP_LOCK_BOOT = false ∧ t.rd TOP_UNIT_READY_READY.addr = 1))

/-- R78 to R81: folio switches. -/
def Obligations.FolioRowsComplete : Prop :=
  (∀ s req (n : BitVec 2), s.accepts folioCmd req = true → n.toNat ≠ s.f TOP_FOLIO_STAT_ACTIVE →
      (s.f TOP_FOLIO_STAT_AVAIL).testBit n.toNat = true → s.staticEqual n.toNat = true →
    Gives (exec (.folioSwitchRequest req n) s) fun t =>
      t.on TOP_FOLIO_STAT_PEND_VALID = true ∧ t.f TOP_FOLIO_STAT_PENDING = n.toNat ∧
        t.cfg.switchCycle = some (s.mtm.mt / 65536 + (if s.mtm.mt % 65536 ≤ 61439 then 1 else 2)) ∧
        t.f (cmdState folioCmd.addr) = 1 ∧ t.f (cmdResult folioCmd.addr) = 0) ∧
  (∀ s req (n : BitVec 2), s.accepts folioCmd req = true →
    Gives (exec (.folioAtReset req n) s) fun t =>
      t.on TOP_FOLIO_STAT_NEXT_VALID = true ∧ t.f TOP_FOLIO_STAT_NEXT = n.toNat ∧ t.ended folioCmd.addr 0) ∧
  (∀ s c, s.cfg.switchCycle = some c → mtLe (c % 2 ^ 32 * 65536) s.mtm.mt = true →
    Gives (exec .folioSwitch s) fun t =>
      t.f TOP_FOLIO_STAT_ACTIVE = s.f TOP_FOLIO_STAT_PENDING ∧ t.on TOP_FOLIO_STAT_PEND_VALID = false ∧
        t.on TOP_FOLIO_STAT_SUBST = false ∧ t.ended folioCmd.addr 0) ∧
  (∀ s (q : BitVec 7), s.cfg.reconfig.contains q.toNat = true → (s.quire q.toNat).used = 0 →
      s.folio (s.f TOP_FOLIO_STAT_ACTIVE) = none →
    exec (.quireReconfig q) s =
      .next (({ s with cfg.reconfig := s.cfg.reconfig.filter fun x => decide (x ≠ q.toNat) } : State).takeReserve q.toNat)) ∧
  (∀ s (q : BitVec 7) f, s.cfg.reconfig.contains q.toNat = true → (s.quire q.toNat).used = 0 →
      s.folio (s.f TOP_FOLIO_STAT_ACTIVE) = some f →
    exec (.quireReconfig q) s =
      .next (((({ s with cfg.reconfig := s.cfg.reconfig.filter fun x => decide (x ≠ q.toNat) } : State).folioAt f
        (PKB_Q_CFG_EN q.toNat).addr).folioAt f (PKB_Q_LIMIT_QUOTA q.toNat).addr).takeReserve q.toNat))

/-! ### Packet memory and the word guard code (spec/04) -/

/-- R92 to R96: the beats of a packet written to a quire. -/
def Obligations.QuireWriteRowsComplete : Prop :=
  (∀ s (q : BitVec 7) info data, s.unitDark .pkb = false → (s.quire q.toNat).opened = none → s.refuses q.toNat = false →
      ((s.demand .pkb).editQuire q.toNat fun k => { k with discard := false }).cellsFit q.toNat 1 = true →
    Gives (exec (.quireStartBeat q info data) s) fun t =>
      (t.quire q.toNat).opened = some s.pkb.next ∧ (t.quire q.toNat).used = (s.quire q.toNat).used + 1 ∧
        ∃ p, t.pkt s.pkb.next = some p ∧ p.data = s.lane q.toNat data ∧ p.info = natLe 16 info.toNat ∧ p.cells = 1 ∧
          p.chain.length = 1 ∧ p.ltFirst = s.lt ∧ p.ingress = q.toNat) ∧
  (∀ s (q : BitVec 7) data id p, s.unitDark .pkb = false → (s.quire q.toNat).opened = some id →
      (s.quire q.toNat).discard = false → s.pkt id = some p → p.trunc = false →
      (p.data ++ s.lane q.toNat data).length < 16384 →
      s.cellsFit q.toNat (cellsFor (p.data ++ s.lane q.toNat data).length - p.cells) = true →
    Gives (exec (.quireDataBeat q data) s) fun t =>
      (t.pkt id).map (·.data) = some (p.data ++ s.lane q.toNat data) ∧ (t.quire q.toNat).opened = some id) ∧
  (∀ s (q : BitVec 7) id p, s.unitDark .pkb = false → (s.quire q.toNat).opened = some id → (s.quire q.toNat).discard = false →
      s.pkt id = some p → p.trunc = true → p.data ≠ [] →
    (Gives (exec (.quireEndBeat q [] .good) s) fun t =>
      (t.pkt id).map (fun p => (p.good, p.bad)) = some (true, false) ∧ (t.quire q.toNat).opened = none ∧
        (t.quire q.toNat).visible = (s.quire q.toNat).visible ++ [id]) ∧
    (Gives (exec (.quireEndBeat q [] .bad) s) fun t =>
      (t.pkt id).map (fun p => (p.good, p.bad)) = some (false, true) ∧
        (t.quire q.toNat).visible = (s.quire q.toNat).visible ++ [id]) ∧
    (Gives (exec (.quireEndBeat q [] .abort) s) fun t => t.pkt id = none)) ∧
  (∀ s (q : BitVec 7) data id p, s.unitDark .pkb = false → (s.quire q.toNat).opened = some id →
      (s.quire q.toNat).discard = false → s.pkt id = some p → p.trunc = false → p.data ≠ [] →
      (p.data ++ s.lane q.toNat data).length < 16384 →
      s.cellsFit q.toNat (cellsFor (p.data ++ s.lane q.toNat data).length - p.cells) = true →
    Gives (exec (.quireEndBeat q data .good) s) fun t =>
      (t.pkt id).map (fun p => (p.data, p.good)) = some (p.data ++ s.lane q.toNat data, true) ∧
        (t.quire q.toNat).visible = (s.quire q.toNat).visible ++ [id])

/-- R90, R98 to R100: a quire is read word by word, dropped, flushed and disabled. R106, R110: the scrubber's correction is
counted, and a second's count ends. -/
def Obligations.QuireReadRowsComplete : Prop :=
  ((∀ s (q : BitVec 7) id rest p, s.unitDark .pkb = false → (s.quire q.toNat).current = none →
      (s.quire q.toNat).visible = id :: rest → s.pkt id = some p → p.poison = false →
      wgcDecode (upsetWord (wgcEncode (headerSlot p)) []) = .correct →
    Gives (exec (.quireWordRead q ⟨[], false, []⟩) s) fun t =>
      (t.quire q.toNat).current = some (id, 0) ∧ (t.quire q.toNat).visible = rest ∧
        t.pkb.readWord = (upsetWord (wgcEncode (headerSlot p)) []).take 32 ∧ t.pkb.readTag = 128) ∧
  (∀ s (q : BitVec 7) id n p, s.unitDark .pkb = false → (s.quire q.toNat).current = some (id, n) → (n + 1) % 8 ≠ 0 →
      s.pkt id = some p → dataWords p ≤ n + 1 →
      wgcDecode (upsetWord (wgcEncode (pktWord p (n + 1))) []) = .correct →
    Gives (exec (.quireWordRead q ⟨[], false, []⟩) s) fun t =>
      t.pkb.readWord = (upsetWord (wgcEncode (pktWord p (n + 1))) []).take 32 ∧ t.pkb.readTag = pktTag p (n + 1) ∧ t.pkt id = none) ∧
  (∀ s req (q : BitVec 7) id n, s.accepts (s.qcmd q.toNat) req = true → (s.quire q.toNat).current = some (id, n) →
    Gives (exec (.dropPkt req q) s) fun t => t.pkt id = none ∧ t.ended PKB_QCMD_STATE.addr 0) ∧
  (∀ s req (q : BitVec 7), s.accepts (s.qcmd q.toNat) req = true → s.on (PKB_Q_CFG_EN q.toNat) = true →
    Gives (exec (.flush req q) s) fun t =>
      (∀ id ∈ (s.quire q.toNat).visible, t.pkt id = none) ∧
        (∀ id n, (s.quire q.toNat).current = some (id, n) → t.pkt id = none) ∧ t.ended PKB_QCMD_STATE.addr 0) ∧
  (∀ s req (q : BitVec 7), s.admits .pkb .operator req = true →
    Gives (exec (.quireDisable req q) s) fun t => t.on (PKB_Q_CFG_EN q.toNat) = false)) ∧
  ((∀ s u (source : BitVec 4) (index : BitVec 23) upset p k,
      (match unitDom u with | some d => decide (s.dom d = .up) | none => decide (2 ≤ s.cfg.stage)) = true → wgcHas u = true →
      wgcDecode (upsetWord (wgcEncode []) upset) = .corrected p k →
    Gives (exec (.tableScrub u source index upset) s) fun t =>
      t.w ⟨u.base + wgcOffset u, 48⟩ = (s.w ⟨u.base + wgcOffset u, 48⟩ + 1) % 2 ^ 48 ∧
        t.wgc.count.lookD u.num 0 = s.wgc.count.lookD u.num 0 + 1 ∧ t.bad = s.bad) ∧
  (∀ s u, wgcHas u = true →
      (s.rd (u.base + wgcOffset u + 0x18)).toNat = 0 ∨ s.wgc.count.lookD u.num 0 ≤ (s.rd (u.base + wgcOffset u + 0x18)).toNat →
    Gives (exec (.wgcRateWindowEnd u) s) fun t =>
      t.wgc.count.lookD u.num 0 = 0 ∧ t.wgc.opens.lookD u.num 0 = t.now ∧
        t.now = max s.now (s.wgc.opens.lookD u.num 0 + 1000000000)))

/-! ### Parsing and classification (spec/05) -/

/-- R112 to R128: a pass starts, times out and ends with its final lookup; fragment windows end. R133, R134: the rule commands
and the commit of an edition. -/
def Obligations.ParseRowsComplete : Prop :=
  ((∀ s (n : BitVec 5) id rest p up, s.unitDark .par = false → s.pe n.toNat = none → s.par.lost.testBit n.toNat = false →
      s.par.recirc = id :: rest → s.pkt id = some p → p.poison = false → p.statusPoison = false → p.bad = false → p.trunc = false →
    Gives (exec (.parsePassStart n none up) s) fun t =>
      t.pe n.toNat = some { pkt := id, pc := s.par.entries.lookD p.entry 0 } ∧ t.par.recirc = rest ∧
        (t.pkt id).map (·.passes) = some (p.passes + 1)) ∧
  (∀ s (n : BitVec 5) (q : BitVec 7) id rest p, s.unitDark .par = false → s.pe n.toNat = none →
      s.par.lost.testBit n.toNat = false → s.f (PKB_Q_CFG_CONS q.toNat) = UnitId.par.num → (s.quire q.toNat).visible = id :: rest →
      s.pkt id = some p → p.poison = false → p.statusPoison = false → p.bad = false → p.trunc = false →
      wgcDecode (upsetWord (wgcEncode (headerSlot p)) []) = .correct →
    Gives (exec (.parsePassStart n (some q) ⟨[], false, []⟩) s) fun t =>
      t.pe n.toNat = some { pkt := id, pc := s.par.entries.lookD (s.f (PAR_PROG_ENTRY q.toNat)) 0 } ∧
        (t.quire q.toNat).visible = rest) ∧
  (∀ s (n : BitVec 5) x, s.pe n.toNat = some x → x.final = none →
    Gives (exec (.parseTimeout n) s) fun t => t.pe n.toNat = none) ∧
  (∀ s (n : BitVec 5) x d a p, s.unitDark .par = false → s.pe n.toNat = some x → x.final = some d → x.report = none →
      s.classify x.tkey x.ekey (s.lookupEdition x.pkt) d = (a, none) → a % 16 = 0 → s.pkt x.pkt = some p → p.frags = [] →
      s.par.outs = [] →
    ((s.peFree n.toNat).parEarlier p = false →
      Gives (exec (.finalLookupResult n) s) fun t =>
        t.pe n.toNat = none ∧ t.flw.wait = s.flw.wait ++ [{ pkt := x.pkt, param := a / 2 ^ 32 }] ∧ t.par.outs = []) ∧
    ((s.peFree n.toNat).parEarlier p = true →
      Gives (exec (.finalLookupResult n) s) fun t =>
        t.pe n.toNat = none ∧ t.flw.wait = s.flw.wait ∧ t.par.outs = [(p.entered, x.pkt, some (.forward a))])) ∧
  (∀ s (i : BitVec 12) e, s.par.frags.look i.toNat = some e → e.decision = none →
    Gives (exec (.fragHoldExpire i) s) fun t => t.par.frags.look i.toNat = none ∧ t.now = max s.now (e.since + 64000000)) ∧
  (∀ s (i : BitVec 12) e v, s.par.frags.look i.toNat = some e → e.decision = some v →
    Gives (exec (.fragActiveExpire i) s) fun t => t.par.frags.look i.toNat = none ∧ t.now = max s.now (e.since + 2000000000))) ∧
  ((∀ s req (i : BitVec 20), s.accepts ruleCmd req = true → s.f PAR_COMMIT_STATE ≠ 1 → i.toNat < 16384 →
      s.ternaryAt i.toNat = none →
    Gives (exec (.ruleWrite req false i) s) fun t =>
      t.par.ternary.look i.toNat = some (s.ruleBuf false) ∧ t.ended ruleCmd.addr 0) ∧
  (∀ s req (i : BitVec 20), s.accepts ruleCmd req = true → s.f PAR_COMMIT_STATE ≠ 1 →
      s.exactPlaces (s.ruleBuf true).value ≠ [] →
      (s.exactAlive.any fun (x : Nat × Rule) => decide (x.2.value = (s.ruleBuf true).value) && s.ruleVisible x.2 s.edPending) = false →
    Gives (exec (.ruleWrite req true i) s) fun t =>
      (∃ k ∈ s.exactPlaces (s.ruleBuf true).value, t.par.exact.look k = some (s.ruleBuf true)) ∧ t.ended ruleCmd.addr 0) ∧
  (∀ s req (i : BitVec 20) r o, s.accepts ruleCmd req = true → s.f PAR_COMMIT_STATE ≠ 1 → i.toNat < 16384 →
      s.ternaryAt i.toNat = some r → s.ruleRetired r = some o →
    Gives (exec (.ruleRetire req false i) s) fun t => t.par.ternary.look i.toNat = o ∧ t.ended ruleCmd.addr 0) ∧
  (∀ s req (i : BitVec 20) r, s.accepts ruleCmd req = true → s.f PAR_COMMIT_STATE ≠ 1 → i.toNat < 16384 →
      s.ternaryAt i.toNat = some r →
    Gives (exec (.ruleRead req false i) s) fun t =>
      t.ruleBytes 0 16 = keyPad 64 r.value ∧ t.ruleBytes 0x40 16 = keyPad 64 r.mask ∧
        t.f PAR_RULE_BUF_RANGE_FROM = r.fromEd % 65536 ∧ t.f PAR_RULE_BUF_RANGE_UNTIL = r.untilEd % 65536 ∧
        t.on PAR_RULE_BUF_FLAGS_OPEN = r.opened ∧ t.ended ruleCmd.addr 0) ∧
  (∀ s req, s.accepts commitCmd req = true → s.f PAR_RULE_CMD_STATE ≠ 1 → s.edDist s.edCurrent < 3 →
    Gives (exec (.editionCommit req) s) fun t => t.edCurrent = s.edPending ∧ t.ended commitCmd.addr 0))

/-! ### The flow table and routing (spec/06) -/

/-- R135, R140, R141, R146, R147: a packet's way through FLW. The packet that arrived first is looked up in SRAM, then in DRAM;
its entry is used or made; the route lookup that it waited for ends. R154, R155, R205: a remote lookup times out, is answered,
and is asked of this device. -/
def Obligations.FlowRowsComplete : Prop :=
  ((∀ s x p key, s.unitDark .flw = false → s.firstWait (fun y => decide (y.stage = .arrived)) = some x →
      s.pkt x.pkt = some p → paramBad x.param = false → flowKey p (paramVrf x.param) = some key → p.poison = false →
      paramNat x.param = 0 → p.laterFrag = false → paramNoflow x.param = false → s.fence key = none →
    (s.flowIn true key = none → s.limp = false →
      Gives (exec .flowLookup s) fun t =>
        t.flw.wait = s.flw.wait.map
          (fun y => if y.pkt = x.pkt then { y with stage := .dram, key := key, param := x.param, dreq := s.drc.next } else y)) ∧
    (∀ place f, s.flowIn true key = some place → s.flowAt place = some f →
      exec .flowLookup s = .next ((s.demand .flw).useFlow { x with key := key } f))) ∧
  (∀ s x p, s.unitDark .flw = false → s.firstWait (fun y => decide (y.stage = .arrived)) = some x →
      s.pkt x.pkt = some p → paramBad x.param = false → flowKey p (paramVrf x.param) = none →
    exec .flowLookup s = .next (((s.demand .flw).flwDrop x.pkt).bump FLW_CNT_NO_KEY)) ∧
  (∀ s x, s.unitDark .flw = false → s.firstWait (fun y => decide (y.stage = .dram) && s.bucketDone y) = some x →
      s.flowIn true x.key = none →
    (∀ f, s.flowGet x.key = some f → exec .flowDramReadDone s = .next ((s.demand .flw).useFlow x f)) ∧
    (s.flowGet x.key = none → exec .flowDramReadDone s = .next ((s.demand .flw).flowNew x))) ∧
  (∀ s x gen p q, s.unitDark .flw = false → s.flw.wait = [x] → x.stage = .route false (some q) gen → s.pkt x.pkt = some p →
      s.nhUsable q (paramTc x.param) = true → s.f (FLW_NH_MTU q) ≥ ipLength p →
      (s.demand .flw).wifiHopLost q (paramTc x.param) = false →
      (∃ code ip, ipLayer p = some (code, ip) ∧ 1 < beAt p.data (ip + (if code = 0x10 then 8 else 7)) 1) →
    exec .routeLookupDone s = .next (({ ((s.demand .flw).editPkt x.pkt fun p =>
        { p with routed := true, rewrite := some (s.f (FLW_NH_REWRITE q)) }) with flw.wait := [] } : State).schEnqueue
          (s.f (FLW_NH_QBASE q) + paramTc x.param) x.pkt)) ∧
  (∀ s x gen p q, s.unitDark .flw = false → s.flw.wait = [x] → x.stage = .route false (some q) gen → s.pkt x.pkt = some p →
      s.nhUsable q (paramTc x.param) = true → (s.demand .flw).wifiHopLost q (paramTc x.param) = true →
    exec .routeLookupDone s = .next ((((s.demand .flw).flwDrop x.pkt).bump FLW_CNT_NO_ROUTE).bump WMA_CNT_UNKNOWN_TA))) ∧
  ((∀ s x before after, (s.flw.wait.filter fun y => decide (y.stage = .remote)) = before ++ x :: after →
      (∀ y ∈ before, x.deadline < y.deadline) → (∀ y ∈ after, x.deadline ≤ y.deadline) →
    exec .remoteLookupTimeout s =
      .next ((((s.reach x.deadline).flwDrop x.pkt).bump FLW_CNT_REMOTE_TMO).fencesCheck)) ∧
  (∀ s src req key ed param len redirected, s.unitDark .flw = false → s.fence (natLe 39 key.toNat) = none →
      s.flowFind (natLe 39 key.toNat) = none →
    exec (.remoteLookupRx src req key ed param len redirected) s =
      .next (((s.demand .flw).when (!s.limp) (·.bucketRead (natLe 39 key.toNat))).lookupResp src.toNat req.toNat true .none 0 0)) ∧
  (∀ s src req key ed param len redirected m, s.unitDark .flw = false → s.fence (natLe 39 key.toNat) = some m →
    Gives (exec (.remoteLookupRx src req key ed param len redirected) s) fun t =>
      (t.ple.movesIn.filter fun k => decide (k.id = m.id)).map (·.held) =
        (s.ple.movesIn.filter fun k => decide (k.id = m.id)).map (fun k => k.held ++
          [.lookup src.toNat req.toNat (natLe 39 key.toNat) ed.toNat param.toNat len.toNat redirected])) ∧
  (∀ s (req : BitVec 32) xlat x, s.unitDark .flw = false →
      s.firstWait (fun x => decide (x.stage = .remote) && decide (x.req = req.toNat)) = some x →
    exec (.lookupRespRx req false .none xlat) s = .next (((s.demand .flw).toRoute x false).fencesCheck) ∧
    exec (.lookupRespRx req false .drop xlat) s = .next (((s.demand .flw).flwDrop x.pkt).fencesCheck) ∧
    exec (.lookupRespRx req false .exception xlat) s = .next (((s.demand .flw).natExc x.pkt).fencesCheck)))

/-- R139, R153, R156 to R158: the flow commands, a tier move, the ageing sweep, and Limp mode. R144 to R146: the route commands
add, remove and commit. -/
def Obligations.FlowTableAndRouteRowsComplete : Prop :=
  ((∀ s req place f, s.accepts flowCmd req = true → s.flowFind s.bufKey = some place → s.flowAt place = some f →
    (Gives (exec (.flowRead req) s) fun t => t.flowBuf = flowImage f ∧ t.flw = s.flw ∧ t.ended flowCmd.addr 0) ∧
    (f.nat = false →
      (Gives (exec (.flowDelete req) s) fun t => t.flowAt place = none ∧ t.ended flowCmd.addr 0) ∧
      (Gives (exec (.flowUnpin req) s) fun t =>
        t.flowAt place = some { f with pin := false } ∧ t.ended flowCmd.addr 0) ∧
      (f.tier = 1 → Gives (exec (.flowPin req) s) fun t =>
        t.flowAt place = some { f with pin := true } ∧ t.ended flowCmd.addr 0))) ∧
  (∀ s (key : BitVec 312) sram (f : Flow) old new, s.unitDark .flw = false → s.flowFind (natLe 39 key.toNat) = some old →
      s.flowAt old = some f → old.1 = !sram → decide (f.tier = 1) = !sram → f.tier ≠ 3 → f.pin = false → f.nat = false →
      s.flowPin (natLe 39 key.toNat) 2 = none →
      s.freeWay sram (natLe 39 key.toNat) = some new →
    Gives (exec (.flowTierMove key sram) s) fun t =>
      t.flowAt new = some { f with tier := if sram then 1 else 2 } ∧ t.flowAt old = none) ∧
  (∀ s sram (i : BitVec 23) f, s.unitDark .flw = false → i.toNat ≠ 0 → s.flowAt (sram, i.toNat) = some f →
      s.flowFind f.key = some (sram, i.toNat) →
    (s.flowExpired f = true → f.nat = false → Gives (exec (.ageingSweep sram i) s) fun t => t.flowAt (sram, i.toNat) = none) ∧
    (s.flowExpired f = false → f.tier ≠ 3 → f.gen ≠ s.f (FLW_VRF_CTL_GEN (keyVrf f.key)) →
      Gives (exec (.ageingSweep sram i) s) fun t => t.flowAt (sram, i.toNat) = some { f with nh := 0xFFFF })) ∧
  (∀ s, s.unitDark .flw = false → s.on DRC_STATUS_FROZEN = true → s.limp = false → s.flw.wait = [] →
      s.ple.movesIn = [] → s.ple.movesOut = [] → (∀ e ∈ s.flw.sram, e.2.nat = false) →
    Gives (exec .flwLimp s) fun t =>
      t.limp = true ∧ t.on PLE_STATE_LIMP = true ∧ t.flw.warm = [] ∧
        t.flw.sram = s.flw.sram.map fun e => (e.1, { e.2 with nh := 0xFFFF }))) ∧
  ((∀ s req r, s.accepts routeCmd req = true → s.routeBuf = some r → s.limp = false →
    ((s.flw.routes.filter fun x => !sameRoute x r).foldl (fun n x => n + routeSize x) (routeSize r) ≤ 1048576 → r.limp = false →
      Gives (exec (.routeAdd req) s) fun t =>
        t.flw.routes = (s.flw.routes.filter fun x => !sameRoute x r) ++ [r] ∧ t.flw.limpRoutes = s.flw.limpRoutes ∧
          t.ended routeCmd.addr 0) ∧
    ((s.flw.routes.any fun x => sameRoute x r) = true →
      Gives (exec (.routeDel req) s) fun t =>
        t.flw.routes = (s.flw.routes.filter fun x => !sameRoute x r) ∧
          t.flw.limpRoutes = (s.flw.limpRoutes.filter fun x => !sameRoute x r) ∧ t.ended routeCmd.addr 0)) ∧
  (∀ s req (v : BitVec 6), s.accepts routeCmd req = true → s.flw.commits.lookD v.toNat 0 < 127 →
    Gives (exec (.routeCommit req v) s) fun t =>
      t.f (FLW_VRF_CTL_GEN v.toNat) = (s.f (FLW_VRF_CTL_GEN v.toNat) + 1) % 2 ^ 8 ∧
        t.flw.commits.lookD v.toNat 0 = s.flw.commits.lookD v.toNat 0 + 1 ∧ t.ended routeCmd.addr 0))

/-! ### Scheduling (spec/07) -/

/-- R161, R174, R177, R179, R295: packets are enqueued, handed to a port, granted, taken and returned; a port's pause is
reported. R166 to R170: a shaper leaves the main wheel at its due time, moves in from the overflow wheel, and takes its pending
values. R160, R170, R183: the node commands. -/
def Obligations.SchedulerRowsComplete : Prop :=
  ((∀ s (q : BitVec 15) (id : BitVec 32) p, s.unitDark .sch = false → s.pkt id.toNat = some p →
      nodeEn (s.schQ q.toNat) = true → nodeEn (s.schC (queueClient (s.schQ q.toNat))) = true →
      nodeEn (s.schG (clientGroup (s.schC (queueClient (s.schQ q.toNat))))) = true → s.queueBad q.toNat = false →
      s.clientBad (queueClient (s.schQ q.toNat)) = false →
      s.groupBad (clientGroup (s.schC (queueClient (s.schQ q.toNat)))) = false →
      s.queueCells q.toNat + p.cells ≤ queueLimit (s.schQ q.toNat) →
    Gives (exec (.schEnqueue q id) s) fun t =>
      (t.schQ q.toNat).fifo = (s.schQ q.toNat).fifo ++ [id.toNat] ∧ (t.pkt id.toNat).map (·.edition) = some none) ∧
  (∀ s (r : BitVec 3) errs q len u id rest, s.unitDark .sch = false → (s.demand .sch).ethRoom r.toNat = true →
      (s.demand .sch).select r.toNat (fun _ _ => true) = some (q, len, u) → (u.schQ q).fifo = id :: rest →
    exec (.wiredDequeue r errs) s =
      .next ((u.dequeue r.toNat q).1.ethTake r.toNat id (queuePcp ((u.dequeue r.toNat q).1.schQ q)) errs)) ∧
  (∀ s (r : BitVec 3), s.unitDark .sch = false →
    Gives (exec (.pauseStateReport r) s) fun t =>
      t.on (SCH_ROOT_PAUSED r.toNat) = s.on (ETH_PORT_STAT_PAUSED r.toNat) ∧
        t.f (SCH_ROOT_PFC r.toNat) = s.f (ETH_PORT_STAT_PFC r.toNat) ∧
        t.sch.queues = s.sch.queues ∧ t.sch.clients = s.sch.clients ∧ t.sch.groups = s.sch.groups) ∧
  (∀ s (root : BitVec 4) mimo users airtime (cls : BitVec 3), s.unitDark .sch = false → 8 ≤ root.toNat → root.toNat ≤ 10 →
      cls.toNat ≤ s.usable (rootRadio root.toNat) (rootLink root.toNat) →
      cls.toNat ≤ s.permitted (rootRadio root.toNat) → cls.toNat ≤ 4 →
    (∀ t l, State.dlEntries root.toNat airtime.toNat (min users.toNat (s.userLimit root.toNat mimo))
        ((s.demand .sch).grantUsed root.toNat) [] = (t, l) →
      exec (.wifiGrantRequest root false mimo users airtime cls) s = .next
        { t with sch.grants := t.sch.grants.put root.toNat
                   { ul := false, airtime := airtime.toNat, cls := cls.toNat, entries := l } }) ∧
    (∀ t l, State.ulEntries root.toNat (min users.toNat (s.userLimit root.toNat mimo))
        ((s.demand .sch).grantUsed root.toNat) [] = (t, l) →
      exec (.wifiGrantRequest root true mimo users airtime cls) s = .next
        { t with sch.grants := t.sch.grants.put root.toNat
                   { ul := true, airtime := airtime.toNat, cls := cls.toNat, entries := l } })) ∧
  (∀ s (root : BitVec 4) (i : BitVec 6) (n : BitVec 10) errs g e t left, s.unitDark .wma = false →
      s.sch.grants.look root.toNat = some g → g.ul = false → g.entries[i.toNat]? = some e →
      State.takeRun n.toNat (s.demand .wma) root.toNat e.queue e.tid e.allowance errs = (t, left) →
    exec (.wifiMpduTake root i n errs) s = .next
      { t with sch.grants := t.sch.grants.put root.toNat
                 { g with entries := editAt g.entries i.toNat fun x => { x with allowance := left } } }) ∧
  (∀ s b e, s.unitDark .sgm = false → s.sgm.given = [(b, e)] → s.sgm.suspended = true →
    exec .cellFrameReturn s = .next (({ s.demand .sgm with sgm.given := [] } : State).cellReturn e.queue e.pkt))) ∧
  ((∀ s (e : WheelEnt), s.sch.wheel = [e] → e.past = none → (s.shaper e.shaper).wait = none →
      0 ≤ shaperTokens (s.shaper e.shaper) (max s.now e.due) →
    Gives (exec .wheelSlotRelease s) fun t =>
      t.now = max s.now e.due ∧ t.sch.wheel = [] ∧
        t.shaper e.shaper = { s.shaper e.shaper with
          tokens := shaperTokens (s.shaper e.shaper) (max s.now e.due), last := max s.now e.due }) ∧
  (∀ s (e : WheelEnt) a, s.sch.wheel = [e] → e.past = some a → e.far = false →
    Gives (exec .overflowSlotMove s) fun t =>
      t.now = max s.now (a - 3932160) ∧ t.sch.wheel = [{ e with past := none }]) ∧
  (∀ s (n : BitVec 16) r b, (s.shaper n.toNat).wait = some (r, b) →
    Gives (exec (.shaperPendingRefill n) s) fun t =>
      (t.shaper n.toNat).rate = r ∧ (t.shaper n.toNat).burst = b ∧ (t.shaper n.toNat).wait = none ∧
        (t.shaper n.toNat).last = s.now)) ∧
  ((∀ s req (i : BitVec 16), s.accepts schCmd req = true →
    (i.toNat < 32768 → Gives (exec (.schNodeRead req 0 i) s) fun t =>
      t.rd (schBuf 0) = (s.schQ i.toNat).w0 ∧ t.rd (schBuf 1) = (s.schQ i.toNat).w1 ∧ t.rd (schBuf 2) = (s.schQ i.toNat).w2 ∧
        t.rd (schBuf 3) = BitVec.ofNat 32 (s.queueCells i.toNat) ∧ t.rd (schBuf 4) = BitVec.ofNat 32 (s.schQ i.toNat).drops ∧
        t.ended schCmd.addr 0) ∧
    (i.toNat < 32768 → Gives (exec (.schNodeWrite req 0 i) s) fun t =>
      (t.schQ i.toNat).w0 = s.rd (schBuf 0) &&& 0xFF001FFF ∧ (t.schQ i.toNat).w1 = s.rd (schBuf 1) &&& 0xFFFFF ∧
        (t.schQ i.toNat).w2 = s.rd (schBuf 2) ∧ (t.schQ i.toNat).fifo = (s.schQ i.toNat).fifo ∧ t.ended schCmd.addr 0) ∧
    (i.toNat < 8192 →
      s.clientFits { s.schC i.toNat with w0 := s.rd (schBuf 0) &&& 0xB7FFFFFF } = true →
      Gives (exec (.schNodeWrite req 1 i) s) fun t =>
        (t.schC i.toNat).w0 = s.rd (schBuf 0) &&& 0xB7FFFFFF ∧ (t.schC i.toNat).w2 = s.rd (schBuf 2) &&& 0xFFFF ∧
          t.ended schCmd.addr 0) ∧
    (Gives (exec (.schNodeWrite req 3 i) s) fun t =>
      (t.shaper i.toNat).wait = some ((s.rd (schBuf 0)).toNat, bitsOf (s.rd (schBuf 1)) 23 0) ∧
        (t.shaper i.toNat).rate = (s.shaper i.toNat).rate ∧ t.ended schCmd.addr 0) ∧
    (i.toNat < 32768 → Gives (exec (.schNodeFlush req 0 i) s) fun t =>
      (t.schQ i.toNat).fifo = [] ∧ (∀ id ∈ (s.schQ i.toNat).fifo, t.pkt id = none) ∧ t.ended schCmd.addr 0) ∧
    (i.toNat < 32768 → Gives (exec (.schNodeReadClr req 0 i) s) fun t =>
      t.rd (schBuf 4) = BitVec.ofNat 32 (s.schQ i.toNat).drops ∧ (t.schQ i.toNat).drops = 0 ∧ t.ended schCmd.addr 0)))

/-! ### Placement (spec/08) -/

/-- R187 to R190: tier 1 takes the airtime of the links, a link's usability and a block ack agreement. R191 to R196, R205 to
R210: tier 2's evaluation, hints, and the frames of a move. -/
def Obligations.PlacementRowsComplete : Prop :=
  ((∀ s (a b c : BitVec 10), s.unitDark .ple = false →
    Gives (exec (.tier1AnchorEval a b c) s) fun t =>
      t.now = max s.now (s.ple.evals.lookD 1 0 + 1000000) ∧ t.ple.air.lookD 8 0 = a.toNat ∧ t.ple.air.lookD 9 0 = b.toNat ∧
        t.ple.air.lookD 10 0 = c.toNat) ∧
  (∀ s (c : BitVec 13) (r : BitVec 4) awake (g : BitVec 16), s.unitDark .ple = false →
    Gives (exec (.linkUsabilityChange c r awake g) s) fun t =>
      (t.linkSt c.toNat r.toNat).awake = awake ∧
        (t.linkSt c.toNat r.toNat).lq = min 1023 (g.toNat * 1023 / max 1 (s.f PLE_T1_LQ_FULL)) ∧
        (t.linkSt c.toNat r.toNat).usable = (awake &&
          decide (s.f PLE_T1_LQ_MIN ≤ min 1023 (g.toNat * 1023 / max 1 (s.f PLE_T1_LQ_FULL))) &&
          !s.pinnedAway c.toNat r.toNat)) ∧
  (∀ s (i : BitVec 10) (tid : BitVec 4) (size : BitVec 11) ssn st, s.unitDark .ple = false →
      s.wma.stations.look i.toNat = some st →
    (Gives (exec (.baAgreementChange i tid true size ssn) s) fun t =>
      (t.tid st.client tid.toNat).size = min 1024 size.toNat) ∧
    (size ≠ 0 → st.ba.look tid.toNat = none →
      Gives (exec (.baAgreementChange i tid false size ssn) s) fun t =>
        (t.baOf i.toNat tid.toNat) = some { size := min 1024 size.toNat, win := ssn.toNat }))) ∧
  ((∀ s (dram : BitVec 10), s.unitDark .ple = false →
    Gives (exec (.tier2Eval dram) s) fun t =>
      t.now = max s.now (s.ple.evals.lookD 2 0 + 50000000) ∧ t.flw.seen = [] ∧ t.ple.evals.lookD 2 0 = t.now) ∧
  (∀ s (src : BitVec 6) key (share : BitVec 10), s.unitDark .ple = false → s.on PLE_STATE_LIMP = false →
    Gives (exec (.moveHintRx src key share) s) fun t => t.ple.hints = s.ple.hints ++ [(src.toNat, natLe 39 key.toNat)]) ∧
  (∀ s (src : BitVec 6) (id : BitVec 32) key f old new, s.unitDark .ple = false →
      s.moveRefusal src.toNat (natLe 39 key.toNat) = none → s.flowFind (natLe 39 key.toNat) = some old →
      s.flowAt old = some f → old.1 = true → f.nat = false → s.freeWay false (natLe 39 key.toNat) = some new →
    Gives (exec (.moveReqRx src id key) s) fun t =>
      t.flowAt new = some (remoteOf f src.toNat) ∧ t.flowAt old = none ∧
        t.ple.movesOut = s.ple.movesOut ++
          [{ id := id.toNat, other := src.toNat, snapshot := f, partner := none, since := s.now,
             before := s.lookedUp [natLe 39 key.toNat] }] ∧
        t.ple.grants = s.ple.grants + 1) ∧
  (∀ s (m : MoveOut), s.unitDark .ple = false → s.ple.movesOut = [m] → m.drainSent = false →
      (s.flw.wait.any fun x => m.before.contains x.pkt) = false →
    Gives (exec .drainComplete s) fun t =>
      t.ple.movesOut = if m.acked then [] else [{ m with drainSent := true }]) ∧
  (∀ s (src : BitVec 6) (id : BitVec 32) (m : MoveOut), s.unitDark .ple = false → s.ple.movesOut = [m] →
      m.id = id.toNat → m.other = src.toNat →
    Gives (exec (.moveAckRx src id) s) fun t =>
      t.ple.movesOut = if m.drainSent then [] else [{ m with acked := true }]) ∧
  (∀ s m, s.unitDark .ple = false → (s.ple.movesOut.find? fun m => !m.acked) = some m →
    Gives (exec .pleMoveUnconfirmed s) fun t =>
      t.now = max s.now (m.since + 10000000) ∧
        t.ple.movesOut = s.ple.movesOut.filter fun k => decide (k.id ≠ m.id ∨ k.other ≠ m.other)) ∧
  (∀ s (src : BitVec 6) (id : BitVec 32) (image : BitVec 512) (m : MoveIn) new, s.unitDark .ple = false →
      s.ple.movesIn = [m] → m.id = id.toNat → m.other = src.toNat → m.data = false → m.drained = false →
      s.flowFind (s.arrives image.toNat).key = none → s.freeWay true (s.arrives image.toNat).key = some new →
      s.flowCount + 1 ≤ 8388608 →
    Gives (exec (.moveDataRx src id image 0) s) fun t =>
      t.flowAt new = some { s.arrives image.toNat with tier := 1 } ∧
        t.ple.movesIn = [{ m with data := true, keys := (m.keys ++ [(s.arrives image.toNat).key]).eraseDups }]) ∧
  (∀ s (src : BitVec 6) (id : BitVec 32) (m : MoveIn), s.unitDark .ple = false → s.ple.movesIn = [m] →
      m.id = id.toNat → m.other = src.toNat → m.held = [] → (s.flw.wait.any fun x => decide (x.stage = .remote)) = false →
    Gives (exec (.drainDoneRx src id) s) fun t =>
      t.ple.movesIn = if m.data then [] else [{ m with drained := true }]) ∧
  (∀ s (src : BitVec 6) (id : BitVec 32) reason m, s.unitDark .ple = false →
      s.moveInOf src.toNat id.toNat = some m → s.moveOutOf src.toNat id.toNat = none → m.held = [] →
    Gives (exec (.moveCancelRx src id reason) s) fun t =>
      t.ple.movesIn = s.ple.movesIn.filter fun k => decide (k.id ≠ m.id)) ∧
  (∀ s (src : BitVec 6) (id : BitVec 32) reason m, s.unitDark .ple = false →
      s.moveInOf src.toNat id.toNat = none → s.moveOutOf src.toNat id.toNat = some m → m.acked = false →
    Gives (exec (.moveCancelRx src id reason) s) fun t =>
      t.ple.movesOut = s.ple.movesOut.filter fun k => decide (k.id ≠ m.id ∨ k.other ≠ m.other)) ∧
  (∀ s (m : MoveIn) rest, s.unitDark .ple = false → s.ple.movesIn = m :: rest → m.held = [] →
    Gives (exec .fenceTimeout s) fun t =>
      t.now = max s.now (m.opened + 2000000) ∧ t.ple.movesIn = s.ple.movesIn.filter fun k => decide (k.id ≠ m.id)) ∧
  (∀ s (src : BitVec 6) (key : BitVec 312) (owner : BitVec 6) place f, s.unitDark .ple = false →
      s.flowFind (natLe 39 key.toNat) = some place → s.flowAt place = some f → f.tier = 3 → s.flw.wait = [] →
      s.ple.movesIn = [] →
    (owner.toNat ≠ s.shelfId →
      Gives (exec (.redirectRx src key owner) s) fun t => t.flowAt place = some { f with nh := owner.toNat }) ∧
    (owner.toNat = s.shelfId → f.nat = false → Gives (exec (.redirectRx src key owner) s) fun t => t.flowAt place = none)) ∧
  (∀ s (src : BitVec 6) (key : BitVec 312) x, s.unitDark .ple = false →
      (s.firstWait fun x => decide (x.stage = .remote ∧ x.owner = src.toNat) && x.key == natLe 39 key.toNat && !x.waited) =
        some x →
    Gives (exec (.waitRx src key) s) fun t =>
      t.flw.wait = s.flw.wait.map fun y =>
        if y.pkt = x.pkt then { y with waited := true, deadline := s.now + max 100 (s.f FLW_REMOTE_TMO_TMO) * 1000 } else y))

/-- R197 to R201: tier 3 steers clients; tier 4 reports, receives and spreads load. R202, R203: pins are set, cleared and read,
and received from the shelf. -/
def Obligations.SteerAndPinRowsComplete : Prop :=
  ((∀ s (b : BtmClient) i st e, s.unitDark .ple = false → s.ple.pins = [] → s.staOf b.mac.toNat = some (i, st) →
      st.backhaul = false → (s.steer b.mac.toNat).open_ = none →
      (s.steer b.mac.toNat).until_ ≤ max s.now (s.ple.evals.lookD 3 0 + 1000000000) → 0 < s.f PLE_T3_RATE →
    let u := (s.demand .ple).reach (s.ple.evals.lookD 3 0 + 1000000000)
    let u := { u with ple.evals := u.ple.evals.put 3 u.now }
    u.steerOptions b st = [e] → u.steerForced b.mac.toNat st = false → u.tierOn 3 = true → s.linkRoots st.client = [] →
      u.f (PLE_HYST_K 2) ≤ 1 → s.hystOf 3 (natLe 6 b.mac.toNat) = { tier := 3, obj := natLe 6 b.mac.toNat } →
      u.score3 0 0 u.shelfId + u.margin 3 ≤ u.score3 e.2 e.1.air.toNat e.1.device.toNat →
      u.score3 0 0 u.shelfId < u.score3 e.2 e.1.air.toNat e.1.device.toNat →
    Gives (exec (.tier3Eval [b]) s) fun t =>
      (t.steer b.mac.toNat).open_ =
        some (e.1.device.toNat, (match e.1.radio with | .a => UnitId.rfa.num | .b => UnitId.rfb.num), t.now)) ∧
  (∀ s (mac : BitVec 48) device unit since, s.unitDark .ple = false →
      (s.steer mac.toNat).open_ = some (device, unit, since) → device ≠ s.shelfId → (s.steer mac.toNat).accepted = false →
    Gives (exec (.steerTimeout mac) s) fun t =>
      t.now = max s.now (since + 5000000000) ∧ (t.steer mac.toNat).open_ = none ∧
        t.w PLE_CNT_STEER_FAIL = (s.w PLE_CNT_STEER_FAIL + 1) % 2 ^ 48) ∧
  (∀ s (mac : BitVec 48) o, s.unitDark .ple = false → (s.steer mac.toNat).open_ = some o →
    (Gives (exec (.btmResponseRx mac 0) s) fun t =>
      (t.steer mac.toNat).accepted = true ∧ (t.steer mac.toNat).open_ = some o) ∧
    (∀ status, status ≠ 0 → (s.steer mac.toNat).backoff = 0 → Gives (exec (.btmResponseRx mac status) s) fun t =>
      (t.steer mac.toNat).open_ = none ∧ (t.steer mac.toNat).backoff = s.f PLE_T3_BACKOFF ∧
        (t.steer mac.toNat).until_ = s.now + s.f PLE_T3_BACKOFF * 1000000000)) ∧
  (∀ s clients nodes (dram : BitVec 10), s.unitDark .ple = false →
    Gives (exec (.loadReportSend clients nodes dram) s) fun t =>
      t.now = max s.now (s.ple.evals.lookD 5 0 + 1000000000) ∧
        t.f PLE_STATE_LOAD = min 1023 ((s.score 4 [(1, max (max (s.ple.air.lookD 8 0) (s.ple.air.lookD 9 0))
          (s.ple.air.lookD 10 0)), (2, s.sramX), (3, dram.toNat)]) / 256).toNat) ∧
  (∀ s (src : BitVec 6) (load : BitVec 10) limp clients nodes, s.unitDark .ple = false →
    ((∀ r, s.ple.loads.look src.toNat = some r → r.since + 500000000 ≤ s.now) →
      Gives (exec (.loadRx src load limp clients nodes) s) fun t =>
        t.ple.loads.look src.toNat = some
          { load := load.toNat, limp := limp, since := s.now,
            clients := clients.map fun c => (c.mac.toNat, c.lq.toNat), nodes := nodes.map (·.toNat) }) ∧
    (∀ r, s.ple.loads.look src.toNat = some r → s.now < r.since + 500000000 →
      Gives (exec (.loadRx src load limp clients nodes) s) fun t =>
        t.ple.loads.look src.toNat = some
          { load := load.toNat, limp := limp, since := s.now,
            clients := r.clients ++ clients.map fun c => (c.mac.toNat, c.lq.toNat)
            nodes := r.nodes ++ nodes.map (·.toNat) })) ∧
  (∀ s, s.unitDark .ple = false → s.isLead = true →
    Gives (exec .tier4Eval s) fun t =>
      t.now = max s.now (s.ple.evals.lookD 4 0 + 10000000000) ∧ t.on PLE_STATE_LEAD_OK = true ∧ t.ple.lastTier4 = t.now ∧
        (s.tierOn 4 = false → t.ple.bias = s.ple.bias.foldl (fun (m : Map Nat) b => m.put b.1 b.2) [])) ∧
  (∀ s biases, s.unitDark .ple = false →
    Gives (exec (.tier4Rx biases []) s) fun t =>
      t.on PLE_STATE_LEAD_OK = true ∧ t.ple.lastTier4 = s.now ∧
        t.ple.bias = (biases.map fun b => (b.1.toNat, b.2.toNat)).foldl (fun (m : Map Nat) b => m.put b.1 b.2) [] ∧
        t.f PLE_STATE_BIAS = t.ple.bias.lookD s.shelfId 0 % 1024) ∧
  (∀ s, s.unitDark .ple = false → s.on PLE_STATE_LEAD_OK = true →
    Gives (exec .leadOkTimeout s) fun t =>
      t.now = max s.now (s.ple.lastTier4 + 30000000000) ∧ t.on PLE_STATE_LEAD_OK = false ∧ t.ple.bias = [] ∧
        t.f PLE_STATE_BIAS = 0)) ∧
  ((∀ s req, s.accepts pinCmd req = true → pinAllowed s.pinBuf = true → s.pinRoom s.pinBuf = true →
    Gives (exec (.pinSet req) s) fun t =>
      (∃ q ∈ t.ple.pins, samePin q s.pinBuf = true ∧ q.unit = s.pinBuf.unit ∧ q.device = s.pinBuf.device) ∧
        t.ended pinCmd.addr 0) ∧
  (∀ s req, s.accepts pinCmd req = true → (s.ple.pins.any (samePin · s.pinBuf)) = true →
    Gives (exec (.pinClear req) s) fun t => (∀ q ∈ t.ple.pins, samePin q s.pinBuf = false) ∧ t.ended pinCmd.addr 0) ∧
  (∀ s req p, s.accepts pinCmd req = true → s.ple.pins.find? (samePin · s.pinBuf) = some p →
    Gives (exec (.pinRead req) s) fun t =>
      t.f PLE_PIN_BUF_DESC_UNIT = p.unit % 32 ∧ t.f PLE_PIN_BUF_DESC_DEVICE = p.device % 64 ∧
        t.on PLE_PIN_BUF_DESC_STATE = p.unmet ∧ t.ple.pins = s.ple.pins ∧ t.ended pinCmd.addr 0) ∧
  (∀ s (src : BitVec 6) (image : BitVec 352), s.unitDark .ple = false → pinAllowed (pinOf (natLe 44 image.toNat)) = true →
      s.pinRoom (pinOf (natLe 44 image.toNat)) = true →
    Gives (exec (.pinRx src image) s) fun t =>
      ∃ q ∈ t.ple.pins, samePin q (pinOf (natLe 44 image.toNat)) = true ∧ q.shared = true))

/-! ### Radios A and B (spec/09) -/

/-- R219, R221, R222: the state and calibration commands of a link, and the ends of its transitions and calibrations. R222,
R223, R231 to R235: background calibration, temperature, and the probe of a disabled chain. -/
def Obligations.RadioStateAndCalibrationRowsComplete : Prop :=
  ((∀ s req r (l : Bool) k, s.accepts (rfCmd r) req = true → s.linkThere r l.toNat = true → s.link r l.toNat = k →
      k.trans = none → k.tx = none → k.calTarget = none → k.queue = [] → k.held = [] →
    let starts (t : State) (target : Nat) : Prop :=
      let via := if target = 3 ∧ k.state ≤ 1 then 2 else target
      (t.link r l.toNat).trans =
        some { target := via, ends := s.now + (transTime k.state via).1, settles := (transTime k.state via).2 }
    let goes (t : State) (target : Nat) : Prop :=
      if k.state = target then t.ended (rfCmd r).addr 0 else starts t target ∧ t.f (cmdState (rfCmd r).addr) = 1
    Gives (exec (.rfGoOff (some req) r l) s) (goes · 0) ∧ Gives (exec (.rfGoSleep (some req) r l) s) (goes · 1) ∧
      Gives (exec (.rfGoIdle (some req) r l) s) (goes · 2) ∧ Gives (exec (.rfGoRx (some req) r l) s) (goes · 3) ∧
      (k.state ≠ 0 → Gives (exec (.rfGoOff none r l) s) (starts · 0)) ∧
      (k.state ≠ 1 → Gives (exec (.rfGoSleep none r l) s) (starts · 1)) ∧
      (k.state ≠ 2 → Gives (exec (.rfGoIdle none r l) s) (starts · 2)) ∧
      (k.state ≠ 3 → Gives (exec (.rfGoRx none r l) s) (starts · 3))) ∧
  (∀ s r (l : Bool) d, s.unitDark (rfUnit r) = false → (s.link r l.toNat).trans = some d → (s.link r l.toNat).queue = [] →
    Gives (exec (.rfTransitionDone r l) s) fun t =>
      t.now = max s.now d.ends ∧ (t.link r l.toNat).trans = none ∧
        if d.settles = true ∧ (s.link r l.toNat).stored.contains (storedKey (s.link r l.toNat).chan.w0) = false then
          (t.link r l.toNat).state = 5 ∧ (t.link r l.toNat).calTarget = some (d.target, false)
        else (t.link r l.toNat).state = d.target) ∧
  (∀ s req r (l : Bool) k, s.accepts (rfCalCmd r) req = true → s.linkThere r l.toNat = true → s.link r l.toNat = k →
      k.state ≠ 0 → k.trans = none → k.tx = none → k.calTarget = none → k.queue = [] → k.held = [] →
    (Gives (exec (.rfCalFull req r l) s) fun t =>
      (t.link r l.toNat).state = 5 ∧ (t.link r l.toNat).calTarget = some (k.state, true) ∧
        t.f (cmdState (rfCalCmd r).addr) = 1) ∧
    (Gives (exec (.rfDpdClear req r l) s) fun t =>
      (∀ c ∈ s.linkChains r l.toNat, (t.chain r c).tables = []) ∧ t.ended (rfCalCmd r).addr 0)) ∧
  (∀ s r (l : Bool) target asked, s.unitDark (rfUnit r) = false → (s.link r l.toNat).calTarget = some (target, asked) →
      (s.link r l.toNat).queue = [] →
    Gives (exec (.rfCalDone r l) s) fun t =>
      (t.link r l.toNat).state = target ∧ (t.link r l.toNat).calTarget = none ∧
        (t.link r l.toNat).stored.contains (storedKey (s.link r l.toNat).chan.w0) = true ∧
        (∀ c ∈ s.linkChains r l.toNat, (t.chain r c).iqDue = false ∧ (t.chain r c).iqTemp = (s.chain r c).temp ∧
          (t.chain r c).iqLna = (s.chain r c).lna) ∧
        (asked = true → t.ended (rfCalCmd r).addr 0))) ∧
  ((∀ s r (k : BitVec 3), s.unitDark (rfUnit r) = false → canStart (s.link r (s.chainLink r k.toNat)) = true →
      (s.link r (s.chainLink r k.toNat)).held = [] → (s.link r (s.chainLink r k.toNat)).queue = [] →
      s.respOpen r (s.chainLink r k.toNat) = false → (s.liveChains r (s.chainLink r k.toNat)).contains k.toNat = true →
      s.inSegment r < 2 → (s.chain r k.toNat).seg = none → (∀ t, (s.chain r k.toNat).lastSeg = some t → t + 1000000 ≤ s.now) →
      ((s.chain r k.toNat).iqDue = true ∨
        ∃ c, s.workClass r (s.chainLink r k.toNat) = some c ∧ (s.link r (s.chainLink r k.toNat)).work = some c ∧ c < 5 ∧
          s.heavyLoad r (s.chainLink r k.toNat) = true ∧ (s.chain r k.toNat).done < 64) →
    Gives (exec (.calSegmentStart r k false false) s) fun t =>
      (t.chain r k.toNat).seg = some s.now ∧ (t.chain r k.toNat).lastSeg = some s.now) ∧
  (∀ s r (k : BitVec 3) t0, s.unitDark (rfUnit r) = false → (s.chain r k.toNat).seg = some t0 →
    ((s.chain r k.toNat).iqDue = true → Gives (exec (.calSegmentEnd r k) s) fun t =>
      t.now = max s.now (t0 + 20000) ∧ (t.chain r k.toNat).seg = none ∧ (t.chain r k.toNat).iqDue = false ∧
        (t.chain r k.toNat).iqTemp = (s.chain r k.toNat).temp ∧ (t.chain r k.toNat).iqLna = (s.chain r k.toNat).lna) ∧
    (∀ c, (s.chain r k.toNat).iqDue = false → (s.link r (s.chainLink r k.toNat)).work = some c →
        (s.chain r k.toNat).done < 63 →
      Gives (exec (.calSegmentEnd r k) s) fun t =>
        (t.chain r k.toNat).seg = none ∧ (t.chain r k.toNat).done = (s.chain r k.toNat).done + 1 ∧
          (t.chain r k.toNat).tables = (s.chain r k.toNat).tables) ∧
    (∀ c, (s.chain r k.toNat).iqDue = false → (s.link r (s.chainLink r k.toNat)).work = some c →
        (s.chain r k.toNat).done = 63 →
      Gives (exec (.calSegmentEnd r k) s) fun t =>
        ((t.chain r k.toNat).tables.look c).map Prod.snd = some (s.chain r k.toNat).temp)) ∧
  (∀ s r c, s.unitDark (rfUnit r) = false → s.calAsks r = c → 5 ≤ c → s.permitted r < c →
      (s.permit r).retryEnd.isSome = true →
    Gives (exec (.dpdPermitRetry r) s) fun t =>
      t.now = max s.now ((s.rf r).asked + 1000000000) ∧ (t.permit r).calAsk = c ∧ (t.rf r).asked = t.now) ∧
  (∀ s r (k : BitVec 3) temp, s.unitDark (rfUnit r) = false →
    (Gives (exec (.paTempChange r k false temp) s) fun t =>
      (t.chain r k.toNat).temp = temp.toInt ∧ (t.chain r k.toNat).lna = (s.chain r k.toNat).lna ∧
        (10 ≤ (temp.toInt - (s.chain r k.toNat).iqTemp).natAbs → (t.chain r k.toNat).iqDue = true)) ∧
    (Gives (exec (.paTempChange r k true temp) s) fun t =>
      (t.chain r k.toNat).lna = temp.toInt ∧ (t.chain r k.toNat).temp = (s.chain r k.toNat).temp ∧
        (10 ≤ (temp.toInt - (s.chain r k.toNat).iqLna).natAbs → (t.chain r k.toNat).iqDue = true))) ∧
  (∀ s r (k : BitVec 3) v, s.unitDark (rfUnit r) = false → s.chainOff r k.toNat = true →
      s.rxOnly r (s.chainLink r k.toNat) = false →
    Gives (exec (.mismatchProbe r k v) s) fun t =>
      t.now = max s.now ((s.chain r k.toNat).lastProbe + 60000000000) ∧ (t.chain r k.toNat).lastProbe = t.now ∧
        if v.toNat ≤ 56 then
          t.f (rx r (RFB_MISMATCH_STATE k.toNat)) = 1 ∧ (t.chain r k.toNat).vswr = List.replicate 8 v.toNat
        else t.chainOff r k.toNat = true))

/-- R221, R224 to R227, R230, R234: a transmit command starts or is held, a held one starts, is late or expires, and a PPDU
ends. R213, R214, R236 to R239: coordination grants, channels and split mode. -/
def Obligations.RadioTransmitAndGrantRowsComplete : Prop :=
  ((∀ s r (l : Bool) cls len receiving, s.unitDark (rfUnit r) = false → s.linkThere r l.toNat = true →
    let k := s.link r l.toNat
    let c : TxCmd := { id := k.nextId, cls := min cls.toNat (s.classLimit r l.toNat), len := len.toNat }
    let turn := if k.state = 3 then 2000 else 4000
    k.calTarget = none →
    (k.trans = none → k.tx = none → k.state = 2 ∨ k.state = 3 → k.queue = [] → k.held = [] → s.segOn r l.toNat = false →
        s.rxOnly r l.toNat = false →
      (Gives (exec (.txCommand r l cls len .other [] receiving) s) fun t =>
        (t.link r l.toNat).tx = some (c, min c.cls (s.usable r l.toNat), s.now + turn)) ∧
      (∀ g, s.sch.grants.look (linkRoot r l.toNat) = some g → s.wma.responses.lookD (linkRoot r l.toNat) [] = [] →
        Gives (exec (.txCommand r l cls len (.granted []) [] receiving) s) fun t =>
          (t.link r l.toNat).txop = some (g.cls, s.now + 8160000) ∧
            (t.link r l.toNat).tx =
              some ({ c with cls := g.cls, mpdus := if g.ul then [] else s.wma.building.lookD (linkRoot r l.toNat) []
                             users := if g.ul then trigUsers g else [], grant := some g, own := s.inTxop r l.toNat },
                min g.cls (s.usable r l.toNat), s.now + turn)) ∧
      (∀ x rest, s.wma.responses.lookD (linkRoot r l.toNat) [] = x :: rest → x.kind ≠ .tb →
        Gives (exec (.txCommand r l cls len .response [] receiving) s) fun t =>
          t.wma.responses.lookD (linkRoot r l.toNat) [] = rest ∧ (t.link r l.toNat).tx =
            some ({ c with deadline := some x.deadline, reply := some x }, min c.cls (s.usable r l.toNat), s.now + turn))) ∧
    (∀ d, k.trans = some d → d.settles = true → k.held.length < 4 →
      Gives (exec (.txCommand r l cls len .other [] receiving) s) fun t =>
        (t.link r l.toNat).held = k.held ++ [{ c with since := s.now }]) ∧
    (∀ d, k.trans = some d → d.settles = false →
      Gives (exec (.txCommand r l cls len .other [] receiving) s) fun t =>
        (t.link r l.toNat).queue = k.queue ++ [.tx c])) ∧
  (∀ s r (l : Bool) c, s.unitDark (rfUnit r) = false → canStart (s.link r l.toNat) = true → s.heldNext r l.toNat = some c →
      c.deadline = none → s.rxOnly r l.toNat = false →
    Gives (exec (.heldCommandStart r l) s) fun t =>
      (t.link r l.toNat).tx = some (c, min c.cls (s.usable r l.toNat), max (s.now + 4000) c.notBefore) ∧
      (t.link r l.toNat).held = (s.link r l.toNat).held.filter fun x => decide (x.id ≠ c.id)) ∧
  (∀ s r (l : Bool) c, s.unitDark (rfUnit r) = false → (s.link r l.toNat).queue = [] →
    let late (t : State) : Prop :=
      (t.link r l.toNat).reports = (c.id, 2) :: (s.link r l.toNat).reports ∧
        ((t.link r l.toNat).held = (s.link r l.toNat).held.filter fun x => decide (x.id ≠ c.id)) ∧
        t.w (rxw r RFB_CNT_TX_LATE) = (s.w (rxw r RFB_CNT_TX_LATE) + 1) % 2 ^ 48
    ((heldOrder (s.link r l.toNat).held).find? (s.late (s.link r l.toNat)) = some c →
      Gives (exec (.txLate r l) s) fun t => t.now = s.now ∧ late t) ∧
    (∀ d, (heldOrder (s.link r l.toNat).held).find? (s.late (s.link r l.toNat)) = none →
        (s.link r l.toNat).calTarget.isSome = true → s.heldNext r l.toNat = some c → c.deadline = some d →
      Gives (exec (.txLate r l) s) fun t => t.now = s.now + (d - 4000 - s.lt) ∧ late t)) ∧
  (∀ s r (l : Bool) c, s.unitDark (rfUnit r) = false → (s.link r l.toNat).queue = [] →
      ((s.link r l.toNat).held.find? fun c => c.deadline.isNone) = some c →
    Gives (exec (.holdExpired r l) s) fun t =>
      t.now = max s.now (c.since + 1000 * max 1 (s.f (rx r RFB_HOLD_MAX_MAX))) ∧
        (t.link r l.toNat).reports = (c.id, 3) :: (s.link r l.toNat).reports ∧
        t.w (rxw r RFB_CNT_HOLD_EXPIRED) = (s.w (rxw r RFB_CNT_HOLD_EXPIRED) + 1) % 2 ^ 48) ∧
  (∀ s r (l : Bool) c cls start acked discarded, s.unitDark (rfUnit r) = false →
      (s.link r l.toNat).tx = some (c, cls, start) → (s.link r l.toNat).queue = [] →
    Gives (exec (.ppduTxEnd r l [] acked discarded) s) fun t =>
      t.now = max s.now (start + c.len) ∧ (t.link r l.toNat).tx = none ∧
        (t.link r l.toNat).trans = some { target := 3, ends := t.now + 2000, settles := false } ∧
        (t.link r l.toNat).reports = (c.id, (decide (cls < c.cls)).toNat) :: (s.link r l.toNat).reports) ∧
  (∀ s r (l : Bool) c cls start (vs : List (BitVec 12)) v k, s.unitDark (rfUnit r) = false →
      (s.link r l.toNat).tx = some (c, cls, start) → (s.link r l.toNat).queue = [] → 100000 ≤ c.len → 2 ≤ cls →
      c.mpdus = [] → s.liveChains r l.toNat = [k] → vs[k]? = some v →
      mismatchNext (s.f (rx r (RFB_MISMATCH_STATE k))) (sumVswr { vswr := (v.toNat :: (s.chain r k).vswr).take 8 }) =
        s.f (rx r (RFB_MISMATCH_STATE k)) →
    Gives (exec (.ppduTxEnd r l vs [] []) s) fun t => (t.chain r k).vswr = (v.toNat :: (s.chain r k).vswr).take 8)) ∧
  ((∀ s req, s.accepts rfGrantCmd req = true →
    ((∃ n, n < 16 ∧ s.on (RFA_GRANT_ENT_EN n) = true) → s.lt < s.w RFA_GRANT_EXP_EXPIRY →
      Gives (exec (.grantLoad req) s) fun t =>
        (∃ l, l ≠ [] ∧ t.rfa.coord = some (l, s.w RFA_GRANT_EXP_EXPIRY)) ∧ t.on RFA_GRANT_CFG_ACTIVE = true ∧
          t.ended rfGrantCmd.addr 0) ∧
    (Gives (exec (.grantClear req) s) fun t =>
      t.rfa.coord = none ∧ t.on RFA_GRANT_CFG_ACTIVE = false ∧ t.ended rfGrantCmd.addr 0)) ∧
  (∀ s g, s.unitDark .rfa = false → s.rfa.coord = some g →
    (s.rfa.warned = false → Gives (exec .grantExpiring s) fun t =>
      t.now = s.now + (g.2 - 1000000000 * s.f RFA_GRANT_CFG_EARLY - s.lt) ∧ t.rfa.warned = true ∧
        ∀ c, c < 4 → (t.core c).pend.getLsbD 3 = true) ∧
    (Gives (exec .grantExpired s) fun t =>
      t.now = s.now + (g.2 - s.lt) ∧ t.rfa.coord = none ∧ t.on RFA_GRANT_CFG_ACTIVE = false)) ∧
  (∀ s req r (l : Bool) (v : BitVec 32), s.admits (rfUnit r) .operator req = true → s.linkThere r l.toNat = true →
      chanDenied r l.toNat (v &&& 0xFF00F7FF) = false →
      ((r = .b ∧ l = true) ∨ apart (match r with | .a => v &&& 0xFF00F7FF | .b => (s.chanReg .a 0).w0)
        (match r with | .a => (s.chanReg .b 0).w0 | .b => v &&& 0xFF00F7FF) = true) →
    (((s.link r l.toNat).state = 0 ∧ (s.link r l.toNat).trans = none) →
      Gives (exec (.rfChanWrite req r l false v) s) fun t =>
        (t.link r l.toNat).chan = { s.chanReg r l.toNat with w0 := v &&& 0xFF00F7FF } ∧
          t.chanReg r l.toNat = { s.chanReg r l.toNat with w0 := v &&& 0xFF00F7FF }) ∧
    ((s.link r l.toNat).state ≠ 0 → bitsOf v 31 24 ≠ 0 →
      Gives (exec (.rfChanWrite req r l false v) s) fun t =>
        (t.link r l.toNat).staged = some { s.chanReg r l.toNat with w0 := v &&& 0xFF00F7FF } ∧
          (t.link r l.toNat).chan = (s.link r l.toNat).chan)) ∧
  (∀ s r (l : Bool) ch, s.unitDark (rfUnit r) = false → (s.link r l.toNat).staged = some ch →
      ((s.link r l.toNat).csa.any fun e => decide (e.2 ≤ 1)) = true → (r = .b → l = false → s.rfb.splitNext = none) →
      (s.link r l.toNat).queue = [] → (s.link r l.toNat).held = [] → (s.link r l.toNat).trans = none →
      (s.link r l.toNat).calTarget = none → (s.link r l.toNat).tx = none →
    Gives (exec (.channelMove r l) s) fun t =>
      (t.link r l.toNat).chan = ch ∧ (t.link r l.toNat).staged = none ∧
        (2 ≤ (s.link r l.toNat).state → (t.link r l.toNat).trans =
          some { target := (s.link r l.toNat).state, ends := s.now + 60000, settles := true })) ∧
  (∀ s ch b, s.unitDark .rfb = false → (s.link .b 0).staged = some ch →
      ((s.link .b 0).csa.any fun e => decide (e.2 ≤ 1)) = true → s.rfb.splitNext = some b → (s.link .b 0).tx = none →
      (s.link .b 1).tx = none →
    Gives (exec (.channelMove .b false) s) fun t =>
      t.split = b ∧ t.rfb.splitNext = none ∧ (t.link .b 0).chan = ch ∧ (t.link .b 0).state = 0 ∧
        (2 ≤ (s.link .b 0).state → (t.link .b 0).queue.head? = some (.go 3))) ∧
  (∀ s req b, s.admits .rfb .operator req = true → b ≠ s.split → (s.link .b 0).state = 0 → (s.link .b 1).state = 0 →
      (s.link .b 0).trans = none → (s.link .b 1).trans = none →
    Gives (exec (.rfbSplitWrite req b) s) fun t => t.split = b))

/-! ### Radio C (spec/10) -/

/-- R243, R253, R258, R261: radio C's state commands, its span, and the work it marks due. R246 to R252: reception. R255 to
R262: transmission and the calibration slot. -/
def Obligations.RadioCRowsComplete : Prop :=
  ((∀ s req, s.accepts rfcCmd req = true → s.rfc.trans = none → s.rfc.tx = none → s.rfc.retune = none → s.rfc.queue = [] →
    let goes (t : State) (target : Nat) : Prop :=
      if s.rfc.state = target then t.ended rfcCmd.addr 0
      else t.rfc.trans = some (target, max s.now s.workEnd + rfcTime s.rfc.state target) ∧ t.f (cmdState rfcCmd.addr) = 1
    Gives (exec (.rfcGoOff req) s) (goes · 0) ∧ Gives (exec (.rfcGoSleep req) s) (goes · 1) ∧
      Gives (exec (.rfcGoIdle req) s) (goes · 2) ∧ Gives (exec (.rfcGoRx req) s) (goes · 3)) ∧
  (∀ s target e, s.unitDark .rfc = false → s.rfc.trans = some (target, e) → s.rfc.queue = [] →
    Gives (exec .rfcTransitionDone s) fun t =>
      t.now = max s.now e ∧ t.rfc.state = target ∧ t.rfc.trans = none ∧ t.ended rfcCmd.addr 0) ∧
  (∀ s req, s.accepts rfcOpCmd req = true → s.rfc.state ≠ 0 →
    (s.span = s.spanStaged → Gives (exec (.applyPlan req) s) fun t => t.ended rfcOpCmd.addr 0 ∧ t.rfc = s.rfc) ∧
    (s.span ≠ s.spanStaged → s.rfc.state = 2 ∨ s.rfc.state = 3 →
      Gives (exec (.applyPlan req) s) fun t =>
        t.span = s.spanStaged ∧ t.rfc.retune = some (max s.now s.workEnd + 80000, true) ∧ t.f (cmdState rfcOpCmd.addr) = 1) ∧
    (Gives (exec (.calReq req) s) fun t => t.on RFC_CAL_STAT_DUE = true ∧ t.ended rfcOpCmd.addr 0) ∧
    (∀ p, Gives (exec (.tuneReq req p) s) fun t => p.toNat ∈ t.rfc.tuneDue ∧ t.ended rfcOpCmd.addr 0)) ∧
  (∀ s e, s.unitDark .rfc = false → s.rfc.retune = some (e, true) → s.rfc.queue = [] →
    Gives (exec .spanRetuneDone s) fun t => t.now = max s.now e ∧ t.rfc.retune = none ∧ t.ended rfcOpCmd.addr 0) ∧
  (∀ s req (k : BitVec 6) v, s.admits .rfc .operator req = true →
    Gives (exec (.rfcChCfgWrite req k v) s) fun t => t.rd (RFC_CH_CFG_EN k.toNat).addr = v &&& 0xC00FFFFF)) ∧
  ((∀ s (k : BitVec 6) (e : BitVec 2) (rssi current : BitVec 8) (offset : BitVec 16) same p, s.unitDark .rfc = false →
      s.hears k.toNat = true → (s.chan k.toNat).frame = none → s.entryProfile k.toNat e.toNat = some p →
      offset.toInt.natAbs ≤ 10240 →
    ((s.chan k.toNat).pre = none → Gives (exec (.preambleDetect k e rssi current offset same) s) fun t =>
      (t.chan k.toNat).pre = some (s.entryOf k.toNat e.toNat)) ∧
    (∀ f, (s.chan k.toNat).pre = some f → current.toInt + 12 ≤ rssi.toInt →
      Gives (exec (.preambleDetect k e rssi current offset same) s) fun t =>
        (t.chan k.toNat).pre = some (s.entryOf k.toNat e.toNat) ∧
          t.w RFC_CNT_CAPTURE_RESTART = (s.w RFC_CNT_CAPTURE_RESTART + 1) % 2 ^ 48)) ∧
  (∀ s (k : BitVec 6) (e : BitVec 2) (rssi : BitVec 8) (fofs : BitVec 16) p, s.unitDark .rfc = false →
      s.hears k.toNat = true → (s.chan k.toNat).frame = none → s.entryProfile k.toNat e.toNat = some p →
      (s.chan k.toNat).pre = some (s.entryOf k.toNat e.toNat) →
    Gives (exec (.sfdDetect k e rssi fofs) s) fun t =>
      (t.chan k.toNat).pre = none ∧ (t.chan k.toNat).frame = some
        { profile := p, port := s.f RFC_CTL_RX_PORT, rssi := rssi.toInt, fofs := fofs.toNat, mt := s.mtm.mt, lt := s.lt, acc := s.mtm.acc } ∧
      t.w RFC_CNT_SYNC = (s.w RFC_CNT_SYNC + 1) % 2 ^ 48) ∧
  (∀ s (k : BitVec 6) dw (len : BitVec 11) f, s.unitDark .rfc = false → (s.chan k.toNat).frame = some f → f.phr = none →
    (5 ≤ len.toNat → Gives (exec (.phrDecode k false false dw len) s) fun t =>
      (t.chan k.toNat).frame = some { f with phr := some (dw, len.toNat) }) ∧
    (∀ ms fcs16, (ms = true ∨ fcs16 = true ∨ len.toNat < 5) →
      Gives (exec (.phrDecode k ms fcs16 dw len) s) fun t =>
        (t.chan k.toNat).frame = none ∧ t.w RFC_CNT_PHR_BAD = (s.w RFC_CNT_PHR_BAD + 1) % 2 ^ 48)) ∧
  (∀ s (k : BitVec 6) ok psdu f dw, s.unitDark .rfc = false → (s.chan k.toNat).frame = some f →
      f.phr = some (dw, psdu.length) →
    let ends := f.lt + octetTime f.profile (2 + psdu.length)
    ((∀ t, s.rxEnds = some t → ends ≤ t) → Gives (exec (.rfcRxReport k ok psdu) s) fun t =>
      (t.chan k.toNat).frame = none ∧ t.now = s.now + (ends - s.lt) ∧
        ∃ r : RxReport, t.rfc.reports = s.rfc.reports ++ [r] ∧ r.channel = k.toNat ∧ r.psdu = psdu ∧ r.length = psdu.length ∧
          r.status = (if ok then 0 else 1) ∧ r.mt = f.mt ∧ r.lt = f.lt) ∧
    (∀ cut, s.rxEnds = some cut → cut < ends → Gives (exec (.rfcRxReport k ok psdu) s) fun t =>
      (t.chan k.toNat).frame = none ∧ t.now = s.now + (cut - s.lt) ∧
        t.w RFC_CNT_RX_ABORT_TX = (s.w RFC_CNT_RX_ABORT_TX + 1) % 2 ^ 48 ∧
        ∃ r : RxReport, t.rfc.reports = s.rfc.reports ++ [r] ∧ r.channel = k.toNat ∧ r.psdu = [] ∧ r.status = 3)) ∧
  (∀ s (k : BitVec 6), s.unitDark .rfc = false → s.on (RFC_CH_CFG_EN k.toNat) = true →
      (s.w RFC_CH_LOST_LOST).testBit k.toNat = false →
    Gives (exec (.rfcChLost k) s) fun t => (t.w RFC_CH_LOST_LOST).testBit k.toNat = true ∧ (t.chan k.toNat).frame = none)) ∧
  ((∀ s (k : BitVec 6) (p : BitVec 4) port (level : BitVec 8) turn (ref : BitVec 6) (time : BitVec 64) deadline dw psdu at_,
      s.unitDark .rfc = false →
      profileOk s.wide p.toNat = true → 5 ≤ psdu.length → psdu.length ≤ 2047 → k.toNat < (if s.wide then 32 else 64) →
      -20 ≤ level.toInt → level.toInt ≤ 54 →
      (if turn then
        (s.rfc.recent.find? fun r => decide (r.1 = ref.toNat) && decide (r.2.1 = time.toNat)).map fun r => r.2.2 + 40000
        else some time.toNat) = some at_ →
    ((turn = false ∧ deadline = false) ∨ s.lt + 20000 ≤ at_ → 2 ≤ s.rfc.state → s.rfc.txq.length < 2 →
      Gives (exec (.rfcTxCommand k p port level turn ref time deadline dw psdu) s) fun t =>
        t.rfc.txq = s.rfc.txq ++
          [{ id := s.rfc.nextId, channel := k.toNat, profile := p.toNat, port := port.toNat,
             level := level.toInt, start := max at_ (s.lt + 20000), deadline := turn || deadline, psdu := psdu, dw := dw,
             what := .other }]) ∧
    (turn = true ∨ deadline = true → at_ < s.lt + 20000 →
      Gives (exec (.rfcTxCommand k p port level turn ref time deadline dw psdu) s) fun t =>
        t.rfc.txq = s.rfc.txq ∧ t.rfc.answers = (2, level.toInt, 0) :: s.rfc.answers ∧
          t.w RFC_CNT_TX_LATE = (s.w RFC_CNT_TX_LATE + 1) % 2 ^ 48)) ∧
  (∀ s c u, s.unitDark .rfc = false → s.txFirst = some c → s.txReady = true → s.txIsLate c = false →
      u = (s.demand .rfc).reach (s.now + (max c.start (s.txFrom c) - s.lt)) →
    (u.txFits c = true → (u.txRead c []).2 = false → Gives (exec (.rfcTxStart []) s) fun t =>
      t.now = s.now + (max c.start (s.txFrom c) - s.lt) ∧
        t.rfc.tx = some (c, t.now, s.airtime c.profile c.psdu.length + c.extra, s.txLevel c) ∧
        t.rfc.txq = s.rfc.txq.filter fun x => decide (x.id ≠ c.id)) ∧
    (u.txFits c = false → c.what = .other → Gives (exec (.rfcTxStart []) s) fun t =>
      t.rfc.tx = s.rfc.tx ∧ (t.rfc.txq = s.rfc.txq.filter fun x => decide (x.id ≠ c.id)) ∧
        t.rfc.answers = (4, c.level, 0) :: s.rfc.answers)) ∧
  (∀ s c, s.unitDark .rfc = false → s.rfc.txq.find? s.txIsLate = some c → c.what = .other →
    Gives (exec .rfcTxLate s) fun t =>
      (t.rfc.txq = s.rfc.txq.filter fun x => decide (x.id ≠ c.id)) ∧ t.rfc.answers = (2, c.level, 0) :: s.rfc.answers ∧
        t.w RFC_CNT_TX_LATE = (s.w RFC_CNT_TX_LATE + 1) % 2 ^ 48) ∧
  (∀ s c start air level (v : BitVec 12), s.unitDark .rfc = false → s.rfc.tx = some (c, start, air, level) → c.what = .other →
      s.rfc.queue = [] →
    Gives (exec (.rfcTxEnd v) s) fun t =>
      t.now = max s.now (start + air) ∧ t.rfc.tx = none ∧ t.rfc.state = 3 ∧
        t.rfc.lastTx = some (t.lt, c.channel, c.port) ∧
        t.rfc.answers = ((decide (level < c.level)).toNat, level, (air + 999) / 1000) :: s.rfc.answers) ∧
  (∀ s u (image : BitVec 8) p0 p1 open_, s.unitDark .rfc = false → s.calOpen = some open_ →
      (s.demand .rfc).reachMt open_ = some u → s.mtm.mt ≤ open_ → s.rfc.slotAt ≠ some open_ → u.txReady = true → u.on RFC_CAL_STAT_DUE = true →
      u.rfc.tuneDue = [] → u.slotFrame < u.rfc.lastFrame.lookD 0 0 + 64 → u.slotFrame < u.rfc.lastFrame.lookD 1 0 + 64 →
      50 ≤ image.toNat →
    Gives (exec (.calSlotOpen image p0 p1) s) fun t =>
      t.rfc.work = some (u.now + 400000, u.now + 400000) ∧ t.f RFC_STATE_STATE = 5 ∧ t.on RFC_CAL_STAT_DUE = false ∧ t.f RFC_CAL_STAT_IMG_DB = image.toNat ∧
        t.f RFC_CAL_STAT_LOW_RUN = 0 ∧ t.rfc.stored.contains s.span = true) ∧
  (∀ s (temp : BitVec 8), s.unitDark .rfc = false →
    Gives (exec (.rfcTempChange temp) s) fun t =>
      t.rfc.temp = temp.toInt ∧
        (10 ≤ (temp.toInt - sx 8 (s.f RFC_CAL_STAT_TEMP)).natAbs → t.on RFC_CAL_STAT_DUE = true)))

/-! ### Wi-Fi MAC services (spec/11) -/

/-- R265 to R267: association, and the station table's commands. R267, R273 to R277, R279 to R281, R285: received MPDUs,
reordering, service periods, beacons, and a user of an UL grant that stays silent. R282, R283, R288: WMA's key commands and its
backhaul links. -/
def Obligations.WifiRowsComplete : Prop :=
  ((∀ s mac links, s.unitDark .wma = false →
    (s.wma.stations.length < 1024 → Gives (exec (.assocRequest mac false false links false) s) fun t =>
      t.wma.answers = (mac.toNat, 0, links.toNat) :: s.wma.answers) ∧
    (∀ weak noRate one, 1024 ≤ s.wma.stations.length → Gives (exec (.assocRequest mac weak noRate links one) s) fun t =>
      t.wma.answers = (mac.toNat, 17, 0) :: s.wma.answers ∧ t.w WMA_CNT_STA_FULL = (s.w WMA_CNT_STA_FULL + 1) % 2 ^ 48)) ∧
  (∀ s req (i : BitVec 10), s.accepts staCmd req = true → s.wma.stations.length < 1024 →
      s.wma.stations.look i.toNat = none → s.staOf s.staBuf.mac = none → s.staBuf.links ≠ 0 →
      (s.staBuf.mld = true ∨ s.staBuf.links = 1 ∨ s.staBuf.links = 2 ∨ s.staBuf.links = 4) →
    let st : Station := { s.staBuf with rxPn := (((s.bhOf s.staBuf).bind s.wma.bhEntry.look).map (·.rxPn)).getD [] }
    (s.wma.steered.look s.staBuf.mac = none → Gives (exec (.staAdd req i) s) fun t =>
      t.wma.stations.look i.toNat = some st ∧ t.ended staCmd.addr 0) ∧
    (∀ k, s.wma.steered.look s.staBuf.mac = some k → Gives (exec (.staAdd req i) s) fun t =>
      t.wma.stations.look i.toNat = some { st with origin := some k.src } ∧
        t.wma.steered.look s.staBuf.mac = none ∧ t.ended staCmd.addr 0)) ∧
  (∀ s req (i : BitVec 10) st, s.accepts staCmd req = true → s.wma.stations.look i.toNat = some st →
    (s.tidKeys st.client = [] → Gives (exec (.staDel req i) s) fun t =>
      t.wma.stations.look i.toNat = none ∧ t.ended staCmd.addr 0) ∧
    (s.onAir st.client = true → (∀ k ∈ s.tidKeys st.client, (s.ple.tids.lookD k {}).retry = []) →
      Gives (exec (.staDel req i) s) fun t =>
        t.wma.stations.look i.toNat = some { st with deleting := true } ∧ t.f (cmdState staCmd.addr) = 1) ∧
    (Gives (exec (.staRead req i) s) fun t =>
      t.f WMA_STA_BUF_ADDR_LO_ADDR = st.mac % 2 ^ 32 ∧ t.f WMA_STA_BUF_LINKS_LINKS = st.links % 8 ∧
        t.f WMA_STA_BUF_LINKS_BSS = st.bss % 4096 ∧ t.on WMA_STA_BUF_LINKS_MLD = st.mld ∧
        t.on WMA_STA_BUF_LINKS_BACKHAUL = st.backhaul ∧ t.f WMA_STA_BUF_SCHED_CLIENT = st.client % 8192 ∧
        t.ended staCmd.addr 0)) ∧
  (∀ s (i : BitVec 10) st, s.unitDark .wma = false → s.wma.stations.look i.toNat = some st → st.deleting = true →
      s.tidKeys st.client = [] →
    Gives (exec (.staDelDone i) s) fun t =>
      t.wma.stations.look i.toNat = none ∧
        (s.f (cmdState staCmd.addr) = 1 → s.f WMA_STA_CMD_INDEX = i.toNat → t.ended staCmd.addr 0))) ∧
  ((∀ s (x : WifiRx) h i st, s.unitDark .wma = false → s.receives (linkOf x.link.val).1 (linkOf x.link.val).2 = true →
      macHdr x.mpdu = some h → h.typ = 2 → h.group = false → (s.bssAt x.link.val h.a1).isSome = true →
      s.staOf h.a2 = some (i, st) → s.wma.stations.look i = some st → h.qos = false → h.prot = false →
      (h.retry = false ∨ st.last.look 16 ≠ some h.sn) →
    (Gives (exec (.mpduRx x) s) fun t =>
      (t.wma.stations.look i).map (fun k => (k.pm, k.last.look 16)) = some (h.pm, some h.sn)) ∧
    (x.aggregated = false → x.last = true → h.noAck = false → s.wma.acking.lookD (8 + x.link.val) [] = [] →
      Gives (exec (.mpduRx x) s) fun t => t.wma.responses.lookD (8 + x.link.val) [] =
        s.wma.responses.lookD (8 + x.link.val) [] ++
          [{ kind := .ack, dest := h.a2, acked := [(h.a2, h.tid, h.sn)], deadline := s.lt + sifs x.link.val }]) ∧
    (∀ m q, h.null = false → m = etherOf (msduEnds h).1 (msduEnds h).2 (x.mpdu.drop h.len) →
        s.wmaQuire x.link.val = some q → s.refuses q = false → m.length < 16384 →
        s.cellsFit q (max 1 (cellsFor m.length)) = true →
      Gives (exec (.mpduRx x) s) fun t =>
        (t.pkt s.pkb.next).map (fun p => (p.data, p.good, p.quire)) = some (m, true, q) ∧
          (t.quire q).visible = (s.quire q).visible ++ [s.pkb.next])) ∧
  (∀ s (k : Fin 3) (i : BitVec 10) (tid : BitVec 4) (ssn : BitVec 12) st b, s.unitDark .wma = false →
      s.receives (linkOf k.val).1 (linkOf k.val).2 = true → s.wma.stations.look i.toNat = some st →
      s.baOf i.toNat tid.toNat = some b → b.size ≤ seqDist b.win ((ssn.toNat + b.size - 1) % 4096) →
      seqDist b.win ((ssn.toNat + b.size - 1) % 4096) < 2048 → b.held = [] →
    Gives (exec (.barRx k i tid ssn) s) fun t =>
      t.baOf i.toNat tid.toNat = some { b with win := ssn.toNat } ∧
        ((t.wma.responses.lookD (8 + k.val) []).getLast?).map (fun r => (r.kind, r.dest, r.deadline)) =
          some (.blockAck, st.mac, s.lt + sifs k.val)) ∧
  (∀ s (i : BitVec 10) (tid : BitVec 4) b h, s.unitDark .wma = false → s.baOf i.toNat tid.toNat = some b → b.held = [h] →
      h.check = .clear → b.win < 4096 → h.sn < 4096 →
    Gives (exec (.reorderTimeout i tid) s) fun t =>
      t.now = max s.now (h.since + 16000 * max 1 (s.f WMA_BA_CFG_TIMEOUT)) ∧
        t.baOf i.toNat tid.toNat =
          some { b with win := if seqDist b.win h.sn < 2048 then (h.sn + 1) % 4096 else b.win, held := [] } ∧
        t.w WMA_CNT_REORDER_TMO = (s.w WMA_CNT_REORDER_TMO + 1) % 2 ^ 48) ∧
  (∀ s (i : BitVec 10) (n : Fin 4) st, s.unitDark .wma = false → s.wma.stations.look i.toNat = some st →
    (∀ d : BitVec 32, Gives (exec (.twtSpBoundary (.own i n) (.opens d)) s) fun t =>
      t.wma.stations.look i.toNat = some { st with twts := st.twts.put n.val (s.lt, s.lt + d.toNat), active := false }) ∧
    (∀ w, st.twts.look n.val = some w → Gives (exec (.twtSpBoundary (.own i n) .closes) s) fun t =>
      t.now = s.now + (w.2 - s.lt) ∧
        t.wma.stations.look i.toNat = some { st with twts := st.twts.put n.val w, active := false }) ∧
    (Gives (exec (.twtSpBoundary (.own i n) .ends) s) fun t =>
      t.wma.stations.look i.toNat = some { st with twts := st.twts.del n.val, active := false })) ∧
  (∀ s r (bss : BitVec 4) (n : Fin 8) members (d : BitVec 32), s.unitDark .wma = false →
    Gives (exec (.twtSpBoundary (.group r bss n members) (.opens d)) s) fun t =>
      t.wma.bcast.look ((16 * r.num + bss.toNat) * 8 + n.val) =
        some { members := members.map (·.toNat), start := s.lt, ends := s.lt + d.toNat }) ∧
  (∀ s r (n : BitVec 4) g u k, s.unitDark .wma = false → 10 ≤ s.cfg.stage → s.bssTake r n.toNat = u →
      u.bssOn r n.toNat = true → u.link r (u.bssLink r n.toNat) = k → k.state = 3 ∨ k.state = 4 →
      s.rxOnly r (u.bssLink r n.toNat) = false →
    Gives (exec (.beaconTx r n g) s) fun t =>
      t.now = max s.now (s.wma.tbtt.lookD (16 * r.num + n.toNat) s.now) ∧
      (t.wma.beacons.look (16 * r.num + n.toNat)).map (fun b => (b.mac, b.sender, b.csa)) =
        some (u.bssMac r n.toNat, u.bssSender r n.toNat,
          if k.staged.isSome then some (match k.csa.look n.toNat with | none => k.count | some c => c - 1) else none) ∧
      t.wma.groupNode.look (16 * r.num + n.toNat) = some g.toNat) ∧
  (∀ s (root : BitVec 4) (u : BitVec 6) l x, s.unitDark .wma = false → s.wma.triggers.look root.toNat = some l →
      l[u.toNat]? = some x → x.silent = false →
    Gives (exec (.trigNoresp root u) s) fun t => t.w WMA_CNT_TRIG_NORESP = (s.w WMA_CNT_TRIG_NORESP + 1) % 2 ^ 48)) ∧
  ((∀ s req (i : BitVec 10) (slot : BitVec 4) st, s.accepts wmaKeyCmd req = true → slot.toNat < 2 →
      s.wma.stations.look i.toNat = some st →
    (∀ cipher : BitVec 3, cipher.toNat < 4 → s.noLane = false → s.rootOk 0 = true → s.on CIP_STATUS_ERASING = false →
      Gives (exec (.wmaKeyInstall req i slot cipher) s) fun t =>
        t.wma.keys.look (2 * i.toNat + slot.toNat) = some
          { cipher := cipher.toNat, pn := s.f WMA_KEY_BUF_PN_W + 2 ^ 32 * s.f WMA_KEY_BUF_PN_W_HI, gen := s.wma.installs + 1 } ∧
        (∀ kek, (s.deriveNow s.kekTag).2 = some kek →
          (t.cip.table.look (2 * i.toNat + slot.toNat)).map (·.wrapped) = some (keyWrap kek
            (s.regBytes (WMA_KEY_BUF_KEY_W 0).addr (if cipher.toNat % 2 = 1 then 32 else 16)))) ∧
        (∀ k, k < 10 → t.rd ((WMA_KEY_BUF_KEY_W 0).addr + 4 * k) = 0) ∧ t.ended wmaKeyCmd.addr 0) ∧
    (Gives (exec (.wmaKeyRemove req i slot) s) fun t =>
      t.wma.keys.look (2 * i.toNat + slot.toNat) = none ∧ t.cip.table.look (2 * i.toNat + slot.toNat) = none ∧
        t.ended wmaKeyCmd.addr 0) ∧
    (∀ tx, Gives (exec (.wmaKeySetTx req i tx) s) fun t =>
      t.wma.stations.look i.toNat = some { st with txSlot := tx.toNat } ∧ t.ended wmaKeyCmd.addr 0)) ∧
  (∀ s (n : BitVec 3), s.unitDark .wma = false → s.on (WMA_BH_PEER_UP n.toNat) = true → s.rxOnly .a 0 = false →
    Gives (exec (.wmaBhDown n) s) fun t =>
      t.on (WMA_BH_PEER_UP n.toNat) = false ∧
        t.now = max s.now (s.wma.bhHeard.lookD n.toNat 0 + 3 * 1024000 * s.f WMA_CTL_BI)) ∧
  (∀ s (n : BitVec 3), s.unitDark .wma = false → s.on (WMA_BH_PEER_UP n.toNat) = true → s.rxOnly .a 0 = true →
    Gives (exec (.wmaBhDown n) s) fun t => t.on (WMA_BH_PEER_UP n.toNat) = false ∧ t.now = s.now) ∧
  (∀ s (n : BitVec 3), s.unitDark .wma = false → s.on (WMA_BH_PEER_EN n.toNat) = true →
      s.on (WMA_BH_PEER_UP n.toNat) = false → s.f (WMA_BH_PEER_DEVICE n.toNat) < s.shelfId → s.wma.bhTried = [] →
      (s.wma.stations.any fun e => decide (s.bhOf e.2 = some n.toNat)) = true → s.rxOnly .a 0 = false → s.cipHeld = false →
      s.noLane = false → s.rootOk 1 = true →
    Gives (exec (.bhRejoin n true) s) fun t =>
      t.on (WMA_BH_PEER_UP n.toNat) = true ∧ t.wma.bhTried.look n.toNat = some s.now))

/-! ### The sub-GHz MAC (spec/12) -/

/-- R290, R291, R309: plans are committed, cancelled and take effect; duty buckets roll. R294, R297, R298, R300, R305, R306:
what SGM sends in its blocks. -/
def Obligations.SubGhzPlanAndSendRowsComplete : Prop :=
  ((∀ s req, s.accepts sgmCmd req = true →
    (s.sgm.pend = none → (List.range 128).find? s.blockFails = none →
      Gives (exec (.planCommit req) s) fun t =>
        t.sgm.pend = some {} ∧ t.on SGM_STATUS_PEND = true ∧ t.ended sgmCmd.addr 0) ∧
    (s.sgm.pend = some { announced := false } →
      Gives (exec (.planCancel req) s) fun t =>
        t.sgm.pend = none ∧ t.on SGM_STATUS_PEND = false ∧ t.ended sgmCmd.addr 0)) ∧
  (∀ s, s.unitDark .sgm = false → s.sgm.frame ≠ some s.slotFrame →
    (s.sgm.pend = some { announced := false } → Gives (exec .slotFrameStart s) fun t =>
      t.sgm.frame = some s.slotFrame ∧ t.sgm.pend = some { announced := true }) ∧
    (s.sgm.pend = some { announced := true } → Gives (exec .slotFrameStart s) fun t =>
      t.sgm.frame = some s.slotFrame ∧ t.sgm.pend = none ∧ t.f SGM_STATUS_PLAN = (s.f SGM_STATUS_PLAN + 1) % 256 ∧
        ∀ b, b < 128 → t.rd (SGM_BLOCK_ACT_EN b).addr = s.rd (SGM_BLOCK_EN b).addr)) ∧
  (∀ s, s.unitDark .sgm = false →
    Gives (exec .dutyBucketRoll s) fun t =>
      t.now = s.now + (1000000000 - (s.lt - s.mtm.ltJump) % 1000000000) ∧
        ∀ d ∈ t.sgm.duty, d ∈ s.sgm.duty ∧ t.dutySecond t.lt ≤ d.1 + t.subWindow d.2.1)) ∧
  ((∀ s u, s.unitDark .sgm = false → 10 ≤ s.cfg.stage → (s.demand .sgm).frameCut.enterFor 0 kindBeacon = some u →
      u.protects = true →
      u.fits (u.f SGM_BEACON_CHANNEL) (u.airtime (u.f SGM_BEACON_PROFILE) (19 + u.beaconBody.length)) true = true →
      2 ≤ u.rfc.state → u.rfc.txq.length < 2 →
    Gives (exec .beaconSend s) fun t =>
      ∃ c : RfcTx, t.rfc.txq = u.rfc.txq ++ [c] ∧ c.what = .beacon ∧ c.channel = u.f SGM_BEACON_CHANNEL ∧
        c.profile = u.f SGM_BEACON_PROFILE ∧ c.start = u.blockStart 0 ∧ t.sgm.done = 0 :: u.sgm.done) ∧
  (∀ s (b : BitVec 7) u, s.unitDark .sgm = false → (s.demand .sgm).frameCut.enterFor b.toNat kindGack = some u →
      u.protects = true →
      u.fits (u.f SGM_BEACON_CHANNEL) (u.airtime (u.f SGM_BEACON_PROFILE) (19 + (natLe 1 0xC1 ++
        natLe 1 (u.gathers b.toNat).length ++ ((u.gathers b.toNat).map fun g => natLe 8 (u.bitmap g)).flatten).length)) true =
        true →
      2 ≤ u.rfc.state → u.rfc.txq.length < 2 →
    Gives (exec (.gackSend b) s) fun t =>
      ∃ c : RfcTx, t.rfc.txq = u.rfc.txq ++ [c] ∧ c.start = u.blockStart b.toNat ∧ t.sgm.done = b.toNat :: u.sgm.done ∧
        c.what = .gack (u.sgm.gathered.filterMap fun x => if (u.gathers b.toNat).contains x.1 then some x.2.2 else none)) ∧
  (∀ s (b : BitVec 7) f u, s.unitDark .sgm = false → s.blockOn b.toNat = true → s.sgm.suspended = false →
      s.blockKind b.toNat = kindDown → f = (if s.mtm.mt < s.blockOpen b.toNat then s.slotFrame else s.slotFrame + 1) →
      s.sgm.asked.contains (b.toNat, f) = false →
      (s.demand .sgm).reachMt (f * 2 ^ 19 + s.blockFirst b.toNat * 4096 - 8192) = some u →
    Gives (exec (.cellFrameAsk b) s) fun t =>
      t.sgm.asked = (b.toNat, f) :: s.sgm.asked ∧ exec (.cellFrameAsk b) s = .next (u.cellAsk b.toNat f)) ∧
  (∀ s (b : BitVec 7) c p start errs u q, s.unitDark .sgm = false → s.sgm.frameEnds = false →
      s.sgm.given.look b.toNat = some c →
      s.blockOn b.toNat = true → s.sgm.suspended = false → s.sgm.done.contains b.toNat = false → s.safeTakes = false → s.cipHeld = false →
      s.mtm.mt < c.frame * 2 ^ 19 + s.blockFirst b.toNat * 4096 + s.blockWidth b.toNat → s.pkt c.pkt = some p →
      pktGroup p = true → start = s.openLt b.toNat c.frame + s.guard →
      s.mtm.mt / 65536 = (s.mtm.mt + s.ticksOfNs (start - 20000 - s.lt)) / 65536 →
      ((s.demand .sgm).advance (start - 20000 - s.lt)).pktScan c.pkt p errs = (u, some q) →
    (q.poison = false → pktGroup q = true → u.protects = true →
        u.fits (u.f (SGM_BLOCK_ACT_CHANNEL b.toNat)) (u.airtime (u.f (SGM_BLOCK_ACT_PROFILE b.toNat))
          ((u.lowpanBody q).length + downOver true)) (queueSafe (u.schQ c.queue)) = true →
        2 ≤ u.rfc.state → u.rfc.txq.length < 2 →
      Gives (exec (.downSend b errs) s) fun t =>
        t.sgm.given.look b.toNat = none ∧ t.sgm.done = b.toNat :: u.sgm.done ∧
          ∃ x : RfcTx, t.rfc.txq = u.rfc.txq ++ [x] ∧ x.what = .group c.queue c.pkt ∧
            x.start = max start (u.lt + 20000) ∧ x.channel = u.f (SGM_BLOCK_ACT_CHANNEL b.toNat)) ∧
    (q.poison = true → Gives (exec (.downSend b errs) s) fun t =>
      t.sgm.given.look b.toNat = none ∧ t.pkt c.pkt = none ∧
        t.w PKB_CNT_POISON_DROP = (u.w PKB_CNT_POISON_DROP + 1) % 2 ^ 48)) ∧
  (∀ s (b : BitVec 7) u, s.unitDark .sgm = false → s.sgm.frameEnds = false → 0 < s.sgm.safeLeft →
      s.sgm.done.contains b.toNat = false → s.cipHeld = false → (s.demand .sgm).enter b.toNat = some u → u.safeTakes = true →
      2 ≤ u.rfc.state → u.rfc.txq.length < 2 →
    Gives (exec (.safeLevelSend b) s) fun t =>
      t.sgm.safeLeft = s.sgm.safeLeft - 1 ∧ t.sgm.done = b.toNat :: s.sgm.done ∧
        ∃ x : RfcTx, t.rfc.txq = s.rfc.txq ++ [x] ∧ x.what = .safe ∧ x.channel = s.f SGM_BEACON_CHANNEL))

/-- R295 to R297, R301 to R303: reports, acknowledgements and keep-alive periods. R296, R307, R308: the commands of the node
table. -/
def Obligations.SubGhzPartnerAndNodeRowsComplete : Prop :=
  ((∀ s r rest (x : SgmFrame) i n m w u k body, s.unitDark .sgm = false → s.rfc.reports = r :: rest → s.sgm.frameEnds = false →
      r.status = 0 → sgmParse r.psdu = some x → s.noLane = false → s.cipHeld = false →
      nodeNamed (s.nodesAt r.lt) (some x) = some (i, n) → s.inJoin r.mt = false → s.cellOf n r = some w →
      (n.history.any fun h => decide (h.1 = x.seq) && decide (s.framesNow < h.2 + max 1 (s.f SGM_TIMING_DUP_AGE))) = false →
      ({ s.demand .sgm with rfc.reports := rest } : State).nodeOpen i n x = (u, k, some body) →
      (∀ c, k.lastCtr = some c → c < x.counter) → s.sgm.nodes.look i = some m → m.born = n.born →
      (u.quireWrite (s.f SGM_CTL_RX_Q)
        (sgmInfo i r false (decide (s.blockKind n.block = kindGather)) w) body true).2 = true →
    Gives (exec .sgmRxReport s) fun t =>
      t.rfc.reports = rest ∧
        (t.sgm.nodes.look i).map (fun k => (k.lastCtr, k.history)) =
          some (some x.counter, ((x.seq, s.framesNow) :: m.history).take 16)) ∧
  (∀ s r rest d n, s.unitDark .sgm = false → s.rfc.reports = r :: rest → s.sgm.downs.find? (s.ackMatches r) = some d →
      s.sgm.nodes.look d.node = some n → n.born = d.born →
    Gives (exec .downAckRx s) fun t =>
      t.rfc.reports = rest ∧ (t.sgm.downs = s.sgm.downs.filter fun x => decide (x ≠ d)) ∧ t.pkt d.pkt = none ∧
        t.sgm.tries.look d.pkt = none ∧
        (t.sgm.nodes.look d.node).map (fun k => (k.anchor, k.pending, k.misses)) = some (some d.sfd, none, 0)) ∧
  (∀ s d rest, s.unitDark .sgm = false → s.sgm.downs = d :: rest → (s.pkt d.pkt).isSome = true →
    ((s.sgm.tries.lookD d.pkt 0 + 1 < max 1 (s.f SGM_CTL_RETRIES) →
      Gives (exec .downAckTimeout s) fun t =>
        t.sgm.downs = rest ∧ (t.schQ d.queue).fifo = d.pkt :: (s.schQ d.queue).fifo ∧
          (t.pkt d.pkt).map (·.charged) = some true ∧ t.sgm.tries.look d.pkt = some (s.sgm.tries.lookD d.pkt 0 + 1) ∧
          t.now = s.now + (d.ends + 60000 + s.shr d.profile - s.lt)) ∧
     (max 1 (s.f SGM_CTL_RETRIES) ≤ s.sgm.tries.lookD d.pkt 0 + 1 →
      Gives (exec .downAckTimeout s) fun t =>
        t.sgm.downs = rest ∧ t.pkt d.pkt = none ∧ t.sgm.tries.look d.pkt = none ∧
          t.w SGM_CNT_TX_FAIL = (s.w SGM_CNT_TX_FAIL + 1) % 2 ^ 48))) ∧
  (∀ s (i : BitVec 12) n, s.unitDark .sgm = false → s.sgm.nodes.look i.toNat = some n →
      n.added + max 1 (s.f SGM_TIMING_KEEPALIVE) ≤ s.framesNow → n.heard = true →
    Gives (exec (.keepalivePeriodEnd i) s) fun t =>
      t.sgm.nodes.look i.toNat = some { n with added := n.added + max 1 (s.f SGM_TIMING_KEEPALIVE), heard := false })) ∧
  ((∀ s req (i : BitVec 12), s.accepts nodeCmd req = true → s.sgm.nodes.length < 4096 → s.cellValid s.nodeBuf = true →
      s.sgm.nodes.look i.toNat = none → s.cellOwned i.toNat s.nodeBuf = false →
    Gives (exec (.sgmNodeAdd req i) s) fun t =>
      t.sgm.nodes.look i.toNat = some { s.nodeBuf with gen := s.keyGen, added := s.framesNow, born := s.sgm.births + 1 } ∧ t.ended nodeCmd.addr 0) ∧
  (∀ s req (i : BitVec 12) n, s.accepts nodeCmd req = true → s.sgm.nodes.look i.toNat = some n →
    (Gives (exec (.sgmNodeDel req i) s) fun t => t.sgm.nodes.look i.toNat = none ∧ t.ended nodeCmd.addr 0) ∧
    (Gives (exec (.sgmNodeRead req i) s) fun t =>
      t.w SGM_NODE_BUF_EUI_W = n.eui % 2 ^ 64 ∧ t.f SGM_NODE_BUF_ADDR_ADDR = n.addr % 2 ^ 16 ∧
        t.f SGM_NODE_BUF_ADDR_STATE = n.state % 4 ∧ t.f SGM_NODE_BUF_CELL_BLOCK = n.block % 128 ∧
        t.f SGM_NODE_BUF_SCHED_CLIENT = n.client % 8192 ∧ t.f SGM_NODE_BUF_DRIFT_D = toBits 32 n.drift ∧
        t.ended nodeCmd.addr 0) ∧
    (s.cellValid s.nodeBuf = true → s.cellOwned i.toNat s.nodeBuf = false →
      Gives (exec (.sgmNodeUpdate req i) s) fun t =>
        (t.sgm.nodes.look i.toNat).map (fun k => (k.eui, k.addr, k.block, k.channel, k.state, k.history)) =
          some (s.nodeBuf.eui, s.nodeBuf.addr, s.nodeBuf.block, s.nodeBuf.channel, n.state, n.history) ∧
        t.ended nodeCmd.addr 0) ∧
    (Gives (exec (.sgmNodeReassign req i) s) fun t =>
      (i.toNat, 8, s.f SGM_NODE_BUF_MOVE_DEVICE, s.f SGM_NODE_BUF_MOVE_CENTRE) ∈ t.sgm.moves ∧ t.ended nodeCmd.addr 0)))

/-! ### The cipher engine (spec/13) -/

/-- R314 to R319, R323, R326 to R330: ring and inline jobs, derivations, alarms and the erase. -/
def Obligations.CipherJobRowsComplete : Prop :=
  (∀ s req (n : BitVec 3) (prod : BitVec 8), s.admits .cip .operator req = true →
      (prod.toNat + 256 - s.f (CIP_RING_IDX_CONS n.toNat)) % 256 ≤ 2 ^ s.ringSize n.toNat - 1 →
    Gives (exec (.ringProdWrite req n prod) s) fun t => t.f (CIP_RING_IDX_PROD n.toNat) = prod.toNat) ∧
  (∀ s (n : BitVec 3) d, s.unitDark .cip = false → s.cipOpen = true → s.ringTurn n.toNat = true → s.cipHeld = false →
      (s.demand .cip).dataRead (s.descAt n.toNat (s.ringNext n.toNat)) 64 = some d →
    let job : CipJob := { ring := n.toNat, count := s.ringNext n.toNat, pair := none, desc := d, key := [],
                          level := s.ringLevel n.toNat, code := none }
    (∀ c, (s.demand .cip).jobCode (s.ringLevel n.toNat) d = some c → Gives (exec (.ringJobStart n) s) fun t =>
      t.cip.jobs = s.cip.jobs ++ [{ job with code := some c }] ∧ t.cip.last = n.toNat ∧
        t.ringNext n.toNat = (s.ringNext n.toNat + 1) % 256) ∧
    (∀ p u k, (s.demand .cip).jobCode (s.ringLevel n.toNat) d = none → s.noLane = false → s.freePair = some p →
        (s.demand .cip).jobKey d = (u, .ok (k, none)) →
      Gives (exec (.ringJobStart n) s) fun t =>
        t.cip.jobs = s.cip.jobs ++ [{ job with pair := some p, key := k }] ∧ t.cip.last = n.toNat ∧
          t.ringNext n.toNat = (s.ringNext n.toNat + 1) % 256)) ∧
  (∀ s (n : BitVec 3) (count : BitVec 8) bad j, s.unitDark .cip = false → count.toNat = s.f (CIP_RING_IDX_CONS n.toNat) →
      s.cip.jobs.find? (isJob n.toNat count.toNat) = some j → (j.code.isSome = true ∨ j.waits = none) →
      (∀ x ∈ s.cip.jobs, isJob n.toNat count.toNat x = false → x.ring ≠ n.toNat) →
    Gives (exec (.jobStatusWrite n count bad) s) fun t =>
      t.f (CIP_RING_IDX_CONS n.toNat) = (s.f (CIP_RING_IDX_CONS n.toNat) + 1) % 256 ∧
        (t.cip.jobs = s.cip.jobs.filter fun x => !isJob n.toNat count.toNat x) ∧
        t.w CIP_CNT_JOBS = (s.w CIP_CNT_JOBS + 1) % 2 ^ 48) ∧
  (∀ s (n : BitVec 3) (count : BitVec 8) bad j, s.unitDark .cip = false →
      s.cip.jobs.find? (isJob n.toNat count.toNat) = some j → j.code = none → j.waits = none →
      s.cip.jobs.find? (isJob n.toNat (s.f (CIP_RING_IDX_CONS n.toNat))) = none →
    Gives (exec (.jobStatusWrite n count bad) s) fun t =>
      t.f (CIP_RING_IDX_CONS n.toNat) = s.f (CIP_RING_IDX_CONS n.toNat) ∧
        ∀ x ∈ t.cip.jobs, isJob n.toNat count.toNat x = true → x.code.isSome = true ∧ x.pair = none) ∧
  (∀ s u (i : BitVec 12), s.unitDark .cip = false → s.cipOpen = true → tableOwner i.toNat = some u →
    (s.cipHeld = true → Gives (exec (.inlineJob u (.table i)) s) fun t =>
      t.cip.inlines = s.cip.inlines ++ [{ unit := u, key := .table i }]) ∧
    (s.cipHeld = false → Gives (exec (.inlineJob u (.table i)) s) fun t =>
      t.w CIP_CNT_JOBS = (s.w CIP_CNT_JOBS + 1) % 2 ^ 48 ∧ t.cip.inlines = s.cip.inlines)) ∧
  (∀ s d rest, s.unitDark .cip = false → s.cip.derivs = d :: rest → s.cip.inlines = [] →
    Gives (exec .keyDerivationDone s) fun t =>
      t.now = max s.now d.ends ∧ t.cip.derivs = rest ∧ (∀ j ∈ t.cip.jobs, j.waits ≠ some d.tag) ∧
        (d.keep = true → ∃ x ∈ t.cip.derived, x.tag = d.tag ∧ x.key = s.derivedKey d.tag)) ∧
  (∀ s (pairs : List LaneFault) n p, s.unitDark .cip = false → p < 3 → (pairs.any fun x => decide (x.pair.val = p)) = true →
      (s.f CIP_STATUS_QUAR).testBit p = false →
      ((∃ q, q < 3 ∧ (s.f CIP_STATUS_QUAR).testBit q = false ∧ (pairs.any fun x => decide (x.pair.val = q)) = false) ∨
        s.monitors .cipherFault = false) →
    Gives (exec (.cipQuarantine pairs n) s) fun t =>
      (t.f CIP_STATUS_QUAR).testBit p = true ∧ t.on CIP_STATUS_ERASING = true ∧
        (∀ j ∈ t.cip.jobs, j.pair = some p → j.code ≠ none) ∧
        (s.on CIP_STATUS_ERASING = false → ∀ j ∈ t.cip.jobs, j.code ≠ none)) ∧
  (∀ s a n, s.unitDark .cip = false → s.on CIP_STATUS_ERASING = false →
    Gives (exec (.cipAlarmInput a n) s) fun t =>
      (t.f CIP_ALARM_CAUSE).testBit (alarmBit a) = true ∧ t.on CIP_STATUS_ERASING = true ∧
        t.cip.eraseEnd = some (s.now + 20000) ∧ t.cip.derivs = [] ∧ ∀ j ∈ t.cip.jobs, j.code ≠ none) ∧
  (∀ s e, s.unitDark .cip = false → s.cip.eraseEnd = some e → s.cip.keyOps = [] → s.cip.inlines = [] → s.cip.frames = [] →
      s.shf.tagging = [] → (∀ p, p < 8 → (s.ethPort p).hold = []) →
    Gives (exec .cipErase s) fun t =>
      t.now = max s.now e ∧ t.cip.table = [] ∧ t.cip.derived = [] ∧ t.cip.eraseEnd = none ∧
        t.on CIP_STATUS_ERASING = false ∧ t.w CIP_CNT_ERASE = (s.w CIP_CNT_ERASE + 1) % 2 ^ 48) ∧
  (∀ s, s.unitDark .cip = false →
    ((s.monitors .entropy = false ∨ (s.ladder .cipher).out = true) → Gives (exec .rngHealthFail s) fun t =>
      t.on CIP_STATUS_RNG_FAIL = true ∧ (t.f CIP_ALARM_CAUSE).testBit 4 = true ∧ t.cip.table = s.cip.table) ∧
    (s.monitors .entropy = true → Gives (exec .rngHealthFail s) fun t =>
      t.on (degBit .cipher) = true ∧ Standing.mk .entropy .cipher ∈ t.asy.standing) ∧
    (Gives (exec .rngHealthPass s) fun t => t.on CIP_STATUS_RNG_FAIL = false))

/-- R320 to R325, R329, R332: the key commands, and the programming of a root. -/
def Obligations.CipherKeyCommandsComplete : Prop :=
  (∀ s req, s.accepts keyCmd req = true → s.on CIP_STATUS_ERASING = false →
    (∀ (i : BitVec 12) k256, ringIndex i.toNat = true → s.rootOk 0 = true →
      Gives (exec (.cipKeyInstall req i k256) s) fun t =>
        (t.cip.table.look i.toNat).map (·.level) = some s.bufLevel ∧
          (∀ kek, (s.deriveNow s.kekTag).2 = some kek → (t.cip.table.look i.toNat).map (·.wrapped) =
            some (keyWrap kek (s.regBytes (CIP_KEY_BUF_KEY_W 0).addr (if k256 then 32 else 16)))) ∧
          (∀ k, k < 25 → t.rd ((CIP_KEY_BUF_KEY_W 0).addr + 4 * k) = 0) ∧ t.ended keyCmd.addr 0) ∧
    (∀ i : BitVec 12, ringIndex i.toNat = true →
      Gives (exec (.cipKeyRemove req i) s) fun t => t.cip.table.look i.toNat = none ∧ t.ended keyCmd.addr 0) ∧
    (∀ (i : BitVec 12) k256 (slot : BitVec 2), ringIndex i.toNat = true → 0 < s.f CIP_KEY_BUF_DESC_LEN →
        s.f CIP_KEY_BUF_DESC_LEN ≤ 64 →
        reservedLabel (s.regBytes (CIP_KEY_BUF_LABEL_W 0).addr (s.f CIP_KEY_BUF_DESC_LEN)) = false →
        (slot.toNat < 2 ∨ req.level = .vendor) → req.level ≠ .guest → s.rootOk slot.toNat = true → s.rootOk 0 = true →
      Gives (exec (.cipKeyDerive req i k256 slot) s) fun t =>
        (t.cip.table.look i.toNat).map (·.level) = some s.bufLevel ∧
          (∀ u key kek, s.deriveNow (s.cipTag slot.toNat (if k256 then 256 else 128)
              (s.regBytes (CIP_KEY_BUF_LABEL_W 0).addr (s.f CIP_KEY_BUF_DESC_LEN))) = (u, some key) →
            (u.deriveNow s.kekTag).2 = some kek →
            (t.cip.table.look i.toNat).map (·.wrapped) = some (keyWrap kek key)) ∧ t.ended keyCmd.addr 0) ∧
    (∀ slot : BitVec 2, req.level = .vendor → Gives (exec (.evictSlot req slot) s) fun t =>
      (∀ d ∈ t.cip.derived, d.tag.slot = slot.toNat → d.evict = true ∧ t.derivedUsed d.tag = true) ∧ t.ended keyCmd.addr 0) ∧
    (∀ n, Gives (exec (.cipKeyErase req n) s) fun t =>
      t.on CIP_STATUS_ERASING = true ∧ t.cip.keyOps = s.cip.keyOps ++ [.erase] ∧ t.f (cmdState keyCmd.addr) = 1 ∧
        t.cip.eraseEnd = some (s.now + 20000))) ∧
  (∀ s req (slot : BitVec 2) (bank : Bool), s.accepts rootCmd req = true → s.on TOP_LOCK_BOOT = false →
      (s.f CIP_ROOT_STAT_PROG).testBit (2 * slot.toNat + bank.toNat) = false →
    Gives (exec (.rootProgram req slot bank true) s) fun t =>
      t.cip.roots.look (2 * slot.toNat + bank.toNat) = some (s.regBytes (CIP_ROOT_BUF_W 0).addr 32) ∧
        (t.f CIP_ROOT_STAT_PROG).testBit (2 * slot.toNat + bank.toNat) = true ∧
        (∀ k, k < 8 → t.rd ((CIP_ROOT_BUF_W 0).addr + 4 * k) = 0) ∧ t.ended rootCmd.addr 0)

/-! ### Wired ports (spec/14) -/

/-- R333 to R337, R343, R346 to R349, R352: links, reception, pauses, low-power idle, verification and time stamps. R334, R337,
R342, R344, R348, R354, R355: frames on the wire, pauses that a port makes, and a port's guarded registers. -/
def Obligations.WiredPortRowsComplete : Prop :=
  ((∀ s (p : BitVec 3) (x : EthRx), s.unitDark .eth = false → (s.ethPort p.toNat).cur = none → s.linkUp p.toNat = true →
      60 ≤ x.data.length → x.data.length + 4 ≤ s.maxLen p.toNat → x.smd = .express → beAt x.data 12 2 ≠ 0x8808 → x.errs = [] →
    let q := if s.on (ETH_PORT_PREEMPT_EN p.toNat) then s.f (ETH_PORT_Q_EXP_Q p.toNat) else s.f (ETH_PORT_Q_RX_Q p.toNat)
    (s.dom .wire = .up → (∀ n, n < 8 → (s.ethPort n).hold = []) → s.macsecOn p.toNat = false → x.check = .fcs true →
        s.toShelf p.toNat x.data = false → s.refuses q = false → (s.quire q).opened = none →
        s.cellsFit q (max 1 (cellsFor x.data.length)) = true →
      Gives (exec (.ethFrameRx p x) s) fun t =>
        (t.pkt s.pkb.next).map (fun k => (k.data, k.good, k.quire)) = some (x.data, true, q) ∧
          t.w (ETH_CNT_RX_OK p.toNat) = (s.w (ETH_CNT_RX_OK p.toNat) + 1) % 2 ^ 48) ∧
    (s.dom .wire = .low → s.heldBytes p.toNat + x.data.length + 4 ≤ 98304 →
      Gives (exec (.ethFrameRx p x) s) fun t =>
        t.dom .wire = .waking ∧ (t.ethPort p.toNat).hold.map (·.data) = (s.ethPort p.toNat).hold.map (·.data) ++ [x.data])) ∧
  (∀ s (p : BitVec 3) (x : EthRx) (f : BitVec 2), s.unitDark .eth = false → (s.ethPort p.toNat).cur = none →
      s.linkUp p.toNat = true → s.dom .wire = .low → s.on (ETH_PORT_PREEMPT_EN p.toNat) = true → x.check = .mcrc true →
    (x.smd = .start f → (s.ethPort p.toNat).asm = none → Gives (exec (.ethFrameRx p x) s) fun t =>
      (t.ethPort p.toNat).asm =
        some { frame := f.toNat, count := 0, data := x.data, stamp := (s.lt + 2 ^ 64 - x.ago.toNat) % 2 ^ 64 }) ∧
    (∀ a (c : BitVec 2), x.smd = .cont f c → (s.ethPort p.toNat).asm = some a →
      (a.frame = f.toNat → a.count = c.toNat → Gives (exec (.ethFrameRx p x) s) fun t =>
        (t.ethPort p.toNat).asm = some { a with count := (a.count + 1) % 4, data := a.data ++ x.data }) ∧
      (¬(a.frame = f.toNat ∧ a.count = c.toNat) → Gives (exec (.ethFrameRx p x) s) fun t =>
        (t.ethPort p.toNat).asm = none ∧ t.w (ETH_CNT_FRAG_ERR p.toNat) = (s.w (ETH_CNT_FRAG_ERR p.toNat) + 1) % 2 ^ 48))) ∧
  (∀ s (p : BitVec 3), s.unitDark .eth = false → (s.ethPort p.toNat).cur = none → s.linkUp p.toNat = true →
    (∀ quanta : BitVec 16, s.fcMode p.toNat = 1 → quanta ≠ 0 → Gives (exec (.pauseRx p quanta) s) fun t =>
      (t.ethPort p.toNat).pauses.look 8 = some (s.now + s.bitNs p.toNat (512 * quanta.toNat)) ∧
        t.on (ETH_PORT_STAT_PAUSED p.toNat) = true) ∧
    (∀ (enable : BitVec 8) (quanta : List (BitVec 16)) i, s.fcMode p.toNat = 2 → i < 8 → enable.toNat.testBit i = true →
        ((quanta.map (·.toNat)).getD i 0) ≠ 0 →
      Gives (exec (.pfcRx p enable quanta) s) fun t =>
        (t.ethPort p.toNat).pauses.look i = some (s.now + s.bitNs p.toNat (512 * (quanta.map (·.toNat)).getD i 0)) ∧
          (t.f (ETH_PORT_STAT_PFC p.toNat)).testBit i = true) ∧
    (∀ i e, (s.ethPort p.toNat).pauses = [(i, e)] → Gives (exec (.pauseTimerExpire p) s) fun t =>
      t.now = max s.now e ∧ (t.ethPort p.toNat).pauses = [] ∧ t.on (ETH_PORT_STAT_PAUSED p.toNat) = false) ∧
    (Gives (exec (.linkDown p) s) fun t =>
      t.linkUp p.toNat = false ∧ (t.ethPort p.toNat).buffer = [] ∧ (t.ethPort p.toNat).stamps = (s.ethPort p.toNat).stamps) ∧
    (Gives (exec (.lpiEnter p .rx) s) fun t => t.on (ETH_PORT_STAT_LPI_RX p.toNat) = true) ∧
    (Gives (exec (.lpiExit p .rx) s) fun t => t.on (ETH_PORT_STAT_LPI_RX p.toNat) = false) ∧
    (s.on (ETH_PORT_EEE_EN p.toNat) = true → portIdle (s.ethPort p.toNat) = true →
        s.on (ETH_PORT_STAT_LPI_TX p.toNat) = false →
      Gives (exec (.lpiEnter p .tx) s) fun t =>
        t.now = max s.now ((s.ethPort p.toNat).idleSince + 1000 * max 1 (s.f (ETH_PORT_EEE_IDLE p.toNat))) ∧
          t.on (ETH_PORT_STAT_LPI_TX p.toNat) = true)) ∧
  (∀ s (p : BitVec 3) speed, s.unitDark .eth = false → s.linkUp p.toNat = false → s.on (ETH_PORT_CFG_EN p.toNat) = true →
      s.ready .eth = true → s.f (ETH_PORT_CFG_MODE p.toNat) ≤ 3 → (s.f (ETH_PORT_CFG_MODE p.toNat) = 0 → p.toNat < 4) →
    Gives (exec (.linkUp p speed) s) fun t =>
      t.linkUp p.toNat = true ∧ (t.ethPort p.toNat).free = s.now ∧ (t.ethPort p.toNat).idleSince = s.now) ∧
  (∀ s (p : BitVec 3), s.unitDark .eth = false → s.on (ETH_PORT_STAT_LPI_TX p.toNat) = true →
      portIdle (s.ethPort p.toNat) = false →
    Gives (exec (.lpiExit p .tx) s) fun t =>
      t.on (ETH_PORT_STAT_LPI_TX p.toNat) = false ∧
        (t.ethPort p.toNat).free = s.now + 100 * max 50 (s.f (ETH_PORT_EEE_TW p.toNat))) ∧
  (∀ s (p : BitVec 3), s.unitDark .eth = false → s.f (ETH_PORT_STAT_VERIFY p.toNat) = 1 →
    ((s.ethPort p.toNat).tries = 0 → Gives (exec (.verifySend p) s) fun t =>
      (t.ethPort p.toNat).tries = 1 ∧ t.eth.sent = { port := p.toNat, start := s.now, offset := 0, data := [], last := true,
                                                     verify := true } :: s.eth.sent) ∧
    (3 ≤ (s.ethPort p.toNat).tries → Gives (exec (.verifySend p) s) fun t => t.f (ETH_PORT_STAT_VERIFY p.toNat) = 3) ∧
    (Gives (exec (.verifyResponseRx p) s) fun t =>
      t.f (ETH_PORT_STAT_VERIFY p.toNat) = 2 ∧ t.on (ETH_PORT_STAT_PREEMPT p.toNat) = true)) ∧
  (∀ s req (p : BitVec 3) lt seq typ dom rest, s.admits .eth .operator req = true →
      (s.ethPort p.toNat).stamps = (lt, seq, typ, dom) :: rest →
    Gives (exec (.tsFifoRead req p) s) fun t =>
      t.readData = BitVec.ofNat 32 lt ∧ (t.ethPort p.toNat).stamps = rest ∧
        t.hold.look ((ETH_TS_FIFO_LT p.toNat).addr + 4) = some (BitVec.ofNat 32 (lt / 2 ^ 32)) ∧
        t.hold.look ((ETH_TS_FIFO_LT p.toNat).addr + 12) = some (BitVec.ofNat 32 (2 ^ 31)))) ∧
  ((∀ s (p : BitVec 3), s.unitDark .eth = false → (s.ethPort p.toNat).cur = none → s.linkUp p.toNat = true →
      s.on (ETH_PORT_STAT_LPI_TX p.toNat) = false →
    (∀ d rest errs, (s.ethPort p.toNat).ctrl = d :: rest → Gives (exec (.ethFrameSend p errs) s) fun t =>
      t.now = max s.now (s.ethPort p.toNat).free ∧ (t.ethPort p.toNat).ctrl = rest ∧
        (t.ethPort p.toNat).cur = some { data := d, pcp := 7, start := t.now,
                                         ends := t.now + s.bitNs p.toNat (8 * (8 + d.length + 4)), ctrl := true }) ∧
    (∀ n f, s.ethNext p.toNat = .frame n f → s.macsecOn p.toNat = false →
      (ptpEvent f.data = none → Gives (exec (.ethFrameSend p []) s) fun t =>
        t.now = max s.now (s.ethPort p.toNat).free ∧
          (t.ethPort p.toNat).buffer = (s.ethPort p.toNat).buffer.eraseIdx n ∧
          (t.ethPort p.toNat).cur.map (fun c => (c.data, c.start, c.before, c.badFcs)) = some (f.data, t.now, 0, false)) ∧
      (∀ e : WordErr, e.err.tags = true → 32 * e.word.toNat < f.data.length →
        Gives (exec (.ethFrameSend p [e]) s) fun t =>
          (t.ethPort p.toNat).cur.map (fun c => (c.start, c.badFcs)) = some (t.now, true))) ∧
    (∀ c errs, s.ethNext p.toNat = .resume c → Gives (exec (.ethFrameSend p errs) s) fun t =>
      (t.ethPort p.toNat).cut = none ∧
        (t.ethPort p.toNat).cur.map (fun x => (x.data, x.start, x.before)) = some (c.data, t.now, c.before))) ∧
  (∀ s (p : BitVec 3) c n, s.unitDark .eth = false → (s.ethPort p.toNat).cur = some c → s.now < c.ends →
      (s.ethPort p.toNat).pend = [] → n = max (s.octetsSent p.toNat c) (64 * (1 + s.f (ETH_PORT_PREEMPT_ADDFRAG p.toNat)) - 4) →
      c.preemptable = true → s.on (ETH_PORT_STAT_PREEMPT p.toNat) = true → s.cutWanted p.toNat c.pcp = true →
      c.before + n + 64 ≤ c.data.length + 4 →
    Gives (exec (.preemptFragmentEnd p) s) fun t =>
      t.now = max s.now (c.start + s.bitNs p.toNat (8 * (8 + n + 4))) ∧ (t.ethPort p.toNat).cur = none ∧
        (t.ethPort p.toNat).cut = some { c with before := c.before + n } ∧
        t.eth.sent = { port := p.toNat, start := c.start, offset := c.before, data := (c.data.drop c.before).take n,
                       last := false } :: s.eth.sent) ∧
  (∀ s (p : BitVec 3), s.unitDark .eth = false → s.linkUp p.toNat = true → s.fcMode p.toNat ≠ 0 →
    ((s.ethPort p.toNat).xoff = false → s.f (ETH_PORT_FC_THR_XOFF p.toNat) ≤ s.portCells p.toNat →
      Gives (exec (.xoffReached p) s) fun t =>
        (t.ethPort p.toNat).xoff = true ∧ (t.ethPort p.toNat).ctrl.length = (s.ethPort p.toNat).ctrl.length + 1 ∧
          (t.ethPort p.toNat).pausedAt = s.now) ∧
    ((s.ethPort p.toNat).xoff = true → s.f (ETH_PORT_FC_THR_XON p.toNat) ≤ s.portCells p.toNat →
      Gives (exec (.pauseRepeat p) s) fun t =>
        t.now = max s.now ((s.ethPort p.toNat).pausedAt + s.bitNs p.toNat (256 * s.f (ETH_PORT_FC_QUANTA p.toNat))) ∧
          (t.ethPort p.toNat).ctrl.length = (s.ethPort p.toNat).ctrl.length + 1 ∧ (t.ethPort p.toNat).pausedAt = t.now) ∧
    ((s.ethPort p.toNat).xoff = true → s.portCells p.toNat < s.f (ETH_PORT_FC_THR_XON p.toNat) →
      Gives (exec (.xonReached p) s) fun t =>
        (t.ethPort p.toNat).xoff = false ∧ (t.ethPort p.toNat).ctrl.length = (s.ethPort p.toNat).ctrl.length + 1)) ∧
  (∀ s req (p : BitVec 3) (v : BitVec 32), s.admits .eth .operator req = true → (s.ethPort p.toNat).cur = none →
    ((s.on (ETH_PORT_CFG_EN p.toNat) = true →
        bitsOf v 30 28 = s.f (ETH_PORT_CFG_MODE p.toNat) ∧ bitsOf v 27 27 = s.f (ETH_PORT_CFG_FEC p.toNat)) →
      bitsOf v 30 28 ≤ 3 → (bitsOf v 30 28 = 0 → p.toNat < 4) →
      Gives (exec (.ethPortCfgWrite req p v) s) fun t =>
        t.rd (ETH_PORT_CFG_EN p.toNat).addr = v &&& 0xF8003FFF ∧ (v.getLsbD 31 = false → t.linkUp p.toNat = false)) ∧
    ((v.getLsbD 31 = false ∨ s.f (ETH_PORT_Q_EXP_Q p.toNat) ≠ s.f (ETH_PORT_Q_RX_Q p.toNat)) →
      Gives (exec (.preemptEnWrite req p v) s) fun t =>
        t.rd (ETH_PORT_PREEMPT_EN p.toNat).addr = v &&& 0xF000FFFF)) ∧
  (∀ s req (p : BitVec 2) (c : BitVec 4) (a : BitVec 2), s.accepts (saCmd p.toNat) req = true →
    (s.noLane = false → s.on CIP_STATUS_ERASING = false → s.rootOk 0 = true → Gives (exec (.saInstall req p c a) s) fun t =>
      (t.eth.sas.look (saIndex p.toNat c.toNat a.toNat)).isSome = true ∧
        (t.cip.table.look (saEntry p.toNat c.toNat a.toNat)).isSome = true ∧
        (∀ kek, (s.deriveNow s.kekTag).2 = some kek → (t.cip.table.look (saEntry p.toNat c.toNat a.toNat)).map (·.wrapped) =
          some (keyWrap kek ((s.regBytes (ETH_SA_BUF_W0 p.toNat).addr 64).take
            (if s.on (ETH_MACSEC_KEY256 p.toNat) then 32 else 16)))) ∧
        (∀ k, k < 16 → t.rd ((ETH_SA_BUF_W0 p.toNat).addr + 4 * k) = 0) ∧ t.ended (saCmd p.toNat).addr 0) ∧
    (Gives (exec (.saRemove req p c a) s) fun t =>
      t.eth.sas.look (saIndex p.toNat c.toNat a.toNat) = none ∧
        t.cip.table.look (saEntry p.toNat c.toNat a.toNat) = none ∧ t.ended (saCmd p.toNat).addr 0) ∧
    (c = 0 → Gives (exec (.saSetTx req p c a) s) fun t =>
      t.f (ETH_MACSEC_TX_AN p.toNat) = a.toNat ∧ t.ended (saCmd p.toNat).addr 0)))

/-! ### The DRAM controller (spec/15) -/

/-- R360 to R363, R369: requests, their order, forwarding, completion, the scrubber and a missing strobe. R364 to R368: temper
passes, retraining and refresh. -/
def Obligations.DramRowsComplete : Prop :=
  ((∀ s (source : BitVec 5) (addr : BitVec 33) (words : BitVec 5) data a r, s.unitDark .drc = false → a = addr.toNat →
      a % 32 = 0 → 1 ≤ words.toNat → a % 512 + 32 * words.toNat ≤ 512 →
      r = ({ id := s.drc.next, source := source.toNat, cls := s.f (DRC_SRC_CLASS source.toNat), addr := a,
             words := words.toNat, data := data, since := s.now } : DrcReq) →
      (∀ d, data = some d → d.length = 32 * words.toNat) →
    (dramLimit < a + 32 * words.toNat → Gives (exec (.dramRequest source addr words data) s) fun t =>
      t.drc.done = { id := r.id, source := r.source, ok := false, data := [] } :: s.drc.done ∧ t.drc.chans = s.drc.chans) ∧
    (a + 32 * words.toNat ≤ dramLimit → s.dramUp = false → Gives (exec (.dramRequest source addr words data) s) fun t =>
      t.drc.done = { id := r.id, source := r.source, ok := false, data := [] } :: s.drc.done ∧ t.drc.chans = s.drc.chans) ∧
    (a + 32 * words.toNat ≤ dramLimit → s.dramUp = true →
        (∀ c, c < 4 → ∀ k ∈ (s.drcCh c).stalled, k.source ≠ source.toNat) →
      (data = none → Gives (exec (.dramRequest source addr words none) s) fun t =>
        (∀ c, (t.drcCh c).reads = (s.drcCh c).reads ++ (drcParts r).filter fun x => decide (dramChannel x.addr = c)) ∧
          t.drc.done = s.drc.done) ∧
      (data ≠ none → (∀ c, c < 4 → (s.drcCh c).writes.length + (drcParts r).length ≤ 64) →
        Gives (exec (.dramRequest source addr words data) s) fun t =>
          (∀ c, (t.drcCh c).writes = (s.drcCh c).writes ++ (drcParts r).filter fun x => decide (dramChannel x.addr = c)) ∧
            t.drc.done = s.drc.done) ∧
      (data ≠ none → words.toNat ≤ 8 - a / 32 % 8 → 64 ≤ (s.drcCh (dramChannel a)).writes.length →
        Gives (exec (.dramRequest source addr words data) s) fun t =>
          (t.drcCh (dramChannel a)).stalled = (s.drcCh (dramChannel a)).stalled ++ [r] ∧
            t.w DRC_CNT_WQ_FULL = (s.w DRC_CNT_WQ_FULL + 1) % 2 ^ 48))) ∧
  (∀ s (c : BitVec 2) r, s.unitDark .drc = false → (s.drcCh c.toNat).reads = [r] → (s.drcCh c.toNat).writes = [] →
      r.aged = false →
    Gives (exec (.requestAged c) s) fun t =>
      t.now = max s.now (r.since + 8 * max 1 (s.f DRC_CTL_AGE)) ∧ (t.drcCh c.toNat).reads = [{ r with aged := true }]) ∧
  (∀ s (c : BitVec 2) word r, s.unitDark .drc = false → s.dramUp = true → s.nextRead c.toNat = some r → r.words = 1 →
      r.data = none →
    (forwardOf (s.drcCh c.toNat).writes r.source r.id r.addr = none →
        wgcDecode (s.dram.codeword r.addr) = .correct →
      Gives (exec (.dramReadComplete c word []) s) fun t =>
        t.drc.done = { id := r.id, source := r.source, ok := true, data := s.dram.bytes r.addr 32 } :: s.drc.done ∧
          (t.drcCh c.toNat).reads = (s.drcCh c.toNat).reads.filter (fun x => decide (x ≠ r)) ∧ t.dram = s.dram) ∧
    (∀ d upset, forwardOf (s.drcCh c.toNat).writes r.source r.id r.addr = some d →
      Gives (exec (.dramReadComplete c word upset) s) fun t =>
        t.drc.done = { id := r.id, source := r.source, ok := true, data := d } :: s.drc.done ∧
          t.w DRC_CNT_FORWARD = (s.w DRC_CNT_FORWARD + 1) % 2 ^ 48)) ∧
  (∀ s (c : BitVec 2) r, s.unitDark .drc = false → s.dramUp = true → s.nextRead c.toNat = some r → r.addr < dramLimit →
    Gives (exec (.strobeTimeout c) s) fun t =>
      t.on DRC_STATUS_FROZEN = true ∧ t.ready .drc = false ∧ t.f DRC_FREEZE_CAUSE_CAUSE = 2 ∧
        t.f DRC_FREEZE_CAUSE_SOURCE = r.source % 32 ∧ t.w DRC_FREEZE_ADDR_ADDR = r.addr / 32 * 32 ∧
        (∀ n, n < 4 → (t.drcCh n).reads = [] ∧ (t.drcCh n).writes = [] ∧ (t.drcCh n).stalled = []) ∧
        { id := r.id, source := r.source, ok := false, data := [] } ∈ t.drc.done) ∧
  (∀ s (c : BitVec 2) r d, s.unitDark .drc = false → s.dramUp = true → s.nextWrite c.toNat = some r → r.data = some d →
      (s.drcCh c.toNat).stalled = [] →
    Gives (exec (.wqEntryFreed c) s) fun t =>
      t.dram = s.dram.setDram r.addr d ∧ (r.addr + d.length ≤ dramLimit → t.dram.bytes r.addr d.length = d) ∧
        (t.drcCh c.toNat).writes = (s.drcCh c.toNat).writes.filter (fun x => decide (x ≠ r)) ∧
        t.drc.done = { id := r.id, source := r.source, ok := true, data := [] } :: s.drc.done) ∧
  (∀ s, s.unitDark .drc = false → s.dramUp = true → s.f DRC_CTL_SCRUB ≠ 0 →
      wgcDecode (s.dram.codeword (32 * s.drc.scrubWord)) = .correct →
    Gives (exec (.dramScrub []) s) fun t =>
      t.now = max s.now (s.drc.scrubTime + s.f DRC_CTL_SCRUB * 3600000000000 / 238551040) ∧ t.drc.scrubTime = t.now ∧
        t.drc.scrubWord = (s.drc.scrubWord + 1) % 238551040 ∧ t.dram = s.dram)) ∧
  ((∀ s (c : BitVec 2), s.unitDark .drc = false → s.dramUp = true →
    (Gives (exec (.temperDue c) s) fun t =>
      t.now = max s.now ((s.drcCh c.toNat).temperAt + 100000000) ∧ (t.drcCh c.toNat).temperDue = true ∧
        (t.drcCh c.toNat).temperAt = t.now) ∧
    (∀ util : BitVec 6, s.on (DRC_CH_STAT_LOAD c.toNat) = false → busyUtil util.toNat = true →
        (s.drcCh c.toNat).loadDue = none →
      Gives (exec (.loadTemperDue c util) s) fun t =>
        (t.drcCh c.toNat).loadDue = some s.now ∧ t.on (DRC_CH_STAT_GUARD c.toNat) = true ∧
          t.f (DRC_CH_STAT_UTIL c.toNat) = util.toNat) ∧
    (∀ (b : Bool) (util : BitVec 6) narrow, (s.drcCh c.toNat).temperDue = false → (s.drcCh c.toNat).loadDue = none →
      (s.subWaits c.toNat b.toNat = false → Gives (exec (.refreshDue c b util narrow) s) fun t =>
        t.now = max s.now (gridOf (s.drcCh c.toNat) b.toNat) ∧ owedOf (t.drcCh c.toNat) b.toNat = [] ∧
          gridOf (t.drcCh c.toNat) b.toNat = gridOf (s.drcCh c.toNat) b.toNat + s.tRefi c.toNat b.toNat ∧
          t.f (DRC_CH_STAT_UTIL c.toNat) = util.toNat) ∧
      (s.subWaits c.toNat b.toNat = true → (owedOf (s.drcCh c.toNat) b.toNat).length < s.owedMax c.toNat b.toNat →
        Gives (exec (.refreshDue c b util narrow) s) fun t =>
          owedOf (t.drcCh c.toNat) b.toNat = owedOf (s.drcCh c.toNat) b.toNat ++ [gridOf (s.drcCh c.toNat) b.toNat] ∧
            t.w DRC_CNT_POSTPONED = (s.w DRC_CNT_POSTPONED + 1) % 2 ^ 48)) ∧
    (∀ (t0 t1 : BitVec 8), 85 ≤ t0.toInt → 85 ≤ t1.toInt →
      Gives (exec (.dieTempRead c t0 t1) s) fun t =>
        t.now = max s.now ((s.drcCh c.toNat).tempAt + 1000000) ∧
          t.f (DRC_CH_STAT_TEMP c.toNat) = max t0.toNat t1.toNat ∧ t.rate2x c.toNat 0 = true ∧ t.rate2x c.toNat 1 = true)) ∧
  (∀ s (c : BitVec 2) t0, s.unitDark .drc = false → (s.drcCh c.toNat).loadDue = some t0 →
    Gives (exec (.loadTemperDeadline c) s) fun t =>
      t.now = max s.now (t0 + 50000000) ∧ (t.drcCh c.toNat).loadForced = true) ∧
  (∀ s req (c : BitVec 2), s.accepts drcCmd req = true → s.on DRC_STATUS_FROZEN = false →
    (Gives (exec (.drcRetrain req c) s) fun t =>
      t.f (cmdState drcCmd.addr) = 1 ∧ t.f DRC_CMD_OP = 1 ∧ t.f DRC_CMD_CHANNEL = c.toNat ∧
        (t.retraining c.toNat = true ∨ (t.drcCh c.toNat).retrain = true)) ∧
    (Gives (exec (.drcTemper req c) s) fun t =>
      t.f (cmdState drcCmd.addr) = 1 ∧ t.f DRC_CMD_OP = 2 ∧ t.f DRC_CMD_CHANNEL = c.toNat ∧
        (t.drcCh c.toNat).temperDue = true)) ∧
  (∀ s (c : BitVec 2), s.unitDark .drc = false → s.retraining c.toNat = true → s.on DRC_STATUS_FROZEN = false →
    ((∀ n, n < 4 → (s.drcCh n).retrain = false) → Gives (exec (.retrainDone c true) s) fun t =>
      t.f DRC_STATUS_RETRAINING = 0 ∧ t.f (DRC_CH_STAT_TRAIN_TEMP c.toNat) = s.f (DRC_CH_STAT_TEMP c.toNat) ∧
        t.w DRC_CNT_RETRAIN = (s.w DRC_CNT_RETRAIN + 1) % 2 ^ 48 ∧
        (s.f DRC_CMD_STATE = 1 → s.f DRC_CMD_OP = 1 → s.f DRC_CMD_CHANNEL = c.toNat → t.ended drcCmd.addr 0)) ∧
    (Gives (exec (.retrainDone c false) s) fun t =>
      t.on DRC_STATUS_FROZEN = true ∧ t.f DRC_FREEZE_CAUSE_CAUSE = 4 ∧ t.asy.replaceNvm = some Monitor.dramFreeze.row)) ∧
  (∀ s (c : BitVec 2) (b : Bool) d rest, s.unitDark .drc = false → owedOf (s.drcCh c.toNat) b.toNat = d :: rest →
    Gives (exec (.refreshWindowClose c b) s) fun t =>
      t.now = max s.now (d + s.owedMax c.toNat b.toNat * s.tRefi c.toNat b.toNat) ∧ owedOf (t.drcCh c.toNat) b.toNat = rest) ∧
  (∀ s (c : BitVec 2) (b : Bool), s.unitDark .drc = false → s.on DRC_STATUS_FROZEN = false →
    Gives (exec (.dieErrorFlag c b) s) fun t =>
      t.on DRC_STATUS_FROZEN = true ∧ t.f DRC_FREEZE_CAUSE_CAUSE = 2 ∧ t.f DRC_FREEZE_CAUSE_CHANNEL = c.toNat ∧
        t.f DRC_FREEZE_CAUSE_SUB = b.toNat) ∧
  (∀ s t0, s.asy.freezeHold = some t0 →
    (s.on DRC_STATUS_FROZEN = true → exec .freezeHoldExpire s =
      .next (({ s.reach (t0 + s.f DRC_FREEZE_CFG_HOLD * 1000000000) with asy.freezeHold := none } : State).rungStart
        .dram 3 false)) ∧
    (s.on DRC_STATUS_FROZEN = false → Gives (exec .freezeHoldExpire s) fun t =>
      t.asy.freezeHold = none ∧ t.now = s.now ∧ t.regs = s.regs)))

/-! ### Bodkin and Bodkin-P (spec/16) -/

/-- R381 to R383: the stack operations and the operations of one, two and three entries, on cores and parse engines, in slot A and
in slot B. -/
def Obligations.StackOperationRowsComplete : Prop :=
  (∀ s e, s.issues e = true → Gives (exec (.nop e) s) fun t => RanShort s t e (s.stackOf e) (s.stackOf e true) ∧ s.sameData t e) ∧
  (∀ s e (v : BitVec 9), s.issues e = true → (s.stackOf e).length < 16 → Gives (exec (.pushs e v) s) fun t =>
    RanShort s t e (v.signExtend 32 :: s.stackOf e) (s.stackOf e true) ∧ s.sameData t e) ∧
  (∀ s e (n : BitVec 4) v, s.issues e = true → (s.stackOf e).length < 16 → (s.stackOf e)[n.toNat]? = some v →
    Gives (exec (.pick e n) s) fun t => RanShort s t e (v :: s.stackOf e) (s.stackOf e true) ∧ s.sameData t e) ∧
  (∀ s e (a : Word) rest, s.issues e = true → s.stackOf e = a :: rest → rest.length < 15 →
    ∀ p ∈ [(Instr.dup e, [a, a]), (.drop e, []), (.not e, [~~~a]), (.neg e, [0 - a])],
      Gives (exec p.1 s) fun t => RanShort s t e (p.2 ++ rest) (s.stackOf e true) ∧ s.sameData t e) ∧
  (∀ s e (a b : Word) rest, s.issues e = true → s.stackOf e = b :: a :: rest → rest.length < 14 →
    ∀ p ∈ [(Instr.swap e, [a, b]), (.overCopy e, [a, b, a]), (.add e, [a + b]), (.sub e, [a - b]), (.and e, [a &&& b]),
        (.or e, [a ||| b]), (.xor e, [a ^^^ b]), (.mul e, [a * b]),
        (.mulhu e, [((a.zeroExtend 64 * b.zeroExtend 64) >>> 32).truncate 32]),
        (.mulhs e, [((a.signExtend 64 * b.signExtend 64) >>> 32).truncate 32]), (.eq e, [if a = b then 1 else 0]),
        (.lt e, [if a.slt b then 1 else 0]), (.ltu e, [if a.ult b then 1 else 0])],
      Gives (exec p.1 s) fun t => RanShort s t e (p.2 ++ rest) (s.stackOf e true) ∧ s.sameData t e) ∧
  (∀ s e (k : BitVec 5) (a : Word) rest, s.issues e = true → s.stackOf e = a :: rest → rest.length < 16 →
    ∀ p ∈ [(Instr.shl e false k, a <<< k.toNat), (.shr e false k, a >>> k.toNat), (.sar e false k, a.sshiftRight k.toNat)],
      Gives (exec p.1 s) fun t => RanShort s t e (p.2 :: rest) (s.stackOf e true) ∧ s.sameData t e) ∧
  (∀ s e (k : BitVec 5) (a n : Word) rest, s.issues e = true → s.stackOf e = n :: a :: rest → rest.length < 16 →
    ∀ p ∈ [(Instr.shl e true k, a <<< (n.toNat % 32)), (.shr e true k, a >>> (n.toNat % 32)),
        (.sar e true k, a.sshiftRight (n.toNat % 32))],
      Gives (exec p.1 s) fun t => RanShort s t e (p.2 :: rest) (s.stackOf e true) ∧ s.sameData t e) ∧
  (∀ s e (a b c : Word) rest, s.issues e = true → s.stackOf e = c :: b :: a :: rest → rest.length < 14 →
    ∀ p ∈ [(Instr.rot e, [a, c, b]), (.sel e, [if a = 0 then c else b])],
      Gives (exec p.1 s) fun t => RanShort s t e (p.2 ++ rest) (s.stackOf e true) ∧ s.sameData t e) ∧
  (∀ s (c : Fin 6), s.issues (.core c) = true → Gives (exec (.fence (.core c)) s) fun t =>
    RanShort s t (.core c) (s.stackOf (.core c)) (s.stackOf (.core c) true) ∧ s.sameData t (.core c))

/-- R379, R382, R383: the return stack and the control operations; RET, JMPS and CALLS stand in slot B. R384: the long
operations of the stack, and branches. -/
def Obligations.ReturnStackAndLongRowsComplete : Prop :=
  ((∀ s e v rest, s.issues e = true → s.stackOf e = v :: rest → (s.stackOf e true).length < returnRoom e →
    (Gives (exec (.toR e) s) fun t => RanShort s t e rest (v :: s.stackOf e true) ∧ s.sameData t e) ∧
      (s.inSlotB e = true → Gives (exec (.calls e) s) fun t =>
        Ran t e rest ((s.pcOf e + 1) :: s.stackOf e true) v false ∧ s.sameData t e)) ∧
  (∀ s e v rest, s.issues e = true → s.stackOf e true = v :: rest → rest.length < returnRoom e →
    ((s.stackOf e).length < 16 → (Gives (exec (.rFrom e) s) fun t => RanShort s t e (v :: s.stackOf e) rest ∧ s.sameData t e) ∧
      Gives (exec (.rFetch e) s) fun t => RanShort s t e (v :: s.stackOf e) (v :: rest) ∧ s.sameData t e) ∧
    (s.inSlotB e = true → Gives (exec (.ret e) s) fun t => Ran t e (s.stackOf e) rest v false ∧ s.sameData t e)) ∧
  (∀ s e v rest, s.issues e = true → s.inSlotB e = true → s.stackOf e = v :: rest →
    Gives (exec (.jmps e) s) fun t => Ran t e rest (s.stackOf e true) v false ∧ s.sameData t e) ∧
  (∀ s e (d : BitVec 20), s.issues e = true → s.inSlotB e = false → (s.stackOf e true).length < returnRoom e →
    Gives (exec (.call e d) s) fun t =>
      Ran t e (s.stackOf e) ((s.pcOf e + 1) :: s.stackOf e true) (s.pcOf e + 1 + d.signExtend 32) false ∧ s.sameData t e)) ∧
  ((∀ s e (n : BitVec 20), s.issues e = true → s.inSlotB e = false → (s.stackOf e).length < 16 →
    ∀ p ∈ [(Instr.push e n, n.signExtend 32), (.pushUpper e n, n.zeroExtend 32 <<< 12)],
      Gives (exec p.1 s) fun t => Ran t e (p.2 :: s.stackOf e) (s.stackOf e true) (s.pcOf e + 1) false ∧ s.sameData t e) ∧
  (∀ s e (n : BitVec 20) (a : Word) rest, s.issues e = true → s.inSlotB e = false → s.stackOf e = a :: rest → rest.length < 16 →
    ∀ p ∈ [(Instr.addi e n, a + n.signExtend 32), (.andi e n, a &&& n.signExtend 32), (.ori e n, a ||| n.zeroExtend 32),
        (.xori e n, a ^^^ n.zeroExtend 32), (.eqi e n, if a = n.signExtend 32 then 1 else 0),
        (.lti e n, if a.slt (n.signExtend 32) then 1 else 0), (.ltui e n, if a.ult (n.zeroExtend 32) then 1 else 0)],
      Gives (exec p.1 s) fun t => Ran t e (p.2 :: rest) (s.stackOf e true) (s.pcOf e + 1) false ∧ s.sameData t e) ∧
  (∀ s e (d : BitVec 20), s.issues e = true → s.inSlotB e = false →
    Gives (exec (.brAlways e d) s) fun t =>
      Ran t e (s.stackOf e) (s.stackOf e true) (s.pcOf e + 1 + d.signExtend 32) false ∧ s.sameData t e) ∧
  (∀ s e (d : BitVec 20) v rest, s.issues e = true → s.inSlotB e = false → s.stackOf e = v :: rest →
    (Gives (exec (.brZero e d) s) fun t =>
      Ran t e rest (s.stackOf e true) (if v = 0 then s.pcOf e + 1 + d.signExtend 32 else s.pcOf e + 1) false ∧ s.sameData t e) ∧
    (Gives (exec (.brNonzero e d) s) fun t =>
      Ran t e rest (s.stackOf e true) (if v ≠ 0 then s.pcOf e + 1 + d.signExtend 32 else s.pcOf e + 1) false ∧ s.sameData t e)))

/-- R374 to R376, R385: loads of a core from its local SRAM, the shared SRAM, DRAM and the registers. -/
def Obligations.LoadRowsComplete : Prop :=
  (∀ s (c : Fin 6) e k size (a : Word) rest (off : BitVec 20), e = .core c → k = coreKey c.val → s.issues e = true →
      s.stackOf e = a :: rest → rest.length < 16 →
      s.accessExc k false (a + off.signExtend 32).toNat size.bytes = none →
    let place := placeOf (s.core k).dwin (a + off.signExtend 32).toNat
    let both := fun (P : Bool → State → Prop) => (off = 0 → Gives (exec (.ld e size []) s) (P true)) ∧
      (s.inSlotB e = false → Gives (exec (.ldo e size off []) s) (P false))
    let ran := fun (short : Bool) (t : State) (v : Word) => t.stackOf e = v :: rest ∧ t.stackOf e true = s.stackOf e true ∧
      t.pcOf e = (if short && !s.inSlotB e then s.pcOf e else s.pcOf e + 1) ∧ s.sameMemories t
    (∀ o, place = .sram o → s.localBad k o = false → both fun short t =>
      ran short t (BitVec.ofNat 32 ((s.localMem k).le o size.bytes))) ∧
    (∀ o, place = .shared o → s.sharedBad (o / 32 * 32) 32 = false → both fun short t =>
      ran short t (BitVec.ofNat 32 (s.shared.le o size.bytes))) ∧
    (∀ d, place = .dram d → wgcDecode (s.dram.codeword (d / 32 * 32)) = .correct → both fun short t =>
      ran short t (BitVec.ofNat 32 (s.dram.le d size.bytes))) ∧
    (∀ x, place = .csr x → x ≠ PWR_WAIT_PEND.addr → both fun short t => ran short t t.readData)) ∧
  (∀ s (c : Fin 6) e k (g : BitVec 3) adv a o, e = .core c → k = coreKey c.val → s.issues e = true →
      (s.stackOf e).length < 16 → ((s.core k).ag g.toNat).address = some a →
      s.accessExc k false a ((s.core k).ag g.toNat).size.bytes = none → placeOf (s.core k).dwin a = .sram o →
      s.localBad k o = false →
    Gives (exec (.lda e g adv []) s) fun t =>
      RanShort s t e (BitVec.ofNat 32 ((s.localMem k).le o ((s.core k).ag g.toNat).size.bytes) :: s.stackOf e)
        (s.stackOf e true) ∧ ((t.core k).ag g.toNat) = ((s.core k).ag g.toNat).accessed adv ∧ s.sameData t e)

/-- R374, R375, R385: stores of a core to its local SRAM, the shared SRAM and DRAM: the bytes stored, and no other byte. -/
def Obligations.StoreRowsComplete : Prop :=
  (∀ s (c : Fin 6) e k size (a v : Word) rest (off : BitVec 20), e = .core c → k = coreKey c.val → s.issues e = true →
      s.stackOf e = a :: v :: rest →
      s.accessExc k true (a + off.signExtend 32).toNat size.bytes = none →
    let place := placeOf (s.core k).dwin (a + off.signExtend 32).toNat
    let both := fun (P : Bool → State → Prop) => (off = 0 → Gives (exec (.st e size) s) (P true)) ∧
      (s.inSlotB e = false → Gives (exec (.sto e size off) s) (P false))
    let ran := fun (short : Bool) (t : State) => t.stackOf e = rest ∧ t.stackOf e true = s.stackOf e true ∧
      t.pcOf e = (if short && !s.inSlotB e then s.pcOf e else s.pcOf e + 1)
    (∀ o, place = .sram o → both fun short t =>
      ran short t ∧ (t.localMem k).le o size.bytes = v.toNat % 256 ^ size.bytes ∧
        (∀ b, b < o ∨ o + size.bytes ≤ b → (t.localMem k).byte b = (s.localMem k).byte b) ∧
        t.shared = s.shared ∧ t.dram = s.dram) ∧
    (∀ o, place = .shared o → both fun short t =>
      ran short t ∧ t.shared.le o size.bytes = v.toNat % 256 ^ size.bytes ∧
        (∀ b, b < o ∨ o + size.bytes ≤ b → t.shared.byte b = s.shared.byte b) ∧
        t.dram = s.dram ∧ ∀ n, t.localMem n = s.localMem n) ∧
    (∀ d, place = .dram d → both fun short t =>
      ran short t ∧ t.dram.le d size.bytes = v.toNat % 256 ^ size.bytes ∧
        t.dram.bytes (checkAddr (d / 32 * 32)) 4 = wgcCheck (t.dram.bytes (d / 32 * 32) 32) ∧
        (∀ b, b < d ∨ d + size.bytes ≤ b → b < checkAddr (d / 32 * 32) ∨ checkAddr (d / 32 * 32) + 4 ≤ b →
          t.dram.byte b = s.dram.byte b) ∧
        t.shared = s.shared ∧ ∀ n, t.localMem n = s.localMem n)) ∧
  (∀ s (c : Fin 6) e k (g : BitVec 3) adv v rest a o, e = .core c → k = coreKey c.val → s.issues e = true →
      s.stackOf e = v :: rest → ((s.core k).ag g.toNat).address = some a →
      s.accessExc k true a ((s.core k).ag g.toNat).size.bytes = none → placeOf (s.core k).dwin a = .sram o →
    Gives (exec (.sta e g adv) s) fun t =>
      RanShort s t e rest (s.stackOf e true) ∧ ((t.core k).ag g.toNat) = ((s.core k).ag g.toNat).accessed adv ∧
        (t.localMem k).le o ((s.core k).ag g.toNat).size.bytes = v.toNat % 256 ^ ((s.core k).ag g.toNat).size.bytes ∧
        (∀ b, b < o ∨ o + ((s.core k).ag g.toNat).size.bytes ≤ b → (t.localMem k).byte b = (s.localMem k).byte b) ∧
        t.shared = s.shared ∧ t.dram = s.dram)

/-- R377, R380, R385: atomic operations, address generators and special registers. -/
def Obligations.CoreLongRowsComplete : Prop :=
  (∀ s (c : Fin 6) e k (a : Word) o, e = .core c → k = coreKey c.val → s.issues e = true → s.inSlotB e = false →
      s.atomicExc k a.toNat = none → a.toNat = 0x20000000 + o → s.bad.contains (UnitId.cpu, 1, o / 32) = false →
    let old := BitVec.ofNat 32 (s.shared.le o 4)
    let did := fun (t : State) (rest : List Word) (new : Word) =>
      Ran t e (old :: rest) (s.stackOf e true) (s.pcOf e + 1) false ∧ t.shared.le o 4 = new.toNat ∧
        (∀ b, b < o ∨ o + 4 ≤ b → t.shared.byte b = s.shared.byte b) ∧ t.dram = s.dram ∧ ∀ n, t.localMem n = s.localMem n
    (∀ v rest, s.stackOf e = a :: v :: rest → rest.length < 16 →
      (Gives (exec (.amoadd e []) s) fun t => did t rest (old + v)) ∧
        Gives (exec (.amoswap e []) s) fun t => did t rest v) ∧
    (∀ new expected rest, s.stackOf e = a :: new :: expected :: rest → rest.length < 16 →
      Gives (exec (.amocas e []) s) fun t => did t rest (if old = expected then new else old))) ∧
  (∀ s (c : Fin 6) e k (g f : BitVec 3), e = .core c → k = coreKey c.val → s.issues e = true → s.inSlotB e = false →
    (∀ v rest, f.toNat < 5 → s.stackOf e = v :: rest → Gives (exec (.agw e g f) s) fun t =>
      Ran t e rest (s.stackOf e true) (s.pcOf e + 1) false ∧
        ((t.core k).ag g.toNat) = ((s.core k).ag g.toNat).write f.toNat v ∧ s.sameData t e) ∧
    (∀ v, (s.stackOf e).length < 16 → ((s.core k).ag g.toNat).read f.toNat = some v →
      Gives (exec (.agr e g f) s) fun t => Ran t e (v :: s.stackOf e) (s.stackOf e true) (s.pcOf e + 1) false ∧ s.sameData t e) ∧
    (∀ n : BitVec 20, Gives (exec (.agadd e g n) s) fun t =>
      Ran t e (s.stackOf e) (s.stackOf e true) (s.pcOf e + 1) false ∧
        ((t.core k).ag g.toNat) = ((s.core k).ag g.toNat).moved n.toInt ∧ s.sameData t e)) ∧
  (∀ s (c : Fin 6) e k (r : BitVec 4), e = .core c → k = coreKey c.val → s.issues e = true → s.inSlotB e = false →
    ((s.stackOf e).length < 16 → Gives (exec (.srr e r) s) fun t =>
      Ran t e ((t.stackOf e).take 1 ++ s.stackOf e) (s.stackOf e true) (s.pcOf e + 1) false ∧
        (t.stackOf e).length = (s.stackOf e).length + 1 ∧
        (r ≠ 13 → r ≠ 14 → (t.stackOf e).head? = some (s.special k c.val r.toNat)) ∧
        (r = 13 → (t.stackOf e).head? = some (t.irqPend k))) ∧
    (∀ v rest, s.stackOf e = v :: rest → (s.core k).level = .vendor → r.toNat ≤ 12 → r.toNat ≠ 7 →
      Gives (exec (.srw e r) s) fun t =>
        Ran t e rest (s.stackOf e true) (s.pcOf e + 1) false ∧
          { t.core k with pend := 0 } =
            { (s.core k).setSpecial r.toNat v with stack := rest, pc := s.pcOf e + 1, slotA := none, pend := 0 }))

/-- R387 to R393, R401: SYS, BRK, reserved operations, RETX, interrupts, the RUN bits, a slot's budget and the safety pair. -/
def Obligations.ExceptionRowsComplete : Prop :=
  (∀ s (c : Fin 6) e k, e = .core c → k = coreKey c.val → s.issues e = true → (s.core k).exc = false →
    (∀ n : BitVec 20, s.inSlotB e = false → Gives (exec (.sys e n) s) fun t =>
      Trapped s t k 10 false ∧ (t.core k).eaddr = n.zeroExtend 32) ∧
    (s.inSlotB e = true → Gives (exec (.brk e) s) fun t => Trapped s t k 11 true) ∧
    (s.inSlotB e = false → Gives (exec (.brk e) s) fun t => Trapped s t k 0 false) ∧
    (Gives (exec (.illegal e) s) fun t => Trapped s t k 0 (s.inSlotB e))) ∧
  (∀ s (c : Fin 6) e k, e = .core c → k = coreKey c.val → s.issues e = true → s.inSlotB e = false →
      (s.core k).level = .vendor →
    Gives (exec (.retx e) s) fun t =>
      (t.core k).exc = false ∧ (t.core k).pc = (s.core k).epc ∧
        (t.core k).level = levelOf (bitsOf (s.core k).ecause 7 6) ∧ (t.core k).slot = bitsOf (s.core k).ecause 11 8 ∧
        (t.core k).slotA.isSome = (s.core k).ecause.getLsbD 5) ∧
  (∀ s (n : Fin 32) x, s.issues (.pe n) = true → s.pe n.val = some x →
    (s.inSlotB (.pe n) = true → Gives (exec (.brk (.pe n)) s) fun t => t.pe n.val = none) ∧
      Gives (exec (.illegal (.pe n)) s) fun t => t.pe n.val = none) ∧
  (∀ s (c : Fin 4), s.coreAble c.val = true → (s.core c.val).slotA = none → (s.core c.val).exc = false →
      s.irqReady c.val = true → (s.core c.val).rstack.length < 16 →
    Gives (exec (.interruptEntry c) s) fun t =>
      (t.core c.val).rstack = (s.core c.val).pc :: (s.core c.val).rstack ∧ (t.core c.val).epc = (s.core c.val).pc ∧
        (t.core c.val).level = .vendor ∧ (t.core c.val).exc = true ∧
        (t.core c.val).pc = BitVec.ofNat 32 ((s.f CPU_VBASE_BASE * 1024 + 0x200) / 4)) ∧
  (∀ s req (run : BitVec 4), s.admits .cpu .vendor req = true →
    Gives (exec (.coreRun req run) s) fun t =>
      t.f CPU_CTL_RUN = run.toNat ∧ ∀ c, c < 4 →
        (run.getLsbD c = true → (t.core c).pc = BitVec.ofNat 32 (s.vbase / 4) ∧ (t.core c).stack = [] ∧ t.on (haltBit c) = false) ∧
          (run.getLsbD c = false → s.bit CPU_CTL_RUN c = true → t.on (haltBit c) = true)) ∧
  (∀ s req (m : BitVec 4), s.admits .cpu .operator req = true →
    Gives (exec (.swiSet req m) s) fun t => t.f CPU_SWI_PEND_PEND = Nat.lor (s.f CPU_SWI_PEND_PEND) m.toNat) ∧
  (∀ s (c : Fin 4), s.coreAble c.val = true → (s.core c.val).level ≠ .vendor → s.f (CPU_SLOT_CTL_BUDGET (s.core c.val).slot) ≠ 0 →
      (s.core c.val).exc = false →
    Gives (exec (.slotBudgetExpire c) s) fun t => Trapped s t c.val 9 (s.core c.val).slotA.isSome) ∧
  (∀ s, s.coreRuns 4 = true → s.cfg.stage = 10 → s.asy.armed = true → s.cfg.testMode = false → s.ladder .assay = {} →
    Gives (exec .lockstepDifference s) fun t =>
      t.on (haltBit 4) = true ∧ t.on (haltBit 5) = true ∧ (t.f ASY_CAUSE_CAUSE).testBit 6 = true) ∧
  (∀ s (c : Fin 4), (s.core c.val).waiting = true → s.irqReady c.val = true →
    Gives (exec (.pwrWaitRelease c) s) fun t =>
      (t.core c.val).waiting = false ∧ (t.core c.val).stack = s.irqPend c.val :: (s.core c.val).stack.tail)

/-- R113 to R116, R123, R124, R394 to R397: the operations of the parse engines alone. -/
def Obligations.ParseOperationRowsComplete : Prop :=
  (∀ s (n : Fin 32) x p, s.issues (.pe n) 2 = true → s.inSlotB (.pe n) = false → s.pe n.val = some x → s.pkt x.pkt = some p →
    (∀ (size : BitVec 2) (off : BitVec 9), x.stack.length < 15 → windowEnd p off.toNat (2 ^ size.toNat) = none →
      let v := beNat ((p.data.drop (p.start + off.toNat)).take (2 ^ size.toNat))
      Gives (exec (.wld (.pe n) size false off []) s) fun t =>
        t.stackOf (.pe n) = (if size = 3 then [BitVec.ofNat 32 v, BitVec.ofNat 32 (v / 2 ^ 32)] else [BitVec.ofNat 32 v]) ++ x.stack ∧
          t.pcOf (.pe n) = s.pcOf (.pe n) + 1) ∧
    (∀ (size : BitVec 2) (b : BitVec 5), x.stack.length < 16 → size ≠ 3 → b.toNat + 2 ^ size.toNat ≤ 32 →
        wgcDecode (wgcEncode (headerSlot p)) = .correct →
      Gives (exec (.mld (.pe n) size b .none) s) fun t =>
        t.stackOf (.pe n) = BitVec.ofNat 32 (leNat (((headerSlot p).drop b.toNat).take (2 ^ size.toNat))) :: x.stack ∧
          t.pcOf (.pe n) = s.pcOf (.pe n) + 1)) ∧
  (∀ s (n : Fin 32) x, s.issues (.pe n) = true → s.inSlotB (.pe n) = false → s.pe n.val = some x →
    (∀ (pos len : BitVec 5) v rest, x.stack = v :: rest → rest.length < 16 → Gives (exec (.bext (.pe n) pos len) s) fun t =>
      t.stackOf (.pe n) = BitVec.ofNat 32 (v.toNat / 2 ^ pos.toNat % 2 ^ (len.toNat + 1)) :: rest ∧
        t.pcOf (.pe n) = s.pcOf (.pe n) + 1) ∧
    (∀ (code : BitVec 8) v rest, x.stack = v :: rest → layerCode code.toNat = true → x.layers.length < 12 →
      Gives (exec (.layer (.pe n) code) s) fun t =>
        (t.pe n.val).map (·.layers) = some (x.layers ++ [(code.toNat, v.toNat)]) ∧ t.stackOf (.pe n) = rest) ∧
    (∀ exact (len : BitVec 6) errs v rest, x.stack = v :: rest → len.toNat < 4 →
        len.toNat < (if exact then 48 - x.ekey.length else 64 - x.tkey.length) →
      Gives (exec (.key (.pe n) exact true len errs) s) fun t => t.stackOf (.pe n) = rest ∧
        (t.pe n.val).map (fun y => if exact then y.ekey else y.tkey) =
          some ((if exact then x.ekey else x.tkey) ++ natBe (len.toNat + 1) (v.toNat % 2 ^ (8 * (len.toNat + 1))))) ∧
    (∀ (cls : BitVec 3), cls = 2 ∨ cls = 5 → Gives (exec (.mal (.pe n) cls) s) fun t =>
      t.pe n.val = none ∧ t.w (malCounter cls.toNat) = (s.w (malCounter cls.toNat) + 1) % 2 ^ 48) ∧
    (∀ (i : BitVec 18), x.report = none → Gives (exec (.done (.pe n) i) s) fun t =>
      (t.pe n.val).map (·.final) = some (some (s.par.prog.le (8 * i.toNat) 8)))) ∧
  (∀ s (n : Fin 32) x p, s.issues (.pe n) = true → s.inSlotB (.pe n) = false → s.pe n.val = some x → s.pkt x.pkt = some p →
    (∀ (e : Word) rest, x.stack = e :: rest → x.lenchk = none → e.toNat ≤ p.data.length - p.start →
        p.data.length - p.start ≤ e.toNat + 63 →
      Gives (exec (.lenchk (.pe n)) s) fun t => t.stackOf (.pe n) = rest ∧
        (t.pe n.val).map (·.lenchk) = some (some (p.data.length - p.start - e.toNat))) ∧
    (∀ exact (len : BitVec 6) v rest, x.stack = v :: rest →
        len.toNat < (if exact then 48 - x.ekey.length else 64 - x.tkey.length) →
        windowEnd p v.toNat (len.toNat + 1) = none →
      Gives (exec (.key (.pe n) exact false len []) s) fun t => t.stackOf (.pe n) = rest ∧
        (t.pe n.val).map (fun y => if exact then y.ekey else y.tkey) =
          some ((if exact then x.ekey else x.tkey) ++ (p.data.drop (p.start + v.toNat)).take (len.toNat + 1))) ∧
    (∀ mf off len ident proto hdr rest, x.stack = mf :: off :: len :: ident :: proto :: hdr :: rest → x.frag = none →
        windowEnd p (hdr.toNat + 12) 8 = none →
      let b := (p.data.drop (p.start + (hdr.toNat + 12))).take 8
      Gives (exec (.frag (.pe n) false []) s) fun t => t.stackOf (.pe n) = rest ∧
        (t.pe n.val).map (·.frag) = some (some
          { v6 := false, src := b.take 4, dst := b.drop 4, ident := ident.toNat % 65536
            proto := proto.toNat % 256, offset := off.toNat, len := len.toNat, more := decide (mf ≠ 0) }))) ∧
  (∀ s (n : Fin 32) x p (stall : BitVec 7) ed, s.issues (.pe n) (1 + min 64 stall.toNat) = true → s.inSlotB (.pe n) = false →
      s.pe n.val = some x → x.stack.length < 14 → s.pkt x.pkt = some p → p.edition = some ed →
    (∀ i r, s.exactHit x.ekey ed = some (i, r) → Gives (exec (.lookup (.pe n) stall) s) fun t =>
      t.stackOf (.pe n) = 1 :: BitVec.ofNat 32 (r.action / 2 ^ 32) :: BitVec.ofNat 32 r.action :: x.stack) ∧
    (s.exactHit x.ekey ed = none → Gives (exec (.lookup (.pe n) stall) s) fun t =>
      (t.stackOf (.pe n)).head? = some 0 ∧ (t.stackOf (.pe n)).drop 3 = x.stack ∧
        (t.stackOf (.pe n)).length = x.stack.length + 3))

/-! ### The power unit (spec/17) -/

/-- R398 to R407: the 12 V input, domains, device states, wake events and brown-outs. -/
def Obligations.PowerStateRowsComplete : Prop :=
  (∀ s (mv : BitVec 16), s.on PWR_VIN_VALID = true →
    (mv.toNat < 10400 → s.on PWR_VIN_LOW = false → Gives (exec (.pwrVinLow mv) s) fun t =>
      t.on PWR_VIN_LOW = true ∧ t.f PWR_VIN_MV = mv.toNat ∧ t.permitted .a = 4 ∧ t.permitted .b = 4 ∧
        t.f (PWR_PERMIT_STAT_PERMITTED 0) = 4) ∧
    (mv.toNat < 9000 → Gives (exec (.vinFail mv) s) fun t =>
      t.cfg.stage = 0 ∧ t.on PWR_VIN_VALID = false ∧ t.f PWR_VIN_MV = mv.toNat ∧ t.asy.lastRung4.isSome = true ∧
        t.mtm.mt = 0 ∧ t.dram = [] ∧ t.cfg.nor = s.cfg.nor) ∧
    (14000 < mv.toNat → s.on PWR_VIN_HIGH = false → Gives (exec (.pwrVinHigh mv) s) fun t =>
      t.on PWR_VIN_HIGH = true ∧ t.f PWR_VIN_MV = mv.toNat)) ∧
  (∀ s (mv : BitVec 16),
    (10600 ≤ mv.toNat → s.on PWR_VIN_LOW = true → Gives (exec (.vinLowClear mv) s) fun t =>
      t.on PWR_VIN_LOW = false ∧ t.f PWR_VIN_MV = mv.toNat) ∧
    (mv.toNat ≤ 13800 → s.on PWR_VIN_HIGH = true → Gives (exec (.vinHighClear mv) s) fun t =>
      t.on PWR_VIN_HIGH = false ∧ t.f PWR_VIN_MV = mv.toNat)) ∧
  (∀ s (d : Dom),
    (s.dom d = .low → Gives (exec (.domainWakeDemand d) s) fun t =>
      t.dom d = .waking ∧ t.w PWR_CNT_WAKE = (s.w PWR_CNT_WAKE + 1) % 2 ^ 48) ∧
    (s.dom d = .up → Gives (exec (.domainWakeDemand d) s) fun t =>
      t.dom d = .up ∧ t.pwr.idleSince.look d.num = some s.now) ∧
    (s.dom d = .waking → exec (.domainWakeDone d) s = .next (s.setDom d .up).ethServeAll ∧
      ((∀ p, p < 8 → (s.ethPort p).hold = []) → Gives (exec (.domainWakeDone d) s) fun t => t.dom d = .up)) ∧
    (s.dom d = .up → s.domIdle d = true → s.f PWR_STATE_STATE < 2 → s.f (PWR_IDLE_IDLE (d.num - 1)) ≠ 0 →
      Gives (exec (.domainIdleExpire d) s) fun t =>
        t.dom d = .low ∧ t.now = max s.now (s.pwr.idleSince.lookD d.num 0 + s.f (PWR_IDLE_IDLE (d.num - 1)) * 1000))) ∧
  (∀ s req, s.accepts pwrStateCmd req = true → s.pwr.transition = none → s.f PWR_STATE_STATE < 3 →
    ∀ p ∈ [(Instr.targetFull req, 0), (.targetReduced req, 1), (.targetStandby req, 2), (.targetOff req, 3)],
      s.f PWR_STATE_STATE ≠ p.2 → Gives (exec p.1 s) fun t =>
        t.pwr.transition = some { target := p.2 } ∧ t.f (cmdState pwrStateCmd.addr) = 1 ∧
          t.f PWR_STATE_STATE = s.f PWR_STATE_STATE ∧
          (2 ≤ p.2 → s.f PWR_STATE_STATE < 2 → t.f PWR_STATE_RETURN = s.f PWR_STATE_STATE)) ∧
  (∀ s req, s.accepts pwrStateCmd req = true → s.pwr.transition = none → s.f PWR_STATE_STATE = 3 →
    ∀ p ∈ [(Instr.targetFull req, 0), (.targetReduced req, 1)],
      exec p.1 s = .next (((s.entered .pwr).leaveOff p.2).cmdIs pwrStateCmd.addr 1 0)) ∧
  (∀ s (n : Nat), s.pwr.transition = some { target := n } → s.f PWR_STATE_STATE < 3 → n < 4 →
    Gives (exec .stateTransitionDone s) fun t =>
      t.f PWR_STATE_STATE = n ∧ t.pwr.transition = none ∧ (n = 2 → ∀ d, t.dom d = .low) ∧
        (n = 3 → ∀ d, t.dom d = .unpowered) ∧ (n < 2 → ∀ d, t.dom d ≠ .low) ∧
        (s.f PWR_STATE_CMD_STATE = 1 → t.ended pwrStateCmd.addr 0)) ∧
  (∀ s, s.on PWR_WAKE_CFG_WAKE_N_EN = true → s.f FLD_WAKE_CFG_STATE ≠ 1 → s.pwr.transition = none →
    (s.f PWR_STATE_STATE = 2 → Gives (exec .wakeNAssert s) fun t =>
      t.pwr.transition = some { target := s.f PWR_STATE_RETURN } ∧ ∀ d, t.dom d ≠ .low) ∧
    (s.f PWR_STATE_STATE = 3 → exec .wakeNAssert s = .next (s.leaveOff (s.f PWR_STATE_RETURN)))) ∧
  (∀ s l, s.listens l = true → s.pwr.transition = none → s.f PWR_STATE_STATE < 2 →
    Gives (exec (.wakeListenerEvent l) s) fun t => t.dom (listenerDom l) = .up) ∧
  (∀ s, s.on PWR_AON_CTL_LP_ACTIVE = true → s.pwr.brownStart = none →
    Gives (exec .pwrBrownout s) fun t =>
      t.on PWR_AON_CTL_LP_ACTIVE = false ∧ t.f PWR_AON_CTL_BROWNOUTS = 1 ∧ t.fld.latched.isSome = true ∧
        t.w PWR_CNT_BROWNOUT = (s.w PWR_CNT_BROWNOUT + 1) % 2 ^ 48) ∧
  (∀ s, Gives (exec .brownoutLatchRelease s) fun t => t.fld.latched = none ∧ t.regs = s.regs)

/-- R408 to R415: the permit sequence of a radio, and the monitoring, alert, retry and power cycle of the PMBus. -/
def Obligations.PermitRowsComplete : Prop :=
  (∀ s r, s.mayRequest r = true →
    ((s.permit r).grant = none → Gives (exec (.permitRequest r .ok) s) fun t =>
      (t.permit r).req = some { tag := s.pwr.nextTag, cls := min 7 (s.permitTarget r), t0 := s.now, polls := 0 } ∧
        t.pwr.writes.head? = some { page := some r.num, code := 0xD0, data := min 7 (s.permitTarget r) + 8 * s.pwr.nextTag } ∧
        t.w PWR_CNT_PERMIT_REQ = (s.w PWR_CNT_PERMIT_REQ + 1) % 2 ^ 48) ∧
    (∀ g, (s.permit r).grant = some g → Gives (exec (.permitRenewal r) s) fun t =>
      t.now = max s.now (g.t0 + g.lease * 50000000) ∧ (t.permit r).grant = some g ∧
        (t.permit r).req = some { tag := s.pwr.nextTag, cls := min 7 (s.permitTarget r), t0 := t.now, polls := 0 })) ∧
  (∀ s r (q : PermitReq), (s.permit r).req = some q →
    (∀ x : PermitStatus, x.state = 1 → x.tag.toNat = q.tag → 5 ≤ x.cls.toNat → x.lease ≠ 0 →
      Gives (exec (.permitPoll r x .ok) s) fun t =>
        t.now = max s.now (q.t0 + 250000 * (q.polls + 1)) ∧ (t.permit r).req = none ∧
          (t.permit r).grant = some { cls := min x.cls.toNat q.cls, asked := q.cls, t0 := q.t0, lease := x.lease.toNat }) ∧
    (Gives (exec (.permitTimeout r) s) fun t =>
      (t.permit r).req = none ∧ (t.permit r).retryEnd = some (max s.now (q.t0 + 5000000) + 1000000000) ∧ t.permitted r = 4)) ∧
  (∀ s r e, (s.permit r).retryEnd = some e → Gives (exec (.permitRetryEnd r) s) fun t =>
    t.now = max s.now e ∧ (t.permit r).retryEnd = none) ∧
  (∀ s r g, (s.permit r).grant = some g →
    (Gives (exec (.grantLeaseEnd r) s) fun t =>
      t.now = max s.now (grantEnd g) ∧ (t.permit r).grant = none ∧ t.permitted r = 4) ∧
    ((s.permit r).release = true → Gives (exec (.txopEndReport r) s) fun t =>
      (t.permit r).grant = none ∧ (t.permit r).txops = 0 ∧
        t.pwr.writes.head? = some { page := some r.num, code := 0xD0, data := s.pwr.nextTag * 8 }) ∧
    ((s.permit r).release = false → Gives (exec (.txopEndReport r) s) fun t =>
      (t.permit r).grant = some g ∧ (t.permit r).txops = 0 ∧
        ∀ l, (t.link r l).txop = (s.link r l).txop.filter fun x => decide (x.1 ≤ 4))) ∧
  (∀ s (word : BitVec 16) (a b : PermitStatus), s.on PWR_PMBUS_CFG_EN = true → a.state = 3 → b.state = 3 →
    Gives (exec (.pmbAlert word a b) s) fun t =>
      t.f PWR_SUPPLY_STATUS_W = word.toNat ∧ ∀ r, (t.permit r).grant = none ∧ (t.permit r).req = none ∧
        (t.permit r).retryEnd = some (s.now + 1000000000)) ∧
  (∀ s (v : SupplyRead), s.on PWR_PMBUS_CFG_EN = true →
    Gives (exec (.monitorRead v .ok) s) fun t =>
      t.f PWR_SUPPLY_VIN_W = v.vin.toNat ∧ t.f PWR_SUPPLY_IIN_W = v.iin.toNat ∧ t.f PWR_SUPPLY_POUT_W = v.pout.toNat ∧
        t.f PWR_SUPPLY_STATUS_W = v.status.toNat) ∧
  (∀ s op, s.pwr.nackPend = some op →
    (op ≠ .powerCycle → Gives (exec (.pmbusNackRetry false) s) fun t =>
      t.pwr.nackPend = none ∧ t.now = s.now + 100000 ∧ t.regs = s.regs) ∧
    (∀ r, op = .request r → Gives (exec (.pmbusNackRetry true) s) fun t =>
      t.pwr.nackPend = none ∧ (t.permit r).req = none ∧ (t.permit r).retryEnd = some (s.now + 100000 + 1000000000))) ∧
  (∀ s req (off : BitVec 8), s.accepts pwrCmd req = true → off ≠ 0 → s.on PWR_PMBUS_CFG_EN = true →
    Gives (exec (.powerCycle req off .ok) s) fun t =>
      t.ended pwrCmd.addr 0 ∧ t.pwr.writes.head? = some { page := none, code := 0xD2, data := 0xA5 + 256 * off.toNat })

/-! ### Assay (spec/18) -/

/-- R417 to R423, R492: faults, heartbeats, the safe state and its end, the watchdog. -/
def Obligations.FaultRowsComplete : Prop :=
  (∀ s m owner f, f = monitorFunc m owner → s.monitors m = true →
    (monitorClass m = .info → Gives (exec (.asyFault m owner) s) fun t => t.asy = s.asy ∧ t.regs = (s.evR .asy Ev.ASY_FAULT
      [m.row, f.num, 2]).regs) ∧
    (monitorClass m = .degraded → monitorEntry m = none → Gives (exec (.asyFault m owner) s) fun t =>
      t.on (degBit f) = true ∧ t.f (ASY_FUNC_CAUSE f.num) = m.row ∧ Standing.mk m f ∈ t.asy.standing ∧
        t.on ASY_STATUS_SAFE = s.on ASY_STATUS_SAFE) ∧
    (∀ b, causeBit m f = some b → (s.ladder f).out = true → Gives (exec (.asyFault m owner) s) fun t =>
      t.on ASY_STATUS_SAFE = true ∧ (t.f ASY_CAUSE_CAUSE).testBit b = true ∧ Standing.mk m f ∈ t.asy.standing) ∧
    (monitorEntry m = some 2 → s.ladder f = {} → s.cfg.stage = 10 → Gives (exec (.asyFault m owner) s) fun t =>
      (t.ladder f).rung = some 2 ∧ (∀ u ∈ funcUnits f, t.ready u = false) ∧
        t.w ASY_CNT_RUNG2 = (s.w ASY_CNT_RUNG2 + 1) % 2 ^ 48)) ∧
  (∀ s m owner f, f = monitorFunc m owner → s.asy.standing.contains (Standing.mk m f) = true →
    Gives (exec (.asyFaultEnd m owner) s) fun t => t.asy.standing.contains (Standing.mk m f) = false) ∧
  (∀ s u, s.heartbeatWatched u = true → Gives (exec (.heartbeatTimeout u) s) fun t =>
    t.w ASY_CNT_HB_MISS = (s.w ASY_CNT_HB_MISS + (if u = .cpu then 3 else 4)) % 2 ^ 48) ∧
  (∀ s t0, s.asy.quietSince = some t0 → s.safe = true → s.on ASY_CFG_AUTO_RELEASE = true →
    Gives (exec .safeQuietExpire s) fun t =>
      t.safe = false ∧ t.now = max s.now (t0 + max 1 (s.f ASY_CFG_CLEAR_S) * 1000000000) ∧
        (s.cfg.noImage = false → t.on FLD_STATUS_FAULT = false) ∧ t.asy.quietSince = none) ∧
  (∀ s, s.asy.watchdog = true → s.fld.hvLevel.isSome = true →
    Gives (exec .hvWatchdogExpire s) fun t => t.on ASY_STATUS_HV_SAFE = true ∧
      (s.asy.applied = false → ∀ p, p < 4 → (t.pwmO p).drive = .safe)) ∧
  (∀ s back, s.asy.tempReturn = some back → s.pwr.transition = none → back ≠ s.f PWR_STATE_STATE →
    Gives (exec .tempRecovered s) fun t => t.asy.tempReturn = none ∧ t.pwr.transition = some { target := back })

/-- R423, R426, R431: the commands of Assay. R424, R425, R428 to R432: the ends of rungs, and the latent-fault self-test. -/
def Obligations.AssayCommandAndLadderRowsComplete : Prop :=
  ((∀ s req, s.accepts asyCmd req = true →
    (s.safe = true → s.asy.quietSince = none → s.f ASY_CAUSE_CAUSE = 0 → Gives (exec (.asyRelease req) s) fun t =>
      t.safe = false ∧ t.ended asyCmd.addr 0) ∧
    (s.safe = true → s.asy.quietSince = none → s.f ASY_CAUSE_CAUSE = 512 → Gives (exec (.asyRelease req) s) fun t =>
      t.safe = true ∧ t.f ASY_CAUSE_CAUSE = 0 ∧ t.asy.quietSince = some s.now ∧ t.ended asyCmd.addr 0) ∧
    (Gives (exec (.enterSafe req) s) fun t =>
      t.safe = true ∧ (t.f ASY_CAUSE_CAUSE).testBit 9 = true ∧ t.asy.quietSince = none ∧ t.ended asyCmd.addr 0) ∧
    (Gives (exec (.clearReplace req) s) fun t =>
      t.asy.replaceNvm = none ∧ t.on ASY_STATUS_REPLACE = false ∧ t.on FLD_STATUS_REPLACE = false ∧ t.ended asyCmd.addr 0) ∧
    (Gives (exec (.lftNow req) s) fun t => t.on ASY_LFT_STAT_RUNNING = true ∧ t.ended asyCmd.addr 0) ∧
    (∀ (func : BitVec 4) (rung : BitVec 2) f, Func.all[func.toNat]? = some f → (s.ladder f).rung = none → rung.toNat < 2 →
      Gives (exec (.forceRung req func rung) s) fun t =>
        (t.ladder f).rung = some (rung.toNat + 1) ∧ (t.ladder f).forced = true ∧ t.f (cmdState asyCmd.addr) = 1))) ∧
  ((∀ s f r, (s.ladder f).rung = some r →
    (Gives (exec (.rungComplete f) s) fun t => (t.ladder f).rung = none ∧ (t.ladder f).forced = false) ∧
    ((s.ladder f).forced = true → Gives (exec (.rungTimeout f) s) fun t =>
      (t.ladder f).rung = none ∧ t.now = max s.now ((s.ladder f).since + s.rungLimit r)) ∧
    ((s.ladder f).forced = false → r = 1 → Gives (exec (.rungTimeout f) s) fun t =>
      (t.ladder f).rung = some 2 ∧ t.now = max s.now ((s.ladder f).since + 1000000)) ∧
    ((s.ladder f).forced = false → r = 4 → f ≠ .dram → Gives (exec (.rungTimeout f) s) fun t =>
      (t.ladder f).out = true ∧ (t.ladder f).rung = none ∧ t.asy.replaceNvm = some (0x40 + f.num))) ∧
  (∀ s, s.on ASY_STATUS_LFT_DUE = false → Gives (exec .lftDue s) fun t =>
    t.on ASY_STATUS_LFT_DUE = true ∧ t.asy.lftDueAt = some t.now ∧
      t.now = s.now + (s.w ASY_LFT_LT_LT + 86400000000000 - s.lt)) ∧
  (∀ s t0, s.asy.lftDueAt = some t0 → s.on ASY_STATUS_LFT_DUE = true → s.on ASY_STATUS_LFT_OVERDUE = false →
    Gives (exec .asyLftOverdue s) fun t => t.on ASY_STATUS_LFT_OVERDUE = true ∧ t.now = max s.now (t0 + 86400000000000)) ∧
  (∀ s (fail : BitVec 11), s.on ASY_LFT_STAT_RUNNING = true → Gives (exec (.lftComplete fail) s) fun t =>
    t.on ASY_LFT_STAT_RUNNING = false ∧ t.f ASY_LFT_STAT_FAIL = fail.toNat ∧ t.on ASY_LFT_STAT_PASS = decide (fail = 0) ∧
      t.on ASY_STATUS_LFT_DUE = false ∧ t.w ASY_CNT_LFT_RUN = (s.w ASY_CNT_LFT_RUN + 1) % 2 ^ 48 ∧
      (fail ≠ 0 → t.asy.replaceNvm = some 0x20)))

/-! ### The shelf and the host interface (spec/19) -/

/-- R434 to R442: HELLO, link states, frames and the lead's time. -/
def Obligations.ShelfFrameRowsComplete : Prop :=
  (∀ s, s.shelfUp = true →
    (s.noLane = false → s.cipHeld = false → s.rootOk 1 = true → Gives (exec .helloSend s) fun t =>
      t.now = max s.now (s.shf.helloAt + 100000000) ∧ t.shf.helloAt = t.now ∧
        t.shf.sent.length = s.shf.sent.length + t.shelfLinks.length) ∧
    (s.noLane = false → s.cipHeld = true → Gives (exec .helloSend s) fun t =>
      t.shf.sent = s.shf.sent ∧ t.shf.tagging.length = s.shf.tagging.length + t.shelfLinks.length) ∧
    (s.shf.lsaDue = true → Gives (exec .lsaSend s) fun t =>
      t.now = s.now ∧ t.shf.lsaDue = false ∧ t.shf.lsaSeq = (s.shf.lsaSeq + 1) % 2 ^ 32) ∧
    (s.shf.lsaDue = false → Gives (exec .lsaSend s) fun t =>
      t.now = max s.now (s.shf.lsaAt + 1000000000) ∧ t.shf.lsaSeq = (s.shf.lsaSeq + 1) % 2 ^ 32)) ∧
  (∀ s (link : BitVec 4) (m : BitVec 6) (eui mask : BitVec 64), s.unitDark .shf = false → s.shelfUp = true →
      s.shelfLink link.toNat = true →
    (m.toNat ≠ s.shelfId → Gives (exec (.helloRx link m eui mask) s) fun t =>
      t.shf.links.look link.toNat = some
        { member := m.toNat, hearsUs := s.ownNumbers.any fun k => mask.toNat.testBit k, lastHello := s.now }) ∧
    (m.toNat = s.shelfId → s.on SHF_STATUS_ACTING = false → s.f SHF_STATUS_ROLE ≠ 3 →
      Gives (exec (.helloRx link m eui mask) s) fun t =>
        t.on SHF_STATUS_CONFLICT = true ∧ (eui.toNat < s.w SGM_EUI_EUI → t.shf.quiet = true))) ∧
  (∀ s (link : BitVec 4) k, s.shf.links.look link.toNat = some k → Gives (exec (.adjacencyTimeout link) s) fun t =>
    t.shf.links.look link.toNat = none ∧ t.now = max s.now (k.lastHello + 300000000)) ∧
  (∀ s (m : BitVec 6) (seq : BitVec 32) edges, s.unitDark .shf = false → s.shelfUp = true → s.isOwn m.toNat = false →
      (∀ r, s.shf.lsas.look m.toNat = some r → r.seq < seq.toNat) →
    Gives (exec (.lsaRx m seq edges) s) fun t =>
      t.shf.lsas.look m.toNat = some { seq := seq.toNat, edges := edges.map fun e => { member := e.1.toNat, backhaul := e.2 } }) ∧
  (∀ s (link : BitVec 4) l, s.unitDark .shf = false → s.shelfUp = true →
    (smpParse l = none → Gives (exec (.smpFrameRx link l) s) fun t =>
      t.w SHF_CNT_AUTH = (s.w SHF_CNT_AUTH + 1) % 2 ^ 48 ∧ t.shf = s.shf) ∧
    (∀ r, smpParse l = some r → r.host = false → s.shelfLink link.toNat = true → s.noLane = false →
      (s.cipHeld = true → Gives (exec (.smpFrameRx link l) s) fun t =>
        t.cip.frames = s.cip.frames ++ [.smp link.toNat l] ∧ t.shf = s.shf) ∧
      (∀ key, s.cipHeld = false → (s.deriveNow s.smpTag).2 = some key →
        (r.tag ≠ cmac key r.body → Gives (exec (.smpFrameRx link l) s) fun t =>
          t.w SHF_CNT_AUTH = (s.w SHF_CNT_AUTH + 1) % 2 ^ 48 ∧ t.w CIP_CNT_AUTH = (s.w CIP_CNT_AUTH + 1) % 2 ^ 48 ∧ t.shf = s.shf) ∧
        (∀ k, r.tag = cmac key r.body → s.isOwn r.frame.src = false →
            replayTake (s.shf.replay.look r.frame.src) r.frame.epoch r.frame.ctr = some k → smpType r.frame.typ = true →
            r.frame.term ≤ s.f SHF_TERM_TERM → (r.bcast = true ∨ s.isOwn r.dst = true) →
          Gives (exec (.smpFrameRx link l) s) fun t =>
            t.shf.replay.look r.frame.src = some k ∧
              t.shf.delivered = (r.frame.typ, r.frame.src, r.frame.payload) :: s.shf.delivered)))) ∧
  (∀ s (m : BitVec 6) t0, s.shf.holdEnd.look m.toNat = some t0 → Gives (exec (.routeHoldEnd m) s) fun t =>
    t.now = max s.now t0 ∧ t.shf.holdEnd.look m.toNat = none ∧ ∀ f ∈ t.shf.held, f.dst ≠ some m.toNat) ∧
  (∀ s, s.isLead = true → s.on MTM_STATUS_VALID = true → s.mtm.mt % 65536 = 0 → s.shf.timeCycle ≠ some (s.mtm.mt / 65536) →
    Gives (exec .timeSend s) fun t => t.shf.timeCycle = some (s.mtm.mt / 65536)) ∧
  (∀ s (cycle : BitVec 32) (lt : BitVec 64) (freq : BitVec 32) valid sync, s.unitDark .shf = false → s.shelfUp = true →
      s.isLead = false →
    Gives (exec (.timeRx cycle lt freq valid sync) s) fun t =>
      t.mtm.leadMt = cycle.toNat * 65536 ∧ t.mtm.leadLt = lt.toNat ∧ t.mtm.leadFreq = freq.toNat ∧ t.mtm.leadValid = valid ∧
        (sync = true → t.on MTM_STATUS_LT_SYNC = true))

/-- R443 to R447: the lead, remote access and the messages of other members. -/
def Obligations.ShelfMemberRowsComplete : Prop :=
  (∀ s (src : BitVec 6) (term : BitVec 32) (deputy : BitVec 6) al, s.unitDark .shf = false → s.shelfUp = true →
      s.f SHF_TERM_TERM ≤ term.toNat → s.f SHF_STATUS_ROLE < 2 →
    Gives (exec (.leadClaimRx src term deputy al) s) fun t =>
      t.f SHF_TERM_TERM = term.toNat ∧ t.shf.leadAt = (if al then some deputy.toNat else none)) ∧
  (∀ s (src : BitVec 6), s.unitDark .shf = false → s.shelfUp = true → Gives (exec (.leaveRx src) s) fun t =>
    t.shf.lsas.look src.toNat = none ∧ t.shf.replay.look src.toNat = none ∧
      ∀ e ∈ t.shf.links, e.2.member ≠ src.toNat) ∧
  (∀ s, s.shelfUp = true → s.f SHF_STATUS_ROLE = 1 → Gives (exec .leadLost s) fun t =>
    t.now = max s.now (s.shf.lastLead + 300000000) ∧ t.f SHF_TERM_TERM = (s.f SHF_TERM_TERM + 1) % 2 ^ 32 ∧
      t.on SHF_STATUS_ACTING = true ∧ t.f SHF_STATUS_NUMBER = 0 ∧ t.hif.bar2 = true) ∧
  (∀ s req, s.accepts shfCmd req = true →
    (s.on SHF_STATUS_ACTING = true → Gives (exec (.shfRejoin req) s) fun t =>
      t.on SHF_STATUS_ALIAS_V = false ∧ t.shf.leadAt = none ∧ t.ended shfCmd.addr 0) ∧
    (s.f SHF_STATUS_ROLE = 1 → Gives (exec (.shfTakeover req) s) fun t =>
      t.on SHF_STATUS_ACTING = true ∧ t.f SHF_TERM_TERM = (s.f SHF_TERM_TERM + 1) % 2 ^ 32 ∧ t.ended shfCmd.addr 0)) ∧
  (∀ s req (a : BitVec 64) write v, s.unitDark .shf = false → (req.path = .host → s.hif.bar2 = true) → a.toNat < 2 ^ 38 →
    (s.isOwn (a.toNat / 2 ^ 32) = true → exec (.remoteRegAccess req (.shelf a) write v) s =
      .next (if write then (s.demand .shf).csrWrite req (a.toNat % 2 ^ 32) v else (s.demand .shf).csrRead req (a.toNat % 2 ^ 32))) ∧
    (s.isOwn (a.toNat / 2 ^ 32) = false → s.shf.outstanding.length < 16 → s.smpTalks = true →
        s.reaches (a.toNat / 2 ^ 32) = true →
      Gives (exec (.remoteRegAccess req (.shelf a) write v) s) fun t =>
        t.shf.outstanding = s.shf.outstanding ++
          [{ reqId := s.shf.nextReq, device := a.toNat / 2 ^ 32, addr := a.toNat % 2 ^ 32, write := write, data := v.toNat,
             req := req, since := s.now }])) ∧
  (∀ s (src : BitVec 6) (level : BitVec 2) (addr : BitVec 64) v (id : BitVec 32) u, s.unitDark .shf = false →
      s.shelfUp = true → s.ready .shf = true → s.isOwn (addr.toNat / 2 ^ 32) = true → addr.toNat < 2 ^ 38 →
      u = ((s.demand .shf).heardFrom src.toNat).bump SHF_CNT_REMOTE →
    let req : Req := { path := .shelf src, level := levelOf level.toNat }
    let answer := fun (t : State) (x : Nat) =>
      t.smpSend 0x11 (some src.toNat) ((natLe 4 id.toNat ++ natLe 1 0 ++ natLe 4 x).map BitVec.toNat)
    exec (.regReqRx src level addr true v id) s = .next (answer (u.csrWrite req (addr.toNat % 2 ^ 32) v) 0) ∧
      exec (.regReqRx src level addr false v id) s =
        .next (answer (u.csrRead req (addr.toNat % 2 ^ 32)) (u.csrRead req (addr.toNat % 2 ^ 32)).readData.toNat)) ∧
  (∀ s (src : BitVec 6) (id : BitVec 32) v x, s.unitDark .shf = false → s.shf.waiting = [] →
      (s.shf.outstanding.find? fun x => decide (x.reqId = id.toNat ∧ x.device = src.toNat)) = some x → x.write = false →
    Gives (exec (.regRespRx src id false v) s) fun t =>
      t.readData = v ∧ t.shf.outstanding = s.shf.outstanding.filter fun x => !decide (x.reqId = id.toNat ∧ x.device = src.toNat)) ∧
  (∀ s x rest, s.shf.waiting = [] → s.shf.outstanding = x :: rest → Gives (exec .shfUnreachable s) fun t =>
    t.now = max s.now (x.since + 1000000) ∧ t.shf.outstanding = rest ∧ (x.write = false → t.readData = 0) ∧
      t.w SHF_CNT_UNREACHABLE = (s.w SHF_CNT_UNREACHABLE + 1) % 2 ^ 48) ∧
  (∀ s (src : BitVec 6), s.unitDark .shf = false → s.shelfUp = true →
    (∀ (mac bssid : BitVec 48) (id : BitVec 128) (w : BitVec 448),
      (w = 0 → Gives (exec (.steerRx src mac bssid id w) s) fun t =>
        t.wma.steered.look mac.toNat = some { src := src.toNat, bssid := bssid.toNat, pmksa := none }) ∧
      (w ≠ 0 → s.noLane = false → s.cipHeld = true → Gives (exec (.steerRx src mac bssid id w) s) fun t =>
        t.cip.frames = s.cip.frames ++ [.steer src.toNat mac.toNat bssid.toNat id.toNat w.toNat] ∧
          t.wma.steered = s.wma.steered) ∧
      (∀ key, w ≠ 0 → s.noLane = false → s.cipHeld = false → (s.deriveNow s.smpTag).2 = some key →
        Gives (exec (.steerRx src mac bssid id w) s) fun t =>
          t.wma.steered.look mac.toNat = some { src := src.toNat, bssid := bssid.toNat,
                                                pmksa := (keyUnwrap key (natLe 56 w.toNat)).map fun p => (id.toNat, leNat p) })) ∧
    (∀ (mac : BitVec 48), (s.steer mac.toNat).open_ = none → s.staOf mac.toNat = none →
      Gives (exec (.steerDoneRx src mac) s) fun t => t.sch = s.sch ∧ t.ple = s.ple) ∧
    (∀ (mac : BitVec 48) e, (s.steer mac.toNat).open_ = none → s.staOf mac.toNat = some e →
      exec (.steerDoneRx src mac) s = .next (((s.demand .shf).heardFrom src.toNat).stationGone mac.toNat)) ∧
    (∀ (eui : BitVec 64) (addr : BitVec 16) (old new : BitVec 6), s.isOwn new.toNat = true → s.sgm.nodes.length < 4096 →
      Gives (exec (.nodeMoveRx src eui addr old new false) s) fun t =>
        t.sgm.agreed = (eui.toNat, addr.toNat, old.toNat, new.toNat) :: s.sgm.agreed)) ∧
  (∀ s (h : SmpHead) size, s.unitDark .shf = false → s.shelfUp = true → s.isLead = true → size = s.msgRingSize → size ≠ 0 →
      (s.f HIF_MSG_IDX_HEAD + 1) % size ≠ s.f HIF_MSG_IDX_TAIL % size →
    let took := fun (t : State) (l : List Byte) =>
      t.f HIF_MSG_IDX_HEAD = (s.f HIF_MSG_IDX_HEAD + 1) % size ∧
        t.hif.vectors.lookD 0 0 = s.hif.vectors.lookD 0 0 + 1 ∧
        t.shared.bytes ((s.f HIF_MSG_CFG_BASE * 256 + 64 * s.f HIF_MSG_IDX_HEAD) % 2 ^ 23 + 24) l.length = l
    (∀ a b c d : Byte, Gives (exec (.faultRx h a b c d) s) fun t => took t [a, b, c, d]) ∧
      (∀ exit (causes : BitVec 16) (d : Byte), Gives (exec (.safeRx h exit causes d) s) fun t =>
        took t [if exit then 1 else 0, causes.truncate 8, (causes >>> 8).truncate 8, d]) ∧
      (∀ a : Byte, Gives (exec (.replaceRx h a) s) fun t => took t [a]) ∧
      (∀ a : Byte, Gives (exec (.cycleReqRx h a) s) fun t => took t [a]))

/-- R449 to R451: BAR4 and the doorbells. -/
def Obligations.HostRowsComplete : Prop :=
  (∀ s (o : BitVec 25) (n : BitVec 7) d, s.isOff = false → s.unitDark .hif = false → n ≠ 0 → o.toNat % 64 + n.toNat ≤ 64 →
    (d.length = n.toNat → ∀ a, bar4At (s.f HIF_DWIN_BASE) o.toNat = .shared a →
      Gives (exec (.hostMemoryAccess true o n d []) s) fun t =>
        t.shared.bytes a n.toNat = d ∧ (∀ b, b < a ∨ a + n.toNat ≤ b → t.shared.byte b = s.shared.byte b) ∧ t.dram = s.dram) ∧
    (d.length = n.toNat → ∀ a, bar4At (s.f HIF_DWIN_BASE) o.toNat = .dram a → s.unitDark .drc = false → s.dramUp = true →
      Gives (exec (.hostMemoryAccess true o n d []) s) fun t =>
        t.dram.bytes a n.toNat = d ∧
          (∀ b, b < a ∨ a + n.toNat ≤ b → (∀ w ∈ dramWords a n.toNat, b < checkAddr w ∨ checkAddr w + 4 ≤ b) →
            t.dram.byte b = s.dram.byte b) ∧ t.shared = s.shared) ∧
    (∀ a, bar4At (s.f HIF_DWIN_BASE) o.toNat = .shared a → s.sharedBad a n.toNat = false →
      Gives (exec (.hostMemoryAccess false o n d []) s) fun t =>
        t.hif.readBytes = s.shared.bytes a n.toNat ∧ t.hif.poisoned = false ∧ t.shared = s.shared) ∧
    (∀ a, bar4At (s.f HIF_DWIN_BASE) o.toNat = .table a → Gives (exec (.hostMemoryAccess false o n d []) s) fun t =>
      t.hif.readBytes = s.hif.table.bytes a n.toNat ∧ t.hif.poisoned = false) ∧
    (∀ a, bar4At (s.f HIF_DWIN_BASE) o.toNat = .dram a → s.dramUp = false →
      Gives (exec (.hostMemoryAccess false o n d []) s) fun t =>
        t.hif.readBytes = List.replicate n.toNat 0 ∧ t.hif.poisoned = true)) ∧
  (∀ s req v, s.admits .hif .operator req = true →
    (Gives (exec (.hifDoorbell req v) s) fun t =>
      t.rd HIF_DB_LAST_LAST.addr = v ∧ ∀ c, c < 4 → (t.core c).pend.getLsbD 7 = true) ∧
    (s.admits .hif .vendor req = true → Gives (exec (.hifHostDb req v) s) fun t => t.hif.vectors.lookD 2 0 = s.hif.vectors.lookD 2 0 + 1))

/-! ### Field I/O (spec/20) -/

/-- R452 to R458, R420: DALI frames, collisions, answers, the line, echo queries and the safe-level broadcast. -/
def Obligations.DaliRowsComplete : Prop :=
  (∀ s req (p : BitVec 2) (prio : BitVec 3), s.accepts (daliCmd p.toNat) req = true → 2 ≤ prio.toNat → prio.toNat ≤ 5 →
    ∀ x ∈ [(Instr.daliSend16 req p prio, 16), (.daliSend24 req p prio, 24)],
      let f : DaliFrame := { kind := .soft, bits := x.2, data := s.f (FLD_DALI_TX_FRAME p.toNat) % 2 ^ x.2, prio := prio.toNat }
      ((s.safe && isLevelFrame f) = false → (s.daliP p.toNat).queue.length < 16 → Gives (exec x.1 s) fun t =>
        (t.daliP p.toNat).queue = (s.daliP p.toNat).queue ++ [f] ∧ t.f (cmdState (daliCmd p.toNat).addr) = 1 ∧
          t.on (FLD_DALI_RX_VALID p.toNat) = false) ∧
      ((s.safe && isLevelFrame f) = true → Gives (exec x.1 s) fun t =>
        t.f (cmdState (daliCmd p.toNat).addr) = 3 ∧ t.f (cmdResult (daliCmd p.toNat).addr) = 6 ∧
          t.daliP p.toNat = s.daliP p.toNat)) ∧
  (∀ s (p : BitVec 2) f rest, (s.daliP p.toNat).queue = f :: rest → (s.daliP p.toNat).phase = .idle →
      s.on (FLD_DALI_CFG_EN p.toNat) = true → s.on (busLow p.toNat) = false → (s.daliP p.toNat).safePend = false →
      s.cfg.noImage = false →
    Gives (exec (.daliFrameStart p) s) fun t =>
      t.now = max s.now ((s.daliP p.toNat).idleSince + settling f.prio) ∧
        t.daliP p.toNat = { s.daliP p.toNat with phase := .sending, frameEnd := t.now + frameTime f.bits }) ∧
  (∀ s (p : BitVec 2) f rest, (s.daliP p.toNat).queue = f :: rest → (s.daliP p.toNat).phase = .sending →
      (s.daliP p.toNat).safeSending = false →
    ((s.daliP p.toNat).collisions + 1 < 3 → Gives (exec (.daliCollision p) s) fun t =>
      t.daliP p.toNat = { s.daliP p.toNat with
        phase := .idle, idleSince := s.now, collisions := (s.daliP p.toNat).collisions + 1 }) ∧
    (3 ≤ (s.daliP p.toNat).collisions + 1 → f.kind = .soft → Gives (exec (.daliCollision p) s) fun t =>
      (t.daliP p.toNat).queue = rest ∧ t.f (cmdState (daliCmd p.toNat).addr) = 3 ∧
        t.f (cmdResult (daliCmd p.toNat).addr) = 2 ∧ t.w FLD_CNT_COLLISION = (s.w FLD_CNT_COLLISION + 1) % 2 ^ 48) ∧
    (f.kind = .soft → levelTarget f = none →
      (∀ d : BitVec 8, Gives (exec (.daliBackwardRx p d false) s) fun t =>
        t.now = max s.now ((s.daliP p.toNat).frameEnd + 12400000) ∧ (t.daliP p.toNat).queue = rest ∧
          t.f (FLD_DALI_RX_DATA p.toNat) = d.toNat ∧ t.on (FLD_DALI_RX_VALID p.toNat) = true ∧
          t.ended (daliCmd p.toNat).addr 0 ∧ t.w FLD_CNT_DALI_TX = (s.w FLD_CNT_DALI_TX + 1) % 2 ^ 48) ∧
      (∀ d : BitVec 8, Gives (exec (.daliBackwardRx p d true) s) fun t =>
        t.f (cmdState (daliCmd p.toNat).addr) = 3 ∧ t.f (cmdResult (daliCmd p.toNat).addr) = 4) ∧
      (Gives (exec (.daliAnswerWindowEnd p) s) fun t =>
        (t.daliP p.toNat).queue = rest ∧ t.ended (daliCmd p.toNat).addr 3 ∧ (t.daliP p.toNat).phase = .idle))) ∧
  (∀ s (p : BitVec 2),
    (s.on (busLow p.toNat) = false → Gives (exec (.daliBusLow p) s) fun t => t.on (busLow p.toNat) = true) ∧
    (s.on (busLow p.toNat) = true → Gives (exec (.daliBusHigh p) s) fun t =>
      t.on (busLow p.toNat) = false ∧ (t.daliP p.toNat).idleSince = s.now)) ∧
  (∀ s (p : BitVec 2) (g : BitVec 6) due, s.on (FLD_DALI_CFG_EN p.toNat) = true →
      (s.w (FLD_ECHO_MASK_MASK p.toNat)).testBit g.toNat = true → (s.daliP p.toNat).echoDue.look g.toNat = some due →
      (s.daliP p.toNat).queue.length < 16 → s.cfg.noImage = false →
    Gives (exec (.echoQuery p g) s) fun t =>
      t.now = max s.now due ∧ (t.daliP p.toNat).queue = (s.daliP p.toNat).queue ++
        [{ kind := .echo g.toNat, bits := 16, data := (2 * g.toNat + 1) * 256 + 0xA0, prio := 4 }]) ∧
  (∀ s (p : BitVec 2), (s.daliP p.toNat).safePend = true → (s.daliP p.toNat).phase = .idle → s.on (busLow p.toNat) = false →
    Gives (exec (.daliSafeBroadcastStart p) s) fun t =>
      t.now = max s.now ((s.daliP p.toNat).idleSince + 13500000) ∧ (t.daliP p.toNat).safeSending = true ∧
        (t.daliP p.toNat).frameEnd = t.now + 17 * 2500000 / 3) ∧
  (∀ s (p : BitVec 2), (s.daliP p.toNat).safeSending = true → Gives (exec (.fldSafeBroadcast p) s) fun t =>
    t.now = max s.now (s.daliP p.toNat).frameEnd ∧ (t.daliP p.toNat).safePend = false ∧
      (t.daliP p.toNat).safeSending = false ∧ t.w FLD_CNT_DALI_TX = (s.w FLD_CNT_DALI_TX + 1) % 2 ^ 48 ∧
      ∀ g, g < 64 → (s.w (FLD_ECHO_MASK_MASK p.toNat)).testBit g = true →
        (t.daliP p.toNat).commanded.look g = some (arcLevel (s.f ASY_STATUS_SAFE_LEVEL)))

/-- R459 to R464: PWM periods, duties, slow inputs and pulses. -/
def Obligations.OutputAndInputRowsComplete : Prop :=
  (∀ s (p : BitVec 2) low, (s.pwmO p.toNat).drive = .run → Gives (exec (.pwmPeriodStart p low) s) fun t =>
    (t.pwmO p.toNat).duty = s.f (FLD_PWM_DUTY p.toNat) ∧ (t.pwmO p.toNat).freq = s.f (FLD_PWM_FREQ p.toNat) ∧
      (t.pwmO p.toNat).enabled = s.on (FLD_PWM_EN p.toNat) ∧ (t.pwmO p.toNat).invert = s.on (FLD_PWM_INVERT p.toNat) ∧
      (t.pwmO p.toNat).lowReads = if low then (s.pwmO p.toNat).lowReads + 1 else 0) ∧
  (∀ s req (p : BitVec 2) (d : BitVec 16), s.admits .fld .operator req = true →
    (s.safe = false → Gives (exec (.pwmDutyWrite req p d) s) fun t => t.f (FLD_PWM_DUTY p.toNat) = d.toNat) ∧
    (s.safe = true → Gives (exec (.pwmDutyWrite req p d) s) fun t =>
      t.f (FLD_PWM_DUTY p.toNat) = s.f (FLD_PWM_DUTY p.toNat) ∧ t.fld = s.fld)) ∧
  (∀ s (i : Fin 17) level, s.isInput i.val = true → (s.gpioN i.val).seen ≠ level →
    ((s.gpioN i.val).edges.length < 8 → (s.gpioN i.val).chatterEnd = none → Gives (exec (.gpioInputAccept i level) s) fun t =>
      (t.gpioN i.val).seen = level ∧ (t.gpioN i.val).level = level ∧
        (i.val < 16 → t.on ⟨FLD_STATUS_IN.addr, i.val, i.val⟩ = level) ∧
        (t.gpioN i.val).assertedSince = if level = s.assertedLevel i.val then some s.now else none) ∧
    (8 ≤ ((s.gpioN i.val).edges.filter fun t => decide (s.now < t + 1000000000)).length →
      Gives (exec (.gpioInputAccept i level) s) fun t =>
        t.f (inputState i.val) = 2 ∧ (t.gpioN i.val).level = (s.gpioN i.val).level ∧
          (t.gpioN i.val).chatterEnd = some (s.now + 10000000000))) ∧
  (∀ s (i : Fin 17) e, (s.gpioN i.val).chatterEnd = some e → Gives (exec (.chatterHoldEnd i) s) fun t =>
    t.now = max s.now e ∧ t.f (inputState i.val) = 0 ∧ (t.gpioN i.val).chatterEnd = none ∧
      (t.gpioN i.val).level = (s.gpioN i.val).seen) ∧
  (∀ s (i : Fin 17) t0, (s.gpioN i.val).assertedSince = some t0 → s.isInput i.val = true → s.stuckS i.val ≠ 0 →
      s.f (inputState i.val) = 0 →
    Gives (exec (.fldInStuck i) s) fun t =>
      t.now = max s.now (t0 + s.stuckS i.val * 1000000000) ∧ t.f (inputState i.val) = 1 ∧
        t.w FLD_CNT_IN_EVENTS = (s.w FLD_CNT_IN_EVENTS + 1) % 2 ^ 48) ∧
  (∀ s (g : BitVec 4) e, (s.gpioN g.toNat).pulseEnd = some e → Gives (exec (.pulseEnd g) s) fun t =>
    t.now = max s.now e ∧ (t.gpioN g.toNat).pulseEnd = none ∧ t.gpioDrives g.toNat = s.on (FLD_GPIO_CFG_OUT g.toNat))

/-! ### Counters, sampling, the event log, the test access port (spec/21, spec/22) -/

/-- R466 to R471: counters and sampling. R473 to R477: the event log takes entries, moves staged ones, and is emptied. -/
def Obligations.ObservationRowsComplete : Prop :=
  ((∀ s req (i : Fin 184) v, s.admits .prf .operator req = true →
    Gives (exec (.evselWrite req i v) s) fun t =>
      t.f (PRF_EVSEL_EVENT i.val) = bitsOf v 7 0 ∧ t.prf.cnt.lookD i.val 0 = 0) ∧
  (∀ s req, s.accepts prfSnapCmd req = true →
    Gives (exec (.prfSnap req) s) fun t =>
      t.prf.shadow = (s.entered .prf).prf.cnt ∧ t.w MTM_SNAP_MT_VALUE = s.mtm.mt % 2 ^ 48 ∧
        t.w MTM_SNAP_LT_VALUE = s.lt % 2 ^ 64 ∧ t.ended prfSnapCmd.addr 0) ∧
  (∀ s req b, s.admits .prf .operator req = true →
    Gives (exec (.prfFreezeWrite req b) s) fun t =>
      t.on PRF_FREEZE_FREEZE = b ∧ (b = true → ∀ e ∈ t.prf.samplers, e.2.candidate = false)) ∧
  (∀ s e (w : RetiredWord), s.on PRF_SAMPLE_CFG_EN = true → s.on PRF_FREEZE_FREEZE = false → s.sampled e = true →
      (s.prf.samplers.lookD e.num {}).candidate = true → s.f PRF_SAMPLE_LAT_MIN_LAT ≤ w.latency.toNat →
      w.level ≠ .vendor ∨ s.on PRF_SAMPLE_CFG_VENDOR = true → s.prf.samples.length < 4096 →
    Gives (exec (.sampleCandidate e w) s) fun t =>
      t.prf.samples.look (s.f PRF_SAMPLE_HEAD_NEXT) = some { lt := s.lt, engine := e, word := w } ∧
        t.f PRF_SAMPLE_HEAD_NEXT = (s.f PRF_SAMPLE_HEAD_NEXT + 1) % 4096 ∧
        (t.prf.samplers.lookD e.num {}).candidate = false)) ∧
  ((∀ s u ev args react, unitAon u = true → s.log.staging.length < 127 →
    Gives (exec (.logEntry u ev args react) s) fun t =>
      ∃ e : LogEntry, t.log.staging = s.log.staging ++ [e] ∧ e.unit = u ∧ e.code = ev ∧ e.seq = s.log.seq.lookD u.num 0 ∧
        e.lt = (s.lt + react.toNat) % 2 ^ 64 ∧ e.mt = s.mtm.mt ∧ e.args = args.map (·.toNat) ∧
        t.log.seq.lookD u.num 0 = (s.log.seq.lookD u.num 0 + 1) % 65536) ∧
  (∀ s u ev args react, unitAon u = false → s.coreUp = true → s.log.ring.length < 16384 →
    Gives (exec (.logEntry u ev args react) s) fun t =>
      ∃ e : LogEntry, t.log.ring.look (s.f PRF_LOG_STAT_NEXT) = some e ∧ e.unit = u ∧ e.code = ev ∧
        e.seq = s.log.seq.lookD u.num 0 ∧ e.lt = (s.lt + react.toNat) % 2 ^ 64 ∧ e.args = args.map (·.toNat) ∧
        t.f PRF_LOG_STAT_NEXT = (s.f PRF_LOG_STAT_NEXT + 1) % 16384) ∧
  (∀ s e, s.coreUp = true → s.log.staging = [e] → s.log.ring.length < 16384 →
    Gives (exec .stagedMove s) fun t =>
      t.log.staging = [] ∧ t.log.ring.look (s.f PRF_LOG_STAT_NEXT) =
        some { e with lostBefore := e.lostBefore || s.log.dropped.contains e.unit }) ∧
  (∀ s req, s.admits .prf .operator req = true → s.on PRF_LOG_STAT_STOPPED = true →
    Gives (exec (.logStoppedClear req) s) fun t =>
      t.log.ring = [] ∧ t.f PRF_LOG_STAT_NEXT = 0 ∧ t.on PRF_LOG_STAT_STOPPED = false ∧ t.on PRF_LOG_STAT_WRAPPED = false))

/-- R489, R490: the instructions of the test access port. -/
def Obligations.TestPortRowsComplete : Prop :=
  ∀ s : State, s.tapUp = true →
    (Gives (exec .bypass s) fun t => t.tap.instr = .bypass ∧ t.tap.data = 0) ∧
    (Gives (exec .idcode s) fun t => t.tap.instr = .idcode ∧ t.tap.data = 0xB0640F2B) ∧
    (∀ balls, Gives (exec (.samplePreload balls) s) fun t => t.tap.instr = .sample ∧ t.tap.cells = balls ∧ t.tap.driving = false) ∧
    (s.cfg.testMode = true →
      (Gives (exec .extest s) fun t => t.tap.instr = .extest ∧ t.tap.driving = true) ∧
      (Gives (exec .clamp s) fun t => t.tap.instr = .clamp ∧ t.tap.driving = true ∧ t.tap.data = 0) ∧
      (Gives (exec .highz s) fun t => t.tap.instr = .highz ∧ t.tap.driving = false ∧ t.tap.released = true)) ∧
    (s.cfg.testMode = false →
      (Gives (exec .extest s) fun t => t.tap.instr = .bypass) ∧ (Gives (exec .clamp s) fun t => t.tap.instr = .bypass) ∧
        (Gives (exec .highz s) fun t => t.tap.instr = .bypass))

/-! ### Frames: the parts of the state that each command may change, and the queue that none touches -/

/-- The frame of every command of time, start-up, registers, power, safety, field I/O and observation: the parts of the state
outside its reach, the queue among them, stay as they were. -/
def Obligations.FrameOfControlCommands : Prop :=
  ∀ (i : Instr) (s t : State), (reachOf i).1 = .control → exec i s = .next t → OnlyIn (reachOf i).2 s t

/-- The frame of every command of packet memory, parsing, flows, scheduling and placement. -/
def Obligations.FrameOfPacketCommands : Prop :=
  ∀ (i : Instr) (s t : State), (reachOf i).1 = .packets → exec i s = .next t → OnlyIn (reachOf i).2 s t

/-- The frame of every command of the radios, Wi-Fi and the sub-GHz MAC. -/
def Obligations.FrameOfRadioCommands : Prop :=
  ∀ (i : Instr) (s t : State), (reachOf i).1 = .radios → exec i s = .next t → OnlyIn (reachOf i).2 s t

/-- The frame of every command of the cipher engine, the wired ports, DRAM, the Bodkin engines, the shelf and the host interface. -/
def Obligations.FrameOfEngineCommands : Prop :=
  ∀ (i : Instr) (s t : State), (reachOf i).1 = .engines → exec i s = .next t → OnlyIn (reachOf i).2 s t

/-- No command changes a register of a unit outside its reach (regUnits), which for most commands is the command's own unit with
PWR, PRF and CPU. -/
def Obligations.RegistersOutsideReach : Prop :=
  ∀ (i : Instr) (s t : State), exec i s = .next t → ∀ u a, unitAt a = some u → u ∉ regUnits i → t.rd a = s.rd a
end

