-- ==== Sys2Proof/Laws/Table.lean ====
section
/-! SUPPORT. Laws of the sparse tables and byte memories: a read after a write, and the canonical form. -/

namespace Sys2Proof.Machine

theorem Map.look_nil {α : Type} (k : Nat) : Map.look ([] : Map α) k = none := rfl

theorem Map.look_put_self {α : Type} (m : Map α) (k : Nat) (v : α) : (m.put k v).look k = some v := by
  induction m with
  | nil => simp [Map.put, Map.look]
  | cons e t ih =>
    obtain ⟨j, w⟩ := e
    simp only [Map.put]
    split
    · simp [Map.look]
    · split
      · simp [Map.look]
      · simp [Map.look, *]

theorem Map.look_put_ne {α : Type} (m : Map α) {k j : Nat} (v : α) (h : j ≠ k) : (m.put k v).look j = m.look j := by
  induction m with
  | nil => simp [Map.put, Map.look, Ne.symm h]
  | cons e t ih =>
    obtain ⟨i, w⟩ := e
    simp only [Map.put]
    split
    · subst_vars; simp [Map.look, Ne.symm h]
    · split
      · simp [Map.look, Ne.symm h]
      · simp [Map.look, ih]

theorem Map.look_put {α : Type} (m : Map α) (k j : Nat) (v : α) :
    (m.put k v).look j = if j = k then some v else m.look j := by
  by_cases h : j = k
  · subst h; simp [Map.look_put_self]
  · simp [Map.look_put_ne m v h, h]

theorem Map.look_del_self {α : Type} (m : Map α) (k : Nat) : (m.del k).look k = none := by
  induction m with
  | nil => rfl
  | cons e t ih =>
    obtain ⟨j, w⟩ := e
    simp only [Map.del]
    split
    · exact ih
    · simp [Map.look, *]

theorem Map.look_del_ne {α : Type} (m : Map α) {k j : Nat} (h : j ≠ k) : (m.del k).look j = m.look j := by
  induction m with
  | nil => rfl
  | cons e t ih =>
    obtain ⟨i, w⟩ := e
    simp only [Map.del]
    split
    · subst_vars; simp [Map.look, Ne.symm h, ih]
    · simp [Map.look, ih]

theorem Map.look_del {α : Type} (m : Map α) (k j : Nat) : (m.del k).look j = if j = k then none else m.look j := by
  by_cases h : j = k
  · subst h; simp [Map.look_del_self]
  · simp [Map.look_del_ne m h, h]

@[simp] theorem Map.lookD_put_self {α : Type} (m : Map α) (k : Nat) (v d : α) : (m.put k v).lookD k d = v := by
  simp [Map.lookD, Map.look_put_self]

theorem Map.lookD_put_ne {α : Type} (m : Map α) {k j : Nat} (v d : α) (h : j ≠ k) : (m.put k v).lookD j d = m.lookD j d := by
  simp [Map.lookD, Map.look_put_ne m v h]

@[simp] theorem Map.has_put_self {α : Type} (m : Map α) (k : Nat) (v : α) : (m.put k v).has k = true := by
  simp [Map.has, Map.look_put_self]

/-! ### The canonical form -/

/-- Every number of the table is above `k`. -/
def Map.above {α : Type} (k : Nat) (m : Map α) : Prop := ∀ e ∈ m, k < e.1

theorem Map.sorted_cons {α : Type} (e : Nat × α) (m : Map α) :
    Map.sorted (e :: m) = true ↔ Map.above e.1 m ∧ Map.sorted m = true := by
  induction m generalizing e with
  | nil => simp [Map.sorted, Map.above]
  | cons f t ih =>
    obtain ⟨j, v⟩ := e
    obtain ⟨k, w⟩ := f
    simp only [Map.sorted, Bool.and_eq_true, decide_eq_true_eq, ih, Map.above, List.mem_cons, forall_eq_or_imp]
    constructor
    · rintro ⟨h, h1, h2⟩
      exact ⟨⟨h, fun e he => Nat.lt_trans h (h1 e he)⟩, h1, h2⟩
    · rintro ⟨⟨h, -⟩, h1, h2⟩
      exact ⟨h, h1, h2⟩

theorem Map.mem_put {α : Type} {m : Map α} {k : Nat} {v : α} {e : Nat × α} (h : e ∈ m.put k v) : e = (k, v) ∨ e ∈ m := by
  induction m with
  | nil => simpa [Map.put] using h
  | cons f t ih =>
    obtain ⟨j, w⟩ := f
    simp only [Map.put] at h
    split at h
    · rcases List.mem_cons.1 h with h | h
      · exact Or.inl h
      · exact Or.inr (List.mem_cons_of_mem _ h)
    · split at h
      · rcases List.mem_cons.1 h with h | h
        · exact Or.inl h
        · exact Or.inr h
      · rcases List.mem_cons.1 h with h | h
        · exact Or.inr (by rw [h]; exact List.mem_cons_self ..)
        · exact (ih h).imp_right (List.mem_cons_of_mem _)

theorem Map.mem_del {α : Type} {m : Map α} {k : Nat} {e : Nat × α} (h : e ∈ m.del k) : e ∈ m := by
  induction m with
  | nil => exact h
  | cons f t ih =>
    obtain ⟨j, w⟩ := f
    simp only [Map.del] at h
    split at h
    · exact List.mem_cons_of_mem _ (ih h)
    · rcases List.mem_cons.1 h with h | h
      · rw [h]; exact List.mem_cons_self ..
      · exact List.mem_cons_of_mem _ (ih h)

theorem Map.sorted_put {α : Type} {m : Map α} (h : m.sorted = true) (k : Nat) (v : α) : (m.put k v).sorted = true := by
  induction m with
  | nil => rfl
  | cons f t ih =>
    obtain ⟨j, w⟩ := f
    have hc := (Map.sorted_cons (j, w) t).1 h
    simp only [Map.put]
    split
    · subst_vars; exact (Map.sorted_cons _ _).2 hc
    · split
      · refine (Map.sorted_cons _ _).2 ⟨?_, h⟩
        intro e he
        rcases List.mem_cons.1 he with he | he
        · subst he; assumption
        · exact Nat.lt_trans ‹k < j› (hc.1 e he)
      · refine (Map.sorted_cons _ _).2 ⟨?_, ih hc.2⟩
        intro e he
        rcases Map.mem_put he with he | he
        · subst he; show j < k; omega
        · exact hc.1 e he

theorem Map.sorted_del {α : Type} {m : Map α} (h : m.sorted = true) (k : Nat) : (m.del k).sorted = true := by
  induction m with
  | nil => rfl
  | cons f t ih =>
    obtain ⟨j, w⟩ := f
    have hc := (Map.sorted_cons (j, w) t).1 h
    simp only [Map.del]
    split
    · exact ih hc.2
    · exact (Map.sorted_cons _ _).2 ⟨fun e he => hc.1 e (Map.mem_del he), ih hc.2⟩

theorem Map.sorted_filter {α : Type} {m : Map α} (h : m.sorted = true) (p : Nat × α → Bool) :
    Map.sorted (List.filter p m) = true := by
  induction m with
  | nil => rfl
  | cons f t ih =>
    have hc := (Map.sorted_cons f t).1 h
    simp only [List.filter]
    split
    · exact (Map.sorted_cons _ _).2 ⟨fun e he => hc.1 e (List.mem_filter.1 he).1, ih hc.2⟩
    · exact ih hc.2

/-! ### Byte memories -/

theorem Memory.wf_nil : Memory.wf [] = true := rfl

/-- A write of one byte keeps the canonical form. -/
theorem Memory.wf_setByte {m : Memory} (h : m.wf = true) (a : Nat) (b : Byte) : (m.setByte a b).wf = true := by
  simp only [Memory.wf, Bool.and_eq_true, List.all_eq_true, decide_eq_true_eq] at h ⊢
  unfold Memory.setByte
  split
  · exact ⟨Map.sorted_del h.1 a, fun e he => h.2 e (Map.mem_del he)⟩
  · refine ⟨Map.sorted_put h.1 a b, fun e he => ?_⟩
    rcases Map.mem_put he with he | he
    · subst he; assumption
    · exact h.2 e he

/-- A write of bytes keeps the canonical form. -/
theorem Memory.wf_setBytes {m : Memory} (h : m.wf = true) (a : Nat) (l : List Byte) : (m.setBytes a l).wf = true := by
  induction l generalizing m a with
  | nil => exact h
  | cons b t ih => exact ih (Memory.wf_setByte h a b) (a + 1)

/-- A write of a little-endian value keeps the canonical form. -/
theorem Memory.wf_setLe {m : Memory} (h : m.wf = true) (a n v : Nat) : (m.setLe a n v).wf = true :=
  Memory.wf_setBytes h a _

/-- A byte read after it was written is the byte written. -/
theorem Memory.byte_setByte_self (m : Memory) (a : Nat) (b : Byte) : (m.setByte a b).byte a = b := by
  unfold Memory.setByte Memory.byte
  split
  · subst_vars; simp [Map.look_del_self]
  · simp [Map.look_put_self]

/-- A write of one byte leaves every other byte alone. -/
theorem Memory.byte_setByte_ne (m : Memory) {a c : Nat} (b : Byte) (h : c ≠ a) : (m.setByte a b).byte c = m.byte c := by
  unfold Memory.setByte Memory.byte
  split
  · simp [Map.look_del_ne m h]
  · simp [Map.look_put_ne m b h]

/-- A write of bytes leaves every byte outside them alone. -/
theorem Memory.byte_setBytes_out (m : Memory) (a c : Nat) (l : List Byte) (h : c < a ∨ a + l.length ≤ c) :
    (m.setBytes a l).byte c = m.byte c := by
  induction l generalizing m a with
  | nil => rfl
  | cons b t ih =>
    simp only [List.length_cons] at h
    rw [Memory.setBytes, ih _ _ (by omega), Memory.byte_setByte_ne _ _ (by omega)]

/-- Bytes read after they were written are the bytes written. -/
theorem Memory.bytes_setBytes_self (m : Memory) (a : Nat) (l : List Byte) : (m.setBytes a l).bytes a l.length = l := by
  induction l generalizing m a with
  | nil => rfl
  | cons b t ih =>
    simp only [List.length_cons, Memory.bytes, Memory.setBytes]
    rw [Memory.byte_setBytes_out _ _ _ _ (by omega), Memory.byte_setByte_self, ih]

/-- The bytes of a range that a write does not touch stay. -/
theorem Memory.bytes_setBytes_out (m : Memory) (a c n : Nat) (l : List Byte) (h : c + n ≤ a ∨ a + l.length ≤ c) :
    (m.setBytes a l).bytes c n = m.bytes c n := by
  induction n generalizing c with
  | zero => rfl
  | succ n ih =>
    simp only [Memory.bytes]
    rw [ih (c + 1) (by omega), Memory.byte_setBytes_out _ _ _ _ (by omega)]

@[simp] theorem natLe_length (n v : Nat) : (natLe n v).length = n := by
  induction n generalizing v with
  | zero => rfl
  | succ n ih => simp [natLe, ih]

/-- The value of the bytes of a value. -/
theorem leNat_natLe (n v : Nat) : leNat (natLe n v) = v % 256 ^ n := by
  induction n generalizing v with
  | zero => simp [natLe, leNat, Nat.mod_one]
  | succ n ih =>
    have e : 256 ^ (n + 1) = 256 * 256 ^ n := by rw [Nat.pow_succ, Nat.mul_comm]
    rw [natLe, leNat, ih, BitVec.toNat_ofNat, e, Nat.mod_mul]

/-- A value read after it was written. -/
theorem Memory.le_setLe_self (m : Memory) (a n v : Nat) : (m.setLe a n v).le a n = v % 256 ^ n := by
  have h := Memory.bytes_setBytes_self m a (natLe n v)
  rw [natLe_length] at h
  rw [Memory.le, Memory.setLe, h, leNat_natLe]

end Sys2Proof.Machine
end

