-- ==== Sys2Proof/Laws/Dram.lean ====
section
/-! SUPPORT. The cells of DRAM (R358, R359): what a write of data changes. -/

namespace Sys2Proof.Machine

/-- Check bytes lie above the data rows. -/
theorem dramLimit_le_checkAddr (a : Nat) : dramLimit ≤ checkAddr a := by
  unfold checkAddr DramLoc.addr checkLoc dramLimit checkRow; simp only; omega

theorem wgcCheck_length (l : List Byte) : (wgcCheck l).length = 4 := by
  simp only [wgcCheck, List.length_map, List.length_cons, List.length_nil]

theorem Memory.wf_setCheck {m : Memory} (h : m.wf = true) (a : Nat) : (m.setCheck a).wf = true := by
  unfold Memory.setCheck; exact Memory.wf_setBytes h _ _

/-- A write of check bytes reaches the four check bytes of its word alone. -/
theorem Memory.byte_setCheck_out (m : Memory) (w c : Nat) (h : c < checkAddr w ∨ checkAddr w + 4 ≤ c) :
    (m.setCheck w).byte c = m.byte c := by
  unfold Memory.setCheck
  generalize checkAddr w = x at h
  exact Memory.byte_setBytes_out _ _ _ _ (by rw [wgcCheck_length]; exact h)

/-- The check bytes of words written one after the other: what holds of the memory and stays with each holds in the end. -/
theorem Memory.foldl_setCheck (P : Memory → Prop) (ws : List Nat) (m : Memory) (h : P m)
    (step : ∀ n w, w ∈ ws → P n → P (n.setCheck w)) : P (ws.foldl Memory.setCheck m) := by
  induction ws generalizing m with
  | nil => exact h
  | cons w t ih =>
    rw [List.foldl_cons]
    exact ih _ (step m w List.mem_cons_self h) fun n x hx => step n x (List.mem_cons_of_mem _ hx)

/-- Every write of data keeps the canonical form. -/
theorem Memory.wf_setDram {m : Memory} (h : m.wf = true) (a : Nat) (l : List Byte) : (m.setDram a l).wf = true := by
  unfold Memory.setDram
  exact Memory.foldl_setCheck (fun n => n.wf = true) _ _ (Memory.wf_setBytes h _ _) fun n w _ hn => Memory.wf_setCheck hn w

/-- Outside the bytes written and the check bytes of their words, a write of data changes nothing. -/
theorem Memory.byte_setDram_out (m : Memory) (a c : Nat) (l : List Byte) (h : c < a ∨ a + l.length ≤ c)
    (hc : ∀ w ∈ dramWords a l.length, c < checkAddr w ∨ checkAddr w + 4 ≤ c) : (m.setDram a l).byte c = m.byte c := by
  unfold Memory.setDram
  exact Memory.foldl_setCheck (fun n => n.byte c = m.byte c) _ _ (Memory.byte_setBytes_out _ _ _ _ h) fun n w hw hn =>
    (Memory.byte_setCheck_out n w c (hc w hw)).trans hn

/-- A data byte below the limit reads as the bytes written leave it. -/
theorem Memory.byte_setDram_data (m : Memory) (a c : Nat) (l : List Byte) (h : c < dramLimit) :
    (m.setDram a l).byte c = (m.setBytes a l).byte c := by
  unfold Memory.setDram
  exact Memory.foldl_setCheck (fun n => n.byte c = (m.setBytes a l).byte c) _ _ rfl fun n w _ hn =>
    (Memory.byte_setCheck_out n w c (Or.inl (Nat.lt_of_lt_of_le h (dramLimit_le_checkAddr w)))).trans hn

/-- Memories that agree on a range read alike there. -/
theorem Memory.bytes_congr {p q : Memory} (n : Nat) (x : Nat) (h : ∀ i, x ≤ i → i < x + n → p.byte i = q.byte i) :
    p.bytes x n = q.bytes x n := by
  induction n generalizing x with
  | zero => rfl
  | succ n ih =>
    rw [Memory.bytes, Memory.bytes, h x (Nat.le_refl _) (by omega), ih (x + 1) fun i h1 h2 => h i (by omega) (by omega)]

/-- Data written below the limit reads back. -/
theorem Memory.bytes_setDram_self (m : Memory) (a : Nat) (l : List Byte) (h : a + l.length ≤ dramLimit) :
    (m.setDram a l).bytes a l.length = l := by
  rw [Memory.bytes_congr (q := m.setBytes a l) l.length a fun i _ h2 =>
    Memory.byte_setDram_data m a i l (Nat.lt_of_lt_of_le h2 h)]
  exact Memory.bytes_setBytes_self m a l

end Sys2Proof.Machine
end

