-- ==== Sys2Proof/Laws/Reg.lean ====
section
/-! SUPPORT. Laws of the register file: what `rd`, `f`, `on` and `w` read after `wr`, `set`, `setW`, and that its canonical form is
kept. -/

namespace Sys2Proof.Machine

theorem State.rd_wr (s : State) (a b : Nat) (v : Word) : (s.wr a v).rd b = if b = a then v else s.rd b := by
  unfold State.wr State.rd
  by_cases h : b = a
  · subst h
    split
    · subst_vars; simp [Map.look_del_self]
    · simp [Map.look_put_self]
  · rw [if_neg h]; split <;> simp [Map.look_del_ne _ h, Map.look_put_ne _ _ h]

@[simp] theorem State.rd_wr_self (s : State) (a : Nat) (v : Word) : (s.wr a v).rd a = v := by simp [State.rd_wr]

theorem State.rd_wr_ne (s : State) {a b : Nat} (v : Word) (h : b ≠ a) : (s.wr a v).rd b = s.rd b := by simp [State.rd_wr, h]

/-! ### Bits of a word -/

theorem bitsOf_lt (w : Word) (hi lo : Nat) : bitsOf w hi lo < 2 ^ (hi - lo + 1) := Nat.mod_lt _ (Nat.pow_pos (by decide))

/-- The number whose bits [lo + k - 1 : lo] are replaced, read at a bit. -/
theorem testBit_withBits (w : Word) {hi lo : Nat} (h1 : lo ≤ hi) (h2 : hi < 32) (n i : Nat) :
    (withBits w hi lo n).toNat.testBit i =
      if lo ≤ i ∧ i ≤ hi then n.testBit (i - lo) else w.toNat.testBit i := by
  have hw : w.toNat < 2 ^ 32 := w.isLt
  have e : w.toNat - bitsOf w hi lo * 2 ^ lo + n % 2 ^ (hi - lo + 1) * 2 ^ lo =
      w.toNat / 2 ^ (hi + 1) * 2 ^ (hi + 1) + (n % 2 ^ (hi - lo + 1) * 2 ^ lo + w.toNat % 2 ^ lo) := by
    unfold bitsOf
    have a1 : w.toNat = w.toNat / 2 ^ lo * 2 ^ lo + w.toNat % 2 ^ lo := by rw [Nat.mul_comm]; exact (Nat.div_add_mod _ _).symm
    have a2 : w.toNat / 2 ^ lo = w.toNat / 2 ^ (hi + 1) * 2 ^ (hi - lo + 1) + w.toNat / 2 ^ lo % 2 ^ (hi - lo + 1) := by
      have := (Nat.div_add_mod (w.toNat / 2 ^ lo) (2 ^ (hi - lo + 1))).symm
      rw [Nat.div_div_eq_div_mul, ← Nat.pow_add, show lo + (hi - lo + 1) = hi + 1 by omega, Nat.mul_comm] at this
      exact this
    have a3 : 2 ^ (hi + 1) = 2 ^ (hi - lo + 1) * 2 ^ lo := by rw [← Nat.pow_add]; congr 1; omega
    generalize w.toNat / 2 ^ (hi + 1) = o at *
    rw [a3, ← Nat.mul_assoc]
    generalize w.toNat / 2 ^ lo = q at *
    generalize o * 2 ^ (hi - lo + 1) = p at *
    generalize q % 2 ^ (hi - lo + 1) = u at *
    have a4 : q * 2 ^ lo = p * 2 ^ lo + u * 2 ^ lo := by rw [← Nat.add_mul, ← a2]
    omega
  have hlt : n % 2 ^ (hi - lo + 1) * 2 ^ lo + w.toNat % 2 ^ lo < 2 ^ (hi + 1) := by
    have b1 := Nat.mod_lt n (y := 2 ^ (hi - lo + 1)) (Nat.pow_pos (by decide))
    have b2 := Nat.mod_lt w.toNat (y := 2 ^ lo) (Nat.pow_pos (by decide))
    have b3 : 2 ^ (hi + 1) = 2 ^ (hi - lo + 1) * 2 ^ lo := by rw [← Nat.pow_add]; congr 1; omega
    rw [b3]
    calc n % 2 ^ (hi - lo + 1) * 2 ^ lo + w.toNat % 2 ^ lo < n % 2 ^ (hi - lo + 1) * 2 ^ lo + 2 ^ lo := by omega
      _ = (n % 2 ^ (hi - lo + 1) + 1) * 2 ^ lo := by rw [Nat.add_mul]; omega
      _ ≤ 2 ^ (hi - lo + 1) * 2 ^ lo := Nat.mul_le_mul_right _ b1
  have htot : w.toNat / 2 ^ (hi + 1) * 2 ^ (hi + 1) + (n % 2 ^ (hi - lo + 1) * 2 ^ lo + w.toNat % 2 ^ lo) < 2 ^ 32 := by
    have c1 : w.toNat / 2 ^ (hi + 1) < 2 ^ (32 - (hi + 1)) := by
      rw [Nat.div_lt_iff_lt_mul (Nat.pow_pos (by decide)), ← Nat.pow_add, show 32 - (hi + 1) + (hi + 1) = 32 by omega]
      exact hw
    have c2 : 2 ^ 32 = 2 ^ (32 - (hi + 1)) * 2 ^ (hi + 1) := by rw [← Nat.pow_add]; congr 1; omega
    rw [c2]
    calc _ < w.toNat / 2 ^ (hi + 1) * 2 ^ (hi + 1) + 2 ^ (hi + 1) := by omega
      _ = (w.toNat / 2 ^ (hi + 1) + 1) * 2 ^ (hi + 1) := by rw [Nat.add_mul]; omega
      _ ≤ _ := Nat.mul_le_mul_right _ c1
  simp only [withBits, BitVec.toNat_ofNat]
  rw [e, Nat.mod_eq_of_lt htot, Nat.mul_comm (w.toNat / 2 ^ (hi + 1)), Nat.testBit_two_pow_mul_add _ hlt]
  split
  · have hl : w.toNat % 2 ^ lo < 2 ^ lo := Nat.mod_lt _ (Nat.pow_pos (by decide))
    rw [Nat.mul_comm (n % _), Nat.testBit_two_pow_mul_add _ hl]
    split
    · rw [if_neg (by omega), Nat.testBit_mod_two_pow]; simp [*]
    · rw [if_pos (by omega), Nat.testBit_mod_two_pow, decide_eq_true (show i - lo < hi - lo + 1 by omega), Bool.true_and]
  · rw [if_neg (by omega), Nat.testBit_div_two_pow, show i - (hi + 1) + (hi + 1) = i by omega]

theorem testBit_bitsOf (w : Word) (hi lo i : Nat) :
    (bitsOf w hi lo).testBit i = (decide (i < hi - lo + 1) && w.toNat.testBit (i + lo)) := by
  rw [bitsOf, Nat.testBit_mod_two_pow, Nat.testBit_div_two_pow]

/-- The field that was written reads what was written, cut to its width. -/
theorem bitsOf_withBits_self (w : Word) {hi lo : Nat} (h1 : lo ≤ hi) (h2 : hi < 32) (n : Nat) :
    bitsOf (withBits w hi lo n) hi lo = n % 2 ^ (hi - lo + 1) := by
  apply Nat.eq_of_testBit_eq
  intro i
  rw [testBit_bitsOf, testBit_withBits w h1 h2, Nat.testBit_mod_two_pow]
  by_cases h : i < hi - lo + 1
  · rw [if_pos (by omega), Nat.add_sub_cancel]
  · simp [h]

/-- A field that does not overlap the one written stays. -/
theorem bitsOf_withBits_disjoint (w : Word) {hi lo hj lj : Nat} (h1 : lo ≤ hi) (h2 : hi < 32) (n : Nat)
    (h : (lj ≤ hj ∧ hj < lo) ∨ hi < lj) : bitsOf (withBits w hi lo n) hj lj = bitsOf w hj lj := by
  apply Nat.eq_of_testBit_eq
  intro i
  rw [testBit_bitsOf, testBit_bitsOf, testBit_withBits w h1 h2]
  by_cases g : i < hj - lj + 1
  · rw [if_neg (by omega)]
  · simp [g]

/-! ### Fields -/

/-- A field's bits lie in its word. -/
def Field.ok (x : Field) : Bool := decide (x.lo ≤ x.hi) && decide (x.hi < 32)

/-- Two fields of the register map share no bit. -/
def Field.apart (x y : Field) : Bool := decide (x.addr ≠ y.addr) || decide (x.hi < y.lo) ||
  (decide (y.lo ≤ y.hi) && decide (y.hi < x.lo))

theorem Field.apart_iff (x y : Field) :
    x.apart y = true ↔ x.addr ≠ y.addr ∨ x.hi < y.lo ∨ (y.lo ≤ y.hi ∧ y.hi < x.lo) := by
  simp only [Field.apart, Bool.or_eq_true, Bool.and_eq_true, decide_eq_true_eq, or_assoc]

theorem Field.ok_iff (x : Field) : x.ok = true ↔ x.lo ≤ x.hi ∧ x.hi < 32 := by
  simp only [Field.ok, Bool.and_eq_true, decide_eq_true_eq]

theorem State.f_set_self (s : State) (x : Field) (n : Nat) (h : x.ok = true) :
    (s.set x n).f x = n % 2 ^ (x.hi - x.lo + 1) := by
  simp only [Field.ok, Bool.and_eq_true, decide_eq_true_eq] at h
  simp [State.f, State.set, bitsOf_withBits_self _ h.1 h.2]

theorem State.f_set_apart (s : State) (x y : Field) (n : Nat) (h : x.ok = true) (h2 : x.apart y = true) :
    (s.set x n).f y = s.f y := by
  simp only [Field.ok, Field.apart, Bool.and_eq_true, Bool.or_eq_true, decide_eq_true_eq] at h h2
  unfold State.f State.set
  by_cases e : y.addr = x.addr
  · rw [e, State.rd_wr_self]
    apply bitsOf_withBits_disjoint _ h.1 h.2
    omega
  · rw [State.rd_wr_ne _ _ e]

theorem State.rd_set_ne (s : State) (x : Field) (n a : Nat) (h : a ≠ x.addr) : (s.set x n).rd a = s.rd a :=
  State.rd_wr_ne _ _ h

theorem State.f_wr_ne (s : State) (x : Field) (a : Nat) (v : Word) (h : x.addr ≠ a) : (s.wr a v).f x = s.f x := by
  unfold State.f; rw [State.rd_wr_ne _ _ h]

theorem State.f_wr_self (s : State) (x : Field) (v : Word) : (s.wr x.addr v).f x = bitsOf v x.hi x.lo := by
  unfold State.f; rw [State.rd_wr_self]

theorem State.on_set_self (s : State) (x : Field) (n : Nat) (h : x.ok = true) :
    (s.set x n).on x = decide (n % 2 ^ (x.hi - x.lo + 1) ≠ 0) := by
  rw [State.on, State.f_set_self _ _ _ h]

theorem State.on_up (s : State) (x : Field) (h : x.ok = true) : (s.up x).on x = true := by
  rw [State.up, State.on_set_self _ _ _ h]
  simp only [decide_eq_true_eq]
  rw [Nat.mod_eq_of_lt (Nat.one_lt_two_pow (by omega))]
  decide

theorem State.on_down (s : State) (x : Field) (h : x.ok = true) : (s.down x).on x = false := by
  rw [State.down, State.on_set_self _ _ _ h]; simp

/-- A two-word value reads what was written, cut to its width. -/
theorem State.w_setW_self (s : State) (x : Wide) (n : Nat) (h : x.bits ≤ 64) : (s.setW x n).w x = n % 2 ^ x.bits := by
  unfold State.w State.setW
  simp only [State.rd_wr, ite_true, if_neg (show ¬ (x.addr = x.addr + 4) by omega), BitVec.toNat_ofNat]
  have hl : n % 2 ^ x.bits < 2 ^ 64 := Nat.lt_of_lt_of_le (Nat.mod_lt _ (Nat.pow_pos (by decide))) (Nat.pow_le_pow_right (by decide) h)
  rw [Nat.mod_eq_of_lt (show n % 2 ^ x.bits / 2 ^ 32 < 2 ^ 32 by omega), Nat.mod_add_div, Nat.mod_mod]

theorem State.rd_setW_ne (s : State) (x : Wide) (n a : Nat) (h1 : a ≠ x.addr) (h2 : a ≠ x.addr + 4) :
    (s.setW x n).rd a = s.rd a := by
  unfold State.setW
  simp only [State.rd_wr, if_neg h1, if_neg h2]

theorem State.f_setW_ne (s : State) (x : Wide) (n : Nat) (y : Field) (h1 : y.addr ≠ x.addr) (h2 : y.addr ≠ x.addr + 4) :
    (s.setW x n).f y = s.f y := by
  unfold State.f; rw [State.rd_setW_ne _ _ _ _ h1 h2]

theorem State.w_setW_ne (s : State) (x y : Wide) (n : Nat) (h1 : y.addr ≠ x.addr) (h2 : y.addr ≠ x.addr + 4)
    (h3 : y.addr + 4 ≠ x.addr) : (s.setW x n).w y = s.w y := by
  unfold State.w; rw [State.rd_setW_ne _ _ _ _ h1 h2, State.rd_setW_ne _ _ _ _ h3 (by omega)]

theorem State.w_set_ne (s : State) (x : Field) (y : Wide) (n : Nat) (h1 : y.addr ≠ x.addr) (h2 : y.addr + 4 ≠ x.addr) :
    (s.set x n).w y = s.w y := by
  unfold State.w; rw [State.rd_set_ne _ _ _ _ h1, State.rd_set_ne _ _ _ _ h2]

/-! ### The canonical form of the register file -/

/-- The register file lists rising addresses and no word at its reset value. -/
def regsWf (m : Map Word) : Prop := m.sorted = true ∧ ∀ e ∈ m, e.2 ≠ regReset e.1

theorem regsWf_wr {s : State} (h : regsWf s.regs) (a : Nat) (v : Word) : regsWf (s.wr a v).regs := by
  unfold State.wr
  show regsWf (if v = regReset a then s.regs.del a else s.regs.put a v)
  split
  · exact ⟨Map.sorted_del h.1 a, fun e he => h.2 e (Map.mem_del he)⟩
  · refine ⟨Map.sorted_put h.1 a v, fun e he => ?_⟩
    rcases Map.mem_put he with he | he
    · subst he; assumption
    · exact h.2 e he

theorem regsWf_filter {m : Map Word} (h : regsWf m) (p : Nat × Word → Bool) : regsWf (m.filter p) :=
  ⟨Map.sorted_filter h.1 p, fun e he => h.2 e (List.mem_filter.1 he).1⟩

end Sys2Proof.Machine
end

