-- ==== Sys2Proof/Laws/State.lean ====
section
/-! SUPPORT. What the register updates leave alone: one lemma per field of the state and update, true by definition; and that
the register file does not depend on the other fields. -/

namespace Sys2Proof.Machine

theorem State.rd_congr {s t : State} (h : t.regs = s.regs) (a : Nat) : t.rd a = s.rd a := by unfold State.rd; rw [h]

theorem State.f_congr {s t : State} (h : t.regs = s.regs) (x : Field) : t.f x = s.f x := by
  unfold State.f; rw [State.rd_congr h]

/-! ### `wr` -/

@[simp] theorem State.wr_pending (s : State) (a : Nat) (v : Word) : (s.wr a v).pending = s.pending := rfl
@[simp] theorem State.wr_hold (s : State) (a : Nat) (v : Word) : (s.wr a v).hold = s.hold := rfl
@[simp] theorem State.wr_readData (s : State) (a : Nat) (v : Word) : (s.wr a v).readData = s.readData := rfl
@[simp] theorem State.wr_now (s : State) (a : Nat) (v : Word) : (s.wr a v).now = s.now := rfl
@[simp] theorem State.wr_lt (s : State) (a : Nat) (v : Word) : (s.wr a v).lt = s.lt := rfl
@[simp] theorem State.wr_freeCtr (s : State) (a : Nat) (v : Word) : (s.wr a v).freeCtr = s.freeCtr := rfl
@[simp] theorem State.wr_shared (s : State) (a : Nat) (v : Word) : (s.wr a v).shared = s.shared := rfl
@[simp] theorem State.wr_bad (s : State) (a : Nat) (v : Word) : (s.wr a v).bad = s.bad := rfl
@[simp] theorem State.wr_dram (s : State) (a : Nat) (v : Word) : (s.wr a v).dram = s.dram := rfl
@[simp] theorem State.wr_mtm (s : State) (a : Nat) (v : Word) : (s.wr a v).mtm = s.mtm := rfl
@[simp] theorem State.wr_log (s : State) (a : Nat) (v : Word) : (s.wr a v).log = s.log := rfl
@[simp] theorem State.wr_prf (s : State) (a : Nat) (v : Word) : (s.wr a v).prf = s.prf := rfl
@[simp] theorem State.wr_cfg (s : State) (a : Nat) (v : Word) : (s.wr a v).cfg = s.cfg := rfl
@[simp] theorem State.wr_pwr (s : State) (a : Nat) (v : Word) : (s.wr a v).pwr = s.pwr := rfl
@[simp] theorem State.wr_asy (s : State) (a : Nat) (v : Word) : (s.wr a v).asy = s.asy := rfl
@[simp] theorem State.wr_fld (s : State) (a : Nat) (v : Word) : (s.wr a v).fld = s.fld := rfl
@[simp] theorem State.wr_tap (s : State) (a : Nat) (v : Word) : (s.wr a v).tap = s.tap := rfl
@[simp] theorem State.wr_cpu (s : State) (a : Nat) (v : Word) : (s.wr a v).cpu = s.cpu := rfl
@[simp] theorem State.wr_shf (s : State) (a : Nat) (v : Word) : (s.wr a v).shf = s.shf := rfl
@[simp] theorem State.wr_hif (s : State) (a : Nat) (v : Word) : (s.wr a v).hif = s.hif := rfl
@[simp] theorem State.wr_sgm (s : State) (a : Nat) (v : Word) : (s.wr a v).sgm = s.sgm := rfl
@[simp] theorem State.wr_rfc (s : State) (a : Nat) (v : Word) : (s.wr a v).rfc = s.rfc := rfl
@[simp] theorem State.wr_pkb (s : State) (a : Nat) (v : Word) : (s.wr a v).pkb = s.pkb := rfl
@[simp] theorem State.wr_wgc (s : State) (a : Nat) (v : Word) : (s.wr a v).wgc = s.wgc := rfl
@[simp] theorem State.wr_par (s : State) (a : Nat) (v : Word) : (s.wr a v).par = s.par := rfl
@[simp] theorem State.wr_flw (s : State) (a : Nat) (v : Word) : (s.wr a v).flw = s.flw := rfl
@[simp] theorem State.wr_sch (s : State) (a : Nat) (v : Word) : (s.wr a v).sch = s.sch := rfl
@[simp] theorem State.wr_ple (s : State) (a : Nat) (v : Word) : (s.wr a v).ple = s.ple := rfl
@[simp] theorem State.wr_rfa (s : State) (a : Nat) (v : Word) : (s.wr a v).rfa = s.rfa := rfl
@[simp] theorem State.wr_rfb (s : State) (a : Nat) (v : Word) : (s.wr a v).rfb = s.rfb := rfl
@[simp] theorem State.wr_wma (s : State) (a : Nat) (v : Word) : (s.wr a v).wma = s.wma := rfl
@[simp] theorem State.wr_cip (s : State) (a : Nat) (v : Word) : (s.wr a v).cip = s.cip := rfl
@[simp] theorem State.wr_eth (s : State) (a : Nat) (v : Word) : (s.wr a v).eth = s.eth := rfl
@[simp] theorem State.wr_drc (s : State) (a : Nat) (v : Word) : (s.wr a v).drc = s.drc := rfl

/-! ### `set` -/

@[simp] theorem State.set_pending (s : State) (x : Field) (n : Nat) : (s.set x n).pending = s.pending := State.wr_pending _ _ _
@[simp] theorem State.set_hold (s : State) (x : Field) (n : Nat) : (s.set x n).hold = s.hold := State.wr_hold _ _ _
@[simp] theorem State.set_readData (s : State) (x : Field) (n : Nat) : (s.set x n).readData = s.readData := State.wr_readData _ _ _
@[simp] theorem State.set_now (s : State) (x : Field) (n : Nat) : (s.set x n).now = s.now := State.wr_now _ _ _
@[simp] theorem State.set_lt (s : State) (x : Field) (n : Nat) : (s.set x n).lt = s.lt := State.wr_lt _ _ _
@[simp] theorem State.set_freeCtr (s : State) (x : Field) (n : Nat) : (s.set x n).freeCtr = s.freeCtr := State.wr_freeCtr _ _ _
@[simp] theorem State.set_shared (s : State) (x : Field) (n : Nat) : (s.set x n).shared = s.shared := State.wr_shared _ _ _
@[simp] theorem State.set_bad (s : State) (x : Field) (n : Nat) : (s.set x n).bad = s.bad := State.wr_bad _ _ _
@[simp] theorem State.set_dram (s : State) (x : Field) (n : Nat) : (s.set x n).dram = s.dram := State.wr_dram _ _ _
@[simp] theorem State.set_mtm (s : State) (x : Field) (n : Nat) : (s.set x n).mtm = s.mtm := State.wr_mtm _ _ _
@[simp] theorem State.set_log (s : State) (x : Field) (n : Nat) : (s.set x n).log = s.log := State.wr_log _ _ _
@[simp] theorem State.set_prf (s : State) (x : Field) (n : Nat) : (s.set x n).prf = s.prf := State.wr_prf _ _ _
@[simp] theorem State.set_cfg (s : State) (x : Field) (n : Nat) : (s.set x n).cfg = s.cfg := State.wr_cfg _ _ _
@[simp] theorem State.set_pwr (s : State) (x : Field) (n : Nat) : (s.set x n).pwr = s.pwr := State.wr_pwr _ _ _
@[simp] theorem State.set_asy (s : State) (x : Field) (n : Nat) : (s.set x n).asy = s.asy := State.wr_asy _ _ _
@[simp] theorem State.set_fld (s : State) (x : Field) (n : Nat) : (s.set x n).fld = s.fld := State.wr_fld _ _ _
@[simp] theorem State.set_tap (s : State) (x : Field) (n : Nat) : (s.set x n).tap = s.tap := State.wr_tap _ _ _
@[simp] theorem State.set_cpu (s : State) (x : Field) (n : Nat) : (s.set x n).cpu = s.cpu := State.wr_cpu _ _ _
@[simp] theorem State.set_shf (s : State) (x : Field) (n : Nat) : (s.set x n).shf = s.shf := State.wr_shf _ _ _
@[simp] theorem State.set_hif (s : State) (x : Field) (n : Nat) : (s.set x n).hif = s.hif := State.wr_hif _ _ _
@[simp] theorem State.set_sgm (s : State) (x : Field) (n : Nat) : (s.set x n).sgm = s.sgm := State.wr_sgm _ _ _
@[simp] theorem State.set_rfc (s : State) (x : Field) (n : Nat) : (s.set x n).rfc = s.rfc := State.wr_rfc _ _ _
@[simp] theorem State.set_pkb (s : State) (x : Field) (n : Nat) : (s.set x n).pkb = s.pkb := State.wr_pkb _ _ _
@[simp] theorem State.set_wgc (s : State) (x : Field) (n : Nat) : (s.set x n).wgc = s.wgc := State.wr_wgc _ _ _
@[simp] theorem State.set_par (s : State) (x : Field) (n : Nat) : (s.set x n).par = s.par := State.wr_par _ _ _
@[simp] theorem State.set_flw (s : State) (x : Field) (n : Nat) : (s.set x n).flw = s.flw := State.wr_flw _ _ _
@[simp] theorem State.set_sch (s : State) (x : Field) (n : Nat) : (s.set x n).sch = s.sch := State.wr_sch _ _ _
@[simp] theorem State.set_ple (s : State) (x : Field) (n : Nat) : (s.set x n).ple = s.ple := State.wr_ple _ _ _
@[simp] theorem State.set_rfa (s : State) (x : Field) (n : Nat) : (s.set x n).rfa = s.rfa := State.wr_rfa _ _ _
@[simp] theorem State.set_rfb (s : State) (x : Field) (n : Nat) : (s.set x n).rfb = s.rfb := State.wr_rfb _ _ _
@[simp] theorem State.set_wma (s : State) (x : Field) (n : Nat) : (s.set x n).wma = s.wma := State.wr_wma _ _ _
@[simp] theorem State.set_cip (s : State) (x : Field) (n : Nat) : (s.set x n).cip = s.cip := State.wr_cip _ _ _
@[simp] theorem State.set_eth (s : State) (x : Field) (n : Nat) : (s.set x n).eth = s.eth := State.wr_eth _ _ _
@[simp] theorem State.set_drc (s : State) (x : Field) (n : Nat) : (s.set x n).drc = s.drc := State.wr_drc _ _ _

/-! ### `up` -/

@[simp] theorem State.up_pending (s : State) (x : Field) : (s.up x).pending = s.pending := State.wr_pending _ _ _
@[simp] theorem State.up_hold (s : State) (x : Field) : (s.up x).hold = s.hold := State.wr_hold _ _ _
@[simp] theorem State.up_readData (s : State) (x : Field) : (s.up x).readData = s.readData := State.wr_readData _ _ _
@[simp] theorem State.up_now (s : State) (x : Field) : (s.up x).now = s.now := State.wr_now _ _ _
@[simp] theorem State.up_lt (s : State) (x : Field) : (s.up x).lt = s.lt := State.wr_lt _ _ _
@[simp] theorem State.up_freeCtr (s : State) (x : Field) : (s.up x).freeCtr = s.freeCtr := State.wr_freeCtr _ _ _
@[simp] theorem State.up_shared (s : State) (x : Field) : (s.up x).shared = s.shared := State.wr_shared _ _ _
@[simp] theorem State.up_bad (s : State) (x : Field) : (s.up x).bad = s.bad := State.wr_bad _ _ _
@[simp] theorem State.up_dram (s : State) (x : Field) : (s.up x).dram = s.dram := State.wr_dram _ _ _
@[simp] theorem State.up_mtm (s : State) (x : Field) : (s.up x).mtm = s.mtm := State.wr_mtm _ _ _
@[simp] theorem State.up_log (s : State) (x : Field) : (s.up x).log = s.log := State.wr_log _ _ _
@[simp] theorem State.up_prf (s : State) (x : Field) : (s.up x).prf = s.prf := State.wr_prf _ _ _
@[simp] theorem State.up_cfg (s : State) (x : Field) : (s.up x).cfg = s.cfg := State.wr_cfg _ _ _
@[simp] theorem State.up_pwr (s : State) (x : Field) : (s.up x).pwr = s.pwr := State.wr_pwr _ _ _
@[simp] theorem State.up_asy (s : State) (x : Field) : (s.up x).asy = s.asy := State.wr_asy _ _ _
@[simp] theorem State.up_fld (s : State) (x : Field) : (s.up x).fld = s.fld := State.wr_fld _ _ _
@[simp] theorem State.up_tap (s : State) (x : Field) : (s.up x).tap = s.tap := State.wr_tap _ _ _
@[simp] theorem State.up_cpu (s : State) (x : Field) : (s.up x).cpu = s.cpu := State.wr_cpu _ _ _
@[simp] theorem State.up_shf (s : State) (x : Field) : (s.up x).shf = s.shf := State.wr_shf _ _ _
@[simp] theorem State.up_hif (s : State) (x : Field) : (s.up x).hif = s.hif := State.wr_hif _ _ _
@[simp] theorem State.up_sgm (s : State) (x : Field) : (s.up x).sgm = s.sgm := State.wr_sgm _ _ _
@[simp] theorem State.up_rfc (s : State) (x : Field) : (s.up x).rfc = s.rfc := State.wr_rfc _ _ _
@[simp] theorem State.up_pkb (s : State) (x : Field) : (s.up x).pkb = s.pkb := State.wr_pkb _ _ _
@[simp] theorem State.up_wgc (s : State) (x : Field) : (s.up x).wgc = s.wgc := State.wr_wgc _ _ _
@[simp] theorem State.up_par (s : State) (x : Field) : (s.up x).par = s.par := State.wr_par _ _ _
@[simp] theorem State.up_flw (s : State) (x : Field) : (s.up x).flw = s.flw := State.wr_flw _ _ _
@[simp] theorem State.up_sch (s : State) (x : Field) : (s.up x).sch = s.sch := State.wr_sch _ _ _
@[simp] theorem State.up_ple (s : State) (x : Field) : (s.up x).ple = s.ple := State.wr_ple _ _ _
@[simp] theorem State.up_rfa (s : State) (x : Field) : (s.up x).rfa = s.rfa := State.wr_rfa _ _ _
@[simp] theorem State.up_rfb (s : State) (x : Field) : (s.up x).rfb = s.rfb := State.wr_rfb _ _ _
@[simp] theorem State.up_wma (s : State) (x : Field) : (s.up x).wma = s.wma := State.wr_wma _ _ _
@[simp] theorem State.up_cip (s : State) (x : Field) : (s.up x).cip = s.cip := State.wr_cip _ _ _
@[simp] theorem State.up_eth (s : State) (x : Field) : (s.up x).eth = s.eth := State.wr_eth _ _ _
@[simp] theorem State.up_drc (s : State) (x : Field) : (s.up x).drc = s.drc := State.wr_drc _ _ _

/-! ### `down` -/

@[simp] theorem State.down_pending (s : State) (x : Field) : (s.down x).pending = s.pending := State.wr_pending _ _ _
@[simp] theorem State.down_hold (s : State) (x : Field) : (s.down x).hold = s.hold := State.wr_hold _ _ _
@[simp] theorem State.down_readData (s : State) (x : Field) : (s.down x).readData = s.readData := State.wr_readData _ _ _
@[simp] theorem State.down_now (s : State) (x : Field) : (s.down x).now = s.now := State.wr_now _ _ _
@[simp] theorem State.down_lt (s : State) (x : Field) : (s.down x).lt = s.lt := State.wr_lt _ _ _
@[simp] theorem State.down_freeCtr (s : State) (x : Field) : (s.down x).freeCtr = s.freeCtr := State.wr_freeCtr _ _ _
@[simp] theorem State.down_shared (s : State) (x : Field) : (s.down x).shared = s.shared := State.wr_shared _ _ _
@[simp] theorem State.down_bad (s : State) (x : Field) : (s.down x).bad = s.bad := State.wr_bad _ _ _
@[simp] theorem State.down_dram (s : State) (x : Field) : (s.down x).dram = s.dram := State.wr_dram _ _ _
@[simp] theorem State.down_mtm (s : State) (x : Field) : (s.down x).mtm = s.mtm := State.wr_mtm _ _ _
@[simp] theorem State.down_log (s : State) (x : Field) : (s.down x).log = s.log := State.wr_log _ _ _
@[simp] theorem State.down_prf (s : State) (x : Field) : (s.down x).prf = s.prf := State.wr_prf _ _ _
@[simp] theorem State.down_cfg (s : State) (x : Field) : (s.down x).cfg = s.cfg := State.wr_cfg _ _ _
@[simp] theorem State.down_pwr (s : State) (x : Field) : (s.down x).pwr = s.pwr := State.wr_pwr _ _ _
@[simp] theorem State.down_asy (s : State) (x : Field) : (s.down x).asy = s.asy := State.wr_asy _ _ _
@[simp] theorem State.down_fld (s : State) (x : Field) : (s.down x).fld = s.fld := State.wr_fld _ _ _
@[simp] theorem State.down_tap (s : State) (x : Field) : (s.down x).tap = s.tap := State.wr_tap _ _ _
@[simp] theorem State.down_cpu (s : State) (x : Field) : (s.down x).cpu = s.cpu := State.wr_cpu _ _ _
@[simp] theorem State.down_shf (s : State) (x : Field) : (s.down x).shf = s.shf := State.wr_shf _ _ _
@[simp] theorem State.down_hif (s : State) (x : Field) : (s.down x).hif = s.hif := State.wr_hif _ _ _
@[simp] theorem State.down_sgm (s : State) (x : Field) : (s.down x).sgm = s.sgm := State.wr_sgm _ _ _
@[simp] theorem State.down_rfc (s : State) (x : Field) : (s.down x).rfc = s.rfc := State.wr_rfc _ _ _
@[simp] theorem State.down_pkb (s : State) (x : Field) : (s.down x).pkb = s.pkb := State.wr_pkb _ _ _
@[simp] theorem State.down_wgc (s : State) (x : Field) : (s.down x).wgc = s.wgc := State.wr_wgc _ _ _
@[simp] theorem State.down_par (s : State) (x : Field) : (s.down x).par = s.par := State.wr_par _ _ _
@[simp] theorem State.down_flw (s : State) (x : Field) : (s.down x).flw = s.flw := State.wr_flw _ _ _
@[simp] theorem State.down_sch (s : State) (x : Field) : (s.down x).sch = s.sch := State.wr_sch _ _ _
@[simp] theorem State.down_ple (s : State) (x : Field) : (s.down x).ple = s.ple := State.wr_ple _ _ _
@[simp] theorem State.down_rfa (s : State) (x : Field) : (s.down x).rfa = s.rfa := State.wr_rfa _ _ _
@[simp] theorem State.down_rfb (s : State) (x : Field) : (s.down x).rfb = s.rfb := State.wr_rfb _ _ _
@[simp] theorem State.down_wma (s : State) (x : Field) : (s.down x).wma = s.wma := State.wr_wma _ _ _
@[simp] theorem State.down_cip (s : State) (x : Field) : (s.down x).cip = s.cip := State.wr_cip _ _ _
@[simp] theorem State.down_eth (s : State) (x : Field) : (s.down x).eth = s.eth := State.wr_eth _ _ _
@[simp] theorem State.down_drc (s : State) (x : Field) : (s.down x).drc = s.drc := State.wr_drc _ _ _

/-! ### `put` -/

@[simp] theorem State.put_pending (s : State) (x : Field) (b : Bool) : (s.put x b).pending = s.pending := State.wr_pending _ _ _
@[simp] theorem State.put_hold (s : State) (x : Field) (b : Bool) : (s.put x b).hold = s.hold := State.wr_hold _ _ _
@[simp] theorem State.put_readData (s : State) (x : Field) (b : Bool) : (s.put x b).readData = s.readData := State.wr_readData _ _ _
@[simp] theorem State.put_now (s : State) (x : Field) (b : Bool) : (s.put x b).now = s.now := State.wr_now _ _ _
@[simp] theorem State.put_lt (s : State) (x : Field) (b : Bool) : (s.put x b).lt = s.lt := State.wr_lt _ _ _
@[simp] theorem State.put_freeCtr (s : State) (x : Field) (b : Bool) : (s.put x b).freeCtr = s.freeCtr := State.wr_freeCtr _ _ _
@[simp] theorem State.put_shared (s : State) (x : Field) (b : Bool) : (s.put x b).shared = s.shared := State.wr_shared _ _ _
@[simp] theorem State.put_bad (s : State) (x : Field) (b : Bool) : (s.put x b).bad = s.bad := State.wr_bad _ _ _
@[simp] theorem State.put_dram (s : State) (x : Field) (b : Bool) : (s.put x b).dram = s.dram := State.wr_dram _ _ _
@[simp] theorem State.put_mtm (s : State) (x : Field) (b : Bool) : (s.put x b).mtm = s.mtm := State.wr_mtm _ _ _
@[simp] theorem State.put_log (s : State) (x : Field) (b : Bool) : (s.put x b).log = s.log := State.wr_log _ _ _
@[simp] theorem State.put_prf (s : State) (x : Field) (b : Bool) : (s.put x b).prf = s.prf := State.wr_prf _ _ _
@[simp] theorem State.put_cfg (s : State) (x : Field) (b : Bool) : (s.put x b).cfg = s.cfg := State.wr_cfg _ _ _
@[simp] theorem State.put_pwr (s : State) (x : Field) (b : Bool) : (s.put x b).pwr = s.pwr := State.wr_pwr _ _ _
@[simp] theorem State.put_asy (s : State) (x : Field) (b : Bool) : (s.put x b).asy = s.asy := State.wr_asy _ _ _
@[simp] theorem State.put_fld (s : State) (x : Field) (b : Bool) : (s.put x b).fld = s.fld := State.wr_fld _ _ _
@[simp] theorem State.put_tap (s : State) (x : Field) (b : Bool) : (s.put x b).tap = s.tap := State.wr_tap _ _ _
@[simp] theorem State.put_cpu (s : State) (x : Field) (b : Bool) : (s.put x b).cpu = s.cpu := State.wr_cpu _ _ _
@[simp] theorem State.put_shf (s : State) (x : Field) (b : Bool) : (s.put x b).shf = s.shf := State.wr_shf _ _ _
@[simp] theorem State.put_hif (s : State) (x : Field) (b : Bool) : (s.put x b).hif = s.hif := State.wr_hif _ _ _
@[simp] theorem State.put_sgm (s : State) (x : Field) (b : Bool) : (s.put x b).sgm = s.sgm := State.wr_sgm _ _ _
@[simp] theorem State.put_rfc (s : State) (x : Field) (b : Bool) : (s.put x b).rfc = s.rfc := State.wr_rfc _ _ _
@[simp] theorem State.put_pkb (s : State) (x : Field) (b : Bool) : (s.put x b).pkb = s.pkb := State.wr_pkb _ _ _
@[simp] theorem State.put_wgc (s : State) (x : Field) (b : Bool) : (s.put x b).wgc = s.wgc := State.wr_wgc _ _ _
@[simp] theorem State.put_par (s : State) (x : Field) (b : Bool) : (s.put x b).par = s.par := State.wr_par _ _ _
@[simp] theorem State.put_flw (s : State) (x : Field) (b : Bool) : (s.put x b).flw = s.flw := State.wr_flw _ _ _
@[simp] theorem State.put_sch (s : State) (x : Field) (b : Bool) : (s.put x b).sch = s.sch := State.wr_sch _ _ _
@[simp] theorem State.put_ple (s : State) (x : Field) (b : Bool) : (s.put x b).ple = s.ple := State.wr_ple _ _ _
@[simp] theorem State.put_rfa (s : State) (x : Field) (b : Bool) : (s.put x b).rfa = s.rfa := State.wr_rfa _ _ _
@[simp] theorem State.put_rfb (s : State) (x : Field) (b : Bool) : (s.put x b).rfb = s.rfb := State.wr_rfb _ _ _
@[simp] theorem State.put_wma (s : State) (x : Field) (b : Bool) : (s.put x b).wma = s.wma := State.wr_wma _ _ _
@[simp] theorem State.put_cip (s : State) (x : Field) (b : Bool) : (s.put x b).cip = s.cip := State.wr_cip _ _ _
@[simp] theorem State.put_eth (s : State) (x : Field) (b : Bool) : (s.put x b).eth = s.eth := State.wr_eth _ _ _
@[simp] theorem State.put_drc (s : State) (x : Field) (b : Bool) : (s.put x b).drc = s.drc := State.wr_drc _ _ _

/-! ### `setW` -/

@[simp] theorem State.setW_pending (s : State) (x : Wide) (n : Nat) : (s.setW x n).pending = s.pending := (State.wr_pending _ _ _).trans (State.wr_pending _ _ _)
@[simp] theorem State.setW_hold (s : State) (x : Wide) (n : Nat) : (s.setW x n).hold = s.hold := (State.wr_hold _ _ _).trans (State.wr_hold _ _ _)
@[simp] theorem State.setW_readData (s : State) (x : Wide) (n : Nat) : (s.setW x n).readData = s.readData := (State.wr_readData _ _ _).trans (State.wr_readData _ _ _)
@[simp] theorem State.setW_now (s : State) (x : Wide) (n : Nat) : (s.setW x n).now = s.now := (State.wr_now _ _ _).trans (State.wr_now _ _ _)
@[simp] theorem State.setW_lt (s : State) (x : Wide) (n : Nat) : (s.setW x n).lt = s.lt := (State.wr_lt _ _ _).trans (State.wr_lt _ _ _)
@[simp] theorem State.setW_freeCtr (s : State) (x : Wide) (n : Nat) : (s.setW x n).freeCtr = s.freeCtr := (State.wr_freeCtr _ _ _).trans (State.wr_freeCtr _ _ _)
@[simp] theorem State.setW_shared (s : State) (x : Wide) (n : Nat) : (s.setW x n).shared = s.shared := (State.wr_shared _ _ _).trans (State.wr_shared _ _ _)
@[simp] theorem State.setW_bad (s : State) (x : Wide) (n : Nat) : (s.setW x n).bad = s.bad := (State.wr_bad _ _ _).trans (State.wr_bad _ _ _)
@[simp] theorem State.setW_dram (s : State) (x : Wide) (n : Nat) : (s.setW x n).dram = s.dram := (State.wr_dram _ _ _).trans (State.wr_dram _ _ _)
@[simp] theorem State.setW_mtm (s : State) (x : Wide) (n : Nat) : (s.setW x n).mtm = s.mtm := (State.wr_mtm _ _ _).trans (State.wr_mtm _ _ _)
@[simp] theorem State.setW_log (s : State) (x : Wide) (n : Nat) : (s.setW x n).log = s.log := (State.wr_log _ _ _).trans (State.wr_log _ _ _)
@[simp] theorem State.setW_prf (s : State) (x : Wide) (n : Nat) : (s.setW x n).prf = s.prf := (State.wr_prf _ _ _).trans (State.wr_prf _ _ _)
@[simp] theorem State.setW_cfg (s : State) (x : Wide) (n : Nat) : (s.setW x n).cfg = s.cfg := (State.wr_cfg _ _ _).trans (State.wr_cfg _ _ _)
@[simp] theorem State.setW_pwr (s : State) (x : Wide) (n : Nat) : (s.setW x n).pwr = s.pwr := (State.wr_pwr _ _ _).trans (State.wr_pwr _ _ _)
@[simp] theorem State.setW_asy (s : State) (x : Wide) (n : Nat) : (s.setW x n).asy = s.asy := (State.wr_asy _ _ _).trans (State.wr_asy _ _ _)
@[simp] theorem State.setW_fld (s : State) (x : Wide) (n : Nat) : (s.setW x n).fld = s.fld := (State.wr_fld _ _ _).trans (State.wr_fld _ _ _)
@[simp] theorem State.setW_tap (s : State) (x : Wide) (n : Nat) : (s.setW x n).tap = s.tap := (State.wr_tap _ _ _).trans (State.wr_tap _ _ _)
@[simp] theorem State.setW_cpu (s : State) (x : Wide) (n : Nat) : (s.setW x n).cpu = s.cpu := (State.wr_cpu _ _ _).trans (State.wr_cpu _ _ _)
@[simp] theorem State.setW_shf (s : State) (x : Wide) (n : Nat) : (s.setW x n).shf = s.shf := (State.wr_shf _ _ _).trans (State.wr_shf _ _ _)
@[simp] theorem State.setW_hif (s : State) (x : Wide) (n : Nat) : (s.setW x n).hif = s.hif := (State.wr_hif _ _ _).trans (State.wr_hif _ _ _)
@[simp] theorem State.setW_sgm (s : State) (x : Wide) (n : Nat) : (s.setW x n).sgm = s.sgm := (State.wr_sgm _ _ _).trans (State.wr_sgm _ _ _)
@[simp] theorem State.setW_rfc (s : State) (x : Wide) (n : Nat) : (s.setW x n).rfc = s.rfc := (State.wr_rfc _ _ _).trans (State.wr_rfc _ _ _)
@[simp] theorem State.setW_pkb (s : State) (x : Wide) (n : Nat) : (s.setW x n).pkb = s.pkb := (State.wr_pkb _ _ _).trans (State.wr_pkb _ _ _)
@[simp] theorem State.setW_wgc (s : State) (x : Wide) (n : Nat) : (s.setW x n).wgc = s.wgc := (State.wr_wgc _ _ _).trans (State.wr_wgc _ _ _)
@[simp] theorem State.setW_par (s : State) (x : Wide) (n : Nat) : (s.setW x n).par = s.par := (State.wr_par _ _ _).trans (State.wr_par _ _ _)
@[simp] theorem State.setW_flw (s : State) (x : Wide) (n : Nat) : (s.setW x n).flw = s.flw := (State.wr_flw _ _ _).trans (State.wr_flw _ _ _)
@[simp] theorem State.setW_sch (s : State) (x : Wide) (n : Nat) : (s.setW x n).sch = s.sch := (State.wr_sch _ _ _).trans (State.wr_sch _ _ _)
@[simp] theorem State.setW_ple (s : State) (x : Wide) (n : Nat) : (s.setW x n).ple = s.ple := (State.wr_ple _ _ _).trans (State.wr_ple _ _ _)
@[simp] theorem State.setW_rfa (s : State) (x : Wide) (n : Nat) : (s.setW x n).rfa = s.rfa := (State.wr_rfa _ _ _).trans (State.wr_rfa _ _ _)
@[simp] theorem State.setW_rfb (s : State) (x : Wide) (n : Nat) : (s.setW x n).rfb = s.rfb := (State.wr_rfb _ _ _).trans (State.wr_rfb _ _ _)
@[simp] theorem State.setW_wma (s : State) (x : Wide) (n : Nat) : (s.setW x n).wma = s.wma := (State.wr_wma _ _ _).trans (State.wr_wma _ _ _)
@[simp] theorem State.setW_cip (s : State) (x : Wide) (n : Nat) : (s.setW x n).cip = s.cip := (State.wr_cip _ _ _).trans (State.wr_cip _ _ _)
@[simp] theorem State.setW_eth (s : State) (x : Wide) (n : Nat) : (s.setW x n).eth = s.eth := (State.wr_eth _ _ _).trans (State.wr_eth _ _ _)
@[simp] theorem State.setW_drc (s : State) (x : Wide) (n : Nat) : (s.setW x n).drc = s.drc := (State.wr_drc _ _ _).trans (State.wr_drc _ _ _)

/-! ### `cmdIs` -/

@[simp] theorem State.cmdIs_pending (s : State) (a st r : Nat) : (s.cmdIs a st r).pending = s.pending := (State.set_pending _ _ _).trans (State.set_pending _ _ _)
@[simp] theorem State.cmdIs_hold (s : State) (a st r : Nat) : (s.cmdIs a st r).hold = s.hold := (State.set_hold _ _ _).trans (State.set_hold _ _ _)
@[simp] theorem State.cmdIs_readData (s : State) (a st r : Nat) : (s.cmdIs a st r).readData = s.readData := (State.set_readData _ _ _).trans (State.set_readData _ _ _)
@[simp] theorem State.cmdIs_now (s : State) (a st r : Nat) : (s.cmdIs a st r).now = s.now := (State.set_now _ _ _).trans (State.set_now _ _ _)
@[simp] theorem State.cmdIs_lt (s : State) (a st r : Nat) : (s.cmdIs a st r).lt = s.lt := (State.set_lt _ _ _).trans (State.set_lt _ _ _)
@[simp] theorem State.cmdIs_freeCtr (s : State) (a st r : Nat) : (s.cmdIs a st r).freeCtr = s.freeCtr := (State.set_freeCtr _ _ _).trans (State.set_freeCtr _ _ _)
@[simp] theorem State.cmdIs_shared (s : State) (a st r : Nat) : (s.cmdIs a st r).shared = s.shared := (State.set_shared _ _ _).trans (State.set_shared _ _ _)
@[simp] theorem State.cmdIs_bad (s : State) (a st r : Nat) : (s.cmdIs a st r).bad = s.bad := (State.set_bad _ _ _).trans (State.set_bad _ _ _)
@[simp] theorem State.cmdIs_dram (s : State) (a st r : Nat) : (s.cmdIs a st r).dram = s.dram := (State.set_dram _ _ _).trans (State.set_dram _ _ _)
@[simp] theorem State.cmdIs_mtm (s : State) (a st r : Nat) : (s.cmdIs a st r).mtm = s.mtm := (State.set_mtm _ _ _).trans (State.set_mtm _ _ _)
@[simp] theorem State.cmdIs_log (s : State) (a st r : Nat) : (s.cmdIs a st r).log = s.log := (State.set_log _ _ _).trans (State.set_log _ _ _)
@[simp] theorem State.cmdIs_prf (s : State) (a st r : Nat) : (s.cmdIs a st r).prf = s.prf := (State.set_prf _ _ _).trans (State.set_prf _ _ _)
@[simp] theorem State.cmdIs_cfg (s : State) (a st r : Nat) : (s.cmdIs a st r).cfg = s.cfg := (State.set_cfg _ _ _).trans (State.set_cfg _ _ _)
@[simp] theorem State.cmdIs_pwr (s : State) (a st r : Nat) : (s.cmdIs a st r).pwr = s.pwr := (State.set_pwr _ _ _).trans (State.set_pwr _ _ _)
@[simp] theorem State.cmdIs_asy (s : State) (a st r : Nat) : (s.cmdIs a st r).asy = s.asy := (State.set_asy _ _ _).trans (State.set_asy _ _ _)
@[simp] theorem State.cmdIs_fld (s : State) (a st r : Nat) : (s.cmdIs a st r).fld = s.fld := (State.set_fld _ _ _).trans (State.set_fld _ _ _)
@[simp] theorem State.cmdIs_tap (s : State) (a st r : Nat) : (s.cmdIs a st r).tap = s.tap := (State.set_tap _ _ _).trans (State.set_tap _ _ _)
@[simp] theorem State.cmdIs_cpu (s : State) (a st r : Nat) : (s.cmdIs a st r).cpu = s.cpu := (State.set_cpu _ _ _).trans (State.set_cpu _ _ _)
@[simp] theorem State.cmdIs_shf (s : State) (a st r : Nat) : (s.cmdIs a st r).shf = s.shf := (State.set_shf _ _ _).trans (State.set_shf _ _ _)
@[simp] theorem State.cmdIs_hif (s : State) (a st r : Nat) : (s.cmdIs a st r).hif = s.hif := (State.set_hif _ _ _).trans (State.set_hif _ _ _)
@[simp] theorem State.cmdIs_sgm (s : State) (a st r : Nat) : (s.cmdIs a st r).sgm = s.sgm := (State.set_sgm _ _ _).trans (State.set_sgm _ _ _)
@[simp] theorem State.cmdIs_rfc (s : State) (a st r : Nat) : (s.cmdIs a st r).rfc = s.rfc := (State.set_rfc _ _ _).trans (State.set_rfc _ _ _)
@[simp] theorem State.cmdIs_pkb (s : State) (a st r : Nat) : (s.cmdIs a st r).pkb = s.pkb := (State.set_pkb _ _ _).trans (State.set_pkb _ _ _)
@[simp] theorem State.cmdIs_wgc (s : State) (a st r : Nat) : (s.cmdIs a st r).wgc = s.wgc := (State.set_wgc _ _ _).trans (State.set_wgc _ _ _)
@[simp] theorem State.cmdIs_par (s : State) (a st r : Nat) : (s.cmdIs a st r).par = s.par := (State.set_par _ _ _).trans (State.set_par _ _ _)
@[simp] theorem State.cmdIs_flw (s : State) (a st r : Nat) : (s.cmdIs a st r).flw = s.flw := (State.set_flw _ _ _).trans (State.set_flw _ _ _)
@[simp] theorem State.cmdIs_sch (s : State) (a st r : Nat) : (s.cmdIs a st r).sch = s.sch := (State.set_sch _ _ _).trans (State.set_sch _ _ _)
@[simp] theorem State.cmdIs_ple (s : State) (a st r : Nat) : (s.cmdIs a st r).ple = s.ple := (State.set_ple _ _ _).trans (State.set_ple _ _ _)
@[simp] theorem State.cmdIs_rfa (s : State) (a st r : Nat) : (s.cmdIs a st r).rfa = s.rfa := (State.set_rfa _ _ _).trans (State.set_rfa _ _ _)
@[simp] theorem State.cmdIs_rfb (s : State) (a st r : Nat) : (s.cmdIs a st r).rfb = s.rfb := (State.set_rfb _ _ _).trans (State.set_rfb _ _ _)
@[simp] theorem State.cmdIs_wma (s : State) (a st r : Nat) : (s.cmdIs a st r).wma = s.wma := (State.set_wma _ _ _).trans (State.set_wma _ _ _)
@[simp] theorem State.cmdIs_cip (s : State) (a st r : Nat) : (s.cmdIs a st r).cip = s.cip := (State.set_cip _ _ _).trans (State.set_cip _ _ _)
@[simp] theorem State.cmdIs_eth (s : State) (a st r : Nat) : (s.cmdIs a st r).eth = s.eth := (State.set_eth _ _ _).trans (State.set_eth _ _ _)
@[simp] theorem State.cmdIs_drc (s : State) (a st r : Nat) : (s.cmdIs a st r).drc = s.drc := (State.set_drc _ _ _).trans (State.set_drc _ _ _)

/-! ### `cmdDone` -/

@[simp] theorem State.cmdDone_pending (s : State) (a r : Nat) : (s.cmdDone a r).pending = s.pending := State.cmdIs_pending _ _ _ _
@[simp] theorem State.cmdDone_hold (s : State) (a r : Nat) : (s.cmdDone a r).hold = s.hold := State.cmdIs_hold _ _ _ _
@[simp] theorem State.cmdDone_readData (s : State) (a r : Nat) : (s.cmdDone a r).readData = s.readData := State.cmdIs_readData _ _ _ _
@[simp] theorem State.cmdDone_now (s : State) (a r : Nat) : (s.cmdDone a r).now = s.now := State.cmdIs_now _ _ _ _
@[simp] theorem State.cmdDone_lt (s : State) (a r : Nat) : (s.cmdDone a r).lt = s.lt := State.cmdIs_lt _ _ _ _
@[simp] theorem State.cmdDone_freeCtr (s : State) (a r : Nat) : (s.cmdDone a r).freeCtr = s.freeCtr := State.cmdIs_freeCtr _ _ _ _
@[simp] theorem State.cmdDone_shared (s : State) (a r : Nat) : (s.cmdDone a r).shared = s.shared := State.cmdIs_shared _ _ _ _
@[simp] theorem State.cmdDone_bad (s : State) (a r : Nat) : (s.cmdDone a r).bad = s.bad := State.cmdIs_bad _ _ _ _
@[simp] theorem State.cmdDone_dram (s : State) (a r : Nat) : (s.cmdDone a r).dram = s.dram := State.cmdIs_dram _ _ _ _
@[simp] theorem State.cmdDone_mtm (s : State) (a r : Nat) : (s.cmdDone a r).mtm = s.mtm := State.cmdIs_mtm _ _ _ _
@[simp] theorem State.cmdDone_log (s : State) (a r : Nat) : (s.cmdDone a r).log = s.log := State.cmdIs_log _ _ _ _
@[simp] theorem State.cmdDone_prf (s : State) (a r : Nat) : (s.cmdDone a r).prf = s.prf := State.cmdIs_prf _ _ _ _
@[simp] theorem State.cmdDone_cfg (s : State) (a r : Nat) : (s.cmdDone a r).cfg = s.cfg := State.cmdIs_cfg _ _ _ _
@[simp] theorem State.cmdDone_pwr (s : State) (a r : Nat) : (s.cmdDone a r).pwr = s.pwr := State.cmdIs_pwr _ _ _ _
@[simp] theorem State.cmdDone_asy (s : State) (a r : Nat) : (s.cmdDone a r).asy = s.asy := State.cmdIs_asy _ _ _ _
@[simp] theorem State.cmdDone_fld (s : State) (a r : Nat) : (s.cmdDone a r).fld = s.fld := State.cmdIs_fld _ _ _ _
@[simp] theorem State.cmdDone_tap (s : State) (a r : Nat) : (s.cmdDone a r).tap = s.tap := State.cmdIs_tap _ _ _ _
@[simp] theorem State.cmdDone_cpu (s : State) (a r : Nat) : (s.cmdDone a r).cpu = s.cpu := State.cmdIs_cpu _ _ _ _
@[simp] theorem State.cmdDone_shf (s : State) (a r : Nat) : (s.cmdDone a r).shf = s.shf := State.cmdIs_shf _ _ _ _
@[simp] theorem State.cmdDone_hif (s : State) (a r : Nat) : (s.cmdDone a r).hif = s.hif := State.cmdIs_hif _ _ _ _
@[simp] theorem State.cmdDone_sgm (s : State) (a r : Nat) : (s.cmdDone a r).sgm = s.sgm := State.cmdIs_sgm _ _ _ _
@[simp] theorem State.cmdDone_rfc (s : State) (a r : Nat) : (s.cmdDone a r).rfc = s.rfc := State.cmdIs_rfc _ _ _ _
@[simp] theorem State.cmdDone_pkb (s : State) (a r : Nat) : (s.cmdDone a r).pkb = s.pkb := State.cmdIs_pkb _ _ _ _
@[simp] theorem State.cmdDone_wgc (s : State) (a r : Nat) : (s.cmdDone a r).wgc = s.wgc := State.cmdIs_wgc _ _ _ _
@[simp] theorem State.cmdDone_par (s : State) (a r : Nat) : (s.cmdDone a r).par = s.par := State.cmdIs_par _ _ _ _
@[simp] theorem State.cmdDone_flw (s : State) (a r : Nat) : (s.cmdDone a r).flw = s.flw := State.cmdIs_flw _ _ _ _
@[simp] theorem State.cmdDone_sch (s : State) (a r : Nat) : (s.cmdDone a r).sch = s.sch := State.cmdIs_sch _ _ _ _
@[simp] theorem State.cmdDone_ple (s : State) (a r : Nat) : (s.cmdDone a r).ple = s.ple := State.cmdIs_ple _ _ _ _
@[simp] theorem State.cmdDone_rfa (s : State) (a r : Nat) : (s.cmdDone a r).rfa = s.rfa := State.cmdIs_rfa _ _ _ _
@[simp] theorem State.cmdDone_rfb (s : State) (a r : Nat) : (s.cmdDone a r).rfb = s.rfb := State.cmdIs_rfb _ _ _ _
@[simp] theorem State.cmdDone_wma (s : State) (a r : Nat) : (s.cmdDone a r).wma = s.wma := State.cmdIs_wma _ _ _ _
@[simp] theorem State.cmdDone_cip (s : State) (a r : Nat) : (s.cmdDone a r).cip = s.cip := State.cmdIs_cip _ _ _ _
@[simp] theorem State.cmdDone_eth (s : State) (a r : Nat) : (s.cmdDone a r).eth = s.eth := State.cmdIs_eth _ _ _ _
@[simp] theorem State.cmdDone_drc (s : State) (a r : Nat) : (s.cmdDone a r).drc = s.drc := State.cmdIs_drc _ _ _ _

/-! ### `cmdError` -/

@[simp] theorem State.cmdError_pending (s : State) (a r : Nat) : (s.cmdError a r).pending = s.pending := State.cmdIs_pending _ _ _ _
@[simp] theorem State.cmdError_hold (s : State) (a r : Nat) : (s.cmdError a r).hold = s.hold := State.cmdIs_hold _ _ _ _
@[simp] theorem State.cmdError_readData (s : State) (a r : Nat) : (s.cmdError a r).readData = s.readData := State.cmdIs_readData _ _ _ _
@[simp] theorem State.cmdError_now (s : State) (a r : Nat) : (s.cmdError a r).now = s.now := State.cmdIs_now _ _ _ _
@[simp] theorem State.cmdError_lt (s : State) (a r : Nat) : (s.cmdError a r).lt = s.lt := State.cmdIs_lt _ _ _ _
@[simp] theorem State.cmdError_freeCtr (s : State) (a r : Nat) : (s.cmdError a r).freeCtr = s.freeCtr := State.cmdIs_freeCtr _ _ _ _
@[simp] theorem State.cmdError_shared (s : State) (a r : Nat) : (s.cmdError a r).shared = s.shared := State.cmdIs_shared _ _ _ _
@[simp] theorem State.cmdError_bad (s : State) (a r : Nat) : (s.cmdError a r).bad = s.bad := State.cmdIs_bad _ _ _ _
@[simp] theorem State.cmdError_dram (s : State) (a r : Nat) : (s.cmdError a r).dram = s.dram := State.cmdIs_dram _ _ _ _
@[simp] theorem State.cmdError_mtm (s : State) (a r : Nat) : (s.cmdError a r).mtm = s.mtm := State.cmdIs_mtm _ _ _ _
@[simp] theorem State.cmdError_log (s : State) (a r : Nat) : (s.cmdError a r).log = s.log := State.cmdIs_log _ _ _ _
@[simp] theorem State.cmdError_prf (s : State) (a r : Nat) : (s.cmdError a r).prf = s.prf := State.cmdIs_prf _ _ _ _
@[simp] theorem State.cmdError_cfg (s : State) (a r : Nat) : (s.cmdError a r).cfg = s.cfg := State.cmdIs_cfg _ _ _ _
@[simp] theorem State.cmdError_pwr (s : State) (a r : Nat) : (s.cmdError a r).pwr = s.pwr := State.cmdIs_pwr _ _ _ _
@[simp] theorem State.cmdError_asy (s : State) (a r : Nat) : (s.cmdError a r).asy = s.asy := State.cmdIs_asy _ _ _ _
@[simp] theorem State.cmdError_fld (s : State) (a r : Nat) : (s.cmdError a r).fld = s.fld := State.cmdIs_fld _ _ _ _
@[simp] theorem State.cmdError_tap (s : State) (a r : Nat) : (s.cmdError a r).tap = s.tap := State.cmdIs_tap _ _ _ _
@[simp] theorem State.cmdError_cpu (s : State) (a r : Nat) : (s.cmdError a r).cpu = s.cpu := State.cmdIs_cpu _ _ _ _
@[simp] theorem State.cmdError_shf (s : State) (a r : Nat) : (s.cmdError a r).shf = s.shf := State.cmdIs_shf _ _ _ _
@[simp] theorem State.cmdError_hif (s : State) (a r : Nat) : (s.cmdError a r).hif = s.hif := State.cmdIs_hif _ _ _ _
@[simp] theorem State.cmdError_sgm (s : State) (a r : Nat) : (s.cmdError a r).sgm = s.sgm := State.cmdIs_sgm _ _ _ _
@[simp] theorem State.cmdError_rfc (s : State) (a r : Nat) : (s.cmdError a r).rfc = s.rfc := State.cmdIs_rfc _ _ _ _
@[simp] theorem State.cmdError_pkb (s : State) (a r : Nat) : (s.cmdError a r).pkb = s.pkb := State.cmdIs_pkb _ _ _ _
@[simp] theorem State.cmdError_wgc (s : State) (a r : Nat) : (s.cmdError a r).wgc = s.wgc := State.cmdIs_wgc _ _ _ _
@[simp] theorem State.cmdError_par (s : State) (a r : Nat) : (s.cmdError a r).par = s.par := State.cmdIs_par _ _ _ _
@[simp] theorem State.cmdError_flw (s : State) (a r : Nat) : (s.cmdError a r).flw = s.flw := State.cmdIs_flw _ _ _ _
@[simp] theorem State.cmdError_sch (s : State) (a r : Nat) : (s.cmdError a r).sch = s.sch := State.cmdIs_sch _ _ _ _
@[simp] theorem State.cmdError_ple (s : State) (a r : Nat) : (s.cmdError a r).ple = s.ple := State.cmdIs_ple _ _ _ _
@[simp] theorem State.cmdError_rfa (s : State) (a r : Nat) : (s.cmdError a r).rfa = s.rfa := State.cmdIs_rfa _ _ _ _
@[simp] theorem State.cmdError_rfb (s : State) (a r : Nat) : (s.cmdError a r).rfb = s.rfb := State.cmdIs_rfb _ _ _ _
@[simp] theorem State.cmdError_wma (s : State) (a r : Nat) : (s.cmdError a r).wma = s.wma := State.cmdIs_wma _ _ _ _
@[simp] theorem State.cmdError_cip (s : State) (a r : Nat) : (s.cmdError a r).cip = s.cip := State.cmdIs_cip _ _ _ _
@[simp] theorem State.cmdError_eth (s : State) (a r : Nat) : (s.cmdError a r).eth = s.eth := State.cmdIs_eth _ _ _ _
@[simp] theorem State.cmdError_drc (s : State) (a r : Nat) : (s.cmdError a r).drc = s.drc := State.cmdIs_drc _ _ _ _

/-! ### `cmdBusy` -/

@[simp] theorem State.cmdBusy_pending (s : State) (a : Nat) : (s.cmdBusy a).pending = s.pending := State.set_pending _ _ _
@[simp] theorem State.cmdBusy_hold (s : State) (a : Nat) : (s.cmdBusy a).hold = s.hold := State.set_hold _ _ _
@[simp] theorem State.cmdBusy_readData (s : State) (a : Nat) : (s.cmdBusy a).readData = s.readData := State.set_readData _ _ _
@[simp] theorem State.cmdBusy_now (s : State) (a : Nat) : (s.cmdBusy a).now = s.now := State.set_now _ _ _
@[simp] theorem State.cmdBusy_lt (s : State) (a : Nat) : (s.cmdBusy a).lt = s.lt := State.set_lt _ _ _
@[simp] theorem State.cmdBusy_freeCtr (s : State) (a : Nat) : (s.cmdBusy a).freeCtr = s.freeCtr := State.set_freeCtr _ _ _
@[simp] theorem State.cmdBusy_shared (s : State) (a : Nat) : (s.cmdBusy a).shared = s.shared := State.set_shared _ _ _
@[simp] theorem State.cmdBusy_bad (s : State) (a : Nat) : (s.cmdBusy a).bad = s.bad := State.set_bad _ _ _
@[simp] theorem State.cmdBusy_dram (s : State) (a : Nat) : (s.cmdBusy a).dram = s.dram := State.set_dram _ _ _
@[simp] theorem State.cmdBusy_mtm (s : State) (a : Nat) : (s.cmdBusy a).mtm = s.mtm := State.set_mtm _ _ _
@[simp] theorem State.cmdBusy_log (s : State) (a : Nat) : (s.cmdBusy a).log = s.log := State.set_log _ _ _
@[simp] theorem State.cmdBusy_prf (s : State) (a : Nat) : (s.cmdBusy a).prf = s.prf := State.set_prf _ _ _
@[simp] theorem State.cmdBusy_cfg (s : State) (a : Nat) : (s.cmdBusy a).cfg = s.cfg := State.set_cfg _ _ _
@[simp] theorem State.cmdBusy_pwr (s : State) (a : Nat) : (s.cmdBusy a).pwr = s.pwr := State.set_pwr _ _ _
@[simp] theorem State.cmdBusy_asy (s : State) (a : Nat) : (s.cmdBusy a).asy = s.asy := State.set_asy _ _ _
@[simp] theorem State.cmdBusy_fld (s : State) (a : Nat) : (s.cmdBusy a).fld = s.fld := State.set_fld _ _ _
@[simp] theorem State.cmdBusy_tap (s : State) (a : Nat) : (s.cmdBusy a).tap = s.tap := State.set_tap _ _ _
@[simp] theorem State.cmdBusy_cpu (s : State) (a : Nat) : (s.cmdBusy a).cpu = s.cpu := State.set_cpu _ _ _
@[simp] theorem State.cmdBusy_shf (s : State) (a : Nat) : (s.cmdBusy a).shf = s.shf := State.set_shf _ _ _
@[simp] theorem State.cmdBusy_hif (s : State) (a : Nat) : (s.cmdBusy a).hif = s.hif := State.set_hif _ _ _
@[simp] theorem State.cmdBusy_sgm (s : State) (a : Nat) : (s.cmdBusy a).sgm = s.sgm := State.set_sgm _ _ _
@[simp] theorem State.cmdBusy_rfc (s : State) (a : Nat) : (s.cmdBusy a).rfc = s.rfc := State.set_rfc _ _ _
@[simp] theorem State.cmdBusy_pkb (s : State) (a : Nat) : (s.cmdBusy a).pkb = s.pkb := State.set_pkb _ _ _
@[simp] theorem State.cmdBusy_wgc (s : State) (a : Nat) : (s.cmdBusy a).wgc = s.wgc := State.set_wgc _ _ _
@[simp] theorem State.cmdBusy_par (s : State) (a : Nat) : (s.cmdBusy a).par = s.par := State.set_par _ _ _
@[simp] theorem State.cmdBusy_flw (s : State) (a : Nat) : (s.cmdBusy a).flw = s.flw := State.set_flw _ _ _
@[simp] theorem State.cmdBusy_sch (s : State) (a : Nat) : (s.cmdBusy a).sch = s.sch := State.set_sch _ _ _
@[simp] theorem State.cmdBusy_ple (s : State) (a : Nat) : (s.cmdBusy a).ple = s.ple := State.set_ple _ _ _
@[simp] theorem State.cmdBusy_rfa (s : State) (a : Nat) : (s.cmdBusy a).rfa = s.rfa := State.set_rfa _ _ _
@[simp] theorem State.cmdBusy_rfb (s : State) (a : Nat) : (s.cmdBusy a).rfb = s.rfb := State.set_rfb _ _ _
@[simp] theorem State.cmdBusy_wma (s : State) (a : Nat) : (s.cmdBusy a).wma = s.wma := State.set_wma _ _ _
@[simp] theorem State.cmdBusy_cip (s : State) (a : Nat) : (s.cmdBusy a).cip = s.cip := State.set_cip _ _ _
@[simp] theorem State.cmdBusy_eth (s : State) (a : Nat) : (s.cmdBusy a).eth = s.eth := State.set_eth _ _ _
@[simp] theorem State.cmdBusy_drc (s : State) (a : Nat) : (s.cmdBusy a).drc = s.drc := State.set_drc _ _ _

/-! ### `drawn` -/

@[simp] theorem State.drawn_pending (s : State) : s.drawn.pending = s.pending := rfl
@[simp] theorem State.drawn_regs (s : State) : s.drawn.regs = s.regs := rfl
@[simp] theorem State.drawn_hold (s : State) : s.drawn.hold = s.hold := rfl
@[simp] theorem State.drawn_readData (s : State) : s.drawn.readData = s.readData := rfl
@[simp] theorem State.drawn_now (s : State) : s.drawn.now = s.now := rfl
@[simp] theorem State.drawn_lt (s : State) : s.drawn.lt = s.lt := rfl
@[simp] theorem State.drawn_freeCtr (s : State) : s.drawn.freeCtr = s.freeCtr + 1 := rfl
@[simp] theorem State.drawn_shared (s : State) : s.drawn.shared = s.shared := rfl
@[simp] theorem State.drawn_bad (s : State) : s.drawn.bad = s.bad := rfl
@[simp] theorem State.drawn_dram (s : State) : s.drawn.dram = s.dram := rfl
@[simp] theorem State.drawn_mtm (s : State) : s.drawn.mtm = s.mtm := rfl
@[simp] theorem State.drawn_log (s : State) : s.drawn.log = s.log := rfl
@[simp] theorem State.drawn_prf (s : State) : s.drawn.prf = s.prf := rfl
@[simp] theorem State.drawn_cfg (s : State) : s.drawn.cfg = s.cfg := rfl
@[simp] theorem State.drawn_pwr (s : State) : s.drawn.pwr = s.pwr := rfl
@[simp] theorem State.drawn_asy (s : State) : s.drawn.asy = s.asy := rfl
@[simp] theorem State.drawn_fld (s : State) : s.drawn.fld = s.fld := rfl
@[simp] theorem State.drawn_tap (s : State) : s.drawn.tap = s.tap := rfl
@[simp] theorem State.drawn_cpu (s : State) : s.drawn.cpu = s.cpu := rfl
@[simp] theorem State.drawn_shf (s : State) : s.drawn.shf = s.shf := rfl
@[simp] theorem State.drawn_hif (s : State) : s.drawn.hif = s.hif := rfl
@[simp] theorem State.drawn_sgm (s : State) : s.drawn.sgm = s.sgm := rfl
@[simp] theorem State.drawn_rfc (s : State) : s.drawn.rfc = s.rfc := rfl
@[simp] theorem State.drawn_pkb (s : State) : s.drawn.pkb = s.pkb := rfl
@[simp] theorem State.drawn_wgc (s : State) : s.drawn.wgc = s.wgc := rfl
@[simp] theorem State.drawn_par (s : State) : s.drawn.par = s.par := rfl
@[simp] theorem State.drawn_flw (s : State) : s.drawn.flw = s.flw := rfl
@[simp] theorem State.drawn_sch (s : State) : s.drawn.sch = s.sch := rfl
@[simp] theorem State.drawn_ple (s : State) : s.drawn.ple = s.ple := rfl
@[simp] theorem State.drawn_rfa (s : State) : s.drawn.rfa = s.rfa := rfl
@[simp] theorem State.drawn_rfb (s : State) : s.drawn.rfb = s.rfb := rfl
@[simp] theorem State.drawn_wma (s : State) : s.drawn.wma = s.wma := rfl
@[simp] theorem State.drawn_cip (s : State) : s.drawn.cip = s.cip := rfl
@[simp] theorem State.drawn_eth (s : State) : s.drawn.eth = s.eth := rfl
@[simp] theorem State.drawn_drc (s : State) : s.drawn.drc = s.drc := rfl

/-! ### The register file under updates of the other fields -/

@[simp] theorem State.rd_with_pending (s : State) (v : List Instr) (a : Nat) : ({ s with pending := v } : State).rd a = s.rd a := rfl
@[simp] theorem State.f_with_pending (s : State) (v : List Instr) (x : Field) : ({ s with pending := v } : State).f x = s.f x := rfl
@[simp] theorem State.rd_with_hold (s : State) (v : Map Word) (a : Nat) : ({ s with hold := v } : State).rd a = s.rd a := rfl
@[simp] theorem State.f_with_hold (s : State) (v : Map Word) (x : Field) : ({ s with hold := v } : State).f x = s.f x := rfl
@[simp] theorem State.rd_with_readData (s : State) (v : Word) (a : Nat) : ({ s with readData := v } : State).rd a = s.rd a := rfl
@[simp] theorem State.f_with_readData (s : State) (v : Word) (x : Field) : ({ s with readData := v } : State).f x = s.f x := rfl
@[simp] theorem State.rd_with_now (s : State) (v : Nat) (a : Nat) : ({ s with now := v } : State).rd a = s.rd a := rfl
@[simp] theorem State.f_with_now (s : State) (v : Nat) (x : Field) : ({ s with now := v } : State).f x = s.f x := rfl
@[simp] theorem State.rd_with_lt (s : State) (v : Nat) (a : Nat) : ({ s with lt := v } : State).rd a = s.rd a := rfl
@[simp] theorem State.f_with_lt (s : State) (v : Nat) (x : Field) : ({ s with lt := v } : State).f x = s.f x := rfl
@[simp] theorem State.rd_with_freeCtr (s : State) (v : Nat) (a : Nat) : ({ s with freeCtr := v } : State).rd a = s.rd a := rfl
@[simp] theorem State.f_with_freeCtr (s : State) (v : Nat) (x : Field) : ({ s with freeCtr := v } : State).f x = s.f x := rfl
@[simp] theorem State.rd_with_shared (s : State) (v : Memory) (a : Nat) : ({ s with shared := v } : State).rd a = s.rd a := rfl
@[simp] theorem State.f_with_shared (s : State) (v : Memory) (x : Field) : ({ s with shared := v } : State).f x = s.f x := rfl
@[simp] theorem State.rd_with_bad (s : State) (v : List (UnitId × Nat × Nat)) (a : Nat) : ({ s with bad := v } : State).rd a = s.rd a := rfl
@[simp] theorem State.f_with_bad (s : State) (v : List (UnitId × Nat × Nat)) (x : Field) : ({ s with bad := v } : State).f x = s.f x := rfl
@[simp] theorem State.rd_with_dram (s : State) (v : Memory) (a : Nat) : ({ s with dram := v } : State).rd a = s.rd a := rfl
@[simp] theorem State.f_with_dram (s : State) (v : Memory) (x : Field) : ({ s with dram := v } : State).f x = s.f x := rfl
@[simp] theorem State.rd_with_mtm (s : State) (v : Mtm) (a : Nat) : ({ s with mtm := v } : State).rd a = s.rd a := rfl
@[simp] theorem State.f_with_mtm (s : State) (v : Mtm) (x : Field) : ({ s with mtm := v } : State).f x = s.f x := rfl
@[simp] theorem State.rd_with_log (s : State) (v : LogSt) (a : Nat) : ({ s with log := v } : State).rd a = s.rd a := rfl
@[simp] theorem State.f_with_log (s : State) (v : LogSt) (x : Field) : ({ s with log := v } : State).f x = s.f x := rfl
@[simp] theorem State.rd_with_prf (s : State) (v : Prf) (a : Nat) : ({ s with prf := v } : State).rd a = s.rd a := rfl
@[simp] theorem State.f_with_prf (s : State) (v : Prf) (x : Field) : ({ s with prf := v } : State).f x = s.f x := rfl
@[simp] theorem State.rd_with_cfg (s : State) (v : Cfg) (a : Nat) : ({ s with cfg := v } : State).rd a = s.rd a := rfl
@[simp] theorem State.f_with_cfg (s : State) (v : Cfg) (x : Field) : ({ s with cfg := v } : State).f x = s.f x := rfl
@[simp] theorem State.rd_with_pwr (s : State) (v : Pwr) (a : Nat) : ({ s with pwr := v } : State).rd a = s.rd a := rfl
@[simp] theorem State.f_with_pwr (s : State) (v : Pwr) (x : Field) : ({ s with pwr := v } : State).f x = s.f x := rfl
@[simp] theorem State.rd_with_asy (s : State) (v : Asy) (a : Nat) : ({ s with asy := v } : State).rd a = s.rd a := rfl
@[simp] theorem State.f_with_asy (s : State) (v : Asy) (x : Field) : ({ s with asy := v } : State).f x = s.f x := rfl
@[simp] theorem State.rd_with_fld (s : State) (v : FieldIo) (a : Nat) : ({ s with fld := v } : State).rd a = s.rd a := rfl
@[simp] theorem State.f_with_fld (s : State) (v : FieldIo) (x : Field) : ({ s with fld := v } : State).f x = s.f x := rfl
@[simp] theorem State.rd_with_tap (s : State) (v : Tap) (a : Nat) : ({ s with tap := v } : State).rd a = s.rd a := rfl
@[simp] theorem State.f_with_tap (s : State) (v : Tap) (x : Field) : ({ s with tap := v } : State).f x = s.f x := rfl
@[simp] theorem State.rd_with_cpu (s : State) (v : Cpu) (a : Nat) : ({ s with cpu := v } : State).rd a = s.rd a := rfl
@[simp] theorem State.f_with_cpu (s : State) (v : Cpu) (x : Field) : ({ s with cpu := v } : State).f x = s.f x := rfl
@[simp] theorem State.rd_with_shf (s : State) (v : Shf) (a : Nat) : ({ s with shf := v } : State).rd a = s.rd a := rfl
@[simp] theorem State.f_with_shf (s : State) (v : Shf) (x : Field) : ({ s with shf := v } : State).f x = s.f x := rfl
@[simp] theorem State.rd_with_hif (s : State) (v : Hif) (a : Nat) : ({ s with hif := v } : State).rd a = s.rd a := rfl
@[simp] theorem State.f_with_hif (s : State) (v : Hif) (x : Field) : ({ s with hif := v } : State).f x = s.f x := rfl
@[simp] theorem State.rd_with_sgm (s : State) (v : Sgm) (a : Nat) : ({ s with sgm := v } : State).rd a = s.rd a := rfl
@[simp] theorem State.f_with_sgm (s : State) (v : Sgm) (x : Field) : ({ s with sgm := v } : State).f x = s.f x := rfl
@[simp] theorem State.rd_with_rfc (s : State) (v : Rfc) (a : Nat) : ({ s with rfc := v } : State).rd a = s.rd a := rfl
@[simp] theorem State.f_with_rfc (s : State) (v : Rfc) (x : Field) : ({ s with rfc := v } : State).f x = s.f x := rfl
@[simp] theorem State.rd_with_pkb (s : State) (v : Pkb) (a : Nat) : ({ s with pkb := v } : State).rd a = s.rd a := rfl
@[simp] theorem State.f_with_pkb (s : State) (v : Pkb) (x : Field) : ({ s with pkb := v } : State).f x = s.f x := rfl
@[simp] theorem State.rd_with_wgc (s : State) (v : Wgc) (a : Nat) : ({ s with wgc := v } : State).rd a = s.rd a := rfl
@[simp] theorem State.f_with_wgc (s : State) (v : Wgc) (x : Field) : ({ s with wgc := v } : State).f x = s.f x := rfl
@[simp] theorem State.rd_with_par (s : State) (v : Par) (a : Nat) : ({ s with par := v } : State).rd a = s.rd a := rfl
@[simp] theorem State.f_with_par (s : State) (v : Par) (x : Field) : ({ s with par := v } : State).f x = s.f x := rfl
@[simp] theorem State.rd_with_flw (s : State) (v : Flw) (a : Nat) : ({ s with flw := v } : State).rd a = s.rd a := rfl
@[simp] theorem State.f_with_flw (s : State) (v : Flw) (x : Field) : ({ s with flw := v } : State).f x = s.f x := rfl
@[simp] theorem State.rd_with_sch (s : State) (v : Sch) (a : Nat) : ({ s with sch := v } : State).rd a = s.rd a := rfl
@[simp] theorem State.f_with_sch (s : State) (v : Sch) (x : Field) : ({ s with sch := v } : State).f x = s.f x := rfl
@[simp] theorem State.rd_with_ple (s : State) (v : Ple) (a : Nat) : ({ s with ple := v } : State).rd a = s.rd a := rfl
@[simp] theorem State.f_with_ple (s : State) (v : Ple) (x : Field) : ({ s with ple := v } : State).f x = s.f x := rfl
@[simp] theorem State.rd_with_rfa (s : State) (v : Rf) (a : Nat) : ({ s with rfa := v } : State).rd a = s.rd a := rfl
@[simp] theorem State.f_with_rfa (s : State) (v : Rf) (x : Field) : ({ s with rfa := v } : State).f x = s.f x := rfl
@[simp] theorem State.rd_with_rfb (s : State) (v : Rf) (a : Nat) : ({ s with rfb := v } : State).rd a = s.rd a := rfl
@[simp] theorem State.f_with_rfb (s : State) (v : Rf) (x : Field) : ({ s with rfb := v } : State).f x = s.f x := rfl
@[simp] theorem State.rd_with_wma (s : State) (v : Wma) (a : Nat) : ({ s with wma := v } : State).rd a = s.rd a := rfl
@[simp] theorem State.f_with_wma (s : State) (v : Wma) (x : Field) : ({ s with wma := v } : State).f x = s.f x := rfl
@[simp] theorem State.rd_with_cip (s : State) (v : Cip) (a : Nat) : ({ s with cip := v } : State).rd a = s.rd a := rfl
@[simp] theorem State.f_with_cip (s : State) (v : Cip) (x : Field) : ({ s with cip := v } : State).f x = s.f x := rfl
@[simp] theorem State.rd_with_eth (s : State) (v : Eth) (a : Nat) : ({ s with eth := v } : State).rd a = s.rd a := rfl
@[simp] theorem State.f_with_eth (s : State) (v : Eth) (x : Field) : ({ s with eth := v } : State).f x = s.f x := rfl
@[simp] theorem State.rd_with_drc (s : State) (v : Drc) (a : Nat) : ({ s with drc := v } : State).rd a = s.rd a := rfl
@[simp] theorem State.f_with_drc (s : State) (v : Drc) (x : Field) : ({ s with drc := v } : State).f x = s.f x := rfl

@[simp] theorem State.rd_drawn (s : State) (a : Nat) : s.drawn.rd a = s.rd a := rfl
@[simp] theorem State.f_drawn (s : State) (x : Field) : s.drawn.f x = s.f x := rfl

end Sys2Proof.Machine
end

