-- ==== Sys2Proof/Laws/Service.lean ====
section
/-! SUPPORT. The shared services (waking a domain, counting, logging) change nothing but what `ServiceOnly` allows. -/

namespace Sys2Proof.Machine

theorem ServiceOnly.refl (s : State) : ServiceOnly s s := ⟨fun _ _ => rfl, rfl, ⟨rfl, rfl⟩, fun _ => rfl⟩

theorem ServiceOnly.trans {s t u : State} (h : ServiceOnly s t) (g : ServiceOnly t u) : ServiceOnly s u :=
  ⟨fun a k => (g.regs a k).trans (h.regs a k), g.rest.trans h.rest,
    ⟨g.state.1.trans h.state.1, g.state.2.trans h.state.2⟩, fun c => (g.cores c).trans (h.cores c)⟩

/-- A service register's field written is service, where `PWR_STATE`'s STATE and RETURN are not in it. -/
theorem ServiceOnly.set (s : State) (x : Field) (n : Nat) (h : serviceReg x.addr = true) (h1 : x.ok = true)
    (h2 : x.apart PWR_STATE_STATE = true) (h3 : x.apart PWR_STATE_RETURN = true) : ServiceOnly s (s.set x n) := by
  refine ⟨fun a k => ?_, rfl, ⟨State.f_set_apart _ _ _ _ h1 h2, State.f_set_apart _ _ _ _ h1 h3⟩, fun c => rfl⟩
  refine State.rd_set_ne _ _ _ _ fun e => ?_
  rw [e, h] at k
  exact Bool.noConfusion k

theorem ServiceOnly.setW (s : State) (x : Wide) (n : Nat) (h : serviceReg x.addr = true) (h1 : serviceReg (x.addr + 4) = true)
    (h2 : x.addr ≠ 0x200000) (h3 : x.addr + 4 ≠ 0x200000) : ServiceOnly s (s.setW x n) := by
  refine ⟨fun a k => ?_, rfl, ⟨?_, ?_⟩, fun c => rfl⟩
  · refine State.rd_setW_ne _ _ _ _ (fun e => ?_) (fun e => ?_)
    · rw [e, h] at k; exact Bool.noConfusion k
    · rw [e, h1] at k; exact Bool.noConfusion k
  · exact State.f_setW_ne _ _ _ _ h2.symm h3.symm
  · exact State.f_setW_ne _ _ _ _ h2.symm h3.symm

/-- A change outside the register file that keeps what is quiet, and the cores but for their pending interrupts. -/
theorem ServiceOnly.of {s t : State} (h : t.regs = s.regs) (g : t.quiet = s.quiet) (c : t.cpu.cores = s.cpu.cores) :
    ServiceOnly s t :=
  ⟨fun a _ => State.rd_congr h a, g, ⟨State.f_congr h _, State.f_congr h _⟩, fun k => by unfold State.core; rw [c]⟩

theorem ServiceOnly.ite {c : Prop} [Decidable c] {s t u : State} (h : ServiceOnly s t) (g : ServiceOnly s u) :
    ServiceOnly s (if c then t else u) := by
  split
  · exact h
  · exact g

theorem ServiceOnly.each {α : Type} {f : State → α → State} (h : ∀ s a, ServiceOnly s (f s a)) (l : List α) (s : State) :
    ServiceOnly s (s.each l f) := by
  unfold State.each
  induction l generalizing s with
  | nil => exact .refl s
  | cons a t ih => exact (h s a).trans (ih (f s a))

theorem ServiceOnly.eachMem {α : Type} {f : State → α → State} (l : List α) (h : ∀ s, ∀ a ∈ l, ServiceOnly s (f s a)) (s : State) :
    ServiceOnly s (s.each l f) := by
  unfold State.each
  induction l generalizing s with
  | nil => exact .refl s
  | cons a t ih =>
    exact (h s a (List.mem_cons_self ..)).trans (ih (fun s b hb => h s b (List.mem_cons_of_mem _ hb)) (f s a))

/-- An interrupt pending on cores below 4 leaves them alone but for `pend`. -/
theorem Map.look_map_pend (m : Map Core) (p : Nat → Bool) (v : BitVec 32) (c : Nat) :
    { (Map.look (m.map fun e : Nat × Core => if p e.1 then (e.1, { e.2 with pend := e.2.pend ||| v }) else e) c).getD {} with
      pend := 0 } = { (Map.look m c).getD {} with pend := 0 } := by
  induction m with
  | nil => rfl
  | cons e t ih =>
    obtain ⟨j, k⟩ := e
    simp only [List.map]
    by_cases hp : p j = true
    · simp only [hp, if_true, Map.look]
      split
      · simp
      · exact ih
    · simp only [hp, Bool.false_eq_true, if_false, Map.look]
      split
      · simp
      · exact ih

theorem ServiceOnly.prfIrq (s : State) : ServiceOnly s s.prfIrq := by
  unfold State.prfIrq
  split
  · exact ⟨fun _ _ => rfl, rfl, ⟨rfl, rfl⟩, fun c => Map.look_map_pend s.cpu.cores (fun j => decide (j < 4)) 0x200#32 c ▸ by
      simp [State.core, Map.lookD]⟩
  · exact .refl s

theorem ServiceOnly.prfAdd (s : State) (i n : Nat) (h : i < 192) : ServiceOnly s (s.prfAdd i n) := by
  have h0 (v : Nat) : ServiceOnly s (s.prfStore i v) := .of rfl rfl rfl
  unfold State.prfAdd
  dsimp only
  split
  · refine ((h0 _).trans (.set _ _ _ ?_ ?_ ?_ ?_)).trans (.prfIrq _)
    · simp [serviceReg]; omega
    · simp [Field.ok]; omega
    · exact (Field.apart_iff _ _).2 (Or.inl (by show 0x6000020 + 4 * (i / 32) ≠ 0x200000; omega))
    · exact (Field.apart_iff _ _).2 (Or.inl (by show 0x6000020 + 4 * (i / 32) ≠ 0x200000; omega))
  · exact h0 _

theorem ServiceOnly.prfCount (s : State) (u : UnitId) (e : Nat) (p : Option Nat) (n : Nat) :
    ServiceOnly s (s.prfCount u e p n) := by
  unfold State.prfCount
  split
  · exact .refl s
  · refine .eachMem _ (fun s k hk => ?_) s
    dsimp only
    split
    · have hu : u.num ≤ 22 := by cases u <;> decide
      have hk : k < 8 := List.mem_range.1 hk
      exact .prfAdd _ _ _ (by omega)
    · exact .refl s

theorem ServiceOnly.setDom (s : State) (d : Dom) (c : DomSt) : ServiceOnly s (s.setDom d c) := by
  have hd : d.num ≤ 7 := by cases d <;> decide
  have h0 : ServiceOnly s { s with pwr.doms := s.pwr.doms.put d.num c, pwr.idleSince := s.pwr.idleSince.put d.num s.now } :=
    .of rfl rfl rfl
  have h1 (s : State) (k n : Nat) (hk : 8 ≤ k ∧ k < 32) : ServiceOnly s (s.set ⟨PWR_STATE_DOM_LP.addr, k, k⟩ n) := by
    refine .set _ _ _ rfl ((Field.ok_iff _).2 ⟨Nat.le_refl _, hk.2⟩) ((Field.apart_iff _ _).2 ?_) ((Field.apart_iff _ _).2 ?_)
    · exact Or.inr (Or.inr ⟨by decide, by show 1 < k; omega⟩)
    · exact Or.inr (Or.inr ⟨by decide, by show 4 < k; omega⟩)
  exact (h0.trans (h1 _ _ _ (by omega))).trans (h1 _ _ _ (by omega))

/-- A counter that is incremented changes its own words, and counters that follow it. -/
theorem ServiceOnly.bump (s : State) (c : Wide) (n : Nat) : ServiceOnly (s.setW c (s.w c + n)) (s.bump c n) := by
  unfold State.bump
  dsimp only
  split
  · exact .refl _
  · split
    · exact .refl _
    · exact .ite (.prfCount _ _ _ _ _) (.refl _)

theorem ServiceOnly.bumpWake (s : State) : ServiceOnly s (s.bump PWR_CNT_WAKE) :=
  (ServiceOnly.setW s PWR_CNT_WAKE _ (by decide) (by decide) (by decide) (by decide)).trans (.bump _ _ _)

theorem ServiceOnly.wake (s : State) (d : Dom) : ServiceOnly s (s.wake d) := by
  unfold State.wake
  split
  · exact (ServiceOnly.setDom _ _ _).trans (.bumpWake _)
  · exact .setDom _ _ _
  · exact .of rfl rfl rfl
  · exact .refl _

theorem ServiceOnly.demand (s : State) (u : UnitId) : ServiceOnly s (s.demand u) := by
  unfold State.demand
  split
  · split
    · exact (ServiceOnly.wake _ _).trans (.prfCount _ _ _ _ _)
    · exact .wake _ _
  · exact .refl _

theorem ServiceOnly.entered (s : State) (u : UnitId) : ServiceOnly s (s.entered u) :=
  (ServiceOnly.demand s u).trans (.prfCount _ _ _ _ _)

/-! ### The event log -/

theorem ServiceOnly.logDrop (s : State) (u : UnitId) : ServiceOnly s (s.logDrop u) :=
  (ServiceOnly.setW s PRF_LOG_LOST (s.w PRF_LOG_LOST + 1) (by decide) (by decide) (by decide) (by decide)).trans (.of rfl rfl rfl)

theorem ServiceOnly.ringPush (s : State) (e : LogEntry) : ServiceOnly s (s.ringPush e) := by
  have up (s : State) (n : Nat) (x : Field) (h : x = PRF_LOG_STAT_NEXT ∨ x = PRF_LOG_STAT_WRAPPED ∨ x = PRF_LOG_STAT_STOPPED) :
      ServiceOnly s (s.set x n) := by
    rcases h with rfl | rfl | rfl <;> exact .set _ _ _ (by decide) (by decide) (by decide) (by decide)
  have p : ServiceOnly s (s.ringPut e) := .of rfl rfl rfl
  unfold State.ringPush
  split
  · exact (up s 1 _ (Or.inr (Or.inr rfl))).trans (.logDrop _ _)
  · split
    · exact (p.trans (up _ 1 _ (Or.inr (Or.inl rfl)))).trans (up _ _ _ (Or.inl rfl))
    · exact p.trans (up _ _ _ (Or.inl rfl))

theorem ServiceOnly.stagePush (s : State) (e : LogEntry) : ServiceOnly s (s.stagePush e) := by
  have p : ServiceOnly s (s.stagePut e) := .of rfl rfl rfl
  unfold State.stagePush
  split
  · exact .logDrop _ _
  · split
    · exact p.trans (.wake _ _)
    · exact p

theorem ServiceOnly.logAt (s : State) (d : Nat) (u : UnitId) (e : Ev) (l : List Nat) : ServiceOnly s (s.logAt d u e l) := by
  have p : ServiceOnly s (s.seqNext u) := .of rfl rfl rfl
  refine (p.trans (.prfCount _ u 6 none 1)).trans ?_
  unfold State.logAt State.logStore
  split
  · exact .stagePush _ _
  · exact .ringPush _ _

theorem ServiceOnly.ev (s : State) (u : UnitId) (e : Ev) (l : List Nat) : ServiceOnly s (s.ev u e l) := .logAt _ _ _ _ _

theorem ServiceOnly.evR (s : State) (u : UnitId) (e : Ev) (l : List Nat) : ServiceOnly s (s.evR u e l) := .logAt _ _ _ _ _

end Sys2Proof.Machine
end

