-- ==== Sys2Proof/Laws/Gate.lean ====
section
/-! SUPPORT. What the shared services leave alone, field by field; and the gate of a write: where it is admitted, the action
runs on the entered state. -/

namespace Sys2Proof.Machine

namespace ServiceOnly

variable {s t : State}

theorem pending (h : ServiceOnly s t) : t.pending = s.pending := (congrArg State.pending h.rest :)
theorem hold (h : ServiceOnly s t) : t.hold = s.hold := (congrArg State.hold h.rest :)
theorem readData (h : ServiceOnly s t) : t.readData = s.readData := (congrArg State.readData h.rest :)
theorem now (h : ServiceOnly s t) : t.now = s.now := (congrArg State.now h.rest :)
theorem lt (h : ServiceOnly s t) : t.lt = s.lt := (congrArg State.lt h.rest :)
theorem freeCtr (h : ServiceOnly s t) : t.freeCtr = s.freeCtr := (congrArg State.freeCtr h.rest :)
theorem shared (h : ServiceOnly s t) : t.shared = s.shared := (congrArg State.shared h.rest :)
theorem bad (h : ServiceOnly s t) : t.bad = s.bad := (congrArg State.bad h.rest :)
theorem dram (h : ServiceOnly s t) : t.dram = s.dram := (congrArg State.dram h.rest :)
theorem mtm (h : ServiceOnly s t) : t.mtm = s.mtm := (congrArg State.mtm h.rest :)
theorem cfg (h : ServiceOnly s t) : t.cfg = s.cfg := (congrArg State.cfg h.rest :)
theorem asy (h : ServiceOnly s t) : t.asy = s.asy := (congrArg State.asy h.rest :)
theorem fld (h : ServiceOnly s t) : t.fld = s.fld := (congrArg State.fld h.rest :)
theorem tap (h : ServiceOnly s t) : t.tap = s.tap := (congrArg State.tap h.rest :)
theorem shf (h : ServiceOnly s t) : t.shf = s.shf := (congrArg State.shf h.rest :)
theorem hif (h : ServiceOnly s t) : t.hif = s.hif := (congrArg State.hif h.rest :)
theorem sgm (h : ServiceOnly s t) : t.sgm = s.sgm := (congrArg State.sgm h.rest :)
theorem rfc (h : ServiceOnly s t) : t.rfc = s.rfc := (congrArg State.rfc h.rest :)
theorem pkb (h : ServiceOnly s t) : t.pkb = s.pkb := (congrArg State.pkb h.rest :)
theorem wgc (h : ServiceOnly s t) : t.wgc = s.wgc := (congrArg State.wgc h.rest :)
theorem par (h : ServiceOnly s t) : t.par = s.par := (congrArg State.par h.rest :)
theorem flw (h : ServiceOnly s t) : t.flw = s.flw := (congrArg State.flw h.rest :)
theorem sch (h : ServiceOnly s t) : t.sch = s.sch := (congrArg State.sch h.rest :)
theorem ple (h : ServiceOnly s t) : t.ple = s.ple := (congrArg State.ple h.rest :)
theorem rfa (h : ServiceOnly s t) : t.rfa = s.rfa := (congrArg State.rfa h.rest :)
theorem rfb (h : ServiceOnly s t) : t.rfb = s.rfb := (congrArg State.rfb h.rest :)
theorem wma (h : ServiceOnly s t) : t.wma = s.wma := (congrArg State.wma h.rest :)
theorem cip (h : ServiceOnly s t) : t.cip = s.cip := (congrArg State.cip h.rest :)
theorem eth (h : ServiceOnly s t) : t.eth = s.eth := (congrArg State.eth h.rest :)
theorem drc (h : ServiceOnly s t) : t.drc = s.drc := (congrArg State.drc h.rest :)

theorem f (h : ServiceOnly s t) (x : Field) (k : serviceReg x.addr = false) : t.f x = s.f x := by
  unfold State.f; rw [h.regs _ k]

theorem on (h : ServiceOnly s t) (x : Field) (k : serviceReg x.addr = false) : t.on x = s.on x := by
  unfold State.on; rw [h.f x k]

theorem w (h : ServiceOnly s t) (x : Wide) (k : serviceReg x.addr = false) (k2 : serviceReg (x.addr + 4) = false) :
    t.w x = s.w x := by
  unfold State.w; rw [h.regs _ k, h.regs _ k2]

end ServiceOnly

/-! ### `prfCount` -/

@[simp] theorem State.prfCount_pending (s : State) (u : UnitId) (e : Nat) (p : Option Nat) (n : Nat) : (s.prfCount u e p n).pending = s.pending := (ServiceOnly.prfCount s _ _ _ _).pending
@[simp] theorem State.prfCount_hold (s : State) (u : UnitId) (e : Nat) (p : Option Nat) (n : Nat) : (s.prfCount u e p n).hold = s.hold := (ServiceOnly.prfCount s _ _ _ _).hold
@[simp] theorem State.prfCount_readData (s : State) (u : UnitId) (e : Nat) (p : Option Nat) (n : Nat) : (s.prfCount u e p n).readData = s.readData := (ServiceOnly.prfCount s _ _ _ _).readData
@[simp] theorem State.prfCount_now (s : State) (u : UnitId) (e : Nat) (p : Option Nat) (n : Nat) : (s.prfCount u e p n).now = s.now := (ServiceOnly.prfCount s _ _ _ _).now
@[simp] theorem State.prfCount_lt (s : State) (u : UnitId) (e : Nat) (p : Option Nat) (n : Nat) : (s.prfCount u e p n).lt = s.lt := (ServiceOnly.prfCount s _ _ _ _).lt
@[simp] theorem State.prfCount_freeCtr (s : State) (u : UnitId) (e : Nat) (p : Option Nat) (n : Nat) : (s.prfCount u e p n).freeCtr = s.freeCtr := (ServiceOnly.prfCount s _ _ _ _).freeCtr
@[simp] theorem State.prfCount_shared (s : State) (u : UnitId) (e : Nat) (p : Option Nat) (n : Nat) : (s.prfCount u e p n).shared = s.shared := (ServiceOnly.prfCount s _ _ _ _).shared
@[simp] theorem State.prfCount_bad (s : State) (u : UnitId) (e : Nat) (p : Option Nat) (n : Nat) : (s.prfCount u e p n).bad = s.bad := (ServiceOnly.prfCount s _ _ _ _).bad
@[simp] theorem State.prfCount_dram (s : State) (u : UnitId) (e : Nat) (p : Option Nat) (n : Nat) : (s.prfCount u e p n).dram = s.dram := (ServiceOnly.prfCount s _ _ _ _).dram
@[simp] theorem State.prfCount_mtm (s : State) (u : UnitId) (e : Nat) (p : Option Nat) (n : Nat) : (s.prfCount u e p n).mtm = s.mtm := (ServiceOnly.prfCount s _ _ _ _).mtm
@[simp] theorem State.prfCount_cfg (s : State) (u : UnitId) (e : Nat) (p : Option Nat) (n : Nat) : (s.prfCount u e p n).cfg = s.cfg := (ServiceOnly.prfCount s _ _ _ _).cfg
@[simp] theorem State.prfCount_asy (s : State) (u : UnitId) (e : Nat) (p : Option Nat) (n : Nat) : (s.prfCount u e p n).asy = s.asy := (ServiceOnly.prfCount s _ _ _ _).asy
@[simp] theorem State.prfCount_fld (s : State) (u : UnitId) (e : Nat) (p : Option Nat) (n : Nat) : (s.prfCount u e p n).fld = s.fld := (ServiceOnly.prfCount s _ _ _ _).fld
@[simp] theorem State.prfCount_tap (s : State) (u : UnitId) (e : Nat) (p : Option Nat) (n : Nat) : (s.prfCount u e p n).tap = s.tap := (ServiceOnly.prfCount s _ _ _ _).tap
@[simp] theorem State.prfCount_shf (s : State) (u : UnitId) (e : Nat) (p : Option Nat) (n : Nat) : (s.prfCount u e p n).shf = s.shf := (ServiceOnly.prfCount s _ _ _ _).shf
@[simp] theorem State.prfCount_hif (s : State) (u : UnitId) (e : Nat) (p : Option Nat) (n : Nat) : (s.prfCount u e p n).hif = s.hif := (ServiceOnly.prfCount s _ _ _ _).hif
@[simp] theorem State.prfCount_sgm (s : State) (u : UnitId) (e : Nat) (p : Option Nat) (n : Nat) : (s.prfCount u e p n).sgm = s.sgm := (ServiceOnly.prfCount s _ _ _ _).sgm
@[simp] theorem State.prfCount_rfc (s : State) (u : UnitId) (e : Nat) (p : Option Nat) (n : Nat) : (s.prfCount u e p n).rfc = s.rfc := (ServiceOnly.prfCount s _ _ _ _).rfc
@[simp] theorem State.prfCount_pkb (s : State) (u : UnitId) (e : Nat) (p : Option Nat) (n : Nat) : (s.prfCount u e p n).pkb = s.pkb := (ServiceOnly.prfCount s _ _ _ _).pkb
@[simp] theorem State.prfCount_wgc (s : State) (u : UnitId) (e : Nat) (p : Option Nat) (n : Nat) : (s.prfCount u e p n).wgc = s.wgc := (ServiceOnly.prfCount s _ _ _ _).wgc
@[simp] theorem State.prfCount_par (s : State) (u : UnitId) (e : Nat) (p : Option Nat) (n : Nat) : (s.prfCount u e p n).par = s.par := (ServiceOnly.prfCount s _ _ _ _).par
@[simp] theorem State.prfCount_flw (s : State) (u : UnitId) (e : Nat) (p : Option Nat) (n : Nat) : (s.prfCount u e p n).flw = s.flw := (ServiceOnly.prfCount s _ _ _ _).flw
@[simp] theorem State.prfCount_sch (s : State) (u : UnitId) (e : Nat) (p : Option Nat) (n : Nat) : (s.prfCount u e p n).sch = s.sch := (ServiceOnly.prfCount s _ _ _ _).sch
@[simp] theorem State.prfCount_ple (s : State) (u : UnitId) (e : Nat) (p : Option Nat) (n : Nat) : (s.prfCount u e p n).ple = s.ple := (ServiceOnly.prfCount s _ _ _ _).ple
@[simp] theorem State.prfCount_rfa (s : State) (u : UnitId) (e : Nat) (p : Option Nat) (n : Nat) : (s.prfCount u e p n).rfa = s.rfa := (ServiceOnly.prfCount s _ _ _ _).rfa
@[simp] theorem State.prfCount_rfb (s : State) (u : UnitId) (e : Nat) (p : Option Nat) (n : Nat) : (s.prfCount u e p n).rfb = s.rfb := (ServiceOnly.prfCount s _ _ _ _).rfb
@[simp] theorem State.prfCount_wma (s : State) (u : UnitId) (e : Nat) (p : Option Nat) (n : Nat) : (s.prfCount u e p n).wma = s.wma := (ServiceOnly.prfCount s _ _ _ _).wma
@[simp] theorem State.prfCount_cip (s : State) (u : UnitId) (e : Nat) (p : Option Nat) (n : Nat) : (s.prfCount u e p n).cip = s.cip := (ServiceOnly.prfCount s _ _ _ _).cip
@[simp] theorem State.prfCount_eth (s : State) (u : UnitId) (e : Nat) (p : Option Nat) (n : Nat) : (s.prfCount u e p n).eth = s.eth := (ServiceOnly.prfCount s _ _ _ _).eth
@[simp] theorem State.prfCount_drc (s : State) (u : UnitId) (e : Nat) (p : Option Nat) (n : Nat) : (s.prfCount u e p n).drc = s.drc := (ServiceOnly.prfCount s _ _ _ _).drc
theorem State.rd_prfCount (s : State) (u : UnitId) (e : Nat) (p : Option Nat) (n : Nat) {k : Nat} (h : serviceReg k = false) : (s.prfCount u e p n).rd k = s.rd k := (ServiceOnly.prfCount s _ _ _ _).regs k h
theorem State.f_prfCount (s : State) (u : UnitId) (e : Nat) (p : Option Nat) (n : Nat) {x : Field} (h : serviceReg x.addr = false) : (s.prfCount u e p n).f x = s.f x := (ServiceOnly.prfCount s _ _ _ _).f x h
theorem State.on_prfCount (s : State) (u : UnitId) (e : Nat) (p : Option Nat) (n : Nat) {x : Field} (h : serviceReg x.addr = false) : (s.prfCount u e p n).on x = s.on x := (ServiceOnly.prfCount s _ _ _ _).on x h

/-! ### `wake` -/

@[simp] theorem State.wake_pending (s : State) (d : Dom) : (s.wake d).pending = s.pending := (ServiceOnly.wake s _).pending
@[simp] theorem State.wake_hold (s : State) (d : Dom) : (s.wake d).hold = s.hold := (ServiceOnly.wake s _).hold
@[simp] theorem State.wake_readData (s : State) (d : Dom) : (s.wake d).readData = s.readData := (ServiceOnly.wake s _).readData
@[simp] theorem State.wake_now (s : State) (d : Dom) : (s.wake d).now = s.now := (ServiceOnly.wake s _).now
@[simp] theorem State.wake_lt (s : State) (d : Dom) : (s.wake d).lt = s.lt := (ServiceOnly.wake s _).lt
@[simp] theorem State.wake_freeCtr (s : State) (d : Dom) : (s.wake d).freeCtr = s.freeCtr := (ServiceOnly.wake s _).freeCtr
@[simp] theorem State.wake_shared (s : State) (d : Dom) : (s.wake d).shared = s.shared := (ServiceOnly.wake s _).shared
@[simp] theorem State.wake_bad (s : State) (d : Dom) : (s.wake d).bad = s.bad := (ServiceOnly.wake s _).bad
@[simp] theorem State.wake_dram (s : State) (d : Dom) : (s.wake d).dram = s.dram := (ServiceOnly.wake s _).dram
@[simp] theorem State.wake_mtm (s : State) (d : Dom) : (s.wake d).mtm = s.mtm := (ServiceOnly.wake s _).mtm
@[simp] theorem State.wake_cfg (s : State) (d : Dom) : (s.wake d).cfg = s.cfg := (ServiceOnly.wake s _).cfg
@[simp] theorem State.wake_asy (s : State) (d : Dom) : (s.wake d).asy = s.asy := (ServiceOnly.wake s _).asy
@[simp] theorem State.wake_fld (s : State) (d : Dom) : (s.wake d).fld = s.fld := (ServiceOnly.wake s _).fld
@[simp] theorem State.wake_tap (s : State) (d : Dom) : (s.wake d).tap = s.tap := (ServiceOnly.wake s _).tap
@[simp] theorem State.wake_shf (s : State) (d : Dom) : (s.wake d).shf = s.shf := (ServiceOnly.wake s _).shf
@[simp] theorem State.wake_hif (s : State) (d : Dom) : (s.wake d).hif = s.hif := (ServiceOnly.wake s _).hif
@[simp] theorem State.wake_sgm (s : State) (d : Dom) : (s.wake d).sgm = s.sgm := (ServiceOnly.wake s _).sgm
@[simp] theorem State.wake_rfc (s : State) (d : Dom) : (s.wake d).rfc = s.rfc := (ServiceOnly.wake s _).rfc
@[simp] theorem State.wake_pkb (s : State) (d : Dom) : (s.wake d).pkb = s.pkb := (ServiceOnly.wake s _).pkb
@[simp] theorem State.wake_wgc (s : State) (d : Dom) : (s.wake d).wgc = s.wgc := (ServiceOnly.wake s _).wgc
@[simp] theorem State.wake_par (s : State) (d : Dom) : (s.wake d).par = s.par := (ServiceOnly.wake s _).par
@[simp] theorem State.wake_flw (s : State) (d : Dom) : (s.wake d).flw = s.flw := (ServiceOnly.wake s _).flw
@[simp] theorem State.wake_sch (s : State) (d : Dom) : (s.wake d).sch = s.sch := (ServiceOnly.wake s _).sch
@[simp] theorem State.wake_ple (s : State) (d : Dom) : (s.wake d).ple = s.ple := (ServiceOnly.wake s _).ple
@[simp] theorem State.wake_rfa (s : State) (d : Dom) : (s.wake d).rfa = s.rfa := (ServiceOnly.wake s _).rfa
@[simp] theorem State.wake_rfb (s : State) (d : Dom) : (s.wake d).rfb = s.rfb := (ServiceOnly.wake s _).rfb
@[simp] theorem State.wake_wma (s : State) (d : Dom) : (s.wake d).wma = s.wma := (ServiceOnly.wake s _).wma
@[simp] theorem State.wake_cip (s : State) (d : Dom) : (s.wake d).cip = s.cip := (ServiceOnly.wake s _).cip
@[simp] theorem State.wake_eth (s : State) (d : Dom) : (s.wake d).eth = s.eth := (ServiceOnly.wake s _).eth
@[simp] theorem State.wake_drc (s : State) (d : Dom) : (s.wake d).drc = s.drc := (ServiceOnly.wake s _).drc
theorem State.rd_wake (s : State) (d : Dom) {k : Nat} (h : serviceReg k = false) : (s.wake d).rd k = s.rd k := (ServiceOnly.wake s _).regs k h
theorem State.f_wake (s : State) (d : Dom) {x : Field} (h : serviceReg x.addr = false) : (s.wake d).f x = s.f x := (ServiceOnly.wake s _).f x h
theorem State.on_wake (s : State) (d : Dom) {x : Field} (h : serviceReg x.addr = false) : (s.wake d).on x = s.on x := (ServiceOnly.wake s _).on x h

/-! ### `demand` -/

@[simp] theorem State.demand_pending (s : State) (u : UnitId) : (s.demand u).pending = s.pending := (ServiceOnly.demand s _).pending
@[simp] theorem State.demand_hold (s : State) (u : UnitId) : (s.demand u).hold = s.hold := (ServiceOnly.demand s _).hold
@[simp] theorem State.demand_readData (s : State) (u : UnitId) : (s.demand u).readData = s.readData := (ServiceOnly.demand s _).readData
@[simp] theorem State.demand_now (s : State) (u : UnitId) : (s.demand u).now = s.now := (ServiceOnly.demand s _).now
@[simp] theorem State.demand_lt (s : State) (u : UnitId) : (s.demand u).lt = s.lt := (ServiceOnly.demand s _).lt
@[simp] theorem State.demand_freeCtr (s : State) (u : UnitId) : (s.demand u).freeCtr = s.freeCtr := (ServiceOnly.demand s _).freeCtr
@[simp] theorem State.demand_shared (s : State) (u : UnitId) : (s.demand u).shared = s.shared := (ServiceOnly.demand s _).shared
@[simp] theorem State.demand_bad (s : State) (u : UnitId) : (s.demand u).bad = s.bad := (ServiceOnly.demand s _).bad
@[simp] theorem State.demand_dram (s : State) (u : UnitId) : (s.demand u).dram = s.dram := (ServiceOnly.demand s _).dram
@[simp] theorem State.demand_mtm (s : State) (u : UnitId) : (s.demand u).mtm = s.mtm := (ServiceOnly.demand s _).mtm
@[simp] theorem State.demand_cfg (s : State) (u : UnitId) : (s.demand u).cfg = s.cfg := (ServiceOnly.demand s _).cfg
@[simp] theorem State.demand_asy (s : State) (u : UnitId) : (s.demand u).asy = s.asy := (ServiceOnly.demand s _).asy
@[simp] theorem State.demand_fld (s : State) (u : UnitId) : (s.demand u).fld = s.fld := (ServiceOnly.demand s _).fld
@[simp] theorem State.demand_tap (s : State) (u : UnitId) : (s.demand u).tap = s.tap := (ServiceOnly.demand s _).tap
@[simp] theorem State.demand_shf (s : State) (u : UnitId) : (s.demand u).shf = s.shf := (ServiceOnly.demand s _).shf
@[simp] theorem State.demand_hif (s : State) (u : UnitId) : (s.demand u).hif = s.hif := (ServiceOnly.demand s _).hif
@[simp] theorem State.demand_sgm (s : State) (u : UnitId) : (s.demand u).sgm = s.sgm := (ServiceOnly.demand s _).sgm
@[simp] theorem State.demand_rfc (s : State) (u : UnitId) : (s.demand u).rfc = s.rfc := (ServiceOnly.demand s _).rfc
@[simp] theorem State.demand_pkb (s : State) (u : UnitId) : (s.demand u).pkb = s.pkb := (ServiceOnly.demand s _).pkb
@[simp] theorem State.demand_wgc (s : State) (u : UnitId) : (s.demand u).wgc = s.wgc := (ServiceOnly.demand s _).wgc
@[simp] theorem State.demand_par (s : State) (u : UnitId) : (s.demand u).par = s.par := (ServiceOnly.demand s _).par
@[simp] theorem State.demand_flw (s : State) (u : UnitId) : (s.demand u).flw = s.flw := (ServiceOnly.demand s _).flw
@[simp] theorem State.demand_sch (s : State) (u : UnitId) : (s.demand u).sch = s.sch := (ServiceOnly.demand s _).sch
@[simp] theorem State.demand_ple (s : State) (u : UnitId) : (s.demand u).ple = s.ple := (ServiceOnly.demand s _).ple
@[simp] theorem State.demand_rfa (s : State) (u : UnitId) : (s.demand u).rfa = s.rfa := (ServiceOnly.demand s _).rfa
@[simp] theorem State.demand_rfb (s : State) (u : UnitId) : (s.demand u).rfb = s.rfb := (ServiceOnly.demand s _).rfb
@[simp] theorem State.demand_wma (s : State) (u : UnitId) : (s.demand u).wma = s.wma := (ServiceOnly.demand s _).wma
@[simp] theorem State.demand_cip (s : State) (u : UnitId) : (s.demand u).cip = s.cip := (ServiceOnly.demand s _).cip
@[simp] theorem State.demand_eth (s : State) (u : UnitId) : (s.demand u).eth = s.eth := (ServiceOnly.demand s _).eth
@[simp] theorem State.demand_drc (s : State) (u : UnitId) : (s.demand u).drc = s.drc := (ServiceOnly.demand s _).drc
theorem State.rd_demand (s : State) (u : UnitId) {k : Nat} (h : serviceReg k = false) : (s.demand u).rd k = s.rd k := (ServiceOnly.demand s _).regs k h
theorem State.f_demand (s : State) (u : UnitId) {x : Field} (h : serviceReg x.addr = false) : (s.demand u).f x = s.f x := (ServiceOnly.demand s _).f x h
theorem State.on_demand (s : State) (u : UnitId) {x : Field} (h : serviceReg x.addr = false) : (s.demand u).on x = s.on x := (ServiceOnly.demand s _).on x h

/-! ### `entered` -/

@[simp] theorem State.entered_pending (s : State) (u : UnitId) : (s.entered u).pending = s.pending := (ServiceOnly.entered s _).pending
@[simp] theorem State.entered_hold (s : State) (u : UnitId) : (s.entered u).hold = s.hold := (ServiceOnly.entered s _).hold
@[simp] theorem State.entered_readData (s : State) (u : UnitId) : (s.entered u).readData = s.readData := (ServiceOnly.entered s _).readData
@[simp] theorem State.entered_now (s : State) (u : UnitId) : (s.entered u).now = s.now := (ServiceOnly.entered s _).now
@[simp] theorem State.entered_lt (s : State) (u : UnitId) : (s.entered u).lt = s.lt := (ServiceOnly.entered s _).lt
@[simp] theorem State.entered_freeCtr (s : State) (u : UnitId) : (s.entered u).freeCtr = s.freeCtr := (ServiceOnly.entered s _).freeCtr
@[simp] theorem State.entered_shared (s : State) (u : UnitId) : (s.entered u).shared = s.shared := (ServiceOnly.entered s _).shared
@[simp] theorem State.entered_bad (s : State) (u : UnitId) : (s.entered u).bad = s.bad := (ServiceOnly.entered s _).bad
@[simp] theorem State.entered_dram (s : State) (u : UnitId) : (s.entered u).dram = s.dram := (ServiceOnly.entered s _).dram
@[simp] theorem State.entered_mtm (s : State) (u : UnitId) : (s.entered u).mtm = s.mtm := (ServiceOnly.entered s _).mtm
@[simp] theorem State.entered_cfg (s : State) (u : UnitId) : (s.entered u).cfg = s.cfg := (ServiceOnly.entered s _).cfg
@[simp] theorem State.entered_asy (s : State) (u : UnitId) : (s.entered u).asy = s.asy := (ServiceOnly.entered s _).asy
@[simp] theorem State.entered_fld (s : State) (u : UnitId) : (s.entered u).fld = s.fld := (ServiceOnly.entered s _).fld
@[simp] theorem State.entered_tap (s : State) (u : UnitId) : (s.entered u).tap = s.tap := (ServiceOnly.entered s _).tap
@[simp] theorem State.entered_shf (s : State) (u : UnitId) : (s.entered u).shf = s.shf := (ServiceOnly.entered s _).shf
@[simp] theorem State.entered_hif (s : State) (u : UnitId) : (s.entered u).hif = s.hif := (ServiceOnly.entered s _).hif
@[simp] theorem State.entered_sgm (s : State) (u : UnitId) : (s.entered u).sgm = s.sgm := (ServiceOnly.entered s _).sgm
@[simp] theorem State.entered_rfc (s : State) (u : UnitId) : (s.entered u).rfc = s.rfc := (ServiceOnly.entered s _).rfc
@[simp] theorem State.entered_pkb (s : State) (u : UnitId) : (s.entered u).pkb = s.pkb := (ServiceOnly.entered s _).pkb
@[simp] theorem State.entered_wgc (s : State) (u : UnitId) : (s.entered u).wgc = s.wgc := (ServiceOnly.entered s _).wgc
@[simp] theorem State.entered_par (s : State) (u : UnitId) : (s.entered u).par = s.par := (ServiceOnly.entered s _).par
@[simp] theorem State.entered_flw (s : State) (u : UnitId) : (s.entered u).flw = s.flw := (ServiceOnly.entered s _).flw
@[simp] theorem State.entered_sch (s : State) (u : UnitId) : (s.entered u).sch = s.sch := (ServiceOnly.entered s _).sch
@[simp] theorem State.entered_ple (s : State) (u : UnitId) : (s.entered u).ple = s.ple := (ServiceOnly.entered s _).ple
@[simp] theorem State.entered_rfa (s : State) (u : UnitId) : (s.entered u).rfa = s.rfa := (ServiceOnly.entered s _).rfa
@[simp] theorem State.entered_rfb (s : State) (u : UnitId) : (s.entered u).rfb = s.rfb := (ServiceOnly.entered s _).rfb
@[simp] theorem State.entered_wma (s : State) (u : UnitId) : (s.entered u).wma = s.wma := (ServiceOnly.entered s _).wma
@[simp] theorem State.entered_cip (s : State) (u : UnitId) : (s.entered u).cip = s.cip := (ServiceOnly.entered s _).cip
@[simp] theorem State.entered_eth (s : State) (u : UnitId) : (s.entered u).eth = s.eth := (ServiceOnly.entered s _).eth
@[simp] theorem State.entered_drc (s : State) (u : UnitId) : (s.entered u).drc = s.drc := (ServiceOnly.entered s _).drc
theorem State.rd_entered (s : State) (u : UnitId) {k : Nat} (h : serviceReg k = false) : (s.entered u).rd k = s.rd k := (ServiceOnly.entered s _).regs k h
theorem State.f_entered (s : State) (u : UnitId) {x : Field} (h : serviceReg x.addr = false) : (s.entered u).f x = s.f x := (ServiceOnly.entered s _).f x h
theorem State.on_entered (s : State) (u : UnitId) {x : Field} (h : serviceReg x.addr = false) : (s.entered u).on x = s.on x := (ServiceOnly.entered s _).on x h

/-! ### `ev` -/

@[simp] theorem State.ev_pending (s : State) (u : UnitId) (e : Ev) (l : List Nat) : (s.ev u e l).pending = s.pending := (ServiceOnly.ev s _ _ _).pending
@[simp] theorem State.ev_hold (s : State) (u : UnitId) (e : Ev) (l : List Nat) : (s.ev u e l).hold = s.hold := (ServiceOnly.ev s _ _ _).hold
@[simp] theorem State.ev_readData (s : State) (u : UnitId) (e : Ev) (l : List Nat) : (s.ev u e l).readData = s.readData := (ServiceOnly.ev s _ _ _).readData
@[simp] theorem State.ev_now (s : State) (u : UnitId) (e : Ev) (l : List Nat) : (s.ev u e l).now = s.now := (ServiceOnly.ev s _ _ _).now
@[simp] theorem State.ev_lt (s : State) (u : UnitId) (e : Ev) (l : List Nat) : (s.ev u e l).lt = s.lt := (ServiceOnly.ev s _ _ _).lt
@[simp] theorem State.ev_freeCtr (s : State) (u : UnitId) (e : Ev) (l : List Nat) : (s.ev u e l).freeCtr = s.freeCtr := (ServiceOnly.ev s _ _ _).freeCtr
@[simp] theorem State.ev_shared (s : State) (u : UnitId) (e : Ev) (l : List Nat) : (s.ev u e l).shared = s.shared := (ServiceOnly.ev s _ _ _).shared
@[simp] theorem State.ev_bad (s : State) (u : UnitId) (e : Ev) (l : List Nat) : (s.ev u e l).bad = s.bad := (ServiceOnly.ev s _ _ _).bad
@[simp] theorem State.ev_dram (s : State) (u : UnitId) (e : Ev) (l : List Nat) : (s.ev u e l).dram = s.dram := (ServiceOnly.ev s _ _ _).dram
@[simp] theorem State.ev_mtm (s : State) (u : UnitId) (e : Ev) (l : List Nat) : (s.ev u e l).mtm = s.mtm := (ServiceOnly.ev s _ _ _).mtm
@[simp] theorem State.ev_cfg (s : State) (u : UnitId) (e : Ev) (l : List Nat) : (s.ev u e l).cfg = s.cfg := (ServiceOnly.ev s _ _ _).cfg
@[simp] theorem State.ev_asy (s : State) (u : UnitId) (e : Ev) (l : List Nat) : (s.ev u e l).asy = s.asy := (ServiceOnly.ev s _ _ _).asy
@[simp] theorem State.ev_fld (s : State) (u : UnitId) (e : Ev) (l : List Nat) : (s.ev u e l).fld = s.fld := (ServiceOnly.ev s _ _ _).fld
@[simp] theorem State.ev_tap (s : State) (u : UnitId) (e : Ev) (l : List Nat) : (s.ev u e l).tap = s.tap := (ServiceOnly.ev s _ _ _).tap
@[simp] theorem State.ev_shf (s : State) (u : UnitId) (e : Ev) (l : List Nat) : (s.ev u e l).shf = s.shf := (ServiceOnly.ev s _ _ _).shf
@[simp] theorem State.ev_hif (s : State) (u : UnitId) (e : Ev) (l : List Nat) : (s.ev u e l).hif = s.hif := (ServiceOnly.ev s _ _ _).hif
@[simp] theorem State.ev_sgm (s : State) (u : UnitId) (e : Ev) (l : List Nat) : (s.ev u e l).sgm = s.sgm := (ServiceOnly.ev s _ _ _).sgm
@[simp] theorem State.ev_rfc (s : State) (u : UnitId) (e : Ev) (l : List Nat) : (s.ev u e l).rfc = s.rfc := (ServiceOnly.ev s _ _ _).rfc
@[simp] theorem State.ev_pkb (s : State) (u : UnitId) (e : Ev) (l : List Nat) : (s.ev u e l).pkb = s.pkb := (ServiceOnly.ev s _ _ _).pkb
@[simp] theorem State.ev_wgc (s : State) (u : UnitId) (e : Ev) (l : List Nat) : (s.ev u e l).wgc = s.wgc := (ServiceOnly.ev s _ _ _).wgc
@[simp] theorem State.ev_par (s : State) (u : UnitId) (e : Ev) (l : List Nat) : (s.ev u e l).par = s.par := (ServiceOnly.ev s _ _ _).par
@[simp] theorem State.ev_flw (s : State) (u : UnitId) (e : Ev) (l : List Nat) : (s.ev u e l).flw = s.flw := (ServiceOnly.ev s _ _ _).flw
@[simp] theorem State.ev_sch (s : State) (u : UnitId) (e : Ev) (l : List Nat) : (s.ev u e l).sch = s.sch := (ServiceOnly.ev s _ _ _).sch
@[simp] theorem State.ev_ple (s : State) (u : UnitId) (e : Ev) (l : List Nat) : (s.ev u e l).ple = s.ple := (ServiceOnly.ev s _ _ _).ple
@[simp] theorem State.ev_rfa (s : State) (u : UnitId) (e : Ev) (l : List Nat) : (s.ev u e l).rfa = s.rfa := (ServiceOnly.ev s _ _ _).rfa
@[simp] theorem State.ev_rfb (s : State) (u : UnitId) (e : Ev) (l : List Nat) : (s.ev u e l).rfb = s.rfb := (ServiceOnly.ev s _ _ _).rfb
@[simp] theorem State.ev_wma (s : State) (u : UnitId) (e : Ev) (l : List Nat) : (s.ev u e l).wma = s.wma := (ServiceOnly.ev s _ _ _).wma
@[simp] theorem State.ev_cip (s : State) (u : UnitId) (e : Ev) (l : List Nat) : (s.ev u e l).cip = s.cip := (ServiceOnly.ev s _ _ _).cip
@[simp] theorem State.ev_eth (s : State) (u : UnitId) (e : Ev) (l : List Nat) : (s.ev u e l).eth = s.eth := (ServiceOnly.ev s _ _ _).eth
@[simp] theorem State.ev_drc (s : State) (u : UnitId) (e : Ev) (l : List Nat) : (s.ev u e l).drc = s.drc := (ServiceOnly.ev s _ _ _).drc
theorem State.rd_ev (s : State) (u : UnitId) (e : Ev) (l : List Nat) {k : Nat} (h : serviceReg k = false) : (s.ev u e l).rd k = s.rd k := (ServiceOnly.ev s _ _ _).regs k h
theorem State.f_ev (s : State) (u : UnitId) (e : Ev) (l : List Nat) {x : Field} (h : serviceReg x.addr = false) : (s.ev u e l).f x = s.f x := (ServiceOnly.ev s _ _ _).f x h
theorem State.on_ev (s : State) (u : UnitId) (e : Ev) (l : List Nat) {x : Field} (h : serviceReg x.addr = false) : (s.ev u e l).on x = s.on x := (ServiceOnly.ev s _ _ _).on x h

/-! ### `evR` -/

@[simp] theorem State.evR_pending (s : State) (u : UnitId) (e : Ev) (l : List Nat) : (s.evR u e l).pending = s.pending := (ServiceOnly.evR s _ _ _).pending
@[simp] theorem State.evR_hold (s : State) (u : UnitId) (e : Ev) (l : List Nat) : (s.evR u e l).hold = s.hold := (ServiceOnly.evR s _ _ _).hold
@[simp] theorem State.evR_readData (s : State) (u : UnitId) (e : Ev) (l : List Nat) : (s.evR u e l).readData = s.readData := (ServiceOnly.evR s _ _ _).readData
@[simp] theorem State.evR_now (s : State) (u : UnitId) (e : Ev) (l : List Nat) : (s.evR u e l).now = s.now := (ServiceOnly.evR s _ _ _).now
@[simp] theorem State.evR_lt (s : State) (u : UnitId) (e : Ev) (l : List Nat) : (s.evR u e l).lt = s.lt := (ServiceOnly.evR s _ _ _).lt
@[simp] theorem State.evR_freeCtr (s : State) (u : UnitId) (e : Ev) (l : List Nat) : (s.evR u e l).freeCtr = s.freeCtr := (ServiceOnly.evR s _ _ _).freeCtr
@[simp] theorem State.evR_shared (s : State) (u : UnitId) (e : Ev) (l : List Nat) : (s.evR u e l).shared = s.shared := (ServiceOnly.evR s _ _ _).shared
@[simp] theorem State.evR_bad (s : State) (u : UnitId) (e : Ev) (l : List Nat) : (s.evR u e l).bad = s.bad := (ServiceOnly.evR s _ _ _).bad
@[simp] theorem State.evR_dram (s : State) (u : UnitId) (e : Ev) (l : List Nat) : (s.evR u e l).dram = s.dram := (ServiceOnly.evR s _ _ _).dram
@[simp] theorem State.evR_mtm (s : State) (u : UnitId) (e : Ev) (l : List Nat) : (s.evR u e l).mtm = s.mtm := (ServiceOnly.evR s _ _ _).mtm
@[simp] theorem State.evR_cfg (s : State) (u : UnitId) (e : Ev) (l : List Nat) : (s.evR u e l).cfg = s.cfg := (ServiceOnly.evR s _ _ _).cfg
@[simp] theorem State.evR_asy (s : State) (u : UnitId) (e : Ev) (l : List Nat) : (s.evR u e l).asy = s.asy := (ServiceOnly.evR s _ _ _).asy
@[simp] theorem State.evR_fld (s : State) (u : UnitId) (e : Ev) (l : List Nat) : (s.evR u e l).fld = s.fld := (ServiceOnly.evR s _ _ _).fld
@[simp] theorem State.evR_tap (s : State) (u : UnitId) (e : Ev) (l : List Nat) : (s.evR u e l).tap = s.tap := (ServiceOnly.evR s _ _ _).tap
@[simp] theorem State.evR_shf (s : State) (u : UnitId) (e : Ev) (l : List Nat) : (s.evR u e l).shf = s.shf := (ServiceOnly.evR s _ _ _).shf
@[simp] theorem State.evR_hif (s : State) (u : UnitId) (e : Ev) (l : List Nat) : (s.evR u e l).hif = s.hif := (ServiceOnly.evR s _ _ _).hif
@[simp] theorem State.evR_sgm (s : State) (u : UnitId) (e : Ev) (l : List Nat) : (s.evR u e l).sgm = s.sgm := (ServiceOnly.evR s _ _ _).sgm
@[simp] theorem State.evR_rfc (s : State) (u : UnitId) (e : Ev) (l : List Nat) : (s.evR u e l).rfc = s.rfc := (ServiceOnly.evR s _ _ _).rfc
@[simp] theorem State.evR_pkb (s : State) (u : UnitId) (e : Ev) (l : List Nat) : (s.evR u e l).pkb = s.pkb := (ServiceOnly.evR s _ _ _).pkb
@[simp] theorem State.evR_wgc (s : State) (u : UnitId) (e : Ev) (l : List Nat) : (s.evR u e l).wgc = s.wgc := (ServiceOnly.evR s _ _ _).wgc
@[simp] theorem State.evR_par (s : State) (u : UnitId) (e : Ev) (l : List Nat) : (s.evR u e l).par = s.par := (ServiceOnly.evR s _ _ _).par
@[simp] theorem State.evR_flw (s : State) (u : UnitId) (e : Ev) (l : List Nat) : (s.evR u e l).flw = s.flw := (ServiceOnly.evR s _ _ _).flw
@[simp] theorem State.evR_sch (s : State) (u : UnitId) (e : Ev) (l : List Nat) : (s.evR u e l).sch = s.sch := (ServiceOnly.evR s _ _ _).sch
@[simp] theorem State.evR_ple (s : State) (u : UnitId) (e : Ev) (l : List Nat) : (s.evR u e l).ple = s.ple := (ServiceOnly.evR s _ _ _).ple
@[simp] theorem State.evR_rfa (s : State) (u : UnitId) (e : Ev) (l : List Nat) : (s.evR u e l).rfa = s.rfa := (ServiceOnly.evR s _ _ _).rfa
@[simp] theorem State.evR_rfb (s : State) (u : UnitId) (e : Ev) (l : List Nat) : (s.evR u e l).rfb = s.rfb := (ServiceOnly.evR s _ _ _).rfb
@[simp] theorem State.evR_wma (s : State) (u : UnitId) (e : Ev) (l : List Nat) : (s.evR u e l).wma = s.wma := (ServiceOnly.evR s _ _ _).wma
@[simp] theorem State.evR_cip (s : State) (u : UnitId) (e : Ev) (l : List Nat) : (s.evR u e l).cip = s.cip := (ServiceOnly.evR s _ _ _).cip
@[simp] theorem State.evR_eth (s : State) (u : UnitId) (e : Ev) (l : List Nat) : (s.evR u e l).eth = s.eth := (ServiceOnly.evR s _ _ _).eth
@[simp] theorem State.evR_drc (s : State) (u : UnitId) (e : Ev) (l : List Nat) : (s.evR u e l).drc = s.drc := (ServiceOnly.evR s _ _ _).drc
theorem State.rd_evR (s : State) (u : UnitId) (e : Ev) (l : List Nat) {k : Nat} (h : serviceReg k = false) : (s.evR u e l).rd k = s.rd k := (ServiceOnly.evR s _ _ _).regs k h
theorem State.f_evR (s : State) (u : UnitId) (e : Ev) (l : List Nat) {x : Field} (h : serviceReg x.addr = false) : (s.evR u e l).f x = s.f x := (ServiceOnly.evR s _ _ _).f x h
theorem State.on_evR (s : State) (u : UnitId) (e : Ev) (l : List Nat) {x : Field} (h : serviceReg x.addr = false) : (s.evR u e l).on x = s.on x := (ServiceOnly.evR s _ _ _).on x h

/-! ### The gate -/

theorem State.ready_congr {s t : State} (h : ServiceOnly s t) (u : UnitId) : t.ready u = s.ready u := by
  unfold State.ready; rw [h.f _ rfl]

/-- An admitted write acts on the entered state. -/
theorem State.gate_admits {s : State} {u : UnitId} {need : Level} {r : Req} (h : s.admits u need r = true) (a : Nat)
    (f : State → State) : s.gate u need a r f = f (s.entered u) := by
  simp only [State.admits, Bool.and_eq_true, Bool.not_eq_true', Bool.or_eq_true, decide_eq_true_eq] at h
  obtain ⟨⟨⟨h1, h2⟩, h3⟩, h4⟩ := h
  have hr := State.ready_congr (ServiceOnly.entered s u) u
  unfold State.gate
  rw [if_neg (by rw [h1]; decide), if_neg (by rw [h2]; decide)]
  show (if (!(s.entered u).ready u && decide (r.level ≠ .vendor)) = true then _ else _) = _
  rw [if_neg, if_neg (by rw [h4]; decide)]
  · rfl
  · rw [hr]
    rcases h3 with h3 | h3 <;> simp [h3]

theorem serviceReg_cmd {s : State} {c : CmdReg} {r : Req} (h : s.accepts c r = true) (k : serviceReg c.addr = false) :
    ¬ ((s.entered c.unit).f (cmdState c.addr) = 1) := by
  simp only [State.accepts, Bool.and_eq_true, decide_eq_true_eq] at h
  rw [(ServiceOnly.entered s c.unit).f _ k]
  exact h.2

/-- A command that its register accepts runs on the entered state (R14). -/
theorem State.command_accepts {s : State} {c : CmdReg} {r : Req} (h : s.accepts c r = true) (k : serviceReg c.addr = false)
    (f : State → State) : s.command c r f = f (s.entered c.unit) := by
  unfold State.command
  have ha : s.admits c.unit c.level r = true := by
    simp only [State.accepts, Bool.and_eq_true] at h; exact h.1
  rw [State.gate_admits ha, if_neg (serviceReg_cmd h k)]

/-- A command that ends DONE reads so, with its result (R14). -/
theorem State.cmdIs_state (s : State) (a st r : Nat) (h : st < 16) : (s.cmdIs a st r).f (cmdState a) = st := by
  unfold State.cmdIs
  rw [State.f_set_apart _ _ _ _ rfl ((Field.apart_iff _ _).2 (Or.inr (Or.inr ⟨by show 0 ≤ 3; decide, by show 3 < 4; decide⟩))),
    State.f_set_self _ _ _ rfl]
  exact Nat.mod_eq_of_lt h

theorem State.cmdIs_result (s : State) (a st r : Nat) (h : r < 16) : (s.cmdIs a st r).f (cmdResult a) = r := by
  unfold State.cmdIs
  rw [State.f_set_self _ _ _ rfl]
  exact Nat.mod_eq_of_lt h

theorem State.rd_cmdIs_ne (s : State) (a st r b : Nat) (h : b ≠ a) : (s.cmdIs a st r).rd b = s.rd b := by
  unfold State.cmdIs
  rw [State.rd_set_ne _ _ _ _ h, State.rd_set_ne _ _ _ _ h]

end Sys2Proof.Machine
end

