-- ==== Sys2Proof/Laws/Image.lean ====
section
/-! SUPPORT. The tables of AES against their definition in FIPS 197: the affine map of the inverse in GF(2⁸). -/

namespace Sys2Proof.Machine

/-- The inverse in GF(2⁸), as the 254th power: 254 = 2 + 4 + 8 + 16 + 32 + 64 + 128. The inverse of 0 is 0. -/
def aesInverse (a : Byte) : Byte :=
  ((List.range 7).foldl (fun (x : Byte × Byte) _ => let q := aesMul x.2 x.2; (aesMul x.1 q, q)) (1, a)).1

/-- The affine map of the S-box: bits 0, 4, 5, 6 and 7 above each bit are summed, and 0x63 is added. -/
def aesAffine (a : Byte) : Byte :=
  a ^^^ a.rotateLeft 1 ^^^ a.rotateLeft 2 ^^^ a.rotateLeft 3 ^^^ a.rotateLeft 4 ^^^ 0x63

theorem aesInverse_mul : ∀ i : Fin 256, i ≠ 0 → aesMul (BitVec.ofFin i) (aesInverse (BitVec.ofFin i)) = 1 := by
  decide +kernel

theorem sbox_eq_affine_inverse : ∀ i : Fin 256, sbox (BitVec.ofFin i) = aesAffine (aesInverse (BitVec.ofFin i)) := by
  decide +kernel

theorem sboxInv_sbox : ∀ i : Fin 256, sboxInv (sbox (BitVec.ofFin i)) = BitVec.ofFin i := by decide +kernel

end Sys2Proof.Machine
end

