-- ==== Sys2Proof/Laws/Time.lean ====
section
/-! SUPPORT. What the passing of time leaves alone, and what mains-time operations change. -/

namespace Sys2Proof.Machine

theorem State.advance_regs (s : State) (d : Nat) : (s.advance d).regs = s.regs := by
  unfold State.advance; dsimp only; split <;> rfl

theorem State.advance_now (s : State) (d : Nat) : (s.advance d).now = s.now + d := by
  unfold State.advance; dsimp only; split <;> rfl

/-- Time changes its own fields only. -/
theorem State.advance_rest (s : State) (d : Nat) :
    s.advance d = { s with
      now := s.now + d, lt := (s.advance d).lt
      mtm := { s.mtm with
        ltAcc := (s.advance d).mtm.ltAcc, mt := (s.advance d).mtm.mt, acc := (s.advance d).mtm.acc
        holdTicks := (s.advance d).mtm.holdTicks } } := by
  by_cases h : s.cfg.stage < 2 <;> simp [State.advance, h]

theorem cycle_add (m k : Nat) : (m + if m % 65536 + k < 65536 then k else 65535 - m % 65536) / 65536 = m / 65536 := by
  split <;> omega

/-- MT keeps its cycle number while time passes (R44). -/
theorem State.advance_cycle (s : State) (d : Nat) : (s.advance d).mtm.mt / 65536 = s.mtm.mt / 65536 := by
  unfold State.advance
  dsimp only
  split
  · rfl
  · exact cycle_add _ _

theorem State.reach_now (s : State) (t : Nat) : (s.reach t).now = max s.now t := by
  unfold State.reach; rw [State.advance_now]; omega

@[simp] theorem State.rd_advance (s : State) (d a : Nat) : (s.advance d).rd a = s.rd a := State.rd_congr (s.advance_regs d) a
@[simp] theorem State.f_advance (s : State) (d : Nat) (x : Field) : (s.advance d).f x = s.f x := State.f_congr (s.advance_regs d) x
@[simp] theorem State.rd_reach (s : State) (t a : Nat) : (s.reach t).rd a = s.rd a := State.rd_advance _ _ _
@[simp] theorem State.f_reach (s : State) (t : Nat) (x : Field) : (s.reach t).f x = s.f x := State.f_advance _ _ _
@[simp] theorem State.on_reach (s : State) (t : Nat) (x : Field) : (s.reach t).on x = s.on x := by
  unfold State.on; rw [State.f_reach]
@[simp] theorem State.advance_pending (s : State) (d : Nat) : (s.advance d).pending = s.pending := by rw [State.advance_rest]
@[simp] theorem State.reach_pending (s : State) (t : Nat) : (s.reach t).pending = s.pending := State.advance_pending _ _
@[simp] theorem State.advance_hold (s : State) (d : Nat) : (s.advance d).hold = s.hold := by rw [State.advance_rest]
@[simp] theorem State.reach_hold (s : State) (t : Nat) : (s.reach t).hold = s.hold := State.advance_hold _ _
@[simp] theorem State.advance_readData (s : State) (d : Nat) : (s.advance d).readData = s.readData := by rw [State.advance_rest]
@[simp] theorem State.reach_readData (s : State) (t : Nat) : (s.reach t).readData = s.readData := State.advance_readData _ _
@[simp] theorem State.advance_freeCtr (s : State) (d : Nat) : (s.advance d).freeCtr = s.freeCtr := by rw [State.advance_rest]
@[simp] theorem State.reach_freeCtr (s : State) (t : Nat) : (s.reach t).freeCtr = s.freeCtr := State.advance_freeCtr _ _
@[simp] theorem State.advance_shared (s : State) (d : Nat) : (s.advance d).shared = s.shared := by rw [State.advance_rest]
@[simp] theorem State.reach_shared (s : State) (t : Nat) : (s.reach t).shared = s.shared := State.advance_shared _ _
@[simp] theorem State.advance_bad (s : State) (d : Nat) : (s.advance d).bad = s.bad := by rw [State.advance_rest]
@[simp] theorem State.reach_bad (s : State) (t : Nat) : (s.reach t).bad = s.bad := State.advance_bad _ _
@[simp] theorem State.advance_dram (s : State) (d : Nat) : (s.advance d).dram = s.dram := by rw [State.advance_rest]
@[simp] theorem State.reach_dram (s : State) (t : Nat) : (s.reach t).dram = s.dram := State.advance_dram _ _
@[simp] theorem State.advance_log (s : State) (d : Nat) : (s.advance d).log = s.log := by rw [State.advance_rest]
@[simp] theorem State.reach_log (s : State) (t : Nat) : (s.reach t).log = s.log := State.advance_log _ _
@[simp] theorem State.advance_prf (s : State) (d : Nat) : (s.advance d).prf = s.prf := by rw [State.advance_rest]
@[simp] theorem State.reach_prf (s : State) (t : Nat) : (s.reach t).prf = s.prf := State.advance_prf _ _
@[simp] theorem State.advance_cfg (s : State) (d : Nat) : (s.advance d).cfg = s.cfg := by rw [State.advance_rest]
@[simp] theorem State.reach_cfg (s : State) (t : Nat) : (s.reach t).cfg = s.cfg := State.advance_cfg _ _
@[simp] theorem State.advance_pwr (s : State) (d : Nat) : (s.advance d).pwr = s.pwr := by rw [State.advance_rest]
@[simp] theorem State.reach_pwr (s : State) (t : Nat) : (s.reach t).pwr = s.pwr := State.advance_pwr _ _
@[simp] theorem State.advance_asy (s : State) (d : Nat) : (s.advance d).asy = s.asy := by rw [State.advance_rest]
@[simp] theorem State.reach_asy (s : State) (t : Nat) : (s.reach t).asy = s.asy := State.advance_asy _ _
@[simp] theorem State.advance_fld (s : State) (d : Nat) : (s.advance d).fld = s.fld := by rw [State.advance_rest]
@[simp] theorem State.reach_fld (s : State) (t : Nat) : (s.reach t).fld = s.fld := State.advance_fld _ _
@[simp] theorem State.advance_tap (s : State) (d : Nat) : (s.advance d).tap = s.tap := by rw [State.advance_rest]
@[simp] theorem State.reach_tap (s : State) (t : Nat) : (s.reach t).tap = s.tap := State.advance_tap _ _
@[simp] theorem State.advance_cpu (s : State) (d : Nat) : (s.advance d).cpu = s.cpu := by rw [State.advance_rest]
@[simp] theorem State.reach_cpu (s : State) (t : Nat) : (s.reach t).cpu = s.cpu := State.advance_cpu _ _
@[simp] theorem State.advance_shf (s : State) (d : Nat) : (s.advance d).shf = s.shf := by rw [State.advance_rest]
@[simp] theorem State.reach_shf (s : State) (t : Nat) : (s.reach t).shf = s.shf := State.advance_shf _ _
@[simp] theorem State.advance_hif (s : State) (d : Nat) : (s.advance d).hif = s.hif := by rw [State.advance_rest]
@[simp] theorem State.reach_hif (s : State) (t : Nat) : (s.reach t).hif = s.hif := State.advance_hif _ _
@[simp] theorem State.advance_sgm (s : State) (d : Nat) : (s.advance d).sgm = s.sgm := by rw [State.advance_rest]
@[simp] theorem State.reach_sgm (s : State) (t : Nat) : (s.reach t).sgm = s.sgm := State.advance_sgm _ _
@[simp] theorem State.advance_rfc (s : State) (d : Nat) : (s.advance d).rfc = s.rfc := by rw [State.advance_rest]
@[simp] theorem State.reach_rfc (s : State) (t : Nat) : (s.reach t).rfc = s.rfc := State.advance_rfc _ _
@[simp] theorem State.advance_pkb (s : State) (d : Nat) : (s.advance d).pkb = s.pkb := by rw [State.advance_rest]
@[simp] theorem State.reach_pkb (s : State) (t : Nat) : (s.reach t).pkb = s.pkb := State.advance_pkb _ _
@[simp] theorem State.advance_wgc (s : State) (d : Nat) : (s.advance d).wgc = s.wgc := by rw [State.advance_rest]
@[simp] theorem State.reach_wgc (s : State) (t : Nat) : (s.reach t).wgc = s.wgc := State.advance_wgc _ _
@[simp] theorem State.advance_par (s : State) (d : Nat) : (s.advance d).par = s.par := by rw [State.advance_rest]
@[simp] theorem State.reach_par (s : State) (t : Nat) : (s.reach t).par = s.par := State.advance_par _ _
@[simp] theorem State.advance_flw (s : State) (d : Nat) : (s.advance d).flw = s.flw := by rw [State.advance_rest]
@[simp] theorem State.reach_flw (s : State) (t : Nat) : (s.reach t).flw = s.flw := State.advance_flw _ _
@[simp] theorem State.advance_sch (s : State) (d : Nat) : (s.advance d).sch = s.sch := by rw [State.advance_rest]
@[simp] theorem State.reach_sch (s : State) (t : Nat) : (s.reach t).sch = s.sch := State.advance_sch _ _
@[simp] theorem State.advance_ple (s : State) (d : Nat) : (s.advance d).ple = s.ple := by rw [State.advance_rest]
@[simp] theorem State.reach_ple (s : State) (t : Nat) : (s.reach t).ple = s.ple := State.advance_ple _ _
@[simp] theorem State.advance_rfa (s : State) (d : Nat) : (s.advance d).rfa = s.rfa := by rw [State.advance_rest]
@[simp] theorem State.reach_rfa (s : State) (t : Nat) : (s.reach t).rfa = s.rfa := State.advance_rfa _ _
@[simp] theorem State.advance_rfb (s : State) (d : Nat) : (s.advance d).rfb = s.rfb := by rw [State.advance_rest]
@[simp] theorem State.reach_rfb (s : State) (t : Nat) : (s.reach t).rfb = s.rfb := State.advance_rfb _ _
@[simp] theorem State.advance_wma (s : State) (d : Nat) : (s.advance d).wma = s.wma := by rw [State.advance_rest]
@[simp] theorem State.reach_wma (s : State) (t : Nat) : (s.reach t).wma = s.wma := State.advance_wma _ _
@[simp] theorem State.advance_cip (s : State) (d : Nat) : (s.advance d).cip = s.cip := by rw [State.advance_rest]
@[simp] theorem State.reach_cip (s : State) (t : Nat) : (s.reach t).cip = s.cip := State.advance_cip _ _
@[simp] theorem State.advance_eth (s : State) (d : Nat) : (s.advance d).eth = s.eth := by rw [State.advance_rest]
@[simp] theorem State.reach_eth (s : State) (t : Nat) : (s.reach t).eth = s.eth := State.advance_eth _ _
@[simp] theorem State.advance_drc (s : State) (d : Nat) : (s.advance d).drc = s.drc := by rw [State.advance_rest]
@[simp] theorem State.reach_drc (s : State) (t : Nat) : (s.reach t).drc = s.drc := State.advance_drc _ _

/-! ### Reference inputs -/

@[simp] theorem State.refIn_reach (s : State) (t : Nat) (x : RefId) : (s.reach t).refIn x = s.refIn x := by
  unfold State.reach; rw [State.advance_rest]; cases x <;> rfl

@[simp] theorem State.refIn_editRef (s : State) (x : RefId) (f : RefIn → RefIn) : (s.editRef x f).refIn x = f (s.refIn x) := by
  cases x <;> rfl

@[simp] theorem State.rd_editRef (s : State) (x : RefId) (f : RefIn → RefIn) (a : Nat) : (s.editRef x f).rd a = s.rd a := by
  cases x <;> rfl

@[simp] theorem State.f_editRef (s : State) (x : RefId) (f : RefIn → RefIn) (y : Field) : (s.editRef x f).f y = s.f y := by
  cases x <;> rfl

theorem refStat_ok (x : RefId) : (refStat x).ok = true := by cases x <;> rfl
theorem learnOfs_ok (x : RefId) : (learnOfs x).ok = true := by cases x <;> rfl
theorem learnFlag_ok (x : RefId) : (learnFlag x).ok = true := by cases x <;> rfl

/-- An input that is judged while MT is not VALID changes nothing (R42). -/
theorem State.judgeSource_invalid {s : State} (h : s.on MTM_STATUS_VALID = false) : s.judgeSource = s := by
  unfold State.judgeSource; rw [h]; rfl

end Sys2Proof.Machine
end

