-- ==== Sys2Proof/Tests/Slice0.lean ====
section
/-! SUPPORT. Tests, and for each statement with hypotheses a witness: states and operands that meet the hypotheses of each of its
clauses. The expected results of the tests are the worked examples and tables of spec/. -/

namespace Sys2Proof.Tests
open Sys2Proof.Machine
set_option Elab.async false

/-- A running device: full service, every unit ready, every domain up, every ladder armed. -/
def up : State :=
  { State.reset with
    regs := [(0x14, 0x7FFFFF)]
    cfg := { State.reset.cfg with stage := 10, strapped := true }
    pwr := { State.reset.pwr with doms := (Dom.all.map fun d => (d.num, DomSt.up)) }
    asy := { State.reset.asy with armed := true, watchdog := true } }

/-- The unit, the table row and the word that an address names. -/
def unitOf (a : Nat) : UnitId := ((regAt a).map (·.1)).getD .top
def descAt (a : Nat) : RegDesc := ((regAt a).map (·.2.1)).getD ⟨0, 0, 0, 0, false, []⟩
def wordOf (a : Nat) : Nat := ((regAt a).map (·.2.2)).getD 0

/-- A folio with no words. -/
def folio0 : FolioData := ⟨[], 0, 0, 50, [], []⟩

/-- Bank A of a NOR with seven empty sections, each with its tag under the key of an all-zero root (R60, R61): FIRMWARE, PARSE,
EDITION, FOLIO 0, CALIBRATION, PLACEMENT and SCHEDULE; and a device with that NOR and that root. -/
def imgTags : List Nat :=
  [0x65dfb850de2e6b2ead4c9b7857887110, 0xe50e62287893a31d026af4043525cb37, 0x99f8f4c94f2898263f06364230b7b07c,
   0x77e15e5e9da55c52d23f80dbf8942134, 0, 0, 0, 0x371265845f2034ee93ae5660d80e9496, 0x59805e90e2ae9abf56079fee2f0ef1c6,
   0x9d052dc91aef408c0f3bb389efd1dabe]
def imgEntry (k : Nat) (x : Nat) : List Byte := [BitVec.ofNat 8 x, 0, 0, 0] ++ natLe 4 (0x100 + 16 * k) ++ List.replicate 8 0
def imgBytes : List Byte :=
  List.replicate 32 0xFF ++ ([1, 2, 3, 4, 8, 8, 8, 5, 6, 7].zipIdx.flatMap fun x => imgEntry x.2 x.1) ++
    List.replicate 64 0xFF ++ imgTags.flatMap (natBe 16)
def imgNor : Memory := (imgBytes.zipIdx.filter fun x => decide (x.1 ≠ 0xFF)).map fun x => (x.2, ~~~x.1)
def imaged (s : State) : State := ({ s with cfg.nor := imgNor } : State).set CIP_ROOT_STAT_PROG 0x40

/-- The key of the image under an all-zero root. It is evaluated once, and each section's tag once. -/
def imgKey : List Byte := [51, 187, 116, 171, 83, 170, 172, 140, 133, 158, 127, 161, 238, 232, 124, 37]
theorem imgKey_derived : deriveKey (List.replicate 32 0) [0x49, 0x4D, 0x41, 0x47, 0x45] 128 = imgKey := by decide +kernel
theorem imageKey_root0 (s : State) (hr : s.cip.roots = []) : s.imageKey = imgKey := by
  rw [← imgKey_derived]
  simp [State.imageKey, State.derivedKey, State.imageTag, State.cipTag, hr, Map.lookD, Map.look]

/-- A section authenticates under that key. -/
def passRoot0 (s : State) (t : Nat) : Bool :=
  match s.sectionFind false t 0 with
  | none => false
  | some k =>
    let e := s.sectionEntry false k
    decide (e.2.2.2 ≤ sectionLimit t) && (s.rootOk 3 && decide (cmac imgKey
      (s.imageBytes false (0x20 + 16 * k) 16 ++ s.imageBytes false 0x10 4 ++ s.imageBytes false e.2.2.1 e.2.2.2) =
        s.imageBytes false (e.2.2.1 + e.2.2.2) 16))
theorem sectionPass_root0 (s : State) (hr : s.cip.roots = []) (t : Nat) : s.sectionPass false t 0 = passRoot0 s t := by
  unfold State.sectionPass passRoot0
  cases s.sectionFind false t 0 with
  | none => rfl
  | some k => unfold State.imageMac; rw [imageKey_root0 s hr]

/-- A packet of a quire, and a state whose only packets are those of one enabled quire. -/
def pkt0 (q : Nat) : Packet := { quire := q, ingress := q, data := [1, 2, 3], cells := 1, good := true }
def quired (s : State) (q id : Nat) (k : Quire) (p : Packet) : State :=
  (({ s with pkb.quires := [(q, { k with used := 1 })], pkb.pkts := [(id, p)], pkb.next := id + 1 } : State).up
    (PKB_Q_CFG_EN q)).set (PKB_Q_LIMIT_QUOTA q) 100

/-- An IPv4 UDP packet and a flow of it, the packet's wait in FLW, and a tree of queue 1, client 2 and group 3 at root 0. -/
def ipPkt : Packet :=
  { pkt0 3 with
    data := [0x45, 0, 0, 28, 0, 0, 0, 0, 64, 17, 0, 0, 10, 0, 0, 1, 10, 0, 0, 2, 0, 53, 0, 54, 0, 8, 0, 0]
    layers := [(0x10, 0), (0x21, 20)] }
def ipKey : List Byte := (flowKey ipPkt 0).getD []
def flow0 : Flow := { key := ipKey, tier := 1, pkts := 5 }
def waiting (s : State) (x : FlwPkt) : State := { quired s 3 7 {} ipPkt with flw.wait := [x] }
def tree (s : State) : State :=
  { s with
    sch.queues := [(1, { w0 := 0x80000002, w2 := 0xFFFF0000 })]
    sch.clients := [(2, { w0 := 0x80030001 })]
    sch.groups := [(3, { w0 := 0x80000001 })] }

/-- Radio C in RX with nothing in progress and one channel enabled with profile 0; a station; a transmit command. -/
def rxC (s : State) (k : Nat) : State :=
  ({ s.wr (RFC_CH_CFG_EN k).addr 0x80010000 with
     bad := []
     rfc.state := 3, rfc.trans := none, rfc.tx := none, rfc.retune := none, rfc.txq := [], rfc.lastTx := none,
     rfc.queue := [], rfc.chans := [] } : State).setW RFC_CH_LOST_LOST 0
def sta0 : Station := { mac := 5, links := 1, bss := 0, mld := false, backhaul := false, client := 9 }
def tx0 : RfcTx := { id := 4, channel := 2, profile := 0, port := 0, level := 20, start := 900, deadline := false,
                     psdu := [1, 2, 3, 4, 5], what := .other }

/-- A radio's first link in a state with nothing in progress. -/
def linkUp (s : State) (d : Radio) (state : Nat) : State :=
  s.editLink d 0 fun k => { k with state := state, trans := none, tx := none, calTarget := none, queue := [], held := [] }

/-- Radio A's link in RX with BSS 2 and a station; a data frame of that station to the BSS, in LLC and SNAP, and its header. -/
def wifiUp (s : State) : State :=
  { (((linkUp s .a 3).up (RFA_BSS_EN 2)).set (RFA_BSS_MAC_HI 2) 0x200).set (RFA_BSS_MAC_LO 2) 1 with
    bad := [], rfa.bss := [], wma.stations := [(4, sta0)], wma.acking := [], wma.responses := [] }
def mpdu0 : WifiRx :=
  ⟨0, [8, 1, 0, 0, 2, 0, 0, 0, 0, 1, 0, 0, 0, 0, 0, 5, 2, 0, 0, 0, 0, 7, 0x10, 0, 0xAA, 0xAA, 3, 0, 0, 0, 8, 0, 9, 9], false,
    true, false, none, 0, 0, 0⟩
def mpduHdr0 : MacHdr := { fc := 0x108, a1 := 0x20000000001, a2 := 5, a3 := 0x20000000007, sc := 16, len := 24 }

/-- A sub-GHz MAC with the DISTRICT root served, radio C ready, and one active block of a kind in slots 0 and 1. -/
def blockUp (s : State) (b kind : Nat) : State :=
  let s := (((rxC s 2).set CIP_ROOT_STAT_PROG 0x3F).set CIP_ROOT_STAT_BAD 0).set CIP_STATUS_QUAR 0
  let s := s.wr (SGM_BLOCK_ACT_EN b).addr (BitVec.ofNat 32 (0x80000200 + kind * 2 ^ 24))
  { s with
    sgm.suspended := false, sgm.done := [], sgm.safeLeft := 0, sgm.frameEnds := false, sgm.stopped := none
    mtm.mt := 0, rfc.reports := [], sgm.nodes := [] }
/-- A battery partner's data frame to the device, at level 5 under a key of sixteen bytes of 1: its payload is 1, 2. -/
def sgm0 : List Byte := [9, 128, 1, 8, 0, 5, 90, 0, 0, 0, 177, 195, 30, 200, 251, 224, 0, 0, 0, 0]
def node0 : Node := { eui := 77, addr := 8, battery := false, block := 3, channel := 2, profile := 0, sets := 1,
                      period := 0, phase := 0, client := 2 }
def report0 : RxReport := { channel := 2, profile := 0, port := 0, status := 0, dw := false, length := 5, rssi := -80,
                            fofs := 0, mt := 5, lt := 0, acc := 0, last := 0, psdu := [2, 0, 9] }

/-- An engine at work: its stacks, and whether slot B is next. -/
def engineUp (s : State) (e : Engine) (stack rstack : List Word) (slotB : Bool) : State :=
  let a : Option OpTraits := if slotB then some {} else none
  match e with
  | .core c => { (s.wr CPU_CTL_RUN.addr 15).setReady .asy true with
                 bad := [], cpu.cores := [(coreKey c.val, { pc := 5, slotA := a, stack := stack, rstack := rstack })] }
  | .pe n => { quired s 3 7 {} (pkt0 3) with
               bad := [], par.engines := [(n.val, { pkt := 7, pc := 5, slotA := a, stack := stack, rstack := rstack })] }

/-- A shelf of one wired link: this device is a member with a role; and an SMP frame as a member sends it. -/
def shelfUpS (s : State) (id role : Nat) : State :=
  let s := ((s.setReady .shf true).up SHF_CFG_EN).set SHF_CFG_PORTS 15
  let s := (s.up (ETH_PORT_STAT_LINK 2)).set SHF_CFG_ID id |>.set SHF_STATUS_NUMBER id |>.set SHF_STATUS_ROLE role
  let s := (s.down SHF_STATUS_ALIAS_V).down SHF_STATUS_ACTING
  { s with mtm.leads := decide (2 ≤ role), shf.joined := true, shf.quiet := false, shf.outstanding := [], shf.waiting := [] }
def smpBody : List Byte :=
  [0x21, 0x21, 9, 0, 8, 1, 4, 0, 5, 0, 0, 0, 0, 0, 0, 0, 0, 0, 0, 0, 0, 0, 0, 0, 1, 2, 3, 4]
/-- Its tag under a key of sixteen bytes of 1. -/
def smpMac : List Byte := [68, 238, 86, 205, 58, 168, 184, 144, 100, 136, 180, 180, 30, 31, 29, 128]
theorem smpMac_is_the_tag : smpMac = cmac (List.replicate 16 1) smpBody := by decide +kernel

/-- The frame with a tag as a receiver parses it, and a member of a shelf whose cached SHELF key is that one. -/
def smpRead (t : List Byte) : SmpRx :=
  ⟨false, true, ⟨0x21, none, 1, [1, 2, 3, 4], 0, 5, 0, 0, 8, 9, none, []⟩, 0, t, smpBody⟩
def smpUp : State :=
  let s := (((shelfUpS up 3 1).set CIP_ROOT_STAT_PROG 255).set CIP_ROOT_STAT_BAD 0).set CIP_STATUS_QUAR 0
  let s := (s.down CIP_STATUS_ERASING).down CIP_STATUS_RNG_FAIL
  { s with shf.replay := [], cip.derivs := [], cip.derived := [⟨s.smpTag, List.replicate 16 1, false⟩] }

/-- The state that an outcome gives. -/
def nextOf (o : Host.Outcome State Fault Refusal) : State := match o with | .next t => t | _ => State.reset


open Sys2Proof
/-- States and operands that meet the hypotheses of each clause of IdentityRegisters. -/
theorem witness_IdentityRegisters :
    (let req := vendorReq;
      req.level ≠ Level.guest) := by
  decide +kernel

/-- States and operands that meet the hypotheses of each clause of ReservedBits. -/
theorem witness_ReservedBits :
    (let req := vendorReq; let a := (0x14); let x := (regAt a).getD (.top, ⟨0,0,0,0,false,[]⟩, 0); let s := up;
     let addr : BitVec 32 := BitVec.ofNat 32 (a + 0); let u : UnitId := x.1; let r1 : RegDesc := x.2.1; let w : Nat := x.2.2;
      regAt (addr.toNat / 4 * 4) = some (u, r1, w) ∧ (s.isOff = false ∨ req.path = Path.maint)) ∧
    (let a := (0x14); let x := (regAt a).getD (.top, ⟨0,0,0,0,false,[]⟩, 0); let s := up;
     let addr : BitVec 32 := BitVec.ofNat 32 (a + 0); let u : UnitId := x.1; let r1 : RegDesc := x.2.1; let w : Nat := x.2.2;
      regAt (addr.toNat / 4 * 4) = some (u, r1, w) ∧ s.cmdLevel (addr.toNat / 4 * 4 - 4 * w) r1 = none) := by
  refine ⟨?_, ?_⟩ <;> decide +kernel

/-- States and operands that meet the hypotheses of each clause of AlignedWholeWordAccess. -/
theorem witness_AlignedWholeWordAccess :
    (let req := vendorReq; let a := (0x14); let s := up; let addr : BitVec 32 := BitVec.ofNat 32 (a + 0);
     let be : BitVec 4 := BitVec.ofNat 4 0; let u : UnitId := (unitAt (a + 0)).getD .top;
     let v := (match regAt (addr.toNat / 4 * 4) with | some (x, _) => s.demand x | none => s);
      v = (match regAt (addr.toNat / 4 * 4) with | some (x, _) => s.demand x | none => s) ∧ be ≠ 15 ∧ (s.isOff = false ∨ req.path = Path.maint) ∧ u = (unitAt addr.toNat).getD UnitId.top) := by
  decide +kernel

/-- States and operands that meet the hypotheses of each clause of UnmappedAccess. -/
theorem witness_UnmappedAccess :
    (let req := vendorReq; let a := (0x1000F0); let s := up; let addr : BitVec 32 := BitVec.ofNat 32 a;
     let u : UnitId := (unitAt a).getD .top;
      a = addr.toNat / 4 * 4 ∧ regAt a = none ∧ (s.isOff = false ∨ req.path = Path.maint) ∧ u = (unitAt a).getD UnitId.top) := by
  decide +kernel

/-- States and operands that meet the hypotheses of each clause of WordCodeEncoder. -/
theorem witness_WordCodeEncoder :
    (let d : List Byte := List.replicate 32 7;
      d.length = 32) := by
  decide +kernel

/-- States and operands that meet the hypotheses of each clause of RegisterAccessRowsComplete. -/
theorem witness_RegisterAccessRowsComplete :
    (let addr := (BitVec.ofNat 32 ((16781316))); let value := (0 : BitVec 32); let s := up; let req := vendorReq;
     let e := s.entered (unitOf addr.toNat); let u : UnitId := unitOf addr.toNat; let r1 : RegDesc := descAt addr.toNat;
     let w : Nat := wordOf addr.toNat;
      e = s.entered u ∧ regAt (addr.toNat / 4 * 4) = some (u, r1, w) ∧ s.cmdLevel (addr.toNat / 4 * 4 - 4 * w) r1 = none ∧
      s.admits u Level.guest req = true ∧ e.denies req r1 w (addr.toNat / 4 * 4) value = false ∧
      someTakes req.level (s.on TOP_LOCK_BOOT) r1 w = true) ∧
    (let addr := (BitVec.ofNat 32 ((16781316))); let value := (0 : BitVec 32); let s := up;
     let e := s.entered (unitOf addr.toNat); let u : UnitId := unitOf addr.toNat; let r1 : RegDesc := descAt addr.toNat;
     let w : Nat := wordOf addr.toNat;
      e = s.entered u ∧ regAt (addr.toNat / 4 * 4) = some (u, r1, w) ∧ s.cmdLevel (addr.toNat / 4 * 4 - 4 * w) r1 = none ∧
      s.admits u Level.guest maintReq = true ∧ e.denies maintReq r1 w (addr.toNat / 4 * 4) value = false ∧
      someTakes Level.operator (s.on TOP_LOCK_BOOT) r1 w = true) ∧
    (let s := up; let req := vendorReq;
      s.admits UnitId.top Level.vendor req = true ∧ s.on TOP_LOCK_BOOT = false) ∧
    (let s := up; let a : BitVec 7 := BitVec.ofNat 7 (0x58 + s.f TOP_STRAP_MADDR);
      a.toNat = 88 + s.f TOP_STRAP_MADDR) ∧
    (let addr := (BitVec.ofNat 32 ((16777472))); let s := up; let req := vendorReq; let u : UnitId := unitOf addr.toNat;
     let r1 : RegDesc := descAt addr.toNat; let a : Nat := addr.toNat;
      a = addr.toNat ∧ regAt a = some (u, r1, 0) ∧
      u ∈ [UnitId.pkb, UnitId.par, UnitId.flw, UnitId.sch, UnitId.cip, UnitId.wma, UnitId.shf, UnitId.fld, UnitId.asy, UnitId.drc] ∧
      r1.latch = true ∧ r1.words = 2 ∧
      r1.fields = [{ hi := 47, lo := 0, acc := Acc.rc, lvl := none, rst := 0, img := false : FieldDesc }] ∧ a % 4 = 0 ∧
      s.unitDark u = false ∧ s.isOff = false ∧ req.level ≠ Level.guest) ∧
    (let addr := (BitVec.ofNat 32 ((16777476))); let s := up; let req := vendorReq; let u : UnitId := unitOf addr.toNat;
     let r1 : RegDesc := descAt addr.toNat; let a : Nat := addr.toNat;
      a = addr.toNat ∧ regAt a = some (u, r1, 1) ∧ 0 < 1 ∧ r1.latch = true ∧ a % 4 = 0 ∧ s.unitDark u = false ∧
      s.isOff = false ∧ req.level ≠ Level.guest) ∧
    (let addr := BitVec.ofNat 32 0x100028; let s := up; let req := vendorReq; let u : UnitId := unitOf addr.toNat;
     let r1 : RegDesc := descAt addr.toNat; let a : Nat := addr.toNat;
      a = addr.toNat ∧ regAt a = some (u, r1, 0) ∧ r1.latch = true ∧ a % 4 = 0 ∧
      (u = .eth → ¬ (a % 0x10000 = 0x30 ∧ a < 0x3080000)) ∧ s.unitDark u = false ∧ s.isOff = false ∧
      req.level ≠ Level.guest) ∧
    (let addr := (BitVec.ofNat 32 ((16777476))); let s := up; let u : UnitId := unitOf addr.toNat;
     let r1 : RegDesc := descAt addr.toNat; let w : Nat := wordOf addr.toNat; let a : Nat := addr.toNat;
      a = addr.toNat ∧ regAt a = some (u, r1, w) ∧ a % 4 = 0 ∧ s.unitDark u = false ∧ s.isOff = false ∧
      s.guestAny a r1 w = false) ∧
    (let addr := (BitVec.ofNat 32 ((134219008))); let s := up; let u : UnitId := unitOf addr.toNat;
     let r1 : RegDesc := descAt addr.toNat; let a : Nat := addr.toNat;
      a = addr.toNat ∧ regAt a = some (u, r1, 0) ∧ a % 4 = 0 ∧
      u ∈ [UnitId.pkb, UnitId.par, UnitId.flw, UnitId.sch, UnitId.cip, UnitId.wma, UnitId.shf, UnitId.fld, UnitId.asy, UnitId.drc] ∧
      r1.latch = false ∧ s.unitDark u = false ∧ s.isOff = false ∧ s.guestAny a r1 0 = true) := by
  refine ⟨?_, ?_, ?_, ?_, ?_, ?_, ?_, ?_, ?_⟩ <;> decide +kernel

/-- States and operands that meet the hypotheses of each clause of MainsReferenceRowsComplete. -/
theorem witness_MainsReferenceRowsComplete :
    (let x := (RefId.a); let s := up; let b := decide (0 = 0);
      2 ≤ s.cfg.stage ∧ (s.refIn x).raw ≠ b) ∧
    (let x := (RefId.a); let c := 0; let k : RefEdge := { time := c, mt := 0 };
     let s := (up.editRef x fun i => { i with change := some k, raw := false, recent := [] });
      (s.refIn x).change = some k ∧ k.time = c ∧ (s.refIn x).raw = false ∧ s.f (refStat x) ≠ 2 ∧ (s.refIn x).recent = []) ∧
    (let x := (RefId.a); let s := (up.set (refStat x) (0)).down MTM_STATUS_VALID;
      (s.f (refStat x) = 0 ∨ s.f (refStat x) = 3) ∧ s.on MTM_STATUS_VALID = false) ∧
    (let x := (RefId.a); let c := 0; let s := (up.editRef x fun i => { i with chatterEnd := some c, lastEdge := 100 });
      (s.refIn x).chatterEnd = some c ∧ c < (s.refIn x).lastEdge + 3 * s.expectedCycle) ∧
    (let c := 0; let s := ({ up with mtm.freeSince := some c, mtm.slotLogged := false } : State).set MTM_HOLD_DRIFT_D 20;
      s.mtm.freeSince = some c ∧ s.mtm.slotLogged = false ∧ s.f MTM_HOLD_DRIFT_D ≠ 0) ∧
    (let c := 0; let s := (({ up with mtm.freeSince := some c } : State).set MTM_HOLD_DRIFT_D 20).down MTM_STATUS_CYC_AMBIG;
      s.mtm.freeSince = some c ∧ s.on MTM_STATUS_CYC_AMBIG = false ∧ s.f MTM_HOLD_DRIFT_D ≠ 0) ∧
    (let s := (({ up with now := 20000000, mtm.a.lastRise := some 1000, mtm.steps := [], mtm.firstStep := false, mtm.mt := 20000 + 0 } : State).up MTM_STATUS_STEP_PEND).set MTM_STATUS_SRC 1;
     let x : RefId := RefId.a;
     let e := wrapErr (((s.reach (s.refInstant x)).mtm.holdTicks : Int) - ((s.reach (s.refInstant x)).mtm.mt % 65536 : Nat));
      s.on MTM_STATUS_STEP_PEND = true ∧ s.source = some x ∧ s.mtm.firstStep = false ∧
      e = wrapErr (((s.reach (s.refInstant x)).mtm.holdTicks : Int) - ((s.reach (s.refInstant x)).mtm.mt % 65536 : Nat)) ∧ e < -4096 ∧ s.mtm.steps = []) ∧
    (let s := (({ up with mtm.steps := [], mtm.firstStep := false, mtm.mt := 0 } : State).up MTM_STATUS_STEP_PEND).set MTM_STATUS_SRC 1;
     let x : RefId := RefId.a;
     let e := wrapErr (((s.reach (s.refInstant x)).mtm.holdTicks : Int) - ((s.reach (s.refInstant x)).mtm.mt % 65536 : Nat));
      s.on MTM_STATUS_STEP_PEND = true ∧ s.source = some x ∧ s.mtm.firstStep = false ∧
      e = wrapErr (((s.reach (s.refInstant x)).mtm.holdTicks : Int) - ((s.reach (s.refInstant x)).mtm.mt % 65536 : Nat)) ∧ -4096 ≤ e ∧ e ≤ 4096) ∧
    (let s := ({ up with mtm.adoptPend := false, mtm.mismatch := false } : State);
      s.mtm.mt < 2 ^ 48 - 65536 ∧ s.mtm.adoptPend = false ∧ s.mtm.mismatch = false) ∧
    (let x := (RefId.a); let s := (up.editRef x fun i => { i with learnCount := 64, learnSum := 64 * (0 : Int) - 640 });
      (s.refIn x).learnCount = 64 ∧ (s.refIn x).learnSum % 64 = 0 ∧ s.source ≠ some x) := by
  refine ⟨?_, ?_, ?_, ?_, ?_, ?_, ?_, ?_, ?_, ?_⟩ <;> decide +kernel

/-- States and operands that meet the hypotheses of each clause of LocalTimeRowsComplete. -/
theorem witness_LocalTimeRowsComplete :
    (let s := ({up with mtm.ltLoaded := false} : State).setW MTM_LT_LOAD_VAL_VALUE (2 ^ 60); let req := vendorReq;
      s.accepts ltLoadCmd req = true ∧ s.mtm.ltLoaded = false ∧ s.lt ≤ s.w MTM_LT_LOAD_VAL_VALUE) ∧
    (let s := up; let req := vendorReq; let n := (0 : BitVec 24) ||| 1;
      s.accepts ltStepCmd req = true ∧ n ≠ 0) ∧
    (let s := ((({ up with mtm.leads := false } : State).up MTM_STATUS_LT_SYNC).up SHF_CFG_EN).set MTM_STATUS_SRC 0;
      s.isLead = false ∧ s.on MTM_STATUS_LT_SYNC = true ∧ s.inHoldover = false) ∧
    (let s := up; let req := vendorReq;
      s.accepts mtSnapCmd req = true) ∧
    (let n := (0 : BitVec 8); let a := (⟨0 + 2000, (0 : BitVec 32) &&& (if false then 0xFFFF0F0F else 0xFF0F)⟩ : Armed);
     let s := ({up with mtm.mt := 0x10000, mtm.armed := [(n.toNat, a)]} : State).setW (almOpen n.toNat) (0xFFFF - 0);
      s.mtm.armed.look n.toNat = some a ∧ s.w (almOpen n.toNat) / 65536 ≠ s.mtm.mt / 65536 ∧
      (s.mtm.mt + 2 ^ 48 - s.w (almOpen n.toNat)) % 2 ^ 48 < a.width ∧ bitsOf a.ctl 7 4 = 0) ∧
    (let n := (0 : BitVec 8); let a := (⟨0 + 2000, (0 : BitVec 32) &&& (if false then 0xFFFF0F0F else 0xFF0F)⟩ : Armed);
     let s := ({up with mtm.mt := 0x100000, mtm.armed := [(n.toNat, a)]} : State).setW (almOpen n.toNat) (0xFFFF - 0);
      s.mtm.armed.look n.toNat = some a ∧ s.w (almOpen n.toNat) / 65536 ≠ s.mtm.mt / 65536 ∧
      a.width ≤ (s.mtm.mt + 2 ^ 48 - s.w (almOpen n.toNat)) % 2 ^ 48 ∧
      (s.mtm.mt + 2 ^ 48 - s.w (almOpen n.toNat)) % 2 ^ 48 < 2 ^ 47 ∧ bitsOf a.ctl 7 4 = 0) ∧
    (let n := (0 : BitVec 8); let s := ((up.setW (almOpen n.toNat) 0x10000).down (almEn n.toNat)); let req := vendorReq;
     let v := (0 : BitVec 32) ||| 1;
      s.admits UnitId.mtm (almLevel n.toNat) req = true ∧ BitVec.getLsbD (s.rd (almCtl n.toNat)) 0 = false ∧
      v.getLsbD 0 = true ∧
      ((s.mtm.mt + 2 ^ 48 - s.w (almOpen n.toNat)) % 2 ^ 48 < max 1 (s.f (almWidth n.toNat)) ∨ 2 ^ 47 ≤ (s.mtm.mt + 2 ^ 48 - s.w (almOpen n.toNat)) % 2 ^ 48)) ∧
    (let n := (0 : BitVec 8); let s := (up.up (almEn n.toNat)); let req := vendorReq; let v := (0 : BitVec 32) <<< 1;
      s.admits UnitId.mtm (almLevel n.toNat) req = true ∧ BitVec.getLsbD (s.rd (almCtl n.toNat)) 0 = true ∧
      v.getLsbD 0 = false) := by
  refine ⟨?_, ?_, ?_, ?_, ?_, ?_, ?_, ?_⟩ <;> decide +kernel

/-- The CALIBRATION section of bank A is read; the deferred sections of a substitute boot; the critical sections. -/
def calState : State := imaged { up with cfg.stage := 6 }
theorem calState_pass : calState.sectionPass (calState.on CFG_STATUS_BANK) 5 0 = true := by
  have hb : calState.on CFG_STATUS_BANK = false := by decide +kernel
  rw [hb, sectionPass_root0 _ rfl]
  decide +kernel
def deferState : State := (imaged { up with cfg.stage := 7, cfg.calOk := true }).up TOP_FOLIO_STAT_SUBST
theorem deferState_pass : deferState.deferredBad (deferState.deferredLoad (deferState.on CFG_STATUS_BANK)) = [] := by
  have hb : deferState.on CFG_STATUS_BANK = false := by decide +kernel
  have h (t : Nat) : deferState.sectionPass false t 0 = passRoot0 deferState t := sectionPass_root0 _ rfl t
  simp only [State.deferredBad, State.deferredLoad, hb, h]
  decide +kernel
def critState : State :=
  imaged { up with cfg.stage := 4, cfg.hdrRead := true, cfg.bistDead := false, cfg.noImage := false, cfg.candidates := [false] }
theorem critState_pass : critFailed (critState.critLoad false) (critState.f TOP_FOLIO_STAT_ACTIVE) = none := by
  have ha : critState.f TOP_FOLIO_STAT_ACTIVE = 0 := by decide +kernel
  have h (t : Nat) : critState.sectionPass false t 0 = passRoot0 critState t := sectionPass_root0 _ rfl t
  simp only [State.critLoad, critFailed, ha, h]
  decide +kernel

/-- States and operands that meet the hypotheses of each clause of StartUpRowsComplete. -/
theorem witness_StartUpRowsComplete :
    (let s := up.down PWR_VIN_VALID; let mv := (0 : BitVec 16) ||| 0x3000;
      10600 ≤ mv.toNat ∧ s.on PWR_VIN_VALID = false) ∧
    (let s := ({ up with cfg.stage := 1, cfg.strapped := false } : State);
      s.cfg.stage = 1 ∧ s.cfg.strapped = false) ∧
    (let s := ({ up with cfg.stage := 1, cfg.strapped := true } : State);
      s.cfg.stage = 1 ∧ s.cfg.strapped = true) ∧
    (let s := ({ up with cfg.stage := 3, cfg.warm := false, cfg.bistDead := false } : State);
      s.cfg.stage = 3 ∧ s.cfg.warm = false ∧ s.cfg.bistDead = false) ∧
    (let s := ({ up with cfg.stage := 3, cfg.warm := false, cfg.bistDead := false, cfg.bistFailed := false } : State);
      s.cfg.stage = 3 ∧ s.cfg.warm = false ∧ s.cfg.bistDead = false ∧ s.cfg.bistFailed = false) ∧
    (let s := ({ up with cfg.stage := 2, cfg.warm := false, cfg.late := [] } : State); let n := (3); let n1 : BitVec 4 := n;
      s.booting = true ∧ 2 ≤ n1.toNat ∧ n1.toNat ≤ 10 ∧ s.cfg.stage < n1.toNat ∧ s.cfg.late.contains n1.toNat = false ∧
      s.cfg.warm = false) ∧
    (let s := ({ up with cfg.stage := 5 } : State);
      s.cfg.stage = 5) ∧
    (let s := calState;
      s.cfg.stage = 6 ∧ s.sectionPass (s.on CFG_STATUS_BANK) 5 0 = true) ∧
    (let s := ({ up with cfg.stage := 6 } : State);
      s.cfg.stage = 6 ∧ s.sectionPass (s.on CFG_STATUS_BANK) 5 0 = false) ∧
    (let s := ({ up with cfg.stage := 6 } : State);
      s.cfg.stage = 6) ∧
    (let s := deferState; let load := s.deferredLoad (s.on CFG_STATUS_BANK);
      s.cfg.stage = 7 ∧ s.deferredBad load = []) ∧
    (let s := ({ up with cfg.stage := 8, cfg.calOk := false } : State);
      s.cfg.stage = 8 ∧ s.cfg.calOk = false) ∧
    (let s := ({ up with cfg.stage := 8, cfg.calOk := true } : State);
      s.cfg.stage = 8 ∧ s.cfg.calOk = true) ∧
    (let s := ({ up with cfg.stage := 9, cfg.resumeStandby := false, pwr.transition := none } : State);
     let u := ((s.stageIs 10).up TOP_LOCK_BOOT).ev .top Ev.BOOT_COMPLETE;
     let v := ({ u.evictKeys 3 with cfg.failedBank := none } : State); let w := v.judgeLadders;
      s.cfg.stage = 9 ∧ w.cfg.resumeStandby = false ∧ w.shelfJoin.pwr.transition = none) := by
  refine ⟨?_, ?_, ?_, ?_, ?_, ?_, ?_, ⟨rfl, calState_pass⟩, ?_, ?_, ⟨rfl, deferState_pass⟩, ?_, ?_, ?_⟩ <;> decide +kernel

/-- States and operands that meet the hypotheses of each clause of ImageRowsComplete. -/
theorem witness_ImageRowsComplete :
    (let s := ({ up with cfg.stage := 4, cfg.warm := true, cfg.hdrRead := false, cfg.bistDead := false, cfg.failedBank := none } : State);
      s.cfg.hdrRead = false ∧ s.cfg.stage = 4 ∧ s.cfg.bistDead = false ∧ s.cfg.failedBank = none ∧ s.cfg.warm = true) ∧
    (let s := ({ up with cfg.stage := 4, cfg.hdrRead := true, cfg.bistDead := false, cfg.noImage := false, cfg.candidates := [] } : State);
      s.cfg.hdrRead = true ∧ s.cfg.noImage = false ∧ s.cfg.bistDead = false ∧ s.cfg.stage = 4 ∧ s.cfg.candidates = []) ∧
    (let s := critState;
      s.cfg.hdrRead = true ∧ s.cfg.noImage = false ∧ s.cfg.bistDead = false ∧ s.cfg.stage = 4 ∧ s.cfg.candidates = [false] ∧
      critFailed (s.critLoad false) (s.f TOP_FOLIO_STAT_ACTIVE) = none) ∧
    (let s := ({ up with cfg.stage := 10 } : State); let req := vendorReq;
      s.accepts cfgCmd req = true ∧ s.cfg.stage = 10) ∧
    (let s := (if false then up.down CFG_NVM_PTR_BANK else up.up CFG_NVM_PTR_BANK); let req := vendorReq;
      s.accepts cfgCmd req = true ∧ s.runningBank ≠ some (s.on CFG_NVM_PTR_BANK)) ∧
    (let b := false; let s := ({ up with cfg.nor := [(9, 8), (0x1000001, 7)], cfg.erasing := some b } : State);
      s.cfg.erasing = some b) ∧
    (let s := ((up.set CFG_NVM_PTR_OFFSET (4 * 0)).up CFG_NVM_PTR_BANK); let req := vendorReq;
      s.admits UnitId.cfg Level.operator req = true ∧ s.runningBank ≠ some (s.on CFG_NVM_PTR_BANK) ∧
      s.f CFG_NVM_PTR_OFFSET + 4 ≤ bankSize ∧ s.f CFG_NVM_PTR_OFFSET % 4 = 0) ∧
    (let s := up; let req := vendorReq;
      s.accepts resetCmd req = true) := by
  refine ⟨?_, ?_, ⟨?_, ?_, ?_, ?_, ?_, critState_pass⟩, ?_, ?_, ?_, ?_, ?_⟩ <;> decide +kernel

/-- States and operands that meet the hypotheses of each clause of FolioRowsComplete. -/
theorem witness_FolioRowsComplete :
    (let s := (({ up with cfg.folios := List.replicate 4 folio0 } : State).set TOP_FOLIO_STAT_AVAIL 15);
     let req := vendorReq; let n : BitVec 2 := (1 : BitVec 2);
      s.accepts folioCmd req = true ∧ n.toNat ≠ s.f TOP_FOLIO_STAT_ACTIVE ∧
      (s.f TOP_FOLIO_STAT_AVAIL).testBit n.toNat = true ∧ s.staticEqual n.toNat = true) ∧
    (let s := up; let req := vendorReq;
      s.accepts folioCmd req = true) ∧
    (let c := 0; let s := ({ up with cfg.switchCycle := some c } : State);
      s.cfg.switchCycle = some c ∧ mtLe (c % 2 ^ 32 * 65536) s.mtm.mt = true) ∧
    (let q := (0 : BitVec 7); let s := ({ up with cfg.reconfig := [3, q.toNat], cfg.folios := [], pkb.quires := [] } : State);
      s.cfg.reconfig.contains q.toNat = true ∧ (s.quire q.toNat).used = 0 ∧ s.folio (s.f TOP_FOLIO_STAT_ACTIVE) = none) ∧
    (let q := (0 : BitVec 7);
     let s := ({ up with cfg.reconfig := [3, q.toNat], cfg.folios := List.replicate 4 folio0, pkb.quires := [] } : State);
     let f : FolioData := folio0;
      s.cfg.reconfig.contains q.toNat = true ∧ (s.quire q.toNat).used = 0 ∧ s.folio (s.f TOP_FOLIO_STAT_ACTIVE) = some f) := by
  refine ⟨?_, ?_, ?_, ?_, ?_⟩ <;> decide +kernel

/-- States and operands that meet the hypotheses of each clause of QuireWriteRowsComplete. -/
theorem witness_QuireWriteRowsComplete :
    (let q := (0 : BitVec 7); let s := (if false then up else quired up q.toNat 7 {} (pkt0 q.toNat));
      s.unitDark UnitId.pkb = false ∧ (s.quire q.toNat).opened = none ∧ s.refuses q.toNat = false ∧
      (((s.demand UnitId.pkb).editQuire q.toNat fun (k : Quire) => { opened := k.opened, visible := k.visible, current := k.current, used := k.used, reserve := k.reserve : Quire }).cellsFit q.toNat 1 = true)) ∧
    (let q := (0 : BitVec 7); let p := { pkt0 q.toNat with data := List.replicate 0 5, cells := cellsFor 0 };
     let s := quired up q.toNat 7 { opened := some 7 } p; let data : List (BitVec 8) := [1, 2, 3, 4, 5, 6, 7, 8];
     let id : Nat := 7;
      s.unitDark UnitId.pkb = false ∧ (s.quire q.toNat).opened = some id ∧ (s.quire q.toNat).discard = false ∧
      s.pkt id = some p ∧ p.trunc = false ∧ (p.data ++ s.lane q.toNat data).length < 16384 ∧
      s.cellsFit q.toNat (cellsFor (p.data ++ s.lane q.toNat data).length - p.cells) = true) ∧
    (let q := (0 : BitVec 7); let p := { pkt0 q.toNat with trunc := true };
     let s := quired up q.toNat 7 { opened := some 7 } p; let id : Nat := 7;
      s.unitDark UnitId.pkb = false ∧ (s.quire q.toNat).opened = some id ∧ (s.quire q.toNat).discard = false ∧
      s.pkt id = some p ∧ p.trunc = true ∧ p.data ≠ []) ∧
    (let q := (0 : BitVec 7); let p := { pkt0 q.toNat with data := List.replicate (1 + 0) 5, cells := cellsFor (1 + 0) };
     let s := quired up q.toNat 7 { opened := some 7 } p; let data : List (BitVec 8) := [1, 2, 3, 4, 5, 6, 7, 8];
     let id : Nat := 7;
      s.unitDark UnitId.pkb = false ∧ (s.quire q.toNat).opened = some id ∧ (s.quire q.toNat).discard = false ∧
      s.pkt id = some p ∧ p.trunc = false ∧ p.data ≠ [] ∧ (p.data ++ s.lane q.toNat data).length < 16384 ∧
      s.cellsFit q.toNat (cellsFor (p.data ++ s.lane q.toNat data).length - p.cells) = true) := by
  refine ⟨?_, ?_, ?_, ?_⟩ <;> decide +kernel

/-- States and operands that meet the hypotheses of each clause of QuireReadRowsComplete. -/
theorem witness_QuireReadRowsComplete :
    (let q := (0 : BitVec 7); let p := { pkt0 q.toNat with data := [1, (0 : BitVec 8)] };
     let s := quired up q.toNat 7 { visible := [7, 9] } p; let id : Nat := 7; let rest : List Nat := [9];
      s.unitDark UnitId.pkb = false ∧ (s.quire q.toNat).current = none ∧ (s.quire q.toNat).visible = id :: rest ∧
      s.pkt id = some p ∧ p.poison = false ∧ wgcDecode (upsetWord (wgcEncode (headerSlot p)) []) = WgcResult.correct) ∧
    (let q := (0 : BitVec 7); let p := { pkt0 q.toNat with data := [1, (0 : BitVec 8)] };
     let s := quired up q.toNat 7 { current := some (7, 0) } p; let id : Nat := 7; let n : Nat := 0;
      s.unitDark UnitId.pkb = false ∧ (s.quire q.toNat).current = some (id, n) ∧ (n + 1) % 8 ≠ 0 ∧ s.pkt id = some p ∧
      dataWords p ≤ n + 1 ∧ wgcDecode (upsetWord (wgcEncode (pktWord p (n + 1))) []) = WgcResult.correct) ∧
    (let q := (0 : BitVec 7); let p := { pkt0 q.toNat with data := [1, (0 : BitVec 8)] };
     let s := quired up q.toNat 7 { current := some (7, 0) } p; let req := vendorReq; let id : Nat := 7; let n : Nat := 0;
      s.accepts (s.qcmd q.toNat) req = true ∧ (s.quire q.toNat).current = some (id, n)) ∧
    (let q := (0 : BitVec 7); let p := { pkt0 q.toNat with data := [1, (0 : BitVec 8)] };
     let s := quired up q.toNat 7 { visible := [7], current := some (8, 0) } p; let req := vendorReq;
      s.accepts (s.qcmd q.toNat) req = true ∧ s.on (PKB_Q_CFG_EN q.toNat) = true) ∧
    (let q := (0 : BitVec 7); let s := quired up q.toNat 7 { visible := [7], current := some (8, 0) } (pkt0 q.toNat);
     let req := vendorReq;
      s.admits UnitId.pkb Level.operator req = true) ∧
    (let s := up; let u := (UnitId.pkb); let e := [(⟨3, (1 : BitVec 8) <<< 0⟩ : Upset)]; let p : Nat := 3;
     let k : Nat := 2 ^ 0;
      ((match unitDom u with | some d => decide (s.dom d = DomSt.up) | none => decide (2 ≤ s.cfg.stage)) = true) ∧
      wgcHas u = true ∧ wgcDecode (upsetWord (wgcEncode []) e) = WgcResult.corrected p k) ∧
    (let s := up; let u := (UnitId.pkb);
      wgcHas u = true ∧
      (BitVec.toNat (s.rd (u.base + wgcOffset u + 24)) = 0 ∨ s.wgc.count.lookD u.num 0 ≤ BitVec.toNat (s.rd (u.base + wgcOffset u + 24)))) := by
  refine ⟨?_, ?_, ?_, ?_, ?_, ?_, ?_⟩ <;> decide +kernel

/-- States and operands that meet the hypotheses of each clause of ParseRowsComplete. -/
theorem witness_ParseRowsComplete :
    (let n := (0 : BitVec 5); let p := { pkt0 3 with quire := 0, entry := 0, passes := 0 };
     let s := ({ quired up 3 7 {} p with par.recirc := [7, 8], par.engines := [], par.entries := [(1, 7), (2, 9)] } : State);
     let id : Nat := 7; let rest : List Nat := [8];
      s.unitDark UnitId.par = false ∧ s.pe n.toNat = none ∧ s.par.lost.testBit n.toNat = false ∧ s.par.recirc = id :: rest ∧ s.pkt id = some p ∧
      p.poison = false ∧ p.statusPoison = false ∧ p.bad = false ∧ p.trunc = false) ∧
    (let n := (0 : BitVec 5); let q := (0 : BitVec 7); let p := pkt0 q.toNat;
     let s := ({ ((quired up q.toNat 7 { visible := [7, 8] } p).set (PKB_Q_CFG_CONS q.toNat) UnitId.par.num).set (PAR_PROG_ENTRY q.toNat) 0 with par.engines := [], par.entries := [(1, 7), (2, 9)] } : State);
     let id : Nat := 7; let rest : List Nat := [8];
      s.unitDark UnitId.par = false ∧ s.pe n.toNat = none ∧ s.par.lost.testBit n.toNat = false ∧
      s.f (PKB_Q_CFG_CONS q.toNat) = UnitId.par.num ∧
      (s.quire q.toNat).visible = id :: rest ∧ s.pkt id = some p ∧ p.poison = false ∧ p.statusPoison = false ∧
      p.bad = false ∧ p.trunc = false ∧ wgcDecode (upsetWord (wgcEncode (headerSlot p)) []) = WgcResult.correct) ∧
    (let n := (0 : BitVec 5); let x := ({ pkt := 7 } : PeCtx);
     let s := ({ quired up 3 7 {} (pkt0 3) with par.engines := [(n.toNat, x)] } : State);
      s.pe n.toNat = some x ∧ x.final = none) ∧
    (let n := (0 : BitVec 5); let d := 0x5500000000 + 16 * 0; let x := ({ pkt := 7, final := some d } : PeCtx);
     let p := pkt0 3;
     let s := ({ quired up 3 7 {} p with par.engines := [(n.toNat, x)], par.ternary := [], par.exact := [] } : State);
      s.unitDark UnitId.par = false ∧ s.pe n.toNat = some x ∧ x.final = some d ∧ x.report = none ∧
      s.classify x.tkey x.ekey (s.lookupEdition x.pkt) d = (d, none) ∧ d % 16 = 0 ∧ s.pkt x.pkt = some p ∧ p.frags = [] ∧
      s.par.outs = [] ∧ (s.peFree n.toNat).parEarlier p = false) ∧
    (let n := (0 : BitVec 5); let d := 0x5500000000; let x := ({ pkt := 7, final := some d } : PeCtx);
     let p := { pkt0 3 with entered := 5 };
     let s := ({ up with
       pkb.pkts := [(6, { pkt0 3 with entered := 1 }), (7, p)], par.engines := [(n.toNat, x), (1, { pkt := 6 })] } : State);
      s.unitDark UnitId.par = false ∧ s.pe n.toNat = some x ∧ x.final = some d ∧ x.report = none ∧
      s.classify x.tkey x.ekey (s.lookupEdition x.pkt) d = (d, none) ∧ d % 16 = 0 ∧ s.pkt x.pkt = some p ∧ p.frags = [] ∧
      s.par.outs = [] ∧ (s.peFree n.toNat).parEarlier p = true) ∧
    (let i := (0 : BitVec 12);
     let e := (⟨false, [], [], 7, 8, 0, none, none, [], false, none, [(7, 0, 3, true)], none⟩ : FragEntry);
     let s := ({ quired up 3 7 {} (pkt0 3) with par.frags := [(i.toNat, e)] } : State);
      s.par.frags.look i.toNat = some e ∧ e.decision = none) ∧
    (let i := (0 : BitVec 12); let e := (⟨false, [], [], 7, 8, 0, some .drop, none, [], false, none, [], none⟩ : FragEntry);
     let s := ({ quired up 3 7 {} (pkt0 3) with par.frags := [(i.toNat, e)] } : State); let v : Verdict := Verdict.drop;
      s.par.frags.look i.toNat = some e ∧ e.decision = some v) ∧
    (let i := (0 : BitVec 20) >>> 6; let s := ({ up with par.ternary := [] } : State); let req := vendorReq;
      s.accepts ruleCmd req = true ∧ s.f PAR_COMMIT_STATE ≠ 1 ∧ i.toNat < 16384 ∧ s.ternaryAt i.toNat = none) ∧
    (let s := ({ up with par.exact := [] } : State); let req := vendorReq;
      s.accepts ruleCmd req = true ∧ s.f PAR_COMMIT_STATE ≠ 1 ∧ s.exactPlaces (s.ruleBuf true).value ≠ [] ∧
      ((List.any s.exactAlive fun (x : Nat × Rule) => decide (x.snd.value = (s.ruleBuf true).value) && s.ruleVisible x.snd s.edPending) = false)) ∧
    (let i := (0 : BitVec 20) >>> 6; let q := { up.ruleBuf false with fromEd := 0 };
     let s := ({ up with par.ternary := [(i.toNat, q)] } : State); let req := vendorReq;
     let o : Option Rule := (s.ruleRetired q).getD none;
      s.accepts ruleCmd req = true ∧ s.f PAR_COMMIT_STATE ≠ 1 ∧ i.toNat < 16384 ∧ s.ternaryAt i.toNat = some q ∧ s.ruleRetired q = some o) ∧
    (let i := (0 : BitVec 20) >>> 6; let q := { up.ruleBuf false with fromEd := 0 };
     let s := ({ up with par.ternary := [(i.toNat, q)] } : State); let req := vendorReq;
      s.accepts ruleCmd req = true ∧ s.f PAR_COMMIT_STATE ≠ 1 ∧ i.toNat < 16384 ∧ s.ternaryAt i.toNat = some q) ∧
    (let s := up; let req := vendorReq;
      s.accepts commitCmd req = true ∧ s.f PAR_RULE_CMD_STATE ≠ 1 ∧ s.edDist s.edCurrent < 3) := by
  refine ⟨?_, ?_, ?_, ?_, ?_, ?_, ?_, ?_, ?_, ?_, ?_, ?_⟩ <;> decide +kernel

/-- States and operands that meet the hypotheses of each clause of FlowRowsComplete. -/
theorem witness_FlowRowsComplete :
    (let x := ({ pkt := 7 } : FlwPkt);
     let s := ({ (waiting up x).down FLW_STATUS_LIMP with ple.movesIn := [], flw.sram := [] } : State);
     let p : Packet := ipPkt; let key : List Byte := ipKey;
      s.unitDark UnitId.flw = false ∧ ((s.firstWait fun (y : FlwPkt) => decide (y.stage = FlwStage.arrived)) = some x) ∧
      s.pkt x.pkt = some p ∧ paramBad x.param = false ∧ flowKey p (paramVrf x.param) = some key ∧ p.poison = false ∧
      paramNat x.param = 0 ∧ p.laterFrag = false ∧ paramNoflow x.param = false ∧ s.fence key = none ∧
      s.flowIn true key = none ∧ s.limp = false) ∧
    (let x := ({ pkt := 7 } : FlwPkt);
     let s := ({ waiting up x with ple.movesIn := [], flw.sram := [(up.bucket true ipKey + 0, flow0)] } : State);
     let p : Packet := ipPkt; let key : List Byte := ipKey; let place : Bool × Nat := (true, up.bucket true ipKey + 0);
     let f : Flow := flow0;
      s.unitDark UnitId.flw = false ∧ ((s.firstWait fun (y : FlwPkt) => decide (y.stage = FlwStage.arrived)) = some x) ∧
      s.pkt x.pkt = some p ∧ paramBad x.param = false ∧ flowKey p (paramVrf x.param) = some key ∧ p.poison = false ∧
      paramNat x.param = 0 ∧ p.laterFrag = false ∧ paramNoflow x.param = false ∧ s.fence key = none ∧
      s.flowIn true key = some place ∧ s.flowAt place = some f) ∧
    (let x := ({ pkt := 7 } : FlwPkt); let s := ({ waiting up x with pkb.pkts := [(7, pkt0 3)] } : State);
     let p : Packet := pkt0 3;
      s.unitDark UnitId.flw = false ∧ ((s.firstWait fun (y : FlwPkt) => decide (y.stage = FlwStage.arrived)) = some x) ∧
      s.pkt x.pkt = some p ∧ paramBad x.param = false ∧ flowKey p (paramVrf x.param) = none) ∧
    (let x := ({ pkt := 7, stage := .dram, key := ipKey, dreq := 4 } : FlwPkt);
     let s := ({ waiting up x with drc.done := List.replicate 2 ⟨4, 0, true, []⟩, flw.sram := [], flw.warm := [(up.bucket false ipKey + 0, { flow0 with tier := 2 })] } : State);
     let f : Flow := { flow0 with tier := 2 };
      s.unitDark UnitId.flw = false ∧ ((s.firstWait fun (y : FlwPkt) => decide (y.stage = FlwStage.dram) && s.bucketDone y) = some x) ∧
      s.flowIn true x.key = none ∧ s.flowGet x.key = some f) ∧
    (let x := ({ pkt := 7, stage := .dram, key := ipKey, dreq := 4 } : FlwPkt);
     let s := ({ waiting up x with drc.done := List.replicate 2 ⟨4, 0, true, []⟩, flw.sram := [], flw.warm := [] } : State);
      s.unitDark UnitId.flw = false ∧ ((s.firstWait fun (y : FlwPkt) => decide (y.stage = FlwStage.dram) && s.bucketDone y) = some x) ∧
      s.flowIn true x.key = none ∧ s.flowGet x.key = none) ∧
    (let x := ({ pkt := 7, stage := .route false (some 9) 4, key := ipKey } : FlwPkt);
     let s := ({ (((waiting up x).up (FLW_NH_VALID 9)).set (FLW_NH_MTU 9) (28 + 0)).set (FLW_NH_QBASE 9) 1 with flw.routes := [⟨0, false, 8, 0x0A000000, 9, true⟩] } : State);
     let gen : Nat := 4; let p : Packet := ipPkt; let q : Nat := 9;
      s.unitDark UnitId.flw = false ∧ s.flw.wait = [x] ∧ x.stage = FlwStage.route false (some q) gen ∧ s.pkt x.pkt = some p ∧
      s.nhUsable q (paramTc x.param) = true ∧ s.f (FLW_NH_MTU q) ≥ ipLength p ∧
      (s.demand .flw).wifiHopLost q (paramTc x.param) = false ∧
      (∃ (code : Nat), ∃ (ip : Nat), ipLayer p = some (code, ip) ∧ 1 < beAt p.data (ip + if code = 16 then 8 else 7) 1)) ∧
    (let x := ({ pkt := 7, stage := .route false (some 9) 4, key := ipKey } : FlwPkt);
     let a := ({ tree (waiting up x) with sch.clients := [(2, { w0 := 0x80030100 })], wma.stations := [] } : State);
     let s := ((a.up (FLW_NH_VALID 9)).set (FLW_NH_MTU 9) 28).set (FLW_NH_QBASE 9) 1;
     let gen : Nat := 4; let p : Packet := ipPkt; let q : Nat := 9;
      s.unitDark UnitId.flw = false ∧ s.flw.wait = [x] ∧ x.stage = FlwStage.route false (some q) gen ∧ s.pkt x.pkt = some p ∧
      s.nhUsable q (paramTc x.param) = true ∧ (s.demand .flw).wifiHopLost q (paramTc x.param) = true) ∧
    (let x := ({ pkt := 7, stage := .remote, deadline := 0 } : FlwPkt); let s := waiting up x;
     let before : List FlwPkt := ([] : List FlwPkt); let after : List FlwPkt := ([] : List FlwPkt);
      (List.filter (fun (y : FlwPkt) => decide (y.stage = FlwStage.remote)) s.flw.wait = before ++ x :: after) ∧
      (∀ (y : FlwPkt), y ∈ before → x.deadline < y.deadline) ∧ (∀ (y : FlwPkt), y ∈ after → x.deadline ≤ y.deadline)) ∧
    (let s := ({ up with ple.movesIn := [], flw.sram := [], flw.warm := [] } : State);
     let key := BitVec.ofNat 312 (leNat ipKey);
      s.unitDark UnitId.flw = false ∧ s.fence (natLe 39 key.toNat) = none ∧ s.flowFind (natLe 39 key.toNat) = none) ∧
    (let m := ({ id := 4, keys := [ipKey], other := 2, opened := 0 } : MoveIn);
     let s := ({ up with ple.movesIn := [m] } : State); let key := BitVec.ofNat 312 (leNat ipKey);
      s.unitDark UnitId.flw = false ∧ s.fence (natLe 39 key.toNat) = some m) ∧
    (let x := ({ pkt := 7, stage := .remote, req := 5 } : FlwPkt); let s := waiting up x; let req : BitVec 32 := 5;
      s.unitDark UnitId.flw = false ∧
      ((s.firstWait fun (x : FlwPkt) => decide (x.stage = FlwStage.remote) && decide (x.req = req.toNat)) = some x)) := by
  refine ⟨?_, ?_, ?_, ?_, ?_, ?_, ?_, ?_, ?_, ?_, ?_⟩
  · decide +kernel
  · decide +kernel
  · decide +kernel
  · decide +kernel
  · decide +kernel
  · exact ⟨by decide +kernel, by decide +kernel, by decide +kernel, by decide +kernel, by decide +kernel,
      by decide +kernel, by decide +kernel, 0x10, 0, by decide +kernel, by decide +kernel⟩
  · decide +kernel
  · decide +kernel
  · decide +kernel
  · decide +kernel
  · decide +kernel

/-- States and operands that meet the hypotheses of each clause of FlowTableAndRouteRowsComplete. -/
theorem witness_FlowTableAndRouteRowsComplete :
    (let a := (up.flowToBuf flow0); let p := (true, up.bucket true ipKey + 0);
     let s := ({ a with flw.sram := [(p.2, flow0)] } : State); let req := vendorReq; let f : Flow := flow0;
      s.accepts flowCmd req = true ∧ s.flowFind s.bufKey = some p ∧ s.flowAt p = some f) ∧
    (let a := (up.flowToBuf flow0); let p := (true, up.bucket true ipKey + 0);
     let s := ({ a with flw.sram := [(p.2, flow0)] } : State); let req := vendorReq; let f : Flow := flow0;
      s.accepts flowCmd req = true ∧ s.flowFind s.bufKey = some p ∧ s.flowAt p = some f ∧ f.nat = false) ∧
    (let a := (up.flowToBuf flow0); let p := (true, up.bucket true ipKey + 0);
     let s := ({ a with flw.sram := [(p.2, flow0)] } : State); let req := vendorReq; let f : Flow := flow0;
      s.accepts flowCmd req = true ∧ s.flowFind s.bufKey = some p ∧ s.flowAt p = some f ∧ f.nat = false ∧ f.tier = 1) ∧
    (let p := (true, up.bucket true ipKey + 0);
     let s := ({ up.down FLW_STATUS_LIMP with flw.sram := [(p.2, flow0)], flw.warm := [] } : State);
     let key : BitVec 312 := BitVec.ofNat 312 (leNat ipKey); let sram : Bool := false; let f : Flow := flow0;
     let new : Bool × Nat := (false, up.bucket false ipKey);
      s.unitDark UnitId.flw = false ∧ s.flowFind (natLe 39 key.toNat) = some p ∧ s.flowAt p = some f ∧ p.fst = !sram ∧
      decide (f.tier = 1) = !sram ∧ f.tier ≠ 3 ∧ f.pin = false ∧ f.nat = false ∧
      s.freeWay sram (natLe 39 key.toNat) = some new) ∧
    (let i := BitVec.ofNat 23 (up.bucket true ipKey + 1 + 0);
     let s := ({ up.set (FLW_CLASS_IDLE 0) 7 with flw.sram := [(i.toNat, flow0)], lt := 2 ^ 45 } : State);
     let sram : Bool := true; let f : Flow := flow0;
      s.unitDark UnitId.flw = false ∧ i.toNat ≠ 0 ∧ s.flowAt (sram, i.toNat) = some f ∧
      s.flowFind f.key = some (sram, i.toNat) ∧ s.flowExpired f = true ∧ f.nat = false) ∧
    (let i := BitVec.ofNat 23 (up.bucket true ipKey + 1 + 0);
     let s := (({ up with flw.sram := [(i.toNat, flow0)] } : State).set (FLW_VRF_CTL_GEN 0) 1); let sram : Bool := true;
     let f : Flow := flow0;
      s.unitDark UnitId.flw = false ∧ i.toNat ≠ 0 ∧ s.flowAt (sram, i.toNat) = some f ∧
      s.flowFind f.key = some (sram, i.toNat) ∧ s.flowExpired f = false ∧ f.tier ≠ 3 ∧
      f.gen ≠ s.f (FLW_VRF_CTL_GEN (keyVrf f.key))) ∧
    (let s := ({ (up.up DRC_STATUS_FROZEN).down FLW_STATUS_LIMP with flw.wait := [], ple.movesIn := [], ple.movesOut := [], flw.sram := [(9, flow0)] } : State);
      s.unitDark UnitId.flw = false ∧ s.on DRC_STATUS_FROZEN = true ∧ s.limp = false ∧ s.flw.wait = [] ∧ s.ple.movesIn = [] ∧
      s.ple.movesOut = [] ∧ (∀ (e : Nat × Flow), e ∈ s.flw.sram → e.snd.nat = false)) ∧
    (let s := ({ (up.set FLW_ROUTE_BUF_DESC_LEN 8).set FLW_ROUTE_BUF_NH_NH 9 with flw.routes := [⟨0, false, 8, 0, 5, false⟩, ⟨0, false, 9, 0, 5, false⟩] } : State);
     let req := vendorReq; let r1 : Route := ⟨0, false, 8, 0, 9, false⟩;
      s.accepts routeCmd req = true ∧ s.routeBuf = some r1 ∧ s.limp = false ∧
      (List.foldl (fun (n : Nat) (x : Route) => n + routeSize x) (routeSize r1) (List.filter (fun (x : Route) => !sameRoute x r1) s.flw.routes) ≤ 1048576) ∧
      r1.limp = false) ∧
    (let s := ({ (up.set FLW_ROUTE_BUF_DESC_LEN 8).set FLW_ROUTE_BUF_NH_NH 9 with flw.routes := [⟨0, false, 8, 0, 5, false⟩, ⟨0, false, 9, 0, 5, false⟩] } : State);
     let req := vendorReq; let r1 : Route := ⟨0, false, 8, 0, 9, false⟩;
      s.accepts routeCmd req = true ∧ s.routeBuf = some r1 ∧ s.limp = false ∧
      ((s.flw.routes.any fun (x : Route) => sameRoute x r1) = true)) ∧
    (let s := up; let req := vendorReq; let v : BitVec 6 := (0 : BitVec 6);
      s.accepts routeCmd req = true ∧ s.flw.commits.lookD v.toNat 0 < 127) := by
  refine ⟨?_, ?_, ?_, ?_, ?_, ?_, ?_, ?_, ?_, ?_⟩ <;> decide +kernel

/-- States and operands that meet the hypotheses of each clause of SchedulerRowsComplete. -/
theorem witness_SchedulerRowsComplete :
    (let s := (({ tree (quired up 3 7 {} (pkt0 3)) with bad := [] } : State)); let q : BitVec 15 := 1;
     let id : BitVec 32 := 7; let p : Packet := pkt0 3;
      s.unitDark UnitId.sch = false ∧ s.pkt id.toNat = some p ∧ nodeEn (s.schQ q.toNat) = true ∧
      nodeEn (s.schC (queueClient (s.schQ q.toNat))) = true ∧
      nodeEn (s.schG (clientGroup (s.schC (queueClient (s.schQ q.toNat))))) = true ∧ s.queueBad q.toNat = false ∧
      s.clientBad (queueClient (s.schQ q.toNat)) = false ∧
      s.groupBad (clientGroup (s.schC (queueClient (s.schQ q.toNat)))) = false ∧
      s.queueCells q.toNat + p.cells ≤ queueLimit (s.schQ q.toNat)) ∧
    (let s := (((({ (tree (quired up 3 7 {} (pkt0 3))).editQ 1 (fun n => { n with fifo := [7] }) with bad := [], eth.ports := [] } : State).up (SCH_ROOT_EN 0)).up (ETH_PORT_STAT_LINK 0)).down (SCH_ROOT_PAUSED 0)).schSync;
     let a := (((s.demand .sch).select 0 (fun _ _ => true)).getD (0, 0, s)); let r1 : BitVec 3 := 0; let q : Nat := a.1;
     let len : Int := a.2.1; let u : State := a.2.2; let id : Nat := 7; let rest : List Nat := [];
      s.unitDark UnitId.sch = false ∧ (s.demand UnitId.sch).ethRoom r1.toNat = true ∧
      (((s.demand UnitId.sch).select r1.toNat fun (_ _ : Nat) => true) = some (q, len, u)) ∧ (u.schQ q).fifo = id :: rest) ∧
    (let s := up;
      s.unitDark UnitId.sch = false) ∧
    (let s := (({ (tree (quired up 3 7 {} (pkt0 3))).editQ 1 (fun n => { n with fifo := [7] }) with bad := [] } : State));
     let a := (State.dlEntries 8 500 1 ((s.demand .sch).grantUsed 8) []); let mimo := true; let root : BitVec 4 := 8; let users : BitVec 7 := 1;
     let airtime : BitVec 32 := 500; let cls : BitVec 3 := 0; let t : State := a.1; let l : List GrantEnt := a.2;
      s.unitDark UnitId.sch = false ∧ 8 ≤ root.toNat ∧ root.toNat ≤ 10 ∧ cls.toNat ≤ s.permitted (rootRadio root.toNat) ∧
      cls.toNat ≤ s.usable (rootRadio root.toNat) (rootLink root.toNat) ∧ cls.toNat ≤ 4 ∧
      State.dlEntries root.toNat airtime.toNat (min users.toNat (s.userLimit root.toNat mimo)) ((s.demand UnitId.sch).grantUsed root.toNat) [] =
        (t, l)) ∧
    (let s := (({ (tree (quired up 3 7 {} (pkt0 3))).editQ 1 (fun n => { n with fifo := [7] }) with bad := [] } : State));
     let a := (State.ulEntries 8 1 ((s.demand .sch).grantUsed 8) []); let mimo := false; let root : BitVec 4 := 8; let users : BitVec 7 := 1;
     let cls : BitVec 3 := 0; let t : State := a.1; let l : List GrantEnt := a.2;
      s.unitDark UnitId.sch = false ∧ 8 ≤ root.toNat ∧ root.toNat ≤ 10 ∧ cls.toNat ≤ s.permitted (rootRadio root.toNat) ∧
      cls.toNat ≤ s.usable (rootRadio root.toNat) (rootLink root.toNat) ∧ cls.toNat ≤ 4 ∧
      State.ulEntries root.toNat (min users.toNat (s.userLimit root.toNat mimo)) ((s.demand UnitId.sch).grantUsed root.toNat) [] = (t, l)) ∧
    (let e := (⟨2, 0, 1, 100⟩ : GrantEnt); let g := (⟨false, 500, 0, [e]⟩ : WifiGrant);
     let s := (({ (tree (quired up 3 7 {} (pkt0 3))).editQ 1 (fun n => { n with fifo := [7] }) with sch.grants := [(8, g)] } : State));
     let a := (State.takeRun 2 (s.demand .wma) 8 e.queue e.tid e.allowance []); let root : BitVec 4 := 8; let i : BitVec 6 := 0;
     let n : BitVec 10 := 2; let t : State := a.1; let left : Nat := a.2;
      s.unitDark UnitId.wma = false ∧ s.sch.grants.look root.toNat = some g ∧ g.ul = false ∧ g.entries[i.toNat]? = some e ∧
      State.takeRun n.toNat (s.demand UnitId.wma) root.toNat e.queue e.tid e.allowance [] = (t, left)) ∧
    (let e := (⟨0, 7, 1⟩ : CellFrame); let s := ({ up with sgm.given := [(2, e)], sgm.suspended := true } : State);
     let b : Nat := 2;
      s.unitDark UnitId.sgm = false ∧ s.sgm.given = [(b, e)] ∧ s.sgm.suspended = true) ∧
    (let e := (⟨9, 1000, none, false, 950⟩ : WheelEnt);
     let s := ({ up with sch.wheel := [e], sch.shapers := [(9, { rate := 1000 * 0, tokens := -(0 : Int) })] } : State);
      s.sch.wheel = [e] ∧ e.past = none ∧ (s.shaper e.shaper).wait = none ∧
      0 ≤ shaperTokens (s.shaper e.shaper) (max s.now e.due)) ∧
    (let e := (⟨9, 5000000, some 4900000, false, 4999950⟩ : WheelEnt); let s := ({ up with sch.wheel := [e] } : State);
     let a : Nat := 4900000;
      s.sch.wheel = [e] ∧ e.past = some a ∧ e.far = false) ∧
    (let s := ({ up with sch.shapers := [(9, { rate := 1000 * 0, tokens := -(0 : Int), wait := some (5, 6) })] } : State);
     let n : BitVec 16 := 9; let r1 : Nat := 5; let b : Nat := 6;
      (s.shaper n.toNat).wait = some (r1, b)) ∧
    (let s := tree up; let i := (1 : BitVec 16); let req := vendorReq;
      s.accepts schCmd req = true ∧ i.toNat < 32768) ∧
    (let s := (tree up).wr (schBuf 0) (0x80030001); let i := (2 : BitVec 16); let req := vendorReq;
      s.accepts schCmd req = true ∧ i.toNat < 8192 ∧
      s.clientFits { s.schC i.toNat with w0 := s.rd (schBuf 0) &&& 0xB7FFFFFF } = true) ∧
    (let s := tree up; let req := vendorReq;
      s.accepts schCmd req = true) ∧
    (let s := (tree (quired up 3 7 {} (pkt0 3))).editQ 1 (fun n => { n with fifo := [7] }); let i := (1 : BitVec 16);
     let req := vendorReq;
      s.accepts schCmd req = true ∧ i.toNat < 32768) ∧
    (let s := (tree up).editQ 1 (fun n => { n with drops := 9 }); let i := (1 : BitVec 16); let req := vendorReq;
      s.accepts schCmd req = true ∧ i.toNat < 32768) := by
  refine ⟨?_, ?_, ?_, ?_, ?_, ?_, ?_, ?_, ?_, ?_, ?_, ?_, ?_, ?_, ?_⟩ <;> decide +kernel

/-- States and operands that meet the hypotheses of each clause of PlacementRowsComplete. -/
theorem witness_PlacementRowsComplete :
    (let s := up;
      s.unitDark UnitId.ple = false) ∧
    (let w := (sta0 : Station);
     let s := { up with wma.stations := [(4, w)] }; let i : BitVec 10 := 4;
      s.unitDark UnitId.ple = false ∧ s.wma.stations.look i.toNat = some w) ∧
    (let w := (sta0 : Station);
     let s := { up with wma.stations := [(4, w)] }; let i : BitVec 10 := 4; let tid : BitVec 4 := (0 : BitVec 4);
     let size : BitVec 11 := (0 : BitVec 11) ||| 1;
      s.unitDark UnitId.ple = false ∧ s.wma.stations.look i.toNat = some w ∧ size ≠ 0 ∧ w.ba.look tid.toNat = none) ∧
    (let s := up.down PLE_STATE_LIMP;
      s.unitDark UnitId.ple = false ∧ s.on PLE_STATE_LIMP = false) ∧
    (let s := { (up.down PLE_STATE_LIMP).set PLE_T2_BUDGET_OWN 9 with ple.movesOut := [], ple.pins := [], ple.grants := 0, flw.sram := [(up.bucket true ipKey + 0, flow0)], flw.warm := [] };
     let q := (up.bucket true ipKey + 0); let p := up.bucket false ipKey; let src : BitVec 6 := (0 : BitVec 6);
     let key : BitVec 312 := BitVec.ofNat 312 (leNat ipKey); let f : Flow := flow0; let old : Bool × Nat := (true, q);
     let new : Bool × Nat := (false, p);
      s.unitDark UnitId.ple = false ∧ s.moveRefusal src.toNat (natLe 39 key.toNat) = none ∧
      s.flowFind (natLe 39 key.toNat) = some old ∧ s.flowAt old = some f ∧ old.fst = true ∧ f.nat = false ∧
      s.freeWay false (natLe 39 key.toNat) = some new) ∧
    (let m := (⟨4, 2, flow0, none, 0, [], false, false⟩ : MoveOut);
     let s := ({ up with ple.movesOut := [m], flw.wait := [] } : State);
      s.unitDark UnitId.ple = false ∧ s.ple.movesOut = [m] ∧ m.drainSent = false ∧
      ((s.flw.wait.any fun (x : FlwPkt) => m.before.contains x.pkt) = false)) ∧
    (let m := (⟨4, 2, flow0, none, 0, [], false, false⟩ : MoveOut);
     let s := ({ up with ple.movesOut := [m], flw.wait := [] } : State); let src : BitVec 6 := 2; let id : BitVec 32 := 4;
      s.unitDark UnitId.ple = false ∧ s.ple.movesOut = [m] ∧ m.id = id.toNat ∧ m.other = src.toNat) ∧
    (let m := (⟨4, 2, flow0, none, 0, [], false, false⟩ : MoveOut);
     let s := ({ up with ple.movesOut := [m], flw.wait := [] } : State);
      s.unitDark UnitId.ple = false ∧ (List.find? (fun (m : MoveOut) => !m.acked) s.ple.movesOut = some m)) ∧
    (let m := ({ id := 4, keys := [ipKey], other := 2, opened := 0 } : MoveIn);
     let s := ({ up with ple.movesIn := [m], flw.sram := [], flw.warm := [] } : State); let src : BitVec 6 := 2;
     let id : BitVec 32 := 4; let image : BitVec 512 := BitVec.ofNat 512 (leNat (flowImage flow0));
     let new : Bool × Nat := (true, s.bucket true ipKey);
      s.unitDark UnitId.ple = false ∧ s.ple.movesIn = [m] ∧ m.id = id.toNat ∧ m.other = src.toNat ∧ m.data = false ∧
      m.drained = false ∧ s.flowFind (s.arrives image.toNat).key = none ∧
      s.freeWay true (s.arrives image.toNat).key = some new ∧ s.flowCount + 1 ≤ 8388608) ∧
    (let m := ({ id := 4, keys := [ipKey], other := 2, opened := 0, data := false } : MoveIn);
     let s := ({ up with ple.movesIn := [m], flw.wait := [] } : State); let src : BitVec 6 := 2; let id : BitVec 32 := 4;
      s.unitDark UnitId.ple = false ∧ s.ple.movesIn = [m] ∧ m.id = id.toNat ∧ m.other = src.toNat ∧ m.held = [] ∧
      ((s.flw.wait.any fun (x : FlwPkt) => decide (x.stage = FlwStage.remote)) = false)) ∧
    (let m := ({ id := 4, keys := [ipKey], other := 2, opened := 0, data := false } : MoveIn);
     let s := ({ up with ple.movesIn := [m], ple.movesOut := [], flw.wait := [] } : State); let src : BitVec 6 := 2;
     let id : BitVec 32 := 4;
      s.unitDark UnitId.ple = false ∧ s.moveInOf src.toNat id.toNat = some m ∧ s.moveOutOf src.toNat id.toNat = none ∧
      m.held = []) ∧
    (let m := (⟨4, 2, flow0, none, 0, [], false, false⟩ : MoveOut);
     let s := ({ up with ple.movesIn := [], ple.movesOut := [m], flw.wait := [] } : State); let src : BitVec 6 := 2;
     let id : BitVec 32 := 4;
      s.unitDark UnitId.ple = false ∧ s.moveInOf src.toNat id.toNat = none ∧ s.moveOutOf src.toNat id.toNat = some m ∧
      m.acked = false) ∧
    (let m := ({ id := 4, keys := [ipKey], other := 2, opened := 0, data := false } : MoveIn);
     let s := ({ up with ple.movesIn := [m], flw.wait := [] } : State); let rest : List MoveIn := [];
      s.unitDark UnitId.ple = false ∧ s.ple.movesIn = m :: rest ∧ m.held = []) ∧
    (let p := (false, up.bucket false ipKey + 0);
     let s := ({ up with flw.sram := [], flw.warm := [(p.2, { flow0 with tier := 3 })], flw.wait := [], ple.movesIn := [] } : State);
     let key : BitVec 312 := BitVec.ofNat 312 (leNat ipKey); let f : Flow := { flow0 with tier := 3 };
     let other : BitVec 6 := 5; let own : BitVec 6 := BitVec.ofNat 6 s.shelfId;
      s.unitDark UnitId.ple = false ∧ s.flowFind (natLe 39 key.toNat) = some p ∧ s.flowAt p = some f ∧ f.tier = 3 ∧
      s.flw.wait = [] ∧ s.ple.movesIn = [] ∧ other.toNat ≠ s.shelfId ∧ own.toNat = s.shelfId ∧ f.nat = false) ∧
    (let x := ({ pkt := 7, stage := .remote, key := ipKey, owner := 5 } : FlwPkt); let s := waiting up x;
     let src : BitVec 6 := 5; let key : BitVec 312 := BitVec.ofNat 312 (leNat ipKey);
      s.unitDark UnitId.ple = false ∧
      ((s.firstWait fun (x : FlwPkt) => decide (x.stage = FlwStage.remote ∧ x.owner = src.toNat) && x.key == natLe 39 key.toNat && !x.waited) = some x)) := by
  refine ⟨?_, ?_, ?_, ?_, ?_, ?_, ?_, ?_, ?_, ?_, ?_, ?_, ?_, ?_, ?_⟩ <;> decide +kernel

/-- States and operands that meet the hypotheses of each clause of SteerAndPinRowsComplete. -/
theorem witness_SteerAndPinRowsComplete :
    (let w := (sta0 : Station);
     let o := (⟨3, .a, 77, 0, 0⟩ : SteerOption); let b := (⟨5, [o], none⟩ : BtmClient);
     let s := ({ (((up.set (PLE_HYST_K 2) 1).set PLE_T3_RATE 4).set (PLE_WEIGHT_W3_W0 2) 9).set PLE_CTL_TIER_EN 15 with wma.stations := [(4, w)], ple.pins := [], ple.steers := [], ple.hyst := [], sch.clients := [], ple.loads := [(3, ⟨0, false, 2000000000, [(5, 900)], []⟩)] } : State);
     let i : Nat := 4; let e : SteerOption × Nat := (o, 900);
     let u := (s.demand .ple).reach (s.ple.evals.lookD 3 0 + 1000000000); let u := { u with ple.evals := u.ple.evals.put 3 u.now };
      s.unitDark UnitId.ple = false ∧ s.ple.pins = [] ∧ s.staOf b.mac.toNat = some (i, w) ∧ w.backhaul = false ∧
      (s.steer b.mac.toNat).open_ = none ∧ (s.steer b.mac.toNat).until_ ≤ max s.now (s.ple.evals.lookD 3 0 + 1000000000) ∧
      0 < s.f PLE_T3_RATE ∧
      u.steerOptions b w = [e] ∧ u.steerForced b.mac.toNat w = false ∧ u.tierOn 3 = true ∧ s.linkRoots w.client = [] ∧
      u.f (PLE_HYST_K 2) ≤ 1 ∧ s.hystOf 3 (natLe 6 b.mac.toNat) = { tier := 3, obj := natLe 6 b.mac.toNat } ∧
      u.score3 0 0 u.shelfId + u.margin 3 ≤ u.score3 e.2 e.1.air.toNat e.1.device.toNat ∧
      u.score3 0 0 u.shelfId < u.score3 e.2 e.1.air.toNat e.1.device.toNat) ∧
    (let s := ({ up with ple.steers := [(5, { mac := 5, open_ := some (9, 3, 0) })] } : State); let mac : BitVec 48 := 5;
     let device : Nat := 9; let unit : Nat := 3; let since : Nat := 0;
      s.unitDark UnitId.ple = false ∧ (s.steer mac.toNat).open_ = some (device, unit, since) ∧ device ≠ s.shelfId ∧
      (s.steer mac.toNat).accepted = false) ∧
    (let s := ({ up with ple.steers := [(5, { mac := 5, open_ := some (9, 3, 0) })] } : State); let mac : BitVec 48 := 5;
     let o : Nat × Nat × Nat := (9, 3, 0);
      s.unitDark UnitId.ple = false ∧ (s.steer mac.toNat).open_ = some o) ∧
    (let s := ({ up with ple.steers := [(5, { mac := 5, open_ := some (9, 3, 0) })] } : State); let mac : BitVec 48 := 5;
     let o : Nat × Nat × Nat := (9, 3, 0); let status : BitVec 8 := (0 : BitVec 8) ||| 1;
      s.unitDark UnitId.ple = false ∧ (s.steer mac.toNat).open_ = some o ∧ status ≠ 0 ∧ (s.steer mac.toNat).backoff = 0) ∧
    (let s := ({ up with ple.loads := [] } : State); let src : BitVec 6 := 3;
      s.unitDark UnitId.ple = false ∧ ∀ r, s.ple.loads.look src.toNat = some r → r.since + 500000000 ≤ s.now) ∧
    (let r : LoadRep := { load := 1, limp := false, since := 1000, clients := [(5, 9)], nodes := [3] };
     let s := ({ up with now := 2000, ple.loads := [(3, r)] } : State); let src : BitVec 6 := 3;
      s.unitDark UnitId.ple = false ∧ s.ple.loads.look src.toNat = some r ∧ s.now < r.since + 500000000) ∧
    (let s := up.set PLE_CTL_TIER_EN 7;
      s.unitDark UnitId.ple = false ∧ s.isLead = true ∧ s.tierOn 4 = false) ∧
    (let s := up.up PLE_STATE_LEAD_OK;
      s.unitDark UnitId.ple = false ∧ s.on PLE_STATE_LEAD_OK = true) ∧
    (let s := (up.wr PLE_PIN_BUF_DESC_OBJ.addr (BitVec.ofNat 32 (2 * (1 + 0) + 0x50000 + 0))); let req := vendorReq;
      s.accepts pinCmd req = true ∧ pinAllowed s.pinBuf = true ∧ s.pinRoom s.pinBuf = true) ∧
    (let s := ({ up with ple.pins := [{ up.pinBuf with unit := 3 }] } : State); let req := vendorReq;
      s.accepts pinCmd req = true ∧ ((s.ple.pins.any fun (x : Pin) => samePin x s.pinBuf) = true)) ∧
    (let s := ({ up with ple.pins := [{ up.pinBuf with unit := 0, device := 0, unmet := false }] } : State);
     let req := vendorReq; let p : Pin := { up.pinBuf with unit := 0, device := 0, unmet := false };
      s.accepts pinCmd req = true ∧ (List.find? (fun (x : Pin) => samePin x s.pinBuf) s.ple.pins = some p)) ∧
    (let s := up; let image : BitVec 352 := BitVec.ofNat 352 (2 ^ 320 * (2 * (1 + 0) + 0x50000 + 0));
      s.unitDark UnitId.ple = false ∧ pinAllowed (pinOf (natLe 44 image.toNat)) = true ∧
      s.pinRoom (pinOf (natLe 44 image.toNat)) = true) := by
  refine ⟨?_, ?_, ?_, ?_, ⟨?_, fun r h => by cases h⟩, ?_, ?_, ?_, ?_, ?_, ?_, ?_, ?_⟩ <;> decide +kernel

/-- States and operands that meet the hypotheses of each clause of RadioStateAndCalibrationRowsComplete. -/
theorem witness_RadioStateAndCalibrationRowsComplete :
    (let d := (Radio.a); let s := linkUp up d 0; let req := vendorReq; let l : Bool := false; let k : RfLink := s.link d 0;
      s.accepts (rfCmd d) req = true ∧ s.linkThere d l.toNat = true ∧ s.link d l.toNat = k ∧ k.trans = none ∧ k.tx = none ∧
      k.calTarget = none ∧ k.queue = [] ∧ k.held = [] ∧ k.state ≠ 1) ∧
    (let d := (Radio.b); let s := linkUp up d 1; let req := vendorReq; let l : Bool := false; let k : RfLink := s.link d 0;
      s.accepts (rfCmd d) req = true ∧ s.linkThere d l.toNat = true ∧ s.link d l.toNat = k ∧ k.trans = none ∧ k.tx = none ∧
      k.calTarget = none ∧ k.queue = [] ∧ k.held = [] ∧ k.state ≠ 0 ∧ k.state ≠ 2 ∧ k.state ≠ 3) ∧
    (let d := (Radio.a); let x := (⟨(3), 0, false⟩ : RfTrans);
     let s := up.editLink d 0 fun k => { k with trans := some x, tx := none, queue := [] }; let l : Bool := false;
      s.unitDark (rfUnit d) = false ∧ (s.link d l.toNat).trans = some x ∧ (s.link d l.toNat).queue = []) ∧
    (let d := (Radio.a);
     let s := linkUp up d 1;
     let req := vendorReq; let l : Bool := false; let k : RfLink := s.link d 0;
      s.accepts (rfCalCmd d) req = true ∧ s.linkThere d l.toNat = true ∧ s.link d l.toNat = k ∧ k.state ≠ 0 ∧
      k.trans = none ∧ k.tx = none ∧ k.calTarget = none ∧ k.queue = [] ∧ k.held = []) ∧
    (let d := (Radio.a); let q := 0; let g := false;
     let s := up.editLink d 0 fun k => { k with state := 5, trans := none, tx := none, calTarget := some (q, g), queue := [] };
     let l : Bool := false;
      s.unitDark (rfUnit d) = false ∧ (s.link d l.toNat).calTarget = some (q, g) ∧ (s.link d l.toNat).queue = []) ∧
    (let d := (Radio.b);
     let s := ((((up.set RFB_CTL_CHAIN_EN 2).set RFA_CTL_CHAIN_EN 2).set (rx d (RFB_MISMATCH_STATE 1)) 0).editLink d 0 fun k => { k with state := 3, trans := none, calTarget := none, tx := none, queue := [], held := [] }).editChain d 1 fun k => { k with iqDue := true, seg := none, lastSeg := none };
     let k : BitVec 3 := 1;
      s.unitDark (rfUnit d) = false ∧ canStart (s.link d (s.chainLink d k.toNat)) = true ∧
      (s.link d (s.chainLink d k.toNat)).held = [] ∧ (s.link d (s.chainLink d k.toNat)).queue = [] ∧
      s.respOpen d (s.chainLink d k.toNat) = false ∧ (s.liveChains d (s.chainLink d k.toNat)).contains k.toNat = true ∧
      s.inSegment d < 2 ∧ (s.chain d k.toNat).seg = none ∧
      (∀ (t : Nat), (s.chain d k.toNat).lastSeg = some t → t + 1000000 ≤ s.now) ∧
      ((s.chain d k.toNat).iqDue = true ∨ ∃ (c : Nat), s.workClass d (s.chainLink d k.toNat) = some c ∧ (s.link d (s.chainLink d k.toNat)).work = some c ∧ c < 5 ∧ s.heavyLoad d (s.chainLink d k.toNat) = true ∧ (s.chain d k.toNat).done < 64)) ∧
    (let d := (Radio.b); let s := up.editChain d 1 fun k => { k with iqDue := true, seg := some 0 }; let k : BitVec 3 := 1;
     let t0 : Nat := 0;
      s.unitDark (rfUnit d) = false ∧ (s.chain d k.toNat).seg = some t0 ∧ (s.chain d k.toNat).iqDue = true) ∧
    (let d := (Radio.b);
     let s := (up.editChain d 1 fun k => { k with iqDue := false, seg := some 0, done := 0 }).editLink d 0 fun k => { k with work := some 4 };
     let k : BitVec 3 := 1; let t0 : Nat := 0; let c : Nat := 4;
      s.unitDark (rfUnit d) = false ∧ (s.chain d k.toNat).seg = some t0 ∧ (s.chain d k.toNat).iqDue = false ∧
      (s.link d (s.chainLink d k.toNat)).work = some c ∧ (s.chain d k.toNat).done < 63) ∧
    (let d := (Radio.b);
     let s := (up.editChain d 1 fun k => { k with iqDue := false, seg := some 0, done := 63 }).editLink d 0 fun k => { k with work := some 4 };
     let k : BitVec 3 := 1; let t0 : Nat := 0; let c : Nat := 4;
      s.unitDark (rfUnit d) = false ∧ (s.chain d k.toNat).seg = some t0 ∧ (s.chain d k.toNat).iqDue = false ∧
      (s.link d (s.chainLink d k.toNat)).work = some c ∧ (s.chain d k.toNat).done = 63) ∧
    (let d := (Radio.b);
     let s := (up.editPermit d fun k => { k with retryEnd := some 9, grant := none }).editLink d 0 fun k => { k with work := some 6 };
     let c : Nat := 6;
      s.unitDark (rfUnit d) = false ∧ s.calAsks d = c ∧ 5 ≤ c ∧ s.permitted d < c ∧
      (s.permit d).retryEnd.isSome = true) ∧
    (let d := (Radio.b); let s := up;
      s.unitDark (rfUnit d) = false) ∧
    (let d := (Radio.b); let s := up.set (rx d (RFB_MISMATCH_STATE 1)) 2; let k : BitVec 3 := 1;
      s.unitDark (rfUnit d) = false ∧ s.chainOff d k.toNat = true ∧ s.rxOnly d (s.chainLink d k.toNat) = false) := by
  refine ⟨?_, ?_, ?_, ?_, ?_, ?_, ?_, ?_, ?_, ?_, ?_, ?_⟩ <;> decide +kernel

/-- States and operands that meet the hypotheses of each clause of RadioTransmitAndGrantRowsComplete. -/
theorem witness_RadioTransmitAndGrantRowsComplete :
    (let d := (Radio.b); let g := (⟨false, 500, 3, []⟩ : WifiGrant);
     let s := { linkUp up d 2 with sch.grants := [(9, g)] }; let l : Bool := false;
      s.unitDark (rfUnit d) = false ∧ s.linkThere d l.toNat = true ∧ (s.link d l.toNat).calTarget = none ∧
      (s.link d l.toNat).trans = none ∧ (s.link d l.toNat).tx = none ∧
      ((s.link d l.toNat).state = 2 ∨ (s.link d l.toNat).state = 3) ∧ (s.link d l.toNat).queue = [] ∧
      (s.link d l.toNat).held = [] ∧ s.segOn d l.toNat = false ∧ s.rxOnly d l.toNat = false ∧
      s.sch.grants.look (linkRoot d l.toNat) = some g ∧ s.wma.responses.lookD (linkRoot d l.toNat) [] = []) ∧
    (let d := (Radio.b); let x : WifiResp := { kind := .ack, dest := 5, deadline := 9000 };
     let s := { linkUp up d 3 with wma.responses := [(9, [x])] }; let l : Bool := false; let rest : List WifiResp := [];
      s.unitDark (rfUnit d) = false ∧ s.linkThere d l.toNat = true ∧ (s.link d l.toNat).calTarget = none ∧
      (s.link d l.toNat).trans = none ∧ (s.link d l.toNat).tx = none ∧
      ((s.link d l.toNat).state = 2 ∨ (s.link d l.toNat).state = 3) ∧ (s.link d l.toNat).queue = [] ∧
      (s.link d l.toNat).held = [] ∧ s.segOn d l.toNat = false ∧ s.rxOnly d l.toNat = false ∧
      s.wma.responses.lookD (linkRoot d l.toNat) [] = x :: rest ∧ x.kind ≠ .tb) ∧
    (let d := (Radio.b);
     let s := up.editLink d 0 fun k => { k with state := 2 + 0, trans := some ⟨2, 5, true⟩, tx := none, calTarget := none, queue := [], held := [] };
     let l : Bool := false; let d1 : RfTrans := ⟨2, 5, true⟩;
      s.unitDark (rfUnit d) = false ∧ s.linkThere d l.toNat = true ∧ (s.link d l.toNat).calTarget = none ∧
      (s.link d l.toNat).trans = some d1 ∧ d1.settles = true ∧ (s.link d l.toNat).held.length < 4) ∧
    (let d := (Radio.b); let d1 : RfTrans := ⟨3, 5, false⟩;
     let s := (linkUp up d 2).editLink d 0 fun k => { k with trans := some d1 }; let l : Bool := false;
      s.unitDark (rfUnit d) = false ∧ s.linkThere d l.toNat = true ∧ (s.link d l.toNat).calTarget = none ∧
      (s.link d l.toNat).trans = some d1 ∧ d1.settles = false) ∧
    (let d := (Radio.b); let c := ({ id := 4, cls := 0, len := 100 } : TxCmd);
     let s := up.editLink d 0 fun k => { k with state := 2 + 0, trans := none, tx := none, calTarget := none, queue := [], held := [c] };
     let l : Bool := false;
      s.unitDark (rfUnit d) = false ∧ canStart (s.link d l.toNat) = true ∧ s.heldNext d l.toNat = some c ∧
      c.deadline = none ∧ s.rxOnly d l.toNat = false) ∧
    (let d := (Radio.b); let c := ({ id := 4, cls := 0, len := 100, deadline := some 0 } : TxCmd);
     let s := { up.editLink d 0 fun k => { k with state := 2, trans := some ⟨2, 90000, true⟩, queue := [], held := [c] } with lt := 7 };
     let l : Bool := false;
      s.unitDark (rfUnit d) = false ∧ (s.link d l.toNat).queue = [] ∧
      (heldOrder (s.link d l.toNat).held).find? (s.late (s.link d l.toNat)) = some c) ∧
    (let d := (Radio.b); let c := ({ id := 4, cls := 0, len := 100, deadline := some 70000 } : TxCmd);
     let s := up.editLink d 0 fun k => { k with state := 5, trans := none, calTarget := some (2, false), tx := none, queue := [], held := [c] };
     let l : Bool := false; let d1 : Nat := 70000;
      s.unitDark (rfUnit d) = false ∧ (s.link d l.toNat).queue = [] ∧
      (heldOrder (s.link d l.toNat).held).find? (s.late (s.link d l.toNat)) = none ∧
      (s.link d l.toNat).calTarget.isSome = true ∧ s.heldNext d l.toNat = some c ∧ c.deadline = some d1) ∧
    (let d := (Radio.b); let c := ({ id := 4, cls := 0, len := 100 } : TxCmd);
     let s := up.editLink d 0 fun k => { k with state := 1, trans := none, tx := none, calTarget := none, queue := [], held := [c] };
     let l : Bool := false;
      s.unitDark (rfUnit d) = false ∧ (s.link d l.toNat).queue = [] ∧
      (List.find? (fun (c : TxCmd) => c.deadline.isNone) (s.link d l.toNat).held = some c)) ∧
    (let d := (Radio.b); let c := ({ id := 4, cls := 0, len := 100 } : TxCmd);
     let s := up.editLink d 0 fun k => { k with state := 3, tx := some (c, 2, 50), queue := [], held := [] };
     let l : Bool := false; let cls : Nat := 2; let start : Nat := 50;
      s.unitDark (rfUnit d) = false ∧ (s.link d l.toNat).tx = some (c, cls, start) ∧ (s.link d l.toNat).queue = []) ∧
    (let d := (Radio.b); let c := ({ id := 4, cls := 3, len := 200000 } : TxCmd);
     let s := (((up.set RFB_CTL_CHAIN_EN 2).set RFA_CTL_CHAIN_EN 2).set (rx d (RFB_MISMATCH_STATE 1)) 0).editLink d 0 fun k => { k with state := 3, tx := some (c, 2, 50), queue := [], held := [] };
     let l : Bool := false; let cls : Nat := 2; let start : Nat := 50; let vs : List (BitVec 12) := [7, 18];
     let v : BitVec 12 := 18; let k : Nat := 1;
      s.unitDark (rfUnit d) = false ∧ (s.link d l.toNat).tx = some (c, cls, start) ∧ (s.link d l.toNat).queue = [] ∧
      100000 ≤ c.len ∧ 2 ≤ cls ∧ c.mpdus = [] ∧ s.liveChains d l.toNat = [k] ∧ vs[k]? = some v ∧
      mismatchNext (s.f (rx d (RFB_MISMATCH_STATE k))) (sumVswr { vswr := List.take 8 (v.toNat :: (s.chain d k).vswr) : Chain }) = s.f (rx d (RFB_MISMATCH_STATE k))) ∧
    (let s := (up.up (RFA_GRANT_ENT_EN 3)).setW RFA_GRANT_EXP_EXPIRY (2 ^ 60); let req := vendorReq;
      s.accepts rfGrantCmd req = true ∧ (∃ (n : Nat), n < 16 ∧ s.on (RFA_GRANT_ENT_EN n) = true) ∧
      s.lt < s.w RFA_GRANT_EXP_EXPIRY) ∧
    (let s := (up.up (RFA_GRANT_ENT_EN 3)).setW RFA_GRANT_EXP_EXPIRY (2 ^ 60); let req := vendorReq;
      s.accepts rfGrantCmd req = true) ∧
    (let s := ({ up with rfa.coord := some ([⟨1, 5, 20, 10⟩], 2 ^ 40 + 0), rfa.warned := false } : State);
     let g : List CoordEnt × Nat := ([⟨1, 5, 20, 10⟩], 2 ^ 40 + 0);
      s.unitDark UnitId.rfa = false ∧ s.rfa.coord = some g ∧ s.rfa.warned = false) ∧
    (let s := ({ up with rfa.coord := some ([⟨1, 5, 20, 10⟩], 2 ^ 40 + 0), rfa.warned := false } : State);
     let g : List CoordEnt × Nat := ([⟨1, 5, 20, 10⟩], 2 ^ 40 + 0);
      s.unitDark UnitId.rfa = false ∧ s.rfa.coord = some g) ∧
    (let d := (Radio.b); let req := vendorReq; let s := up.editLink d 0 fun k => { k with state := 0, trans := none };
     let v := ((0x05000224) : Word); let l : Bool := false;
      s.admits (rfUnit d) Level.operator req = true ∧ s.linkThere d l.toNat = true ∧
      chanDenied d l.toNat (v &&& 4278253567) = false ∧
      (d = Radio.b ∧ l = true ∨ apart (match d with | Radio.a => v &&& 4278253567 | Radio.b => (s.chanReg Radio.a 0).w0) (match d with | Radio.a => (s.chanReg Radio.b 0).w0 | Radio.b => v &&& 4278253567) = true) ∧
      (s.link d l.toNat).state = 0 ∧ (s.link d l.toNat).trans = none) ∧
    (let d := (Radio.b); let req := vendorReq; let s := up.editLink d 0 fun k => { k with state := 3, trans := none };
     let v := ((0x05000224) : Word); let l : Bool := false;
      s.admits (rfUnit d) Level.operator req = true ∧ s.linkThere d l.toNat = true ∧
      chanDenied d l.toNat (v &&& 4278253567) = false ∧
      (d = Radio.b ∧ l = true ∨ apart (match d with | Radio.a => v &&& 4278253567 | Radio.b => (s.chanReg Radio.a 0).w0) (match d with | Radio.a => (s.chanReg Radio.b 0).w0 | Radio.b => v &&& 4278253567) = true) ∧
      (s.link d l.toNat).state ≠ 0 ∧ bitsOf v 31 24 ≠ 0) ∧
    (let d := (Radio.b); let c := (⟨0x25, 7⟩ : Chan);
     let s := ({ up.editLink d 0 fun k => { k with state := 3, trans := none, staged := some c, csa := [(2, 1), (5, 4)], queue := [], held := [], calTarget := none, tx := none } with rfb.splitNext := none } : State);
     let l : Bool := false;
      s.unitDark (rfUnit d) = false ∧ (s.link d l.toNat).staged = some c ∧
      ((s.link d l.toNat).csa.any fun e => decide (e.2 ≤ 1)) = true ∧ (d = .b → l = false → s.rfb.splitNext = none) ∧
      (s.link d l.toNat).queue = [] ∧ (s.link d l.toNat).held = [] ∧ (s.link d l.toNat).trans = none ∧
      (s.link d l.toNat).calTarget = none ∧ (s.link d l.toNat).tx = none) ∧
    (let c := (⟨0x25, 7⟩ : Chan); let b := true;
     let s := { up.editLink .b 0 fun k => { k with state := 3, staged := some c, csa := [(2, 0)], tx := none } with rfb.splitNext := some b };
      s.unitDark .rfb = false ∧ (s.link .b 0).staged = some c ∧ ((s.link .b 0).csa.any fun e => decide (e.2 ≤ 1)) = true ∧
      s.rfb.splitNext = some b ∧ (s.link .b 0).tx = none ∧ (s.link .b 1).tx = none) ∧
    (let req := vendorReq; let s := up; let b : Bool := !s.split;
      s.admits UnitId.rfb Level.operator req = true ∧ b ≠ s.split ∧ (s.link Radio.b 0).state = 0 ∧
      (s.link Radio.b 1).state = 0 ∧ (s.link Radio.b 0).trans = none ∧ (s.link Radio.b 1).trans = none) := by
  refine ⟨?_, ?_, ?_, ?_, ?_, ?_, ?_, ?_, ?_, ?_, ?_, ?_, ?_, ?_, ?_, ?_, ?_, ?_, ?_⟩ <;> decide +kernel

/-- States and operands that meet the hypotheses of each clause of RadioCRowsComplete. -/
theorem witness_RadioCRowsComplete :
    (let s := { rxC up 2 with rfc.state := 0 }; let req := vendorReq;
      s.accepts rfcCmd req = true ∧ s.rfc.trans = none ∧ s.rfc.tx = none ∧ s.rfc.retune = none ∧ s.rfc.queue = []) ∧
    (let s := { rxC up 2 with rfc.trans := some (3, 50) }; let target : Nat := 3; let e : Nat := 50;
      s.unitDark UnitId.rfc = false ∧ s.rfc.trans = some (target, e) ∧ s.rfc.queue = []) ∧
    (let s := (rxC up 2).wr RFC_SPAN_CENTRE.addr (BitVec.ofNat 32 (rxC up 2).span); let req := vendorReq;
      s.accepts rfcOpCmd req = true ∧ s.rfc.state ≠ 0 ∧ s.span = s.spanStaged) ∧
    (let s := (rxC up 2).wr RFC_SPAN_CENTRE.addr 0xD0000; let req := vendorReq;
      s.accepts rfcOpCmd req = true ∧ s.rfc.state ≠ 0 ∧ s.span ≠ s.spanStaged ∧ (s.rfc.state = 2 ∨ s.rfc.state = 3)) ∧
    (let s := rxC up 2; let req := vendorReq;
      s.accepts rfcOpCmd req = true ∧ s.rfc.state ≠ 0) ∧
    (let s := { rxC up 2 with rfc.retune := some (50, true) }; let e : Nat := 50;
      s.unitDark UnitId.rfc = false ∧ s.rfc.retune = some (e, true) ∧ s.rfc.queue = []) ∧
    (let s := rxC up 2; let req := vendorReq;
      s.admits UnitId.rfc Level.operator req = true) ∧
    (let s := (rxC up 2); let k : BitVec 6 := 2; let e : BitVec 2 := 0; let offset : BitVec 16 := 50; let p : Nat := 0;
      s.unitDark UnitId.rfc = false ∧ s.hears k.toNat = true ∧ (s.chan k.toNat).frame = none ∧
      s.entryProfile k.toNat e.toNat = some p ∧ offset.toInt.natAbs ≤ 10240 ∧ (s.chan k.toNat).pre = none) ∧
    (let s := ((rxC up 2).editChan 2 fun c => { c with pre := some 1 }); let k : BitVec 6 := 2; let e : BitVec 2 := 0;
     let rssi : BitVec 8 := (0xC0 : BitVec 8); let current : BitVec 8 := 0xA6; let offset : BitVec 16 := 50; let p : Nat := 0;
     let f : Nat := 1;
      s.unitDark UnitId.rfc = false ∧ s.hears k.toNat = true ∧ (s.chan k.toNat).frame = none ∧
      s.entryProfile k.toNat e.toNat = some p ∧ offset.toInt.natAbs ≤ 10240 ∧ (s.chan k.toNat).pre = some f ∧
      current.toInt + 12 ≤ rssi.toInt) ∧
    (let s := ((rxC up 2).editChan 2 fun c => { c with pre := some 0 }); let k : BitVec 6 := 2; let e : BitVec 2 := 0;
     let p : Nat := 0;
      s.unitDark UnitId.rfc = false ∧ s.hears k.toNat = true ∧ (s.chan k.toNat).frame = none ∧
      s.entryProfile k.toNat e.toNat = some p ∧ (s.chan k.toNat).pre = some (s.entryOf k.toNat e.toNat)) ∧
    (let f := (⟨0, 0, -80, 5, 6, 0, 0, none⟩ : RxFrame); let s := ((rxC up 2).editChan 2 fun c => { c with frame := some f });
     let k : BitVec 6 := 2; let len : BitVec 11 := (0 : BitVec 11) ||| 5;
      s.unitDark UnitId.rfc = false ∧ (s.chan k.toNat).frame = some f ∧ f.phr = none ∧ 5 ≤ len.toNat) ∧
    (let f := (⟨0, 0, -80, 5, 6, 0, 0, none⟩ : RxFrame); let s := ((rxC up 2).editChan 2 fun c => { c with frame := some f });
     let k : BitVec 6 := 2; let len : BitVec 11 := (0 : BitVec 11); let ms : Bool := false; let fcs16 : Bool := false;
      s.unitDark UnitId.rfc = false ∧ (s.chan k.toNat).frame = some f ∧ f.phr = none ∧
      (ms = true ∨ fcs16 = true ∨ len.toNat < 5)) ∧
    (let f := (⟨0, 0, -80, 5, 6, 0, 0, some (true, 3)⟩ : RxFrame);
     let s := ((rxC up 2).editChan 2 fun c => { c with frame := some f }); let k : BitVec 6 := 2;
     let psdu : List (BitVec 8) := [1, 2, 3]; let dw : Bool := true; let ends := f.lt + octetTime f.profile (2 + psdu.length);
      s.unitDark UnitId.rfc = false ∧ (s.chan k.toNat).frame = some f ∧ f.phr = some (dw, psdu.length) ∧
      ∀ t ∈ s.rxEnds, ends ≤ t) ∧
    (let f := (⟨0, 0, -80, 5, 6, 0, 0, some (true, 3)⟩ : RxFrame);
     let s := ((rxC { up with lt := 30000 } 2).editChan 2 fun c => { c with frame := some f });
     let s := { s with rfc.txq := [tx0] }; let k : BitVec 6 := 2; let cut := 10000;
     let psdu : List (BitVec 8) := [1, 2, 3]; let dw : Bool := true; let ends := f.lt + octetTime f.profile (2 + psdu.length);
      s.unitDark UnitId.rfc = false ∧ (s.chan k.toNat).frame = some f ∧ f.phr = some (dw, psdu.length) ∧ s.rxEnds = some cut ∧
      cut < ends) ∧
    (let s := rxC up 2; let k : BitVec 6 := 2;
      s.unitDark UnitId.rfc = false ∧ s.on (RFC_CH_CFG_EN k.toNat) = true ∧ (s.w RFC_CH_LOST_LOST).testBit k.toNat = false) ∧
    (let s := rxC up 2; let k : BitVec 6 := 2; let p : BitVec 4 := 0; let level : BitVec 8 := (0 : BitVec 8) &&& 0xF;
     let psdu : List (BitVec 8) := [1, 2, 3, 4, 5]; let time : BitVec 64 := 5; let at_ : Nat := 5;
      s.unitDark UnitId.rfc = false ∧ profileOk s.wide p.toNat = true ∧ 5 ≤ psdu.length ∧ psdu.length ≤ 2047 ∧
      (k.toNat < if s.wide = true then 32 else 64) ∧ -20 ≤ level.toInt ∧ level.toInt ≤ 54 ∧ some time.toNat = some at_ ∧
      2 ≤ s.rfc.state ∧ s.rfc.txq.length < 2) ∧
    (let s := { rxC { up with lt := 50000 } 2 with rfc.recent := [(3, 9, 40000)] }; let k : BitVec 6 := 2; let p : BitVec 4 := 0;
     let level : BitVec 8 := 3; let ref : BitVec 6 := 3; let time : BitVec 64 := 9;
     let psdu : List (BitVec 8) := [1, 2, 3, 4, 5]; let at_ : Nat := 80000;
      s.unitDark UnitId.rfc = false ∧ profileOk s.wide p.toNat = true ∧ 5 ≤ psdu.length ∧ psdu.length ≤ 2047 ∧
      (k.toNat < if s.wide = true then 32 else 64) ∧ -20 ≤ level.toInt ∧ level.toInt ≤ 54 ∧
      (s.rfc.recent.find? fun r => decide (r.1 = ref.toNat) && decide (r.2.1 = time.toNat)).map (fun r => r.2.2 + 40000) =
        some at_ ∧
      s.lt + 20000 ≤ at_ ∧ 2 ≤ s.rfc.state ∧ s.rfc.txq.length < 2) ∧
    (let s := rxC { up with lt := 50000 } 2; let k : BitVec 6 := 2; let p : BitVec 4 := 0; let level : BitVec 8 := 3;
     let psdu : List (BitVec 8) := [1, 2, 3, 4, 5]; let time : BitVec 64 := 69999; let at_ : Nat := 69999;
      s.unitDark UnitId.rfc = false ∧ profileOk s.wide p.toNat = true ∧ 5 ≤ psdu.length ∧ psdu.length ≤ 2047 ∧
      (k.toNat < if s.wide = true then 32 else 64) ∧ -20 ≤ level.toInt ∧ level.toInt ≤ 54 ∧ some time.toNat = some at_ ∧
      at_ < s.lt + 20000) ∧
    (let s := { rxC up 2 with rfc.txq := [tx0] }; let c : RfcTx := tx0;
     let u := (s.demand .rfc).reach (s.now + (max c.start (s.txFrom c) - s.lt));
      s.unitDark UnitId.rfc = false ∧ s.txFirst = some c ∧ s.txReady = true ∧ s.txIsLate c = false ∧ u.txFits c = true ∧
      (u.txRead c []).2 = false) ∧
    (let s := ((({ rxC up 2 with rfc.txq := [tx0] } : State).set (SGM_SUB_HI_HI 0) 0xFFFFF).set (SGM_SUB_BUDGET_B 0) 0).up (SGM_SUB_LO_EN 0);
     let c : RfcTx := tx0; let u := (s.demand .rfc).reach (s.now + (max c.start (s.txFrom c) - s.lt));
      s.unitDark UnitId.rfc = false ∧ s.txFirst = some c ∧ s.txReady = true ∧ s.txIsLate c = false ∧ u.txFits c = false ∧
      c.what = SgmTx.other) ∧
    (let s := { rxC up 2 with rfc.txq := [{ tx0 with deadline := true }], lt := 70000 + 0 };
     let c : RfcTx := { tx0 with deadline := true };
      s.unitDark UnitId.rfc = false ∧ List.find? s.txIsLate s.rfc.txq = some c ∧ c.what = SgmTx.other) ∧
    (let s := { rxC up 2 with rfc.tx := some (tx0, 40, 50, 19) }; let c : RfcTx := tx0; let start : Nat := 40;
     let air : Nat := 50; let level : Int := 19;
      s.unitDark UnitId.rfc = false ∧ s.rfc.tx = some (c, start, air, level) ∧ c.what = SgmTx.other ∧ s.rfc.queue = []) ∧
    (let s := { (rxC up 2).up RFC_CAL_STAT_DUE with rfc.tuneDue := [], rfc.lastFrame := [], mtm.mt := 0 };
     let u : State := (s.demand .rfc); let image : BitVec 8 := (0 : BitVec 8) ||| 0x40; let open_ : Nat := 0;
      s.unitDark UnitId.rfc = false ∧ s.calOpen = some open_ ∧ (s.demand UnitId.rfc).reachMt open_ = some u ∧
      s.mtm.mt ≤ open_ ∧ s.rfc.slotAt ≠ some open_ ∧ u.txReady = true ∧ u.on RFC_CAL_STAT_DUE = true ∧ u.rfc.tuneDue = [] ∧
      u.slotFrame < u.rfc.lastFrame.lookD 0 0 + 64 ∧ u.slotFrame < u.rfc.lastFrame.lookD 1 0 + 64 ∧ 50 ≤ image.toNat) ∧
    (let s := up;
      s.unitDark UnitId.rfc = false) := by
  refine ⟨?_, ?_, ?_, ?_, ?_, ?_, ?_, ?_, ?_, ?_, ?_, ?_, ?_, ?_, ?_, ?_, ?_, ?_, ?_, ?_, ?_, ?_, ?_, ?_⟩ <;> decide +kernel

/-- States and operands that meet the hypotheses of each clause of WifiRowsComplete. -/
theorem witness_WifiRowsComplete :
    (let s := up;
      s.unitDark UnitId.wma = false ∧ List.length s.wma.stations < 1024) ∧
    (let s := { up with wma.stations := (List.range 1024).map fun i => (i, sta0) };
      s.unitDark UnitId.wma = false ∧ 1024 ≤ List.length s.wma.stations) ∧
    (let s := { up.set WMA_STA_BUF_LINKS_LINKS (1 + 0) with wma.stations := [] }; let req := vendorReq;
     let i : BitVec 10 := 4;
      s.accepts staCmd req = true ∧ List.length s.wma.stations < 1024 ∧ s.wma.stations.look i.toNat = none ∧
      s.staOf s.staBuf.mac = none ∧ s.staBuf.links ≠ 0 ∧
      (s.staBuf.mld = true ∨ s.staBuf.links = 1 ∨ s.staBuf.links = 2 ∨ s.staBuf.links = 4) ∧
      s.wma.steered.look s.staBuf.mac = none) ∧
    (let k := (⟨6, 9, none⟩ : Steered);
     let s := { up.set WMA_STA_BUF_LINKS_LINKS (1 + 0) with wma.stations := [], wma.steered := [(up.staBuf.mac, k)] };
     let req := vendorReq; let i : BitVec 10 := 4;
      s.accepts staCmd req = true ∧ List.length s.wma.stations < 1024 ∧ s.wma.stations.look i.toNat = none ∧
      s.staOf s.staBuf.mac = none ∧ s.staBuf.links ≠ 0 ∧
      (s.staBuf.mld = true ∨ s.staBuf.links = 1 ∨ s.staBuf.links = 2 ∨ s.staBuf.links = 4) ∧
      s.wma.steered.look s.staBuf.mac = some k) ∧
    (let s := { up with wma.stations := [(4, sta0)], ple.tids := [] }; let req := vendorReq; let i : BitVec 10 := 4;
     let st : Station := sta0;
      s.accepts staCmd req = true ∧ s.wma.stations.look i.toNat = some st ∧ s.tidKeys st.client = []) ∧
    (let s := { up with wma.stations := [(4, sta0)], ple.tids := [(16 * 9 + 2, { out := [(1, 8, 7)] })] };
     let req := vendorReq; let i : BitVec 10 := 4; let st : Station := sta0;
      s.accepts staCmd req = true ∧ s.wma.stations.look i.toNat = some st ∧ s.onAir st.client = true ∧
      (∀ (k : Nat), k ∈ s.tidKeys st.client → (s.ple.tids.lookD k { : TidSt }).retry = [])) ∧
    (let s := { up with wma.stations := [(4, sta0)], ple.tids := [(16 * 9 + 2, { out := [(1, 8, 7)] })] };
     let req := vendorReq; let i : BitVec 10 := 4; let st : Station := sta0;
      s.accepts staCmd req = true ∧ s.wma.stations.look i.toNat = some st) ∧
    (let s := { up with wma.stations := [(4, { sta0 with deleting := true })], ple.tids := [] }; let i : BitVec 10 := 4;
     let st : Station := { sta0 with deleting := true };
      s.unitDark UnitId.wma = false ∧ s.wma.stations.look i.toNat = some st ∧ st.deleting = true ∧ s.tidKeys st.client = []) ∧
    (let x : WifiRx := mpdu0; let s := wifiUp up; let h : MacHdr := mpduHdr0; let i : Nat := 4; let st : Station := sta0;
      s.unitDark UnitId.wma = false ∧ s.receives (linkOf x.link.val).1 (linkOf x.link.val).2 = true ∧ macHdr x.mpdu = some h ∧
      h.typ = 2 ∧ h.group = false ∧ (s.bssAt x.link.val h.a1).isSome = true ∧ s.staOf h.a2 = some (i, st) ∧
      s.wma.stations.look i = some st ∧ h.qos = false ∧ h.prot = false ∧ (h.retry = false ∨ st.last.look 16 ≠ some h.sn) ∧
      x.aggregated = false ∧ x.last = true ∧ h.noAck = false ∧ s.wma.acking.lookD (8 + x.link.val) [] = []) ∧
    (let x : WifiRx := mpdu0; let s := wifiUp ((quired up 3 7 {} (pkt0 3)).set (PKB_Q_CFG_PROD 3) UnitId.wma.num);
     let h : MacHdr := mpduHdr0; let i : Nat := 4; let st : Station := sta0; let q : Nat := 3;
     let m := etherOf (msduEnds h).1 (msduEnds h).2 (x.mpdu.drop h.len);
      s.unitDark UnitId.wma = false ∧ s.receives (linkOf x.link.val).1 (linkOf x.link.val).2 = true ∧ macHdr x.mpdu = some h ∧
      h.typ = 2 ∧ h.group = false ∧ (s.bssAt x.link.val h.a1).isSome = true ∧ s.staOf h.a2 = some (i, st) ∧
      s.wma.stations.look i = some st ∧ h.qos = false ∧ h.prot = false ∧ (h.retry = false ∨ st.last.look 16 ≠ some h.sn) ∧
      h.null = false ∧ s.wmaQuire x.link.val = some q ∧ s.refuses q = false ∧ m.length < 16384 ∧
      s.cellsFit q (max 1 (cellsFor m.length)) = true) ∧
    (let b := (⟨8, 100, []⟩ : RxBa); let st : Station := { sta0 with ba := [(2, b)] };
     let s := ({ linkUp up .b 3 with wma.stations := [(4, st)] } : State); let k : Fin 3 := 1;
     let i : BitVec 10 := 4; let tid : BitVec 4 := 2; let ssn : BitVec 12 := 120;
      s.unitDark UnitId.wma = false ∧ s.receives (linkOf k.val).1 (linkOf k.val).2 = true ∧ s.wma.stations.look i.toNat = some st ∧
      s.baOf i.toNat tid.toNat = some b ∧ b.size ≤ seqDist b.win ((ssn.toNat + b.size - 1) % 4096) ∧
      seqDist b.win ((ssn.toNat + b.size - 1) % 4096) < 2048 ∧ b.held = []) ∧
    (let h := ({ sn := 103, pkts := [], since := 70 } : HeldMpdu); let b := (⟨8, 100, [h]⟩ : RxBa);
     let s := ({ up with wma.stations := [(4, { sta0 with ba := [(2, b)] })] } : State); let i : BitVec 10 := 4;
     let tid : BitVec 4 := 2;
      s.unitDark UnitId.wma = false ∧ s.baOf i.toNat tid.toNat = some b ∧ b.held = [h] ∧ h.check = .clear ∧ b.win < 4096 ∧
      h.sn < 4096) ∧
    (let w : Nat × Nat := (0, 5000); let st : Station := { sta0 with twts := [(1, w)] };
     let s := ({ up with wma.stations := [(4, st)] } : State); let i : BitVec 10 := 4; let n : Fin 4 := 1;
      s.unitDark UnitId.wma = false ∧ s.wma.stations.look i.toNat = some st ∧ st.twts.look n.val = some w) ∧
    (let s := up;
      s.unitDark UnitId.wma = false) ∧
    (let d := (Radio.b);
     let s := ({ ((((up.up (RFA_BSS_EN 2)).up (RFB_BSS_EN 2)).editLink .b 0 fun k => { k with state := 3, staged := none }).editLink .a 0 fun k => { k with state := 3, staged := none }).up RFA_GRANT_CFG_FALLBACK with bad := [] } : State);
     let n : BitVec 4 := 2; let u := s.bssTake d n.toNat; let k := u.link d (u.bssLink d n.toNat);
      s.unitDark UnitId.wma = false ∧ 10 ≤ s.cfg.stage ∧ u.bssOn d n.toNat = true ∧ (k.state = 3 ∨ k.state = 4) ∧
      s.rxOnly d (u.bssLink d n.toNat) = false) ∧
    (let x : TrigUser := { client := 9, ac := 2, bytes := 50, ru := 0 }; let l : List TrigUser := [x];
     let s := ({ up with wma.triggers := [(8, l)] } : State); let root : BitVec 4 := 8; let u : BitVec 6 := 0;
      s.unitDark UnitId.wma = false ∧ s.wma.triggers.look root.toNat = some l ∧ l[u.toNat]? = some x ∧ x.silent = false) ∧
    (let s := ({ (((up.set CIP_ROOT_STAT_PROG 3).set CIP_ROOT_STAT_BAD 0).set CIP_STATUS_QUAR 0).down CIP_STATUS_ERASING with wma.stations := [(4, sta0)] } : State);
     let req := vendorReq; let i : BitVec 10 := 4; let slot : BitVec 4 := (0 : BitVec 4) &&& 1; let st : Station := sta0;
     let cipher : BitVec 3 := (0 : BitVec 3) &&& 3;
      s.accepts wmaKeyCmd req = true ∧ slot.toNat < 2 ∧ s.wma.stations.look i.toNat = some st ∧ cipher.toNat < 4 ∧
      s.noLane = false ∧ s.rootOk 0 = true ∧ s.on CIP_STATUS_ERASING = false) ∧
    (let s := ({ up with wma.stations := [(4, sta0)] } : State); let req := vendorReq; let i : BitVec 10 := 4;
     let slot : BitVec 4 := (0 : BitVec 4) &&& 1; let st : Station := sta0;
      s.accepts wmaKeyCmd req = true ∧ slot.toNat < 2 ∧ s.wma.stations.look i.toNat = some st) ∧
    (let s := ({ (up.up (WMA_BH_PEER_UP 2)).up RFA_GRANT_CFG_FALLBACK with rfa.coord := some ([⟨0, 255, 60, 60⟩], 2 ^ 62) } : State);
     let n : BitVec 3 := 2;
      s.unitDark UnitId.wma = false ∧ s.on (WMA_BH_PEER_UP n.toNat) = true ∧ s.rxOnly Radio.a 0 = false) ∧
    (let s := up.up (WMA_BH_PEER_UP 2); let n : BitVec 3 := 2;
      s.unitDark UnitId.wma = false ∧ s.on (WMA_BH_PEER_UP n.toNat) = true ∧ s.rxOnly Radio.a 0 = true) ∧
    (let s := ({ ((((((((up.up (WMA_BH_PEER_EN 2)).down (WMA_BH_PEER_UP 2)).set (WMA_BH_PEER_DEVICE 2) 3).set SHF_STATUS_NUMBER 5).set CIP_ROOT_STAT_PROG 15).set CIP_ROOT_STAT_BAD 0).set CIP_STATUS_QUAR 0).down CIP_STATUS_ERASING) with rfa.coord := some ([⟨0, 255, 60, 60⟩], 2 ^ 62), wma.bhTried := [], wma.stations := [(4, { sta0 with backhaul := true })] } : State);
     let n : BitVec 3 := 2;
      s.unitDark UnitId.wma = false ∧ s.on (WMA_BH_PEER_EN n.toNat) = true ∧ s.on (WMA_BH_PEER_UP n.toNat) = false ∧
      s.f (WMA_BH_PEER_DEVICE n.toNat) < s.shelfId ∧ s.wma.bhTried = [] ∧
      ((List.any s.wma.stations fun (e : Nat × Station) => decide (s.bhOf e.snd = some n.toNat)) = true) ∧
      s.rxOnly Radio.a 0 = false ∧ s.cipHeld = false ∧ s.noLane = false ∧ s.rootOk 1 = true) := by
  refine ⟨?_, ?_, ?_, ?_, ?_, ?_, ?_, ?_, ?_, ?_, ?_, ?_, ?_, ?_, ?_, ?_, ?_, ?_, ?_, ?_⟩ <;> decide +kernel

/-- States and operands that meet the hypotheses of each clause of SubGhzPlanAndSendRowsComplete. -/
theorem witness_SubGhzPlanAndSendRowsComplete :
    (let req := vendorReq;
     let u := (List.range' 1 127).foldl (fun (s : State) b => s.wr (SGM_BLOCK_EN b).addr 0x02000000) up;
     let s := { (((u.wr (SGM_BLOCK_EN 0).addr 0x81000200).wr (SGM_SUB_LO_EN 0).addr 0x80000000).set (SGM_SUB_HI_HI 0) 0xFFFFF).set RFC_CAL_CFG_SLOT 9 with sgm.pend := none };
      s.accepts sgmCmd req = true ∧ s.sgm.pend = none ∧ List.find? s.blockFails (List.range 128) = none) ∧
    (let req := vendorReq; let s := { up with sgm.pend := some {} };
      s.accepts sgmCmd req = true ∧ s.sgm.pend = some { : PendPlan }) ∧
    (let s := { up with sgm.pend := some {}, sgm.frame := none };
      s.unitDark UnitId.sgm = false ∧ s.sgm.frame ≠ some s.slotFrame ∧ s.sgm.pend = some { : PendPlan }) ∧
    (let s := { up with sgm.pend := some { announced := true }, sgm.frame := none };
      s.unitDark UnitId.sgm = false ∧ s.sgm.frame ≠ some s.slotFrame ∧ s.sgm.pend = some { announced := true : PendPlan }) ∧
    (let s := { up with sgm.duty := [(0, 0, 2, 5), (5, 0, 2, 6)] };
      s.unitDark UnitId.sgm = false) ∧
    (let s := blockUp up 0 1; let u := ((s.demand .sgm).frameCut.enterFor 0 kindBeacon).getD s;
      s.unitDark UnitId.sgm = false ∧ 10 ≤ s.cfg.stage ∧ (s.demand UnitId.sgm).frameCut.enterFor 0 kindBeacon = some u ∧
      u.protects = true ∧
      u.fits (u.f SGM_BEACON_CHANNEL) (u.airtime (u.f SGM_BEACON_PROFILE) (19 + u.beaconBody.length)) true = true ∧
      2 ≤ u.rfc.state ∧ u.rfc.txq.length < 2) ∧
    (let s := blockUp up 4 3; let u := ((s.demand .sgm).frameCut.enterFor 4 kindGack).getD s; let b : BitVec 7 := 4;
      s.unitDark UnitId.sgm = false ∧ (s.demand UnitId.sgm).frameCut.enterFor b.toNat kindGack = some u ∧ u.protects = true ∧
      (u.fits (u.f SGM_BEACON_CHANNEL) (u.airtime (u.f SGM_BEACON_PROFILE) (19 + (natLe 1 193 ++ natLe 1 (u.gathers b.toNat).length ++ (List.map (fun (g : Nat) => natLe 8 (u.bitmap g)) (u.gathers b.toNat)).flatten).length)) true = true) ∧
      2 ≤ u.rfc.state ∧ u.rfc.txq.length < 2) ∧
    (let s := ({ blockUp up 4 5 with sgm.asked := [], sgm.nodes := [] } : State).set (SGM_BLOCK_ACT_FIRST 4) 4;
     let u := ((s.demand .sgm).reachMt 8192).getD s; let b : BitVec 7 := 4; let f : Nat := 0;
      s.unitDark UnitId.sgm = false ∧ s.blockOn b.toNat = true ∧ s.sgm.suspended = false ∧ s.blockKind b.toNat = kindDown ∧
      (f = if s.mtm.mt < s.blockOpen b.toNat then s.slotFrame else s.slotFrame + 1) ∧
      s.sgm.asked.contains (b.toNat, f) = false ∧
      (s.demand UnitId.sgm).reachMt (f * 2 ^ 19 + s.blockFirst b.toNat * 4096 - 8192) = some u) ∧
    (let p := { ipPkt with rewrite := some 0x1000 };
     let s := { quired (blockUp up 4 5) 3 7 {} p with mtm.mt := 1, sgm.given := [(4, ⟨1, 7, 0⟩)] };
     let t0 := (s.openLt 4 0 + s.guard); let z := ((s.demand .sgm).advance (t0 - 20000 - s.lt)).pktScan 7 p [];
     let u := z.1; let q := z.2.getD p; let b : BitVec 7 := 4; let c : CellFrame := ⟨1, 7, 0⟩;
      s.unitDark UnitId.sgm = false ∧ s.sgm.frameEnds = false ∧ s.sgm.given.look b.toNat = some c ∧
      s.blockOn b.toNat = true ∧ s.sgm.suspended = false ∧ s.sgm.done.contains b.toNat = false ∧ s.safeTakes = false ∧
      s.cipHeld = false ∧
      s.mtm.mt < c.frame * 2 ^ 19 + s.blockFirst b.toNat * 4096 + s.blockWidth b.toNat ∧ s.pkt c.pkt = some p ∧
      pktGroup p = true ∧ t0 = s.openLt b.toNat c.frame + s.guard ∧
      s.mtm.mt / 65536 = (s.mtm.mt + s.ticksOfNs (t0 - 20000 - s.lt)) / 65536 ∧
      z = (u, some q) ∧ q.poison = false ∧ pktGroup q = true ∧ u.protects = true ∧
      u.fits (u.f (SGM_BLOCK_ACT_CHANNEL b.toNat)) (u.airtime (u.f (SGM_BLOCK_ACT_PROFILE b.toNat)) ((u.lowpanBody q).length + downOver true)) (queueSafe (u.schQ c.queue)) = true ∧
      2 ≤ u.rfc.state ∧ u.rfc.txq.length < 2) ∧
    (let p := { ipPkt with rewrite := some 0x1000, chain := [3] };
     let s := { quired (blockUp up 4 5) 3 7 {} p with mtm.mt := 1, sgm.given := [(4, ⟨1, 7, 0⟩)] };
     let errs : List WordErr := [⟨1, ⟨[⟨3, 5⟩, ⟨4, 5⟩], false, []⟩⟩]; let t0 := (s.openLt 4 0 + s.guard);
     let z := ((s.demand .sgm).advance (t0 - 20000 - s.lt)).pktScan 7 p errs; let b : BitVec 7 := 4; let c : CellFrame := ⟨1, 7, 0⟩;
      s.unitDark UnitId.sgm = false ∧ s.sgm.frameEnds = false ∧ s.sgm.given.look b.toNat = some c ∧
      s.blockOn b.toNat = true ∧ s.sgm.suspended = false ∧ s.sgm.done.contains b.toNat = false ∧ s.safeTakes = false ∧
      s.cipHeld = false ∧
      s.mtm.mt < c.frame * 2 ^ 19 + s.blockFirst b.toNat * 4096 + s.blockWidth b.toNat ∧ s.pkt c.pkt = some p ∧
      pktGroup p = true ∧ t0 = s.openLt b.toNat c.frame + s.guard ∧
      s.mtm.mt / 65536 = (s.mtm.mt + s.ticksOfNs (t0 - 20000 - s.lt)) / 65536 ∧ z.2.map (·.poison) = some true) ∧
    (let s := { blockUp up 4 4 with sgm.safeLeft := 2 }; let u := ((s.demand .sgm).enter 4).getD s; let b : BitVec 7 := 4;
      s.unitDark UnitId.sgm = false ∧ s.sgm.frameEnds = false ∧ 0 < s.sgm.safeLeft ∧ s.sgm.done.contains b.toNat = false ∧
      s.cipHeld = false ∧ (s.demand UnitId.sgm).enter b.toNat = some u ∧ u.safeTakes = true ∧ 2 ≤ u.rfc.state ∧
      u.rfc.txq.length < 2) := by
  refine ⟨?_, ?_, ?_, ?_, ?_, ?_, ?_, ?_, ?_, ?_, ?_⟩ <;> decide +kernel

/-- States and operands that meet the hypotheses of each clause of SubGhzPartnerAndNodeRowsComplete. -/
theorem witness_SubGhzPartnerAndNodeRowsComplete :
    (let q := { report0 with psdu := sgm0 };
     let s := { quired (blockUp up 3 4) 3 7 {} (pkt0 3) with
                rfc.reports := [q], sgm.nodes := [(6, node0)], sgm.olds := [], cip.derivs := []
                cip.derived := [⟨up.cipTag 2 128 (nodeLabel 77 0), List.replicate 16 1, false⟩] }.set SGM_CTL_RX_Q 3;
     let rest : List RxReport := []; let x := (sgmParse sgm0).getD ⟨.short 0, 0, 0, 0, 0, 0, [], [], []⟩;
     let i : Nat := 6; let n : Node := node0; let m : Node := node0; let w : Bool := false; let body : List Byte := [1, 2];
     let z := ({ s.demand .sgm with rfc.reports := rest } : State).nodeOpen i n x;
      s.unitDark UnitId.sgm = false ∧ s.rfc.reports = q :: rest ∧ s.sgm.frameEnds = false ∧ q.status = 0 ∧
      sgmParse q.psdu = some x ∧ s.noLane = false ∧ s.cipHeld = false ∧ nodeNamed (s.nodesAt q.lt) (some x) = some (i, n) ∧
      s.inJoin q.mt = false ∧ s.cellOf n q = some w ∧
      (n.history.any fun h => decide (h.1 = x.seq) && decide (s.framesNow < h.2 + max 1 (s.f SGM_TIMING_DUP_AGE))) = false ∧
      z.2.2 = some body ∧ (∀ (c : Nat), n.lastCtr = some c → c < x.counter) ∧ s.sgm.nodes.look i = some m ∧ m.born = n.born ∧
      (z.1.quireWrite (s.f SGM_CTL_RX_Q) (sgmInfo i q false (decide (s.blockKind n.block = kindGather)) w) body true).2 = true) ∧
    (let w := (⟨6, 0, 1, 7, 0, 0, 2, 0, 9, 0, 0⟩ : DownWait); let q := { report0 with lt := 40000 + up.shr 0 };
     let s := { quired (blockUp up 3 4) 3 7 {} (pkt0 3) with rfc.reports := [q], sgm.nodes := [(6, node0)], sgm.downs := [w] };
     let rest : List RxReport := []; let n : Node := node0;
      s.unitDark UnitId.sgm = false ∧ s.rfc.reports = q :: rest ∧ List.find? (s.ackMatches q) s.sgm.downs = some w ∧
      s.sgm.nodes.look w.node = some n ∧ n.born = w.born) ∧
    (let w := (⟨6, 0, 1, 7, 0, 0, 2, 0, 9, 0, 0⟩ : DownWait);
     let s := { tree (quired (blockUp up 3 4) 3 7 {} (pkt0 3)) with sgm.nodes := [(6, node0)], sgm.downs := [w] }.set SGM_CTL_RETRIES 3;
     let rest : List DownWait := [];
      s.unitDark UnitId.sgm = false ∧ s.sgm.downs = w :: rest ∧ (s.pkt w.pkt).isSome = true ∧
      s.sgm.tries.lookD w.pkt 0 + 1 < max 1 (s.f SGM_CTL_RETRIES)) ∧
    (let w := (⟨6, 0, 1, 7, 0, 0, 2, 0, 9, 0, 0⟩ : DownWait);
     let s := { tree (quired (blockUp up 3 4) 3 7 {} (pkt0 3)) with sgm.nodes := [(6, node0)], sgm.downs := [w] }.set SGM_CTL_RETRIES 0;
     let rest : List DownWait := [];
      s.unitDark UnitId.sgm = false ∧ s.sgm.downs = w :: rest ∧ (s.pkt w.pkt).isSome = true ∧
      max 1 (s.f SGM_CTL_RETRIES) ≤ s.sgm.tries.lookD w.pkt 0 + 1) ∧
    (let n := { node0 with heard := true, added := 0 };
     let s := { (up.set SGM_TIMING_KEEPALIVE 1) with sgm.nodes := [(6, n)], sgm.frames := 8 }; let i : BitVec 12 := 6;
      s.unitDark UnitId.sgm = false ∧ s.sgm.nodes.look i.toNat = some n ∧
      n.added + max 1 (s.f SGM_TIMING_KEEPALIVE) ≤ s.framesNow ∧ n.heard = true) ∧
    (let req := vendorReq; let s := { (blockUp up 0 2).set SGM_NODE_BUF_CELL_CHANNEL 0 with sgm.nodes := [(6, node0)] };
     let i : BitVec 12 := 7;
      s.accepts nodeCmd req = true ∧ List.length s.sgm.nodes < 4096 ∧ s.cellValid s.nodeBuf = true ∧
      s.sgm.nodes.look i.toNat = none ∧ s.cellOwned i.toNat s.nodeBuf = false) ∧
    (let req := vendorReq; let s := { (blockUp up 0 2).set SGM_NODE_BUF_CELL_CHANNEL 0 with sgm.nodes := [(6, node0)] };
     let i : BitVec 12 := 6; let n : Node := node0;
      s.accepts nodeCmd req = true ∧ s.sgm.nodes.look i.toNat = some n) ∧
    (let req := vendorReq; let s := { (blockUp up 0 2).set SGM_NODE_BUF_CELL_CHANNEL 0 with sgm.nodes := [(6, node0)] };
     let i : BitVec 12 := 6; let n : Node := node0;
      s.accepts nodeCmd req = true ∧ s.sgm.nodes.look i.toNat = some n ∧ s.cellValid s.nodeBuf = true ∧
      s.cellOwned i.toNat s.nodeBuf = false) := by
  refine ⟨?_, ?_, ?_, ?_, ?_, ?_, ?_, ?_⟩ <;> decide +kernel

/-- States and operands that meet the hypotheses of each clause of CipherJobRowsComplete. -/
theorem witness_CipherJobRowsComplete :
    (let req := vendorReq; let s := up; let n : BitVec 3 := (0 : BitVec 3); let prod : BitVec 8 := (0 : BitVec 8) &&& 3;
      s.admits UnitId.cip Level.operator req = true ∧
      (prod.toNat + 256 - s.f (CIP_RING_IDX_CONS n.toNat)) % 256 ≤ 2 ^ s.ringSize n.toNat - 1) ∧
    (let d := (List.replicate 64 (0xF : Byte));
     let s := { (((up.up (CIP_RING_CFG_EN 2)).set (CIP_RING_IDX_PROD 2) 3).set CIP_STATUS_RNG_FAIL 0 |>.down CIP_STATUS_ERASING).setW (CIP_RING_BASE_BASE 2) 0x20000000 with shared := Memory.setBytes [] 0 d, bad := [], cip.next := [], cip.jobs := [] };
     let n : BitVec 3 := 2; let c : Nat := (((s.demand .cip).jobCode (s.ringLevel 2) d).getD 0);
      s.unitDark UnitId.cip = false ∧ s.cipOpen = true ∧ s.ringTurn n.toNat = true ∧ s.cipHeld = false ∧
      (s.demand UnitId.cip).dataRead (s.descAt n.toNat (s.ringNext n.toNat)) 64 = some d ∧
      (s.demand UnitId.cip).jobCode (s.ringLevel n.toNat) d = some c) ∧
    (let k := List.replicate 16 (7 : Byte); let d := List.replicate 56 (0 : Byte) ++ natLe 8 0x20000100;
     let s := { ((((up.up (CIP_RING_CFG_EN 2)).set (CIP_RING_IDX_PROD 2) 3).down CIP_STATUS_RNG_FAIL).down CIP_STATUS_ERASING).setW (CIP_RING_BASE_BASE 2) 0x20000000 with shared := Memory.setBytes (Memory.setBytes [] 0 d) 0x100 k, bad := [], cip.next := [], cip.jobs := [] };
     let n : BitVec 3 := 2; let p : Nat := (s.freePair).getD 0;
      s.unitDark UnitId.cip = false ∧ s.cipOpen = true ∧ s.ringTurn n.toNat = true ∧ s.cipHeld = false ∧
      (s.demand UnitId.cip).dataRead (s.descAt n.toNat (s.ringNext n.toNat)) 64 = some d ∧
      (s.demand UnitId.cip).jobCode (s.ringLevel n.toNat) d = none ∧ s.noLane = false ∧ s.freePair = some p ∧
      (match ((s.demand UnitId.cip).jobKey d).2 with | .ok x => decide (x = (k, none)) | .error _ => false) = true) ∧
    (let j := (⟨2, 0, none, [], [], 0, some 5, none, none⟩ : CipJob);
     let s := { up.set (CIP_RING_IDX_CONS 2) 0 with cip.jobs := [j] }; let n : BitVec 3 := 2; let count : BitVec 8 := 0;
      s.unitDark UnitId.cip = false ∧ count.toNat = s.f (CIP_RING_IDX_CONS n.toNat) ∧
      s.cip.jobs.find? (isJob n.toNat count.toNat) = some j ∧ (j.code.isSome = true ∨ j.waits = none) ∧
      (∀ x ∈ s.cip.jobs, isJob n.toNat count.toNat x = false → x.ring ≠ n.toNat)) ∧
    (let j := (⟨2, 1, some 1, [], [], 0, none, none, none⟩ : CipJob);
     let s := { up.set (CIP_RING_IDX_CONS 2) 0 with cip.jobs := [j] }; let n : BitVec 3 := 2; let count : BitVec 8 := 1;
      s.unitDark UnitId.cip = false ∧ s.cip.jobs.find? (isJob n.toNat count.toNat) = some j ∧ j.code = none ∧
      j.waits = none ∧ s.cip.jobs.find? (isJob n.toNat (s.f (CIP_RING_IDX_CONS n.toNat))) = none) ∧
    (let s := up.up CIP_STATUS_ERASING; let u : UnitId := .wma; let i : BitVec 12 := (0 : BitVec 12) &&& 0x7F;
      s.unitDark UnitId.cip = false ∧ s.cipOpen = true ∧ tableOwner i.toNat = some u ∧ s.cipHeld = true) ∧
    (let s := (up.down CIP_STATUS_ERASING).down CIP_STATUS_RNG_FAIL; let u : UnitId := .wma;
     let i : BitVec 12 := (0 : BitVec 12) &&& 0x7F;
      s.unitDark UnitId.cip = false ∧ s.cipOpen = true ∧ tableOwner i.toNat = some u ∧ s.cipHeld = false) ∧
    (let d := (⟨⟨0, 0, [1, 2], 128⟩, 2400, false⟩ : CipDeriv);
     let s := { up with cip.derivs := [d], cip.jobs := [⟨2, 0, some 1, [], [], 0, none, some d.tag, some d.tag⟩] };
     let rest : List CipDeriv := [];
      s.unitDark UnitId.cip = false ∧ s.cip.derivs = d :: rest ∧ s.cip.inlines = []) ∧
    (let s := { up.set CIP_STATUS_QUAR 0 with cip.jobs := [⟨2, 0, some 1, [], [], 0, none, none, none⟩] };
     let pairs : List LaneFault := [⟨1, 4⟩]; let p : Nat := 1; let q : Nat := 0;
      s.unitDark UnitId.cip = false ∧ p < 3 ∧ (pairs.any fun x => decide (x.pair.val = p)) = true ∧
      (s.f CIP_STATUS_QUAR).testBit p = false ∧ q < 3 ∧ (s.f CIP_STATUS_QUAR).testBit q = false ∧
      (pairs.any fun x => decide (x.pair.val = q)) = false) ∧
    (let s := { up.set CIP_STATUS_QUAR 0 with asy.armed := false, asy.ladders := [] };
     let pairs : List LaneFault := [⟨0, 0⟩, ⟨1, 0⟩, ⟨2, 9⟩]; let p : Nat := 2;
      s.unitDark UnitId.cip = false ∧ p < 3 ∧ (pairs.any fun x => decide (x.pair.val = p)) = true ∧
      (s.f CIP_STATUS_QUAR).testBit p = false ∧ s.monitors .cipherFault = false) ∧
    (let s := { up.down CIP_STATUS_ERASING with cip.jobs := [⟨2, 0, some 1, [], [], 0, none, none, none⟩] };
      s.unitDark UnitId.cip = false ∧ s.on CIP_STATUS_ERASING = false) ∧
    (let s := { up.up CIP_STATUS_ERASING with cip.eraseEnd := some 900, cip.keyOps := [] }; let e : Nat := 900;
      s.unitDark UnitId.cip = false ∧ s.cip.eraseEnd = some e ∧ s.cip.keyOps = [] ∧ s.cip.inlines = [] ∧ s.cip.frames = [] ∧
      s.shf.tagging = [] ∧ (∀ p, p < 8 → (s.ethPort p).hold = [])) ∧
    (let s := { up with asy.armed := false, asy.ladders := [] };
      s.unitDark UnitId.cip = false ∧ (s.monitors Monitor.entropy = false ∨ (s.ladder Func.cipher).out = true)) ∧
    (let s := up;
      s.unitDark UnitId.cip = false ∧ s.monitors Monitor.entropy = true) ∧
    (let s := up;
      s.unitDark UnitId.cip = false) := by
  refine ⟨?_, ?_, ?_, ?_, ?_, ?_, ?_, ?_, ?_, ?_, ?_, ?_, ?_, ?_, ?_⟩ <;> decide +kernel

/-- States and operands that meet the hypotheses of each clause of CipherKeyCommandsComplete. -/
theorem witness_CipherKeyCommandsComplete :
    (let req := vendorReq; let s := ((up.set CIP_ROOT_STAT_PROG 255).set CIP_ROOT_STAT_BAD 0).down CIP_STATUS_ERASING;
     let i : BitVec 12 := 3000;
      s.accepts keyCmd req = true ∧ s.on CIP_STATUS_ERASING = false ∧ ringIndex i.toNat = true ∧ s.rootOk 0 = true) ∧
    (let req := vendorReq; let s := ((up.set CIP_ROOT_STAT_PROG 255).set CIP_ROOT_STAT_BAD 0).down CIP_STATUS_ERASING;
     let i : BitVec 12 := 3000;
      s.accepts keyCmd req = true ∧ s.on CIP_STATUS_ERASING = false ∧ ringIndex i.toNat = true) ∧
    (let req := vendorReq;
     let s := ((((up.set CIP_ROOT_STAT_PROG 255).set CIP_ROOT_STAT_BAD 0).down CIP_STATUS_ERASING).set CIP_KEY_BUF_DESC_LEN 4).down TOP_LOCK_BOOT;
     let i : BitVec 12 := 3000; let slot : BitVec 2 := (0 : BitVec 2);
      s.accepts keyCmd req = true ∧ s.on CIP_STATUS_ERASING = false ∧ ringIndex i.toNat = true ∧
      0 < s.f CIP_KEY_BUF_DESC_LEN ∧ s.f CIP_KEY_BUF_DESC_LEN ≤ 64 ∧
      reservedLabel (s.regBytes (CIP_KEY_BUF_LABEL_W 0).addr (s.f CIP_KEY_BUF_DESC_LEN)) = false ∧
      (slot.toNat < 2 ∨ req.level = Level.vendor) ∧ req.level ≠ Level.guest ∧ s.rootOk slot.toNat = true ∧ s.rootOk 0 = true) ∧
    (let req := vendorReq;
     let s := { ((up.set CIP_ROOT_STAT_PROG 255).set CIP_ROOT_STAT_BAD 0).down CIP_STATUS_ERASING with cip.derived := [⟨⟨1, 0, [1], 128⟩, [3], false⟩], cip.jobs := [⟨2, 0, some 1, [], [], 0, none, none, some ⟨1, 0, [1], 128⟩⟩] };
      s.accepts keyCmd req = true ∧ s.on CIP_STATUS_ERASING = false ∧ req.level = Level.vendor) ∧
    (let req := vendorReq; let s := ((up.set CIP_ROOT_STAT_PROG 255).set CIP_ROOT_STAT_BAD 0).down CIP_STATUS_ERASING;
      s.accepts keyCmd req = true ∧ s.on CIP_STATUS_ERASING = false) ∧
    (let req := vendorReq; let s := (up.set CIP_ROOT_STAT_PROG 0).down TOP_LOCK_BOOT; let slot : BitVec 2 := (0 : BitVec 2);
     let bank : Bool := false;
      s.accepts rootCmd req = true ∧ s.on TOP_LOCK_BOOT = false ∧
      (s.f CIP_ROOT_STAT_PROG).testBit (2 * slot.toNat + bank.toNat) = false) := by
  refine ⟨?_, ?_, ?_, ?_, ?_, ?_⟩ <;> decide +kernel

/-- States and operands that meet the hypotheses of each clause of WiredPortRowsComplete. -/
theorem witness_WiredPortRowsComplete :
    (let d := List.replicate 60 (8 : Byte); let x := (⟨.express, d, .fcs true, 50, []⟩ : EthRx);
     let s := { ((quired up 0 7 {} (pkt0 0)).up (ETH_PORT_STAT_LINK 2)).wr (ETH_PORT_PREEMPT_EN 2).addr 0 with eth.ports := [] } |>.wr (ETH_PORT_Q_RX_Q 2).addr 0;
     let p : BitVec 3 := 2;
     let q := if s.on (ETH_PORT_PREEMPT_EN p.toNat) then s.f (ETH_PORT_Q_EXP_Q p.toNat) else s.f (ETH_PORT_Q_RX_Q p.toNat);
      s.unitDark UnitId.eth = false ∧ (s.ethPort p.toNat).cur = none ∧ s.linkUp p.toNat = true ∧ 60 ≤ x.data.length ∧
      x.data.length + 4 ≤ s.maxLen p.toNat ∧ x.smd = EthSmd.express ∧ beAt x.data 12 2 ≠ 0x8808 ∧ x.errs = [] ∧
      s.dom .wire = .up ∧ (∀ n, n < 8 → (s.ethPort n).hold = []) ∧ s.macsecOn p.toNat = false ∧ x.check = .fcs true ∧
      s.toShelf p.toNat x.data = false ∧ s.refuses q = false ∧ (s.quire q).opened = none ∧
      s.cellsFit q (max 1 (cellsFor x.data.length)) = true) ∧
    (let d := List.replicate 60 (8 : Byte); let x := (⟨.express, d, .fcs true, 50, []⟩ : EthRx);
     let s := { up.up (ETH_PORT_STAT_LINK 2) with eth.ports := [], pwr.doms := up.pwr.doms.put Dom.wire.num .low };
     let p : BitVec 3 := 2;
      s.unitDark UnitId.eth = false ∧ (s.ethPort p.toNat).cur = none ∧ s.linkUp p.toNat = true ∧ 60 ≤ x.data.length ∧
      x.data.length + 4 ≤ s.maxLen p.toNat ∧ x.smd = EthSmd.express ∧ beAt x.data 12 2 ≠ 0x8808 ∧ x.errs = [] ∧
      s.dom .wire = .low ∧ s.heldBytes p.toNat + x.data.length + 4 ≤ 98304) ∧
    (let f : BitVec 2 := 1; let x := (⟨.start f, List.replicate 64 (8 : Byte), .mcrc true, 50, []⟩ : EthRx);
     let s := { (up.up (ETH_PORT_STAT_LINK 2)).up (ETH_PORT_PREEMPT_EN 2) with eth.ports := [], pwr.doms := up.pwr.doms.put Dom.wire.num .low };
     let p : BitVec 3 := 2;
      s.unitDark UnitId.eth = false ∧ (s.ethPort p.toNat).cur = none ∧ s.linkUp p.toNat = true ∧ s.dom .wire = .low ∧
      s.on (ETH_PORT_PREEMPT_EN p.toNat) = true ∧ x.check = .mcrc true ∧ x.smd = .start f ∧ (s.ethPort p.toNat).asm = none) ∧
    (let f : BitVec 2 := 1; let c : BitVec 2 := 3; let x := (⟨.cont f c, List.replicate 64 (8 : Byte), .mcrc true, 50, []⟩ : EthRx);
     let a : EthAsm := { frame := 1, count := 3, data := [7], stamp := 9 };
     let s := { (up.up (ETH_PORT_STAT_LINK 2)).up (ETH_PORT_PREEMPT_EN 2) with eth.ports := [(2, { asm := some a })], pwr.doms := up.pwr.doms.put Dom.wire.num .low };
     let p : BitVec 3 := 2;
      s.unitDark UnitId.eth = false ∧ (s.ethPort p.toNat).cur = none ∧ s.linkUp p.toNat = true ∧ s.dom .wire = .low ∧
      s.on (ETH_PORT_PREEMPT_EN p.toNat) = true ∧ x.check = .mcrc true ∧ x.smd = .cont f c ∧
      (s.ethPort p.toNat).asm = some a ∧ a.frame = f.toNat ∧ a.count = c.toNat) ∧
    (let f : BitVec 2 := 1; let c : BitVec 2 := 2; let x := (⟨.cont f c, List.replicate 64 (8 : Byte), .mcrc true, 50, []⟩ : EthRx);
     let a : EthAsm := { frame := 1, count := 3, data := [7], stamp := 9 };
     let s := { (up.up (ETH_PORT_STAT_LINK 2)).up (ETH_PORT_PREEMPT_EN 2) with eth.ports := [(2, { asm := some a })], pwr.doms := up.pwr.doms.put Dom.wire.num .low };
     let p : BitVec 3 := 2;
      s.unitDark UnitId.eth = false ∧ (s.ethPort p.toNat).cur = none ∧ s.linkUp p.toNat = true ∧ s.dom .wire = .low ∧
      s.on (ETH_PORT_PREEMPT_EN p.toNat) = true ∧ x.check = .mcrc true ∧ x.smd = .cont f c ∧
      (s.ethPort p.toNat).asm = some a ∧ ¬(a.frame = f.toNat ∧ a.count = c.toNat)) ∧
    (let s := { (up.up (ETH_PORT_STAT_LINK 2)).set (ETH_PORT_FC_MODE 2) 1 with eth.ports := [] }; let p : BitVec 3 := 2;
     let quanta : BitVec 16 := (0 : BitVec 16) ||| 1;
      s.unitDark UnitId.eth = false ∧ (s.ethPort p.toNat).cur = none ∧ s.linkUp p.toNat = true ∧ s.fcMode p.toNat = 1 ∧ quanta ≠ 0) ∧
    (let s := { (up.up (ETH_PORT_STAT_LINK 2)).set (ETH_PORT_FC_MODE 2) 2 with eth.ports := [] }; let p : BitVec 3 := 2;
     let enable : BitVec 8 := (0 : BitVec 8) ||| 8; let quanta : List (BitVec 16) := [3, 4, 5, 6]; let i : Nat := 3;
      s.unitDark UnitId.eth = false ∧ (s.ethPort p.toNat).cur = none ∧ s.linkUp p.toNat = true ∧ s.fcMode p.toNat = 2 ∧ i < 8 ∧
      enable.toNat.testBit i = true ∧ ((List.map (fun (x : BitVec 16) => x.toNat) quanta).getD i 0 ≠ 0)) ∧
    (let s := { up.up (ETH_PORT_STAT_LINK 2) with eth.ports := [(2, { pauses := [(0, 70)] })] }; let p : BitVec 3 := 2; let i : Nat := 0;
     let e : Nat := 70;
      s.unitDark UnitId.eth = false ∧ (s.ethPort p.toNat).cur = none ∧ s.linkUp p.toNat = true ∧ (s.ethPort p.toNat).pauses = [(i, e)]) ∧
    (let s := { up.up (ETH_PORT_STAT_LINK 2) with eth.ports := [(2, { buffer := [⟨[1], 2, none⟩], stamps := [(1, 2, 3, 4)] })] };
     let p : BitVec 3 := 2;
      s.unitDark UnitId.eth = false ∧ (s.ethPort p.toNat).cur = none ∧ s.linkUp p.toNat = true) ∧
    (let s := { ((up.up (ETH_PORT_STAT_LINK 2)).up (ETH_PORT_EEE_EN 2)).down (ETH_PORT_STAT_LPI_TX 2) with eth.ports := [] };
     let p : BitVec 3 := 2;
      s.unitDark UnitId.eth = false ∧ (s.ethPort p.toNat).cur = none ∧ s.linkUp p.toNat = true ∧
      s.on (ETH_PORT_EEE_EN p.toNat) = true ∧ portIdle (s.ethPort p.toNat) = true ∧
      s.on (ETH_PORT_STAT_LPI_TX p.toNat) = false) ∧
    (let s := ((((up.down (ETH_PORT_STAT_LINK 2)).up (ETH_PORT_CFG_EN 2)).set (ETH_PORT_CFG_MODE 2) 0).setReady .eth true);
     let p : BitVec 3 := 2;
      s.unitDark UnitId.eth = false ∧ s.linkUp p.toNat = false ∧ s.on (ETH_PORT_CFG_EN p.toNat) = true ∧
      s.ready UnitId.eth = true ∧ s.f (ETH_PORT_CFG_MODE p.toNat) ≤ 3 ∧ (s.f (ETH_PORT_CFG_MODE p.toNat) = 0 → p.toNat < 4)) ∧
    (let s := { (up.up (ETH_PORT_STAT_LPI_TX 2)) with eth.ports := [(2, { buffer := [⟨[1], 2, none⟩] })] };
     let p : BitVec 3 := 2;
      s.unitDark UnitId.eth = false ∧ s.on (ETH_PORT_STAT_LPI_TX p.toNat) = true ∧ portIdle (s.ethPort p.toNat) = false) ∧
    (let s := { (up.set (ETH_PORT_STAT_VERIFY 2) 1) with eth.ports := [] }; let p : BitVec 3 := 2;
      s.unitDark UnitId.eth = false ∧ s.f (ETH_PORT_STAT_VERIFY p.toNat) = 1 ∧ (s.ethPort p.toNat).tries = 0) ∧
    (let s := { (up.set (ETH_PORT_STAT_VERIFY 2) 1) with eth.ports := [(2, { tries := 3 + 0 })] }; let p : BitVec 3 := 2;
      s.unitDark UnitId.eth = false ∧ s.f (ETH_PORT_STAT_VERIFY p.toNat) = 1 ∧ 3 ≤ (s.ethPort p.toNat).tries) ∧
    (let s := { (up.set (ETH_PORT_STAT_VERIFY 2) 1) with eth.ports := [] }; let p : BitVec 3 := 2;
      s.unitDark UnitId.eth = false ∧ s.f (ETH_PORT_STAT_VERIFY p.toNat) = 1) ∧
    (let req := vendorReq; let s := { up with eth.ports := [(2, { stamps := [(2 ^ 40 + 7, 2, 3, 4), (1, 2, 3, 4)] })] };
     let p : BitVec 3 := 2; let lt : Nat := 2 ^ 40 + 7; let seq : Nat := 2; let typ : Nat := 3; let dom : Nat := 4;
     let rest : List (Nat × Nat × Nat × Nat) := [(1, 2, 3, 4)];
      s.admits UnitId.eth Level.operator req = true ∧ (s.ethPort p.toNat).stamps = (lt, seq, typ, dom) :: rest) ∧
    (let s := { ((up.up (ETH_PORT_STAT_LINK 2)).down (ETH_PORT_STAT_LPI_TX 2)) with eth.ports := [(2, { ctrl := [[1, 2, 3]], free := 90 })] };
     let p : BitVec 3 := 2; let d : List Byte := [1, 2, 3]; let rest : List (List Byte) := [];
      s.unitDark UnitId.eth = false ∧ (s.ethPort p.toNat).cur = none ∧ s.linkUp p.toNat = true ∧
      s.on (ETH_PORT_STAT_LPI_TX p.toNat) = false ∧ (s.ethPort p.toNat).ctrl = d :: rest) ∧
    (let f := (⟨List.replicate 60 (9 : Byte), 2, none⟩ : EthFrame);
     let s := { ((up.up (ETH_PORT_STAT_LINK 2)).down (ETH_PORT_STAT_LPI_TX 2)) with eth.ports := [(2, { buffer := [f], free := 90 })] };
     let p : BitVec 3 := 2; let n : Nat := 0;
      s.unitDark UnitId.eth = false ∧ (s.ethPort p.toNat).cur = none ∧ s.linkUp p.toNat = true ∧
      s.on (ETH_PORT_STAT_LPI_TX p.toNat) = false ∧ s.ethNext p.toNat = EthNext.frame n f ∧ s.macsecOn p.toNat = false ∧
      ptpEvent f.data = none) ∧
    (let f := (⟨List.replicate 60 (9 : Byte), 2, none⟩ : EthFrame);
     let s := { ((up.up (ETH_PORT_STAT_LINK 2)).down (ETH_PORT_STAT_LPI_TX 2)) with eth.ports := [(2, { buffer := [f], free := 90 })] };
     let p : BitVec 3 := 2; let n : Nat := 0; let e : WordErr := ⟨1, ⟨[], true, []⟩⟩;
      s.unitDark UnitId.eth = false ∧ (s.ethPort p.toNat).cur = none ∧ s.linkUp p.toNat = true ∧
      s.on (ETH_PORT_STAT_LPI_TX p.toNat) = false ∧ s.ethNext p.toNat = EthNext.frame n f ∧ s.macsecOn p.toNat = false ∧
      e.err.tags = true ∧ 32 * e.word.toNat < f.data.length) ∧
    (let c := (⟨List.replicate 60 (9 : Byte), 2, 0, 0, 30, true, false, false⟩ : EthCur);
     let s := { ((up.up (ETH_PORT_STAT_LINK 2)).down (ETH_PORT_STAT_LPI_TX 2)) with eth.ports := [(2, { cut := some c, free := 90 })] };
     let p : BitVec 3 := 2;
      s.unitDark UnitId.eth = false ∧ (s.ethPort p.toNat).cur = none ∧ s.linkUp p.toNat = true ∧
      s.on (ETH_PORT_STAT_LPI_TX p.toNat) = false ∧ s.ethNext p.toNat = EthNext.resume c) ∧
    (let c := (⟨List.replicate 500 (9 : Byte), 2, 0, 2 ^ 62, 0, true, false, false⟩ : EthCur);
     let s := { (((up.up (ETH_PORT_STAT_LINK 2)).up (ETH_PORT_STAT_PREEMPT 2)).set (ETH_PORT_PREEMPT_EXPRESS 2) 128) with eth.ports := [(2, { cur := some c, buffer := [⟨[1], 7, none⟩] })] };
     let n := max (s.octetsSent 2 c) (64 * (1 + s.f (ETH_PORT_PREEMPT_ADDFRAG 2)) - 4); let p : BitVec 3 := 2;
      s.unitDark UnitId.eth = false ∧ (s.ethPort p.toNat).cur = some c ∧ s.now < c.ends ∧ (s.ethPort p.toNat).pend = [] ∧
      n = max (s.octetsSent p.toNat c) (64 * (1 + s.f (ETH_PORT_PREEMPT_ADDFRAG p.toNat)) - 4) ∧ c.preemptable = true ∧
      s.on (ETH_PORT_STAT_PREEMPT p.toNat) = true ∧ s.cutWanted p.toNat c.pcp = true ∧ c.before + n + 64 ≤ c.data.length + 4) ∧
    (let s := { ((up.up (ETH_PORT_STAT_LINK 2)).set (ETH_PORT_FC_MODE 2) (1 + 0)).set (ETH_PORT_FC_THR_XOFF 2) 0 with eth.ports := [] };
     let p : BitVec 3 := 2;
      s.unitDark UnitId.eth = false ∧ s.linkUp p.toNat = true ∧ s.fcMode p.toNat ≠ 0 ∧ (s.ethPort p.toNat).xoff = false ∧
      s.f (ETH_PORT_FC_THR_XOFF p.toNat) ≤ s.portCells p.toNat) ∧
    (let s := { ((up.up (ETH_PORT_STAT_LINK 2)).set (ETH_PORT_FC_MODE 2) (1 + 0)).set (ETH_PORT_FC_THR_XON 2) 0 with eth.ports := [(2, { xoff := true })] };
     let p : BitVec 3 := 2;
      s.unitDark UnitId.eth = false ∧ s.linkUp p.toNat = true ∧ s.fcMode p.toNat ≠ 0 ∧ (s.ethPort p.toNat).xoff = true ∧
      s.f (ETH_PORT_FC_THR_XON p.toNat) ≤ s.portCells p.toNat) ∧
    (let s := { ((up.up (ETH_PORT_STAT_LINK 2)).set (ETH_PORT_FC_MODE 2) (1 + 0)).set (ETH_PORT_FC_THR_XON 2) 9 with eth.ports := [(2, { xoff := true })], pkb.quires := [] };
     let p : BitVec 3 := 2;
      s.unitDark UnitId.eth = false ∧ s.linkUp p.toNat = true ∧ s.fcMode p.toNat ≠ 0 ∧ (s.ethPort p.toNat).xoff = true ∧
      s.portCells p.toNat < s.f (ETH_PORT_FC_THR_XON p.toNat)) ∧
    (let req := vendorReq; let s := { up.down (ETH_PORT_CFG_EN 2) with eth.ports := [] }; let p : BitVec 3 := 2;
     let v : BitVec 32 := (0 : BitVec 32) &&& 0xBFFFFFFF;
      s.admits UnitId.eth Level.operator req = true ∧ (s.ethPort p.toNat).cur = none ∧
      (s.on (ETH_PORT_CFG_EN p.toNat) = true → bitsOf v 30 28 = s.f (ETH_PORT_CFG_MODE p.toNat) ∧ bitsOf v 27 27 = s.f (ETH_PORT_CFG_FEC p.toNat)) ∧
      bitsOf v 30 28 ≤ 3 ∧ (bitsOf v 30 28 = 0 → p.toNat < 4)) ∧
    (let req := vendorReq; let s := { up.down (ETH_PORT_CFG_EN 2) with eth.ports := [] }; let p : BitVec 3 := 2;
     let v : BitVec 32 := (0 : BitVec 32) &&& 0x7FFFFFFF;
      s.admits UnitId.eth Level.operator req = true ∧ (s.ethPort p.toNat).cur = none ∧
      (v.getLsbD 31 = false ∨ s.f (ETH_PORT_Q_EXP_Q p.toNat) ≠ s.f (ETH_PORT_Q_RX_Q p.toNat))) ∧
    (let req := vendorReq; let p : BitVec 2 := 2;
     let s := (((up.set CIP_STATUS_QUAR 0).down CIP_STATUS_ERASING).set CIP_ROOT_STAT_PROG 255).set CIP_ROOT_STAT_BAD 0;
      s.accepts (saCmd p.toNat) req = true ∧ s.noLane = false ∧ s.on CIP_STATUS_ERASING = false ∧ s.rootOk 0 = true) ∧
    (let req := vendorReq; let s := (up.set CIP_STATUS_QUAR 0).down CIP_STATUS_ERASING; let p : BitVec 2 := 2;
      s.accepts (saCmd p.toNat) req = true) ∧
    (let req := vendorReq; let s := (up.set CIP_STATUS_QUAR 0).down CIP_STATUS_ERASING; let p : BitVec 2 := 2;
     let c : BitVec 4 := 0;
      s.accepts (saCmd p.toNat) req = true ∧ c = 0) := by
  refine ⟨?_, ?_, ?_, ?_, ?_, ?_, ?_, ?_, ?_, ?_, ?_, ?_, ?_, ?_, ?_, ?_, ?_, ?_, ?_, ?_, ?_, ?_, ?_, ?_, ?_, ?_, ?_, ?_, ?_⟩ <;> decide +kernel

/-- States and operands that meet the hypotheses of each clause of DramRowsComplete. -/
theorem witness_DramRowsComplete :
    (let s := { up with drc.chans := [] }; let a := dramLimit + 32 * 0;
     let d := (if false then none else some (List.replicate 32 (7 : Byte)));
     let q := ({ id := s.drc.next, source := 4, cls := s.f (DRC_SRC_CLASS 4), addr := a, words := 1, data := d, since := s.now } : DrcReq);
     let source : BitVec 5 := 4; let addr : BitVec 33 := BitVec.ofNat 33 a; let words : BitVec 5 := 1;
      s.unitDark UnitId.drc = false ∧ a = addr.toNat ∧ a % 32 = 0 ∧ 1 ≤ words.toNat ∧ a % 512 + 32 * words.toNat ≤ 512 ∧
      q = { id := s.drc.next, source := source.toNat, cls := s.f (DRC_SRC_CLASS source.toNat), addr := a, words := words.toNat, data := d, since := s.now : DrcReq } ∧
      (∀ (d_1 : List Byte), d = some d_1 → d_1.length = 32 * words.toNat) ∧ dramLimit < a + 32 * words.toNat) ∧
    (let s := { up.setReady .drc false with drc.chans := [] }; let a := 32 * 0;
     let d := (if false then none else some (List.replicate 32 (7 : Byte)));
     let q := ({ id := s.drc.next, source := 4, cls := s.f (DRC_SRC_CLASS 4), addr := a, words := 1, data := d, since := s.now } : DrcReq);
     let source : BitVec 5 := 4; let addr : BitVec 33 := BitVec.ofNat 33 a; let words : BitVec 5 := 1;
      s.unitDark UnitId.drc = false ∧ a = addr.toNat ∧ a % 32 = 0 ∧ 1 ≤ words.toNat ∧ a % 512 + 32 * words.toNat ≤ 512 ∧
      q = { id := s.drc.next, source := source.toNat, cls := s.f (DRC_SRC_CLASS source.toNat), addr := a, words := words.toNat, data := d, since := s.now : DrcReq } ∧
      (∀ (d_1 : List Byte), d = some d_1 → d_1.length = 32 * words.toNat) ∧ a + 32 * words.toNat ≤ dramLimit ∧
      s.dramUp = false) ∧
    (let s := { (up.setReady .drc true).up DRC_STATUS_TRAINED |>.down DRC_STATUS_FROZEN with drc.chans := [] };
     let a := 32 * 0;
     let q := ({ id := s.drc.next, source := 4, cls := s.f (DRC_SRC_CLASS 4), addr := a, words := 1, data := none, since := s.now } : DrcReq);
     let source : BitVec 5 := 4; let addr : BitVec 33 := BitVec.ofNat 33 a; let words : BitVec 5 := 1;
     let data : Option (List Byte) := none;
      s.unitDark UnitId.drc = false ∧ a = addr.toNat ∧ a % 32 = 0 ∧ 1 ≤ words.toNat ∧ a % 512 + 32 * words.toNat ≤ 512 ∧
      q = { id := s.drc.next, source := source.toNat, cls := s.f (DRC_SRC_CLASS source.toNat), addr := a, words := words.toNat, data := data, since := s.now : DrcReq } ∧
      (∀ (d : List Byte), data = some d → d.length = 32 * words.toNat) ∧ a + 32 * words.toNat ≤ dramLimit ∧ s.dramUp = true ∧
      (∀ (c : Nat), c < 4 → ∀ (k : DrcReq), k ∈ (s.drcCh c).stalled → k.source ≠ source.toNat) ∧ data = none) ∧
    (let s := { (up.setReady .drc true).up DRC_STATUS_TRAINED |>.down DRC_STATUS_FROZEN with drc.chans := [] };
     let a := 32 * 0; let d := some (List.replicate 32 (7 : Byte));
     let q := ({ id := s.drc.next, source := 4, cls := s.f (DRC_SRC_CLASS 4), addr := a, words := 1, data := d, since := s.now } : DrcReq);
     let source : BitVec 5 := 4; let addr : BitVec 33 := BitVec.ofNat 33 a; let words : BitVec 5 := 1;
      s.unitDark UnitId.drc = false ∧ a = addr.toNat ∧ a % 32 = 0 ∧ 1 ≤ words.toNat ∧ a % 512 + 32 * words.toNat ≤ 512 ∧
      q = { id := s.drc.next, source := source.toNat, cls := s.f (DRC_SRC_CLASS source.toNat), addr := a, words := words.toNat, data := d, since := s.now : DrcReq } ∧
      (∀ (d_1 : List Byte), d = some d_1 → d_1.length = 32 * words.toNat) ∧ a + 32 * words.toNat ≤ dramLimit ∧
      s.dramUp = true ∧ (∀ (c : Nat), c < 4 → ∀ (k : DrcReq), k ∈ (s.drcCh c).stalled → k.source ≠ source.toNat) ∧ d ≠ none ∧
      (∀ c, c < 4 → (s.drcCh c).writes.length + (drcParts q).length ≤ 64)) ∧
    (let w := List.replicate 64 (⟨0, 1, 0, 0, 1, some [], 0, false⟩ : DrcReq);
     let s := { (up.setReady .drc true).up DRC_STATUS_TRAINED |>.down DRC_STATUS_FROZEN with drc.chans := [(0, { writes := w })] };
     let a := 0; let d := some (List.replicate 32 (7 : Byte));
     let q := ({ id := s.drc.next, source := 4, cls := s.f (DRC_SRC_CLASS 4), addr := a, words := 1, data := d, since := s.now } : DrcReq);
     let source : BitVec 5 := 4; let addr : BitVec 33 := BitVec.ofNat 33 a; let words : BitVec 5 := 1;
      s.unitDark UnitId.drc = false ∧ a = addr.toNat ∧ a % 32 = 0 ∧ 1 ≤ words.toNat ∧ a % 512 + 32 * words.toNat ≤ 512 ∧
      q = { id := s.drc.next, source := source.toNat, cls := s.f (DRC_SRC_CLASS source.toNat), addr := a, words := words.toNat, data := d, since := s.now : DrcReq } ∧
      (∀ (d_1 : List Byte), d = some d_1 → d_1.length = 32 * words.toNat) ∧ a + 32 * words.toNat ≤ dramLimit ∧
      s.dramUp = true ∧ (∀ (c : Nat), c < 4 → ∀ (k : DrcReq), k ∈ (s.drcCh c).stalled → k.source ≠ source.toNat) ∧ d ≠ none ∧
      words.toNat ≤ 8 - a / 32 % 8 ∧ 64 ≤ (s.drcCh (dramChannel a)).writes.length) ∧
    (let q := (⟨3, 1, 2, 0, 1, none, 60, false⟩ : DrcReq); let s := { up with drc.chans := [(2, { reads := [q] })] };
     let c : BitVec 2 := 2;
      s.unitDark UnitId.drc = false ∧ (s.drcCh c.toNat).reads = [q] ∧ (s.drcCh c.toNat).writes = [] ∧ q.aged = false) ∧
    (let q := (⟨3, 1, 2, 0, 1, none, 60, false⟩ : DrcReq);
     let s := { ((up.setReady .drc true).up DRC_STATUS_TRAINED).down DRC_STATUS_FROZEN |>.set DRC_STATUS_RETRAINING 0 with drc.chans := [(2, { reads := [q] })] };
     let c : BitVec 2 := 2;
      s.unitDark UnitId.drc = false ∧ s.dramUp = true ∧ s.nextRead c.toNat = some q ∧ q.words = 1 ∧ q.data = none ∧
      forwardOf (s.drcCh c.toNat).writes q.source q.id q.addr = none ∧
      wgcDecode (s.dram.codeword q.addr) = WgcResult.correct) ∧
    (let q := (⟨3, 1, 2, 0, 1, none, 60, false⟩ : DrcReq); let d := List.replicate 32 (7 : Byte);
     let s := { ((up.setReady .drc true).up DRC_STATUS_TRAINED).down DRC_STATUS_FROZEN |>.set DRC_STATUS_RETRAINING 0 with drc.chans := [(2, { reads := [q], writes := [⟨2, 1, 2, 0, 1, some d, 60, false⟩] })] };
     let c : BitVec 2 := 2;
      s.unitDark UnitId.drc = false ∧ s.dramUp = true ∧ s.nextRead c.toNat = some q ∧ q.words = 1 ∧ q.data = none ∧
      forwardOf (s.drcCh c.toNat).writes q.source q.id q.addr = some d) ∧
    (let q := (⟨3, 1, 2, 0, 1, none, 60, false⟩ : DrcReq);
     let s := { ((up.setReady .drc true).up DRC_STATUS_TRAINED).down DRC_STATUS_FROZEN |>.set DRC_STATUS_RETRAINING 0 with drc.chans := [(2, { reads := [q] })] };
     let c : BitVec 2 := 2;
      s.unitDark UnitId.drc = false ∧ s.dramUp = true ∧ s.nextRead c.toNat = some q ∧ q.addr < dramLimit) ∧
    (let d := List.replicate 32 (7 : Byte); let q := (⟨3, 1, 2, 0, 1, some d, 60, false⟩ : DrcReq);
     let s := { ((up.setReady .drc true).up DRC_STATUS_TRAINED).down DRC_STATUS_FROZEN |>.set DRC_STATUS_RETRAINING 0 with drc.chans := [(2, { writes := [q] })] };
     let c : BitVec 2 := 2;
      s.unitDark UnitId.drc = false ∧ s.dramUp = true ∧ s.nextWrite c.toNat = some q ∧ q.data = some d ∧
      (s.drcCh c.toNat).stalled = []) ∧
    (let s := { ((up.setReady .drc true).up DRC_STATUS_TRAINED).down DRC_STATUS_FROZEN |>.set DRC_CTL_SCRUB 24 with drc.chans := [], dram := [] };
      s.unitDark UnitId.drc = false ∧ s.dramUp = true ∧ s.f DRC_CTL_SCRUB ≠ 0 ∧
      wgcDecode (s.dram.codeword (32 * s.drc.scrubWord)) = WgcResult.correct) ∧
    (let s := ((up.setReady .drc true).up DRC_STATUS_TRAINED).down DRC_STATUS_FROZEN;
      s.unitDark UnitId.drc = false ∧ s.dramUp = true) ∧
    (let c := (0 : BitVec 2);
     let s := (((up.setReady .drc true).up DRC_STATUS_TRAINED).down DRC_STATUS_FROZEN |>.down (DRC_CH_STAT_LOAD c.toNat)).editCh c.toNat (fun k => { k with loadDue := none });
     let util : BitVec 6 := 60;
      s.unitDark UnitId.drc = false ∧ s.dramUp = true ∧ s.on (DRC_CH_STAT_LOAD c.toNat) = false ∧
      busyUtil util.toNat = true ∧ (s.drcCh c.toNat).loadDue = none) ∧
    (let c := (0 : BitVec 2);
     let s := (((up.setReady .drc true).up DRC_STATUS_TRAINED).down DRC_STATUS_FROZEN).editCh c.toNat (fun k => { k with loadDue := none, temperDue := false, reads := [], writes := [] });
     let b : Bool := false;
      s.unitDark UnitId.drc = false ∧ s.dramUp = true ∧ (s.drcCh c.toNat).temperDue = false ∧
      (s.drcCh c.toNat).loadDue = none ∧ s.subWaits c.toNat b.toNat = false) ∧
    (let c := (0 : BitVec 2);
     let s := (((up.setReady .drc true).up DRC_STATUS_TRAINED).down DRC_STATUS_FROZEN).editCh c.toNat (fun k => { k with loadDue := none, temperDue := false, owed0 := [], owed1 := [], reads := [⟨3, 1, 1, 0, 1, none, 60, false⟩], writes := [] });
     let b : Bool := decide (dramSub 0 = 1);
      s.unitDark UnitId.drc = false ∧ s.dramUp = true ∧ (s.drcCh c.toNat).temperDue = false ∧
      (s.drcCh c.toNat).loadDue = none ∧ s.subWaits c.toNat b.toNat = true ∧
      (owedOf (s.drcCh c.toNat) b.toNat).length < s.owedMax c.toNat b.toNat) ∧
    (let s := (((up.setReady .drc true).up DRC_STATUS_TRAINED).down DRC_STATUS_FROZEN); let t0 : BitVec 8 := 90;
     let t1 : BitVec 8 := 100;
      s.unitDark UnitId.drc = false ∧ s.dramUp = true ∧ 85 ≤ t0.toInt ∧ 85 ≤ t1.toInt) ∧
    (let c := (0 : BitVec 2); let s := up.editCh c.toNat (fun k => { k with loadDue := some 80 }); let t0 : Nat := 80;
      s.unitDark UnitId.drc = false ∧ (s.drcCh c.toNat).loadDue = some t0) ∧
    (let req := vendorReq; let s := up.down DRC_STATUS_FROZEN;
      s.accepts drcCmd req = true ∧ s.on DRC_STATUS_FROZEN = false) ∧
    (let c := (0 : BitVec 2);
     let s := { (up.set DRC_STATUS_RETRAINING (2 ^ c.toNat)).down DRC_STATUS_FROZEN with drc.chans := [] };
      s.unitDark UnitId.drc = false ∧ s.retraining c.toNat = true ∧ s.on DRC_STATUS_FROZEN = false ∧
      (∀ (n : Nat), n < 4 → (s.drcCh n).retrain = false)) ∧
    (let c := (0 : BitVec 2);
     let s := { (up.set DRC_STATUS_RETRAINING (2 ^ c.toNat)).down DRC_STATUS_FROZEN with drc.chans := [] };
      s.unitDark UnitId.drc = false ∧ s.retraining c.toNat = true ∧ s.on DRC_STATUS_FROZEN = false) ∧
    (let c := (0 : BitVec 2); let s := up.editCh c.toNat (fun k => { k with owed0 := [7, 9], owed1 := [7, 9] });
     let b : Bool := false; let d : Nat := 7; let rest : List Nat := [9];
      s.unitDark UnitId.drc = false ∧ owedOf (s.drcCh c.toNat) b.toNat = d :: rest) ∧
    (let s := up.down DRC_STATUS_FROZEN;
      s.unitDark UnitId.drc = false ∧ s.on DRC_STATUS_FROZEN = false) ∧
    (let s := { up.up DRC_STATUS_FROZEN with asy.freezeHold := some 8 }; let t0 : Nat := 8;
      s.asy.freezeHold = some t0 ∧ s.on DRC_STATUS_FROZEN = true) ∧
    (let s := { up.down DRC_STATUS_FROZEN with asy.freezeHold := some 8 }; let t0 : Nat := 8;
      s.asy.freezeHold = some t0 ∧ s.on DRC_STATUS_FROZEN = false) := by
  refine ⟨?_, ?_, ?_, ?_, ?_, ?_, ?_, ?_, ?_, ?_, ?_, ?_, ?_, ?_, ?_, ?_, ?_, ?_, ?_, ?_, ?_, ?_, ?_, ?_⟩ <;> decide +kernel

/-- States and operands that meet the hypotheses of each clause of StackOperationRowsComplete. -/
theorem witness_StackOperationRowsComplete :
    (let e := (Engine.core 0); let s := engineUp up e [3, 4] [5] (false);
      s.issues e = true) ∧
    (let e := (Engine.core 0); let s := engineUp up e [3, 4] [5] (false);
      s.issues e = true ∧ (s.stackOf e).length < 16) ∧
    (let e := (Engine.core 0); let s := engineUp up e [3, 4] [5] (false); let n : BitVec 4 := 1; let v : Word := 4;
      s.issues e = true ∧ (s.stackOf e).length < 16 ∧ (s.stackOf e)[n.toNat]? = some v) ∧
    (let e := (Engine.core 0); let a := (0 : BitVec 32); let s := engineUp up e (a :: List.replicate 0 6) [5] (false);
     let rest : List Word := List.replicate 0 6;
      s.issues e = true ∧ s.stackOf e = a :: rest ∧ rest.length < 15) ∧
    (let e := (Engine.core 0); let a := (0 : BitVec 32); let b := (0 : BitVec 32);
     let s := engineUp up e (b :: a :: List.replicate 0 6) [5] (false); let rest : List Word := List.replicate 0 6;
      s.issues e = true ∧ s.stackOf e = b :: a :: rest ∧ rest.length < 14) ∧
    (let e := (Engine.core 0); let a := (0 : BitVec 32); let s := engineUp up e (a :: List.replicate 0 6) [5] (false);
     let rest : List Word := List.replicate 0 6;
      s.issues e = true ∧ s.stackOf e = a :: rest ∧ rest.length < 16) ∧
    (let e := (Engine.core 0); let a := (0 : BitVec 32); let b := (0 : BitVec 32);
     let s := engineUp up e (b :: a :: List.replicate 0 6) [5] (false); let rest : List Word := List.replicate 0 6;
      s.issues e = true ∧ s.stackOf e = b :: a :: rest ∧ rest.length < 16) ∧
    (let e := (Engine.core 0); let a := (0 : BitVec 32); let b := (0 : BitVec 32); let c := (0 : BitVec 32);
     let s := engineUp up e (c :: b :: a :: List.replicate 0 6) [5] (false); let rest : List Word := List.replicate 0 6;
      s.issues e = true ∧ s.stackOf e = c :: b :: a :: rest ∧ rest.length < 14) ∧
    (let c := Fin.ofNat 6 0; let s := engineUp up (.core c) [3] [5] (false);
      s.issues (Engine.core c) = true) := by
  refine ⟨?_, ?_, ?_, ?_, ?_, ?_, ?_, ?_, ?_⟩ <;> decide +kernel

/-- States and operands that meet the hypotheses of each clause of ReturnStackAndLongRowsComplete. -/
theorem witness_ReturnStackAndLongRowsComplete :
    (let e := (Engine.core 0); let s := engineUp up e [3, 4] [5] (false); let v : Word := 3; let rest : List Word := [4];
      s.issues e = true ∧ s.stackOf e = v :: rest ∧ (s.stackOf e true).length < returnRoom e) ∧
    (let e := (Engine.core 0); let s := engineUp up e [3, 4] [5] true; let v : Word := 3; let rest : List Word := [4];
      s.issues e = true ∧ s.stackOf e = v :: rest ∧ (s.stackOf e true).length < returnRoom e ∧ s.inSlotB e = true) ∧
    (let e := (Engine.core 0); let s := engineUp up e [3, 4] [5, 6] (false); let v : Word := 5; let rest : List Word := [6];
      s.issues e = true ∧ s.stackOf e true = v :: rest ∧ rest.length < returnRoom e ∧ (s.stackOf e).length < 16) ∧
    (let e := (Engine.core 0); let s := engineUp up e [3, 4] [5, 6] true; let v : Word := 5; let rest : List Word := [6];
      s.issues e = true ∧ s.stackOf e true = v :: rest ∧ rest.length < returnRoom e ∧ s.inSlotB e = true) ∧
    (let e := (Engine.core 0); let s := engineUp up e [3, 4] [5, 6] true; let v : Word := 3; let rest : List Word := [4];
      s.issues e = true ∧ s.inSlotB e = true ∧ s.stackOf e = v :: rest) ∧
    (let e := (Engine.core 0); let s := engineUp up e [3, 4] [5, 6] false;
      s.issues e = true ∧ s.inSlotB e = false ∧ (s.stackOf e true).length < returnRoom e) ∧
    (let e := (Engine.core 0); let s := engineUp up e [3, 4] [5, 6] false;
      s.issues e = true ∧ s.inSlotB e = false ∧ (s.stackOf e).length < 16) ∧
    (let e := (Engine.core 0); let a := (0 : BitVec 32); let s := engineUp up e (a :: List.replicate 0 6) [5] false;
     let rest : List Word := List.replicate 0 6;
      s.issues e = true ∧ s.inSlotB e = false ∧ s.stackOf e = a :: rest ∧ rest.length < 16) ∧
    (let e := (Engine.core 0); let s := engineUp up e [3, 4] [5, 6] false;
      s.issues e = true ∧ s.inSlotB e = false) ∧
    (let e := (Engine.core 0); let s := engineUp up e [(0 : BitVec 1) |>.zeroExtend 32, 4] [5, 6] false;
     let v : Word := (0 : BitVec 1) |>.zeroExtend 32; let rest : List Word := [4];
      s.issues e = true ∧ s.inSlotB e = false ∧ s.stackOf e = v :: rest) := by
  refine ⟨?_, ?_, ?_, ?_, ?_, ?_, ?_, ?_, ?_, ?_⟩ <;> decide +kernel

/-- States and operands that meet the hypotheses of each clause of LoadRowsComplete. -/
theorem witness_LoadRowsComplete :
    (let c := Fin.ofNat 6 0; let a := BitVec.ofNat 32 (4 * 0); let m := (MemSize.word);
     let s := engineUp up (.core c) [a, 4] [5, 6] (false); let e : Engine := .core c; let k : Nat := coreKey c.val;
     let rest : List Word := [4]; let off : BitVec 20 := 0; let o : Nat := a.toNat;
      e = Engine.core c ∧ k = coreKey ↑c ∧ s.issues e = true ∧ s.stackOf e = a :: rest ∧ rest.length < 16 ∧
      s.accessExc k false (BitVec.toNat (a + BitVec.signExtend 32 off)) m.bytes = none ∧
      placeOf (s.core k).dwin (BitVec.toNat (a + BitVec.signExtend 32 off)) = Place.sram o ∧ s.localBad k o = false ∧ off = 0) ∧
    (let c := Fin.ofNat 6 0; let a := BitVec.ofNat 32 (4 * 0); let m := (MemSize.word);
     let s := engineUp up (.core c) [a, 4] [5, 6] false; let e : Engine := .core c; let k : Nat := coreKey c.val;
     let rest : List Word := [4]; let off : BitVec 20 := ((0 : BitVec 6)).zeroExtend 20 <<< 2;
     let o : Nat := (a + (((0 : BitVec 6)).zeroExtend 20 <<< 2).signExtend 32).toNat;
      e = Engine.core c ∧ k = coreKey ↑c ∧ s.issues e = true ∧ s.stackOf e = a :: rest ∧ rest.length < 16 ∧
      s.accessExc k false (BitVec.toNat (a + BitVec.signExtend 32 off)) m.bytes = none ∧
      placeOf (s.core k).dwin (BitVec.toNat (a + BitVec.signExtend 32 off)) = Place.sram o ∧ s.localBad k o = false ∧
      s.inSlotB e = false) ∧
    (let c := Fin.ofNat 6 0; let a := BitVec.ofNat 32 (0x20000000 + 4 * 0); let m := (MemSize.word);
     let s := { engineUp up (.core c) [a, 4] [5, 6] (false) with shared := [⟨3, 7⟩, ⟨8, 255⟩] }; let e : Engine := .core c;
     let k : Nat := coreKey c.val; let rest : List Word := [4]; let off : BitVec 20 := 0; let o : Nat := a.toNat - 0x20000000;
      e = Engine.core c ∧ k = coreKey ↑c ∧ s.issues e = true ∧ s.stackOf e = a :: rest ∧ rest.length < 16 ∧
      s.accessExc k false (BitVec.toNat (a + BitVec.signExtend 32 off)) m.bytes = none ∧
      placeOf (s.core k).dwin (BitVec.toNat (a + BitVec.signExtend 32 off)) = Place.shared o ∧
      s.sharedBad (o / 32 * 32) 32 = false ∧ off = 0) ∧
    (let c := Fin.ofNat 6 0; let a := BitVec.ofNat 32 (0x40000000 + 4 * 0); let m := (MemSize.word);
     let s := { ((engineUp up (.core c) [a, 4] [5, 6] (false)).setReady .drc true |>.up DRC_STATUS_TRAINED).down DRC_STATUS_FROZEN with dram := Memory.setDram [] 0 (List.replicate 32 7) };
     let e : Engine := .core c; let k : Nat := coreKey c.val; let rest : List Word := [4]; let off : BitVec 20 := 0;
     let d : Nat := a.toNat - 0x40000000;
      e = Engine.core c ∧ k = coreKey ↑c ∧ s.issues e = true ∧ s.stackOf e = a :: rest ∧ rest.length < 16 ∧
      s.accessExc k false (BitVec.toNat (a + BitVec.signExtend 32 off)) m.bytes = none ∧
      placeOf (s.core k).dwin (BitVec.toNat (a + BitVec.signExtend 32 off)) = Place.dram d ∧
      wgcDecode (s.dram.codeword (d / 32 * 32)) = WgcResult.correct ∧ off = 0) ∧
    (let c := Fin.ofNat 6 0; let a := BitVec.ofNat 32 (0x10000000 + ((0x14)));
     let s := engineUp up (.core c) [a, 4] [5, 6] (false); let e : Engine := .core c; let k : Nat := coreKey c.val;
     let size : MemSize := MemSize.word; let rest : List Word := [4]; let off : BitVec 20 := 0;
     let x : Nat := a.toNat - 0x10000000;
      e = Engine.core c ∧ k = coreKey ↑c ∧ s.issues e = true ∧ s.stackOf e = a :: rest ∧ rest.length < 16 ∧
      s.accessExc k false (BitVec.toNat (a + BitVec.signExtend 32 off)) size.bytes = none ∧
      placeOf (s.core k).dwin (BitVec.toNat (a + BitVec.signExtend 32 off)) = Place.csr x ∧ x ≠ PWR_WAIT_PEND.addr ∧ off = 0) ∧
    (let c := Fin.ofNat 6 0;
     let s := (engineUp up (.core c) [3, 4] [5, 6] (false)).editAg (coreKey c.val) 2 (fun _ => ⟨64, (8), (1), 0, 0⟩);
     let e : Engine := .core c; let k : Nat := coreKey c.val; let g : BitVec 3 := 2;
     let a : Nat := (((s.core (coreKey c.val)).ag 2).address).getD 0;
     let o : Nat := (((s.core (coreKey c.val)).ag 2).address).getD 0;
      e = Engine.core c ∧ k = coreKey ↑c ∧ s.issues e = true ∧ (s.stackOf e).length < 16 ∧
      ((s.core k).ag g.toNat).address = some a ∧ s.accessExc k false a ((s.core k).ag g.toNat).size.bytes = none ∧
      placeOf (s.core k).dwin a = Place.sram o ∧ s.localBad k o = false) := by
  refine ⟨?_, ?_, ?_, ?_, ?_, ?_⟩ <;> decide +kernel

/-- States and operands that meet the hypotheses of each clause of StoreRowsComplete. -/
theorem witness_StoreRowsComplete :
    (let c := Fin.ofNat 6 0; let a := BitVec.ofNat 32 (4 * 0); let m := (MemSize.word); let v := (0 : BitVec 32);
     let s := engineUp up (.core c) [a, v, 4] [5, 6] (false); let e : Engine := .core c; let k : Nat := coreKey c.val;
     let rest : List Word := [4]; let off : BitVec 20 := 0; let o : Nat := a.toNat;
      e = Engine.core c ∧ k = coreKey ↑c ∧ s.issues e = true ∧ s.stackOf e = a :: v :: rest ∧
      s.accessExc k true (BitVec.toNat (a + BitVec.signExtend 32 off)) m.bytes = none ∧
      placeOf (s.core k).dwin (BitVec.toNat (a + BitVec.signExtend 32 off)) = Place.sram o ∧ off = 0) ∧
    (let c := Fin.ofNat 6 0; let a := BitVec.ofNat 32 (0x20000000 + 4 * 0); let m := (MemSize.word);
     let v := (0 : BitVec 32); let s := engineUp up (.core c) [a, v, 4] [5, 6] false; let e : Engine := .core c;
     let k : Nat := coreKey c.val; let rest : List Word := [4]; let off : BitVec 20 := 4;
     let o : Nat := a.toNat + 4 - 0x20000000;
      e = Engine.core c ∧ k = coreKey ↑c ∧ s.issues e = true ∧ s.stackOf e = a :: v :: rest ∧
      s.accessExc k true (BitVec.toNat (a + BitVec.signExtend 32 off)) m.bytes = none ∧
      placeOf (s.core k).dwin (BitVec.toNat (a + BitVec.signExtend 32 off)) = Place.shared o ∧ s.inSlotB e = false) ∧
    (let c := Fin.ofNat 6 0; let a := BitVec.ofNat 32 (0x40000000 + 4 * 0); let m := (MemSize.word);
     let v := (0 : BitVec 32);
     let s := ((engineUp up (.core c) [a, v, 4] [5, 6] (false)).setReady .drc true |>.up DRC_STATUS_TRAINED).down DRC_STATUS_FROZEN;
     let e : Engine := .core c; let k : Nat := coreKey c.val; let rest : List Word := [4]; let off : BitVec 20 := 0;
     let d : Nat := a.toNat - 0x40000000;
      e = Engine.core c ∧ k = coreKey ↑c ∧ s.issues e = true ∧ s.stackOf e = a :: v :: rest ∧
      s.accessExc k true (BitVec.toNat (a + BitVec.signExtend 32 off)) m.bytes = none ∧
      placeOf (s.core k).dwin (BitVec.toNat (a + BitVec.signExtend 32 off)) = Place.dram d ∧ off = 0) ∧
    (let c := Fin.ofNat 6 0; let v := (0 : BitVec 32);
     let s := (engineUp up (.core c) [v, 4] [5, 6] (false)).editAg (coreKey c.val) 2 (fun _ => ⟨64, (8), (1), 0, 0⟩);
     let e : Engine := .core c; let k : Nat := coreKey c.val; let g : BitVec 3 := 2; let rest : List Word := [4];
     let a : Nat := (((s.core (coreKey c.val)).ag 2).address).getD 0;
     let o : Nat := (((s.core (coreKey c.val)).ag 2).address).getD 0;
      e = Engine.core c ∧ k = coreKey ↑c ∧ s.issues e = true ∧ s.stackOf e = v :: rest ∧
      ((s.core k).ag g.toNat).address = some a ∧ s.accessExc k true a ((s.core k).ag g.toNat).size.bytes = none ∧
      placeOf (s.core k).dwin a = Place.sram o) := by
  refine ⟨?_, ?_, ?_, ?_⟩ <;> decide +kernel

/-- States and operands that meet the hypotheses of each clause of CoreLongRowsComplete. -/
theorem witness_CoreLongRowsComplete :
    (let c := Fin.ofNat 6 0; let a := BitVec.ofNat 32 (0x20000000 + 4 * 0); let v := (0 : BitVec 32);
     let s := engineUp up (.core c) [a, v, 4] [5, 6] false; let e : Engine := .core c; let k : Nat := coreKey c.val;
     let o : Nat := a.toNat - 0x20000000; let rest : List Word := [4];
      e = Engine.core c ∧ k = coreKey ↑c ∧ s.issues e = true ∧ s.inSlotB e = false ∧ s.atomicExc k a.toNat = none ∧
      a.toNat = 536870912 + o ∧ s.bad.contains (UnitId.cpu, 1, o / 32) = false ∧ s.stackOf e = a :: v :: rest ∧
      rest.length < 16) ∧
    (let c := Fin.ofNat 6 0; let a := BitVec.ofNat 32 (0x20000000 + 4 * 0); let v := (0 : BitVec 32);
     let s := engineUp up (.core c) [a, v, (0 : BitVec 1) |>.zeroExtend 32, 4] [5, 6] false; let e : Engine := .core c;
     let k : Nat := coreKey c.val; let o : Nat := a.toNat - 0x20000000;
     let expected : Word := (0 : BitVec 1) |>.zeroExtend 32; let rest : List Word := [4];
      e = Engine.core c ∧ k = coreKey ↑c ∧ s.issues e = true ∧ s.inSlotB e = false ∧ s.atomicExc k a.toNat = none ∧
      a.toNat = 536870912 + o ∧ s.bad.contains (UnitId.cpu, 1, o / 32) = false ∧ s.stackOf e = a :: v :: expected :: rest ∧
      rest.length < 16) ∧
    (let c := Fin.ofNat 6 0; let s := engineUp up (.core c) [9, 8, 4] [5, 6] false; let e : Engine := .core c;
     let k : Nat := coreKey c.val; let f : BitVec 3 := BitVec.ofNat 3 0; let v : Word := 9; let rest : List Word := [8, 4];
      e = Engine.core c ∧ k = coreKey ↑c ∧ s.issues e = true ∧ s.inSlotB e = false ∧ f.toNat < 5 ∧ s.stackOf e = v :: rest) ∧
    (let c := Fin.ofNat 6 0; let s := engineUp up (.core c) [9, 8, 4] [5, 6] false; let e : Engine := .core c;
     let k : Nat := coreKey c.val; let g : BitVec 3 := 2; let f : BitVec 3 := BitVec.ofNat 3 0;
     let v : Word := (((s.core (coreKey c.val)).ag 2).read 0).getD 0;
      e = Engine.core c ∧ k = coreKey ↑c ∧ s.issues e = true ∧ s.inSlotB e = false ∧ (s.stackOf e).length < 16 ∧
      ((s.core k).ag g.toNat).read f.toNat = some v) ∧
    (let c := Fin.ofNat 6 0; let s := engineUp up (.core c) [9, 8, 4] [5, 6] false; let e : Engine := .core c;
     let k : Nat := coreKey c.val;
      e = Engine.core c ∧ k = coreKey ↑c ∧ s.issues e = true ∧ s.inSlotB e = false) ∧
    (let c := Fin.ofNat 6 0; let g := BitVec.ofNat 4 0; let s := engineUp up (.core c) [9, 8, 4] [5, 6] false;
     let e : Engine := .core c; let k : Nat := coreKey c.val; let v : Word := 9; let rest : List Word := [8, 4];
      e = Engine.core c ∧ k = coreKey ↑c ∧ s.issues e = true ∧ s.inSlotB e = false ∧ s.stackOf e = v :: rest ∧
      (s.core k).level = Level.vendor ∧ g.toNat ≤ 12 ∧ g.toNat ≠ 7) ∧
    (let c := Fin.ofNat 6 0; let s := engineUp up (.core c) [9, 8, 4] [5, 6] false; let e : Engine := .core c;
     let k : Nat := coreKey c.val;
      e = Engine.core c ∧ k = coreKey ↑c ∧ s.issues e = true ∧ s.inSlotB e = false ∧ (s.stackOf e).length < 16) := by
  refine ⟨?_, ?_, ?_, ?_, ?_, ?_, ?_⟩ <;> decide +kernel

/-- States and operands that meet the hypotheses of each clause of ExceptionRowsComplete. -/
theorem witness_ExceptionRowsComplete :
    (let c := Fin.ofNat 6 0; let s := engineUp up (.core c) [9, 8, 4] [5, 6] false; let e : Engine := .core c;
     let k : Nat := coreKey c.val;
      e = Engine.core c ∧ k = coreKey ↑c ∧ s.issues e = true ∧ (s.core k).exc = false ∧ s.inSlotB e = false) ∧
    (let c := Fin.ofNat 6 0; let s := engineUp up (.core c) [9, 8, 4] [5, 6] true; let e : Engine := .core c;
     let k : Nat := coreKey c.val;
      e = Engine.core c ∧ k = coreKey ↑c ∧ s.issues e = true ∧ (s.core k).exc = false ∧ s.inSlotB e = true) ∧
    (let c := Fin.ofNat 6 0; let s := engineUp up (.core c) [9, 8, 4] [5, 6] (false); let e : Engine := .core c;
     let k : Nat := coreKey c.val;
      e = Engine.core c ∧ k = coreKey ↑c ∧ s.issues e = true ∧ (s.core k).exc = false) ∧
    (let c := Fin.ofNat 6 0;
     let s := (engineUp up (.core c) [9, 8, 4] [5, 6] false).editCore (coreKey c.val) fun k => { k with ecause := BitVec.ofNat 32 0 , epc := 77};
     let e : Engine := .core c; let k : Nat := coreKey c.val;
      e = Engine.core c ∧ k = coreKey ↑c ∧ s.issues e = true ∧ s.inSlotB e = false ∧ (s.core k).level = Level.vendor) ∧
    (let s := engineUp up (.pe 4) [9, 8, 4] [5, 6] (true); let n : Fin 32 := 4;
     let x : PeCtx := (s.pe 4).getD ⟨0, 0, none, [], [], [], [], [], 0, none, none, none⟩;
      s.issues (Engine.pe n) = true ∧ s.pe n.val = some x ∧ s.inSlotB (Engine.pe n) = true) ∧
    (let s := engineUp up (.pe 4) [9, 8, 4] [5, 6] (false); let n : Fin 32 := 4;
     let x : PeCtx := (s.pe 4).getD ⟨0, 0, none, [], [], [], [], [], 0, none, none, none⟩;
      s.issues (Engine.pe n) = true ∧ s.pe n.val = some x) ∧
    (let c := Fin.ofNat 4 0;
     let s := (engineUp up (.core (c.castLE (by omega))) [9, 8, 4] [5, 6] false).editCore c.val fun k => { k with irqEn := 4, pend := 4 };
      s.coreAble ↑c = true ∧ (s.core ↑c).slotA = none ∧ (s.core ↑c).exc = false ∧ s.irqReady ↑c = true ∧
      (s.core ↑c).rstack.length < 16) ∧
    (let req := vendorReq; let s := up;
      s.admits UnitId.cpu Level.vendor req = true) ∧
    (let req := vendorReq; let s := up;
      s.admits UnitId.cpu Level.operator req = true) ∧
    (let c := Fin.ofNat 4 0;
     let s := ((engineUp up (.core (c.castLE (by omega))) [9, 8, 4] [5, 6] (false)).editCore c.val fun k => { k with level := .operator, slot := 3 }).set (CPU_SLOT_CTL_BUDGET 3) 9;
      s.coreAble ↑c = true ∧ (s.core ↑c).level ≠ Level.vendor ∧ s.f (CPU_SLOT_CTL_BUDGET (s.core ↑c).slot) ≠ 0 ∧
      (s.core ↑c).exc = false) ∧
    (let s := { engineUp up (.core 4) [9, 8, 4] [5, 6] (false) with cfg.stage := 10, cfg.testMode := false, asy.armed := true, asy.ladders := [] };
      s.coreRuns 4 = true ∧ s.cfg.stage = 10 ∧ s.asy.armed = true ∧ s.cfg.testMode = false ∧
      s.ladder Func.assay = { : Ladder }) ∧
    (let c := Fin.ofNat 4 0;
     let s := (engineUp up (.core (c.castLE (by omega))) [9, 8, 4] [5, 6] false).editCore c.val fun k => { k with irqEn := 4, pend := 4, waiting := true };
      (s.core ↑c).waiting = true ∧ s.irqReady ↑c = true) := by
  refine ⟨?_, ?_, ?_, ?_, ?_, ?_, ?_, ?_, ?_, ?_, ?_, ?_⟩ <;> decide +kernel

/-- States and operands that meet the hypotheses of each clause of ParseOperationRowsComplete. -/
theorem witness_ParseOperationRowsComplete :
    (let s := engineUp up (.pe 4) [9, 8, 4] [5, 6] false; let n : Fin 32 := 4;
     let x : PeCtx := (s.pe 4).getD ⟨0, 0, none, [], [], [], [], [], 0, none, none, none⟩; let p : Packet := pkt0 3;
     let size : BitVec 2 := (0 : BitVec 1) |>.zeroExtend 2; let off : BitVec 9 := (0 : BitVec 1) |>.zeroExtend 9;
      s.issues (Engine.pe n) 2 = true ∧ s.inSlotB (Engine.pe n) = false ∧ s.pe n.val = some x ∧ s.pkt x.pkt = some p ∧
      x.stack.length < 15 ∧ windowEnd p off.toNat (2 ^ size.toNat) = none) ∧
    (let s := engineUp up (.pe 4) [9, 8, 4] [5, 6] false; let n : Fin 32 := 4;
     let x : PeCtx := (s.pe 4).getD ⟨0, 0, none, [], [], [], [], [], 0, none, none, none⟩; let p : Packet := pkt0 3;
     let size : BitVec 2 := (0 : BitVec 2); let b : BitVec 5 := (0 : BitVec 5);
      s.issues (Engine.pe n) 2 = true ∧ s.inSlotB (Engine.pe n) = false ∧ s.pe n.val = some x ∧ s.pkt x.pkt = some p ∧
      x.stack.length < 16 ∧ size ≠ 3 ∧ b.toNat + 2 ^ size.toNat ≤ 32 ∧
      wgcDecode (wgcEncode (headerSlot p)) = WgcResult.correct) ∧
    (let s := engineUp up (.pe 4) [(0 : BitVec 32), 8, 4] [5, 6] false; let n : Fin 32 := 4;
     let x : PeCtx := (s.pe 4).getD ⟨0, 0, none, [], [], [], [], [], 0, none, none, none⟩;
     let v : BitVec 32 := (0 : BitVec 32); let rest : List (BitVec 32) := [8, 4];
      s.issues (Engine.pe n) = true ∧ s.inSlotB (Engine.pe n) = false ∧ s.pe n.val = some x ∧ x.stack = v :: rest ∧
      rest.length < 16) ∧
    (let s := engineUp up (.pe 4) [9, 8, 4] [5, 6] false; let n : Fin 32 := 4;
     let x : PeCtx := (s.pe 4).getD ⟨0, 0, none, [], [], [], [], [], 0, none, none, none⟩; let code : BitVec 8 := 0x10;
     let v : Word := 9; let rest : List Word := [8, 4];
      s.issues (Engine.pe n) = true ∧ s.inSlotB (Engine.pe n) = false ∧ s.pe n.val = some x ∧ x.stack = v :: rest ∧
      layerCode code.toNat = true ∧ x.layers.length < 12) ∧
    (let s := engineUp up (.pe 4) [(0 : BitVec 32), 8, 4] [5, 6] false; let n : Fin 32 := 4;
     let x : PeCtx := (s.pe 4).getD ⟨0, 0, none, [], [], [], [], [], 0, none, none, none⟩; let exact : Bool := false;
     let len : BitVec 6 := BitVec.ofNat 6 0; let v : Word := (0 : BitVec 32); let rest : List Word := [8, 4];
      s.issues (Engine.pe n) = true ∧ s.inSlotB (Engine.pe n) = false ∧ s.pe n.val = some x ∧ x.stack = v :: rest ∧
      len.toNat < 4 ∧ (len.toNat < if exact = true then 48 - x.ekey.length else 64 - x.tkey.length)) ∧
    (let s := engineUp up (.pe 4) [9, 8, 4] [5, 6] false; let n : Fin 32 := 4;
     let x : PeCtx := (s.pe 4).getD ⟨0, 0, none, [], [], [], [], [], 0, none, none, none⟩;
     let cls : BitVec 3 := if false then 2 else 5;
      s.issues (Engine.pe n) = true ∧ s.inSlotB (Engine.pe n) = false ∧ s.pe n.val = some x ∧ (cls = 2 ∨ cls = 5)) ∧
    (let s := engineUp up (.pe 4) [9, 8, 4] [5, 6] false; let n : Fin 32 := 4;
     let x : PeCtx := (s.pe 4).getD ⟨0, 0, none, [], [], [], [], [], 0, none, none, none⟩;
      s.issues (Engine.pe n) = true ∧ s.inSlotB (Engine.pe n) = false ∧ s.pe n.val = some x ∧ x.report = none) ∧
    (let s := engineUp up (.pe 4) [BitVec.ofNat 32 0, 8, 4] [5, 6] false; let n : Fin 32 := 4;
     let x : PeCtx := (s.pe 4).getD ⟨0, 0, none, [], [], [], [], [], 0, none, none, none⟩; let p : Packet := pkt0 3;
     let e : Word := BitVec.ofNat 32 0; let rest : List Word := [8, 4];
      s.issues (Engine.pe n) = true ∧ s.inSlotB (Engine.pe n) = false ∧ s.pe n.val = some x ∧ s.pkt x.pkt = some p ∧
      x.stack = e :: rest ∧ x.lenchk = none ∧ BitVec.toNat e ≤ p.data.length - p.start ∧
      p.data.length - p.start ≤ BitVec.toNat e + 63) ∧
    (let s := { engineUp up (.pe 4) [(0 : BitVec 32), 8, 4, 5, 6, 0, 7] [5, 6] false with pkb.pkts := [(7, ipPkt)] };
     let n : Fin 32 := 4; let x : PeCtx := (s.pe 4).getD ⟨0, 0, none, [], [], [], [], [], 0, none, none, none⟩;
     let p : Packet := ipPkt; let mf : Word := (0 : BitVec 32); let off : Word := 8; let len : Word := 4;
     let ident : Word := 5; let proto : Word := 6; let hdr : Word := 0; let rest : List Word := [7];
      s.issues (Engine.pe n) = true ∧ s.inSlotB (Engine.pe n) = false ∧ s.pe n.val = some x ∧ s.pkt x.pkt = some p ∧
      x.stack = mf :: off :: len :: ident :: proto :: hdr :: rest ∧ x.frag = none ∧
      windowEnd p (BitVec.toNat hdr + 12) 8 = none) ∧
    (let s := { engineUp up (.pe 4) [12, 8, 4] [5, 6] false with pkb.pkts := [(7, ipPkt)] }; let n : Fin 32 := 4;
     let x : PeCtx := (s.pe 4).getD ⟨0, 0, none, [], [], [], [], [], 0, none, none, none⟩; let p : Packet := ipPkt;
     let exact : Bool := true; let len : BitVec 6 := 7; let v : Word := 12; let rest : List Word := [8, 4];
      s.issues (Engine.pe n) 2 = true ∧ s.inSlotB (Engine.pe n) = false ∧ s.pe n.val = some x ∧ s.pkt x.pkt = some p ∧
      x.stack = v :: rest ∧ (len.toNat < if exact = true then 48 - x.ekey.length else 64 - x.tkey.length) ∧
      windowEnd p v.toNat (len.toNat + 1) = none) ∧
    (let s := { engineUp up (.pe 4) [8, 4] [5, 6] false with pkb.pkts := [(7, { ipPkt with edition := some 5 })], par.exact := [(3, { value := List.replicate 48 0, action := 0x5500000007, fromEd := 5 })] };
     let a := (s.exactHit [] 5).getD (0, s.ruleBuf true); let n : Fin 32 := 4;
     let x : PeCtx := (s.pe 4).getD ⟨0, 0, none, [], [], [], [], [], 0, none, none, none⟩;
     let p : Packet := { ipPkt with edition := some 5 }; let stall : BitVec 7 := (0 : BitVec 7); let ed : Nat := 5;
     let i : Nat := a.1; let r1 : Rule := a.2;
      s.issues (Engine.pe n) (1 + min 64 stall.toNat) = true ∧ s.inSlotB (Engine.pe n) = false ∧ s.pe n.val = some x ∧
      x.stack.length < 14 ∧ s.pkt x.pkt = some p ∧ p.edition = some ed ∧ s.exactHit x.ekey ed = some (i, r1)) ∧
    (let s := { engineUp up (.pe 4) [8, 4] [5, 6] false with pkb.pkts := [(7, { ipPkt with edition := some 5 })], par.exact := [] };
     let n : Fin 32 := 4; let x : PeCtx := (s.pe 4).getD ⟨0, 0, none, [], [], [], [], [], 0, none, none, none⟩;
     let p : Packet := { ipPkt with edition := some 5 }; let stall : BitVec 7 := (0 : BitVec 7); let ed : Nat := 5;
      s.issues (Engine.pe n) (1 + min 64 stall.toNat) = true ∧ s.inSlotB (Engine.pe n) = false ∧ s.pe n.val = some x ∧
      x.stack.length < 14 ∧ s.pkt x.pkt = some p ∧ p.edition = some ed ∧ s.exactHit x.ekey ed = none) := by
  refine ⟨?_, ?_, ?_, ?_, ?_, ?_, ?_, ?_, ?_, ?_, ?_, ?_⟩ <;> decide +kernel

/-- States and operands that meet the hypotheses of each clause of PowerStateRowsComplete. -/
theorem witness_PowerStateRowsComplete :
    (let s := (up.up PWR_VIN_VALID).down PWR_VIN_LOW; let mv := BitVec.ofNat 16 (9500 + 0);
      s.on PWR_VIN_VALID = true ∧ mv.toNat < 10400 ∧ s.on PWR_VIN_LOW = false) ∧
    (let s := (up.up PWR_VIN_VALID); let mv := BitVec.ofNat 16 (8999 - 0);
      s.on PWR_VIN_VALID = true ∧ mv.toNat < 9000) ∧
    (let s := (up.up PWR_VIN_VALID).down PWR_VIN_HIGH; let mv := BitVec.ofNat 16 (14001 + 0);
      s.on PWR_VIN_VALID = true ∧ 14000 < mv.toNat ∧ s.on PWR_VIN_HIGH = false) ∧
    (let s := (up.up PWR_VIN_LOW); let mv := BitVec.ofNat 16 (10600 + 0);
      10600 ≤ mv.toNat ∧ s.on PWR_VIN_LOW = true) ∧
    (let s := (up.up PWR_VIN_HIGH); let mv := BitVec.ofNat 16 (13800 - 0);
      mv.toNat ≤ 13800 ∧ s.on PWR_VIN_HIGH = true) ∧
    (let d := (Dom.core); let s := up.setDom d .low;
      s.dom d = DomSt.low) ∧
    (let d := (Dom.core); let s := up.setDom d .up;
      s.dom d = DomSt.up) ∧
    (let d := (Dom.core); let s := { up.setDom d .waking with eth.ports := [] };
      s.dom d = DomSt.waking ∧ (∀ p, p < 8 → (s.ethPort p).hold = [])) ∧
    (let d := (Dom.rfc);
     let s := ({ up with rfc.state := 0, rfc.trans := none, rfc.tx := none, sgm.suspended := true, rfa.links := [], rfb.links := [] } : State).set (PWR_IDLE_IDLE (d.num - 1)) 7 |>.set PWR_STATE_STATE 0;
      s.dom d = DomSt.up ∧ s.domIdle d = true ∧ s.f PWR_STATE_STATE < 2 ∧ s.f (PWR_IDLE_IDLE (d.num - 1)) ≠ 0) ∧
    (let req := vendorReq;
     let s := ({ up with pwr.transition := none } : State).set PWR_STATE_STATE 0 |>.set PWR_STATE_CMD_STATE 0;
      s.accepts pwrStateCmd req = true ∧ s.pwr.transition = none ∧ s.f PWR_STATE_STATE < 3) ∧
    (let req := maintReq;
     let s := ({ up with pwr.transition := none } : State).set PWR_STATE_STATE 3 |>.set PWR_STATE_CMD_STATE 0;
      s.accepts pwrStateCmd req = true ∧ s.pwr.transition = none ∧ s.f PWR_STATE_STATE = 3) ∧
    (let n := 0; let s := ({ up with pwr.transition := some { target := n } } : State).set PWR_STATE_STATE 0;
      s.pwr.transition = some { target := n : Transition } ∧ s.f PWR_STATE_STATE < 3 ∧ n < 4) ∧
    (let s := ({ up with pwr.transition := none } : State).set PWR_STATE_STATE 2 |>.up PWR_WAKE_CFG_WAKE_N_EN |>.set FLD_WAKE_CFG_STATE (2 * 0);
      s.on PWR_WAKE_CFG_WAKE_N_EN = true ∧ s.f FLD_WAKE_CFG_STATE ≠ 1 ∧ s.pwr.transition = none ∧ s.f PWR_STATE_STATE = 2) ∧
    (let s := ({ up with pwr.transition := none } : State).set PWR_STATE_STATE 3 |>.up PWR_WAKE_CFG_WAKE_N_EN |>.set FLD_WAKE_CFG_STATE (2 * 0);
      s.on PWR_WAKE_CFG_WAKE_N_EN = true ∧ s.f FLD_WAKE_CFG_STATE ≠ 1 ∧ s.pwr.transition = none ∧ s.f PWR_STATE_STATE = 3) ∧
    (let l := (Listener.subGhz);
     let s := (({ up with pwr.transition := none } : State).setDom (listenerDom l) .low).set PWR_STATE_STATE 0 |>.wr PWR_WAKE_CFG_SG_EN.addr 0xFFFFFFFF |>.wr PWR_WAKE_CFG_PORTS.addr 0xFFFFFFFF;
      s.listens l = true ∧ s.pwr.transition = none ∧ s.f PWR_STATE_STATE < 2) ∧
    (let s := ({ up with pwr.brownStart := none } : State).up PWR_AON_CTL_LP_ACTIVE |>.set PWR_AON_CTL_BROWNOUTS 0;
      s.on PWR_AON_CTL_LP_ACTIVE = true ∧ s.pwr.brownStart = none) := by
  refine ⟨?_, ?_, ?_, ?_, ?_, ?_, ?_, ?_, ?_, ?_, ?_, ?_, ?_, ?_, ?_, ?_⟩ <;> decide +kernel

/-- States and operands that meet the hypotheses of each clause of PermitRowsComplete. -/
theorem witness_PermitRowsComplete :
    (let y := (Radio.a);
     let s := ({ up with pwr.permA := {}, pwr.permB := {}, pwr.caps := [] } : State).up PWR_PMBUS_CFG_EN |>.set PWR_PERMIT_CFG_WANT_A (5 + 0) |>.set PWR_PERMIT_CFG_WANT_B (5 + 0) |>.set PWR_STATE_STATE 0;
      s.mayRequest y = true ∧ (s.permit y).grant = none) ∧
    (let y := (Radio.a); let g := (⟨5 + 0, 6, 0, 1 + 0⟩ : Grant);
     let s := ({ up with pwr.permA := { grant := some g }, pwr.permB := { grant := some g }, pwr.caps := [] } : State).up PWR_PMBUS_CFG_EN |>.set PWR_PERMIT_CFG_WANT_A (5 + 0) |>.set PWR_PERMIT_CFG_WANT_B (5 + 0) |>.set PWR_STATE_STATE 0;
      s.mayRequest y = true ∧ (s.permit y).grant = some g) ∧
    (let y := (Radio.a); let q := (⟨3, 5 + 0, 0, 0⟩ : PermitReq);
     let s := { up with pwr.permA := { req := some q }, pwr.permB := { req := some q } };
     let x : PermitStatus := ⟨1, 5 + BitVec.ofNat 3 0, 3, 1 + BitVec.ofNat 8 0⟩;
      (s.permit y).req = some q ∧ x.state = 1 ∧ x.tag.toNat = q.tag ∧ 5 ≤ x.cls.toNat ∧ x.lease ≠ 0) ∧
    (let y := (Radio.a); let q := (⟨3, 5 + 0, 0, 0⟩ : PermitReq);
     let s := { up with pwr.permA := { req := some q }, pwr.permB := { req := some q } };
      (s.permit y).req = some q) ∧
    (let y := (Radio.a); let e := 0;
     let s := { up with pwr.permA := { retryEnd := some e }, pwr.permB := { retryEnd := some e } };
      (s.permit y).retryEnd = some e) ∧
    (let y := (Radio.a); let g := (⟨5 + 0, 6, 0, 1 + 0⟩ : Grant);
     let s := { up with pwr.permA := { grant := some g }, pwr.permB := { grant := some g } };
      (s.permit y).grant = some g) ∧
    (let y := (Radio.a); let g := (⟨5 + 0, 6, 0, 1 + 0⟩ : Grant);
     let s := { up with pwr.permA := { grant := some g, release := true, txops := 0 }, pwr.permB := { grant := some g, release := true } };
      (s.permit y).grant = some g ∧ (s.permit y).release = true) ∧
    (let y := (Radio.a); let g := (⟨5 + 0, 6, 0, 1 + 0⟩ : Grant);
     let s := { up with pwr.permA := { grant := some g, txops := 0 }, pwr.permB := { grant := some g } };
      (s.permit y).grant = some g ∧ (s.permit y).release = false) ∧
    (let s := up.up PWR_PMBUS_CFG_EN; let a : PermitStatus := ⟨3, (0 : BitVec 3), (0 : BitVec 3), (0 : BitVec 8)⟩;
     let b : PermitStatus := ⟨3, (0 : BitVec 3), (0 : BitVec 3), (0 : BitVec 8)⟩;
      s.on PWR_PMBUS_CFG_EN = true ∧ a.state = 3 ∧ b.state = 3) ∧
    (let s := up.up PWR_PMBUS_CFG_EN;
      s.on PWR_PMBUS_CFG_EN = true) ∧
    (let op := (PmbOp.request .a); let s := { up with pwr.nackPend := some op };
      s.pwr.nackPend = some op ∧ op ≠ PmbOp.powerCycle) ∧
    (let y := (Radio.a); let s := { up with pwr.nackPend := some (.request y) }; let op : PmbOp := .request y;
      s.pwr.nackPend = some op ∧ op = PmbOp.request y) ∧
    (let req := vendorReq; let s := up.up PWR_PMBUS_CFG_EN; let off : BitVec 8 := 1 ||| (0 : BitVec 8);
      s.accepts pwrCmd req = true ∧ off ≠ 0 ∧ s.on PWR_PMBUS_CFG_EN = true) := by
  refine ⟨?_, ?_, ?_, ?_, ?_, ?_, ?_, ?_, ?_, ?_, ?_, ?_, ?_⟩ <;> decide +kernel

/-- States and operands that meet the hypotheses of each clause of FaultRowsComplete. -/
theorem witness_FaultRowsComplete :
    (let m := (Monitor.supply); let o := (Func.luminaire); let s := { up with asy.armed := true, cfg.testMode := false };
     let f : Func := monitorFunc m o;
      f = monitorFunc m o ∧ s.monitors m = true ∧ monitorClass m = FaultClass.info) ∧
    (let m := (Monitor.tempHigh); let o := (Func.luminaire); let s := { up with asy.armed := true, cfg.testMode := false };
     let f : Func := monitorFunc m o;
      f = monitorFunc m o ∧ s.monitors m = true ∧ monitorClass m = FaultClass.degraded ∧ monitorEntry m = none) ∧
    (let m := (Monitor.refClock); let o := (Func.luminaire);
     let s := { up with asy.armed := true, cfg.testMode := false, asy.ladders := Func.all.map (fun (f : Func) => (f.num, ({ out := true } : Ladder))) };
     let f : Func := monitorFunc m o; let b : Nat := (causeBit m (monitorFunc m o)).getD 0;
      f = monitorFunc m o ∧ s.monitors m = true ∧ causeBit m f = some b ∧ (s.ladder f).out = true) ∧
    (let m := (Monitor.derivedClocks); let o := (Func.luminaire);
     let s := { up with asy.armed := true, cfg.testMode := false, cfg.stage := 10, asy.ladders := [] };
     let f : Func := monitorFunc m o;
      f = monitorFunc m o ∧ s.monitors m = true ∧ monitorEntry m = some 2 ∧ s.ladder f = { : Ladder } ∧ s.cfg.stage = 10) ∧
    (let m := (Monitor.tempHigh); let o := (Func.luminaire); let s := { up with asy.standing := [⟨m, monitorFunc m o⟩] };
     let f : Func := monitorFunc m o;
      f = monitorFunc m o ∧ s.asy.standing.contains { monitor := m, func := f : Standing } = true) ∧
    (let u := (UnitId.fld); let s := { up.setReady u true with asy.armed := true };
      s.heartbeatWatched u = true) ∧
    (let q := 0; let s := ({ up with asy.quietSince := some q } : State).up ASY_STATUS_SAFE |>.up ASY_CFG_AUTO_RELEASE;
      s.asy.quietSince = some q ∧ s.safe = true ∧ s.on ASY_CFG_AUTO_RELEASE = true) ∧
    (let s := { up with asy.watchdog := true, fld.hvLevel := some 0 };
      s.asy.watchdog = true ∧ s.fld.hvLevel.isSome = true ∧ s.asy.applied = false) ∧
    (let b := 0; let s := ({ up with asy.tempReturn := some b, pwr.transition := none } : State).set PWR_STATE_STATE 2;
      s.asy.tempReturn = some b ∧ s.pwr.transition = none ∧ b ≠ s.f PWR_STATE_STATE) := by
  refine ⟨?_, ?_, ?_, ?_, ?_, ?_, ?_, ?_, ?_⟩ <;> decide +kernel

/-- States and operands that meet the hypotheses of each clause of AssayCommandAndLadderRowsComplete. -/
theorem witness_AssayCommandAndLadderRowsComplete :
    (let req := vendorReq; let s := ({ up with asy.quietSince := none } : State).up ASY_STATUS_SAFE |>.set ASY_CAUSE_CAUSE 0;
      s.accepts asyCmd req = true ∧ s.safe = true ∧ s.asy.quietSince = none ∧ s.f ASY_CAUSE_CAUSE = 0) ∧
    (let req := vendorReq;
     let s := ({ up with asy.quietSince := none } : State).up ASY_STATUS_SAFE |>.set ASY_CAUSE_CAUSE 512;
      s.accepts asyCmd req = true ∧ s.safe = true ∧ s.asy.quietSince = none ∧ s.f ASY_CAUSE_CAUSE = 512) ∧
    (let req := vendorReq; let s := up;
      s.accepts asyCmd req = true) ∧
    (let req := vendorReq; let g := BitVec.ofNat 4 0; let s := { up with asy.ladders := [] };
     let rung : BitVec 2 := BitVec.ofNat 2 0; let f : Func := (Func.all[g.toNat]?).getD .time;
      s.accepts asyCmd req = true ∧ Func.all[g.toNat]? = some f ∧ (s.ladder f).rung = none ∧ rung.toNat < 2) ∧
    (let f := (Func.luminaire); let k := 1 + 0; let s := { up with asy.ladders := [(f.num, { rung := some k, since := 0 })] };
      (s.ladder f).rung = some k) ∧
    (let f := (Func.luminaire); let k := 1 + 0;
     let s := { up with asy.ladders := [(f.num, { rung := some k, since := 0, forced := true })] };
      (s.ladder f).rung = some k ∧ (s.ladder f).forced = true) ∧
    (let f := (Func.luminaire); let s := { up with asy.ladders := [(f.num, { rung := some 1, since := 0 })] };
     let r1 : Nat := 1;
      (s.ladder f).rung = some r1 ∧ (s.ladder f).forced = false ∧ r1 = 1) ∧
    (let f := (Func.luminaire); let s := { up with asy.ladders := [(f.num, { rung := some 4, since := 0 })] };
     let r1 : Nat := 4;
      (s.ladder f).rung = some r1 ∧ (s.ladder f).forced = false ∧ r1 = 4 ∧ f ≠ Func.dram) ∧
    (let s := up.down ASY_STATUS_LFT_DUE;
      s.on ASY_STATUS_LFT_DUE = false) ∧
    (let q := 0; let s := ({ up with asy.lftDueAt := some q } : State).up ASY_STATUS_LFT_DUE |>.down ASY_STATUS_LFT_OVERDUE;
      s.asy.lftDueAt = some q ∧ s.on ASY_STATUS_LFT_DUE = true ∧ s.on ASY_STATUS_LFT_OVERDUE = false) ∧
    (let s := up.up ASY_LFT_STAT_RUNNING;
      s.on ASY_LFT_STAT_RUNNING = true) := by
  refine ⟨?_, ?_, ?_, ?_, ?_, ?_, ?_, ?_, ?_, ?_, ?_⟩ <;> decide +kernel

/-- States and operands that meet the hypotheses of each clause of ShelfFrameRowsComplete. -/
theorem witness_ShelfFrameRowsComplete :
    (let s := smpUp;
      s.shelfUp = true ∧ s.noLane = false ∧ s.cipHeld = false ∧ s.rootOk 1 = true) ∧
    (let s := smpUp.up CIP_STATUS_RNG_FAIL;
      s.shelfUp = true ∧ s.noLane = false ∧ s.cipHeld = true) ∧
    (let s := { shelfUpS up 3 1 with shf.lsaDue := true };
      s.shelfUp = true ∧ s.shf.lsaDue = true) ∧
    (let s := { shelfUpS up 3 1 with shf.lsaDue := false, shf.lsaAt := 0 };
      s.shelfUp = true ∧ s.shf.lsaDue = false) ∧
    (let s := shelfUpS up 3 1; let link : BitVec 4 := 2; let m : BitVec 6 := (0 : BitVec 6);
      s.unitDark UnitId.shf = false ∧ s.shelfUp = true ∧ s.shelfLink link.toNat = true ∧ m.toNat ≠ s.shelfId) ∧
    (let s := shelfUpS up 3 0; let link : BitVec 4 := 2; let m : BitVec 6 := 3;
      s.unitDark UnitId.shf = false ∧ s.shelfUp = true ∧ s.shelfLink link.toNat = true ∧ m.toNat = s.shelfId ∧
      s.on SHF_STATUS_ACTING = false ∧ s.f SHF_STATUS_ROLE ≠ 3) ∧
    (let l := (0 : BitVec 4); let s := { shelfUpS up 3 1 with shf.links := [(l.toNat, ⟨7, false, 0⟩)] };
     let k : Neighbour := ⟨7, false, 0⟩;
      s.shf.links.look l.toNat = some k) ∧
    (let s := { shelfUpS up 3 1 with shf.lsas := [(9, ⟨4, []⟩)] }; let m : BitVec 6 := 9;
     let seq : BitVec 32 := 5 + (0 : BitVec 5) |>.zeroExtend 32;
      s.unitDark UnitId.shf = false ∧ s.shelfUp = true ∧ s.isOwn m.toNat = false ∧
      (∀ (r : LsaRec), s.shf.lsas.look m.toNat = some r → r.seq < seq.toNat)) := by
  refine ⟨?_, ?_, ?_, ?_, ?_, ?_, ?_, ?_⟩
  · decide +kernel
  · decide +kernel
  · decide +kernel
  · decide +kernel
  · decide +kernel
  · decide +kernel
  · decide +kernel
  · refine ⟨by decide +kernel, by decide +kernel, by decide +kernel, fun r h => ?_⟩
    obtain rfl : r = ⟨4, []⟩ := Option.some.inj (h.symm.trans (by decide +kernel))
    decide +kernel

/-- States and operands that meet the hypotheses of each clause of ShelfMemberRowsComplete. -/
theorem witness_ShelfMemberRowsComplete :
    (let s := (shelfUpS up 3 1).set SHF_TERM_TERM 0; let term : BitVec 32 := (0 : BitVec 32) ||| 7;
      s.unitDark UnitId.shf = false ∧ s.shelfUp = true ∧ s.f SHF_TERM_TERM ≤ term.toNat ∧ s.f SHF_STATUS_ROLE < 2) ∧
    (let s := shelfUpS up 3 1;
      s.unitDark UnitId.shf = false ∧ s.shelfUp = true) ∧
    (let s := shelfUpS up 3 1;
      s.shelfUp = true ∧ s.f SHF_STATUS_ROLE = 1) ∧
    (let req := vendorReq; let s := (shelfUpS up 3 2).up SHF_STATUS_ACTING;
      s.accepts shfCmd req = true ∧ s.on SHF_STATUS_ACTING = true) ∧
    (let req := vendorReq; let s := shelfUpS up 3 1;
      s.accepts shfCmd req = true ∧ s.f SHF_STATUS_ROLE = 1) ∧
    (let req := vendorReq; let s := { shelfUpS up 3 1 with hif.bar2 := true };
     let a : BitVec 64 := BitVec.ofNat 64 (3 * 2 ^ 32 + (0x14));
      s.unitDark UnitId.shf = false ∧ (req.path = Path.host → s.hif.bar2 = true) ∧ a.toNat < 2 ^ 38 ∧
      s.isOwn (a.toNat / 2 ^ 32) = true) ∧
    (let req := vendorReq; let s := { (shelfUpS up 3 1).up (SHF_ROUTE_REACH 9) with hif.bar2 := true };
     let a : BitVec 64 := BitVec.ofNat 64 (9 * 2 ^ 32 + (0x14));
      s.unitDark UnitId.shf = false ∧ (req.path = Path.host → s.hif.bar2 = true) ∧ a.toNat < 2 ^ 38 ∧
      s.isOwn (a.toNat / 2 ^ 32) = false ∧ s.shf.outstanding.length < 16 ∧ s.smpTalks = true ∧
      s.reaches (a.toNat / 2 ^ 32) = true) ∧
    (let s := shelfUpS up 3 1; let x := (0 : BitVec 6); let addr : BitVec 64 := BitVec.ofNat 64 (3 * 2 ^ 32 + (0x14));
     let u : State := ((s.demand .shf).heardFrom x.toNat).bump SHF_CNT_REMOTE;
      s.unitDark UnitId.shf = false ∧ s.shelfUp = true ∧ s.ready UnitId.shf = true ∧ s.isOwn (addr.toNat / 2 ^ 32) = true ∧
      addr.toNat < 2 ^ 38 ∧ u = ((s.demand UnitId.shf).heardFrom x.toNat).bump SHF_CNT_REMOTE) ∧
    (let s := { shelfUpS up 3 1 with shf.outstanding := [⟨5, 9, 20, false, 0, vendorReq, 0⟩] }; let src : BitVec 6 := 9;
     let id : BitVec 32 := 5; let x : RemoteAcc := ⟨5, 9, 20, false, 0, vendorReq, 0⟩;
      s.unitDark UnitId.shf = false ∧ s.shf.waiting = [] ∧
      (List.find? (fun (x : RemoteAcc) => decide (x.reqId = id.toNat ∧ x.device = src.toNat)) s.shf.outstanding = some x) ∧
      x.write = false) ∧
    (let x := (⟨5, 9, 20, false, 0, vendorReq, 0⟩ : RemoteAcc); let s := { shelfUpS up 3 1 with shf.outstanding := [x] };
     let rest : List RemoteAcc := [];
      s.shf.waiting = [] ∧ s.shf.outstanding = x :: rest) ∧
    (let s := smpUp.up CIP_STATUS_RNG_FAIL; let w : BitVec 448 := 7;
      s.unitDark UnitId.shf = false ∧ s.shelfUp = true ∧ w ≠ 0 ∧ s.noLane = false ∧ s.cipHeld = true) ∧
    (let s := smpUp; let w : BitVec 448 := 7; let key := List.replicate 16 (1 : Byte);
      s.unitDark UnitId.shf = false ∧ s.shelfUp = true ∧ w ≠ 0 ∧ s.noLane = false ∧ s.cipHeld = false ∧
      (s.deriveNow s.smpTag).2 = some key) ∧
    (let s := { shelfUpS up 3 1 with ple.steers := [], wma.stations := [] }; let mac : BitVec 48 := (0 : BitVec 48);
      s.unitDark UnitId.shf = false ∧ s.shelfUp = true ∧ (s.steer mac.toNat).open_ = none ∧ s.staOf mac.toNat = none) ∧
    (let s := { shelfUpS up 3 1 with ple.steers := [], wma.stations := [(4, sta0)] }; let mac : BitVec 48 := 5;
     let e : Nat × Station := (4, sta0);
      s.unitDark UnitId.shf = false ∧ s.shelfUp = true ∧ (s.steer mac.toNat).open_ = none ∧ s.staOf mac.toNat = some e) ∧
    (let s := { shelfUpS up 3 1 with sgm.nodes := [] }; let new : BitVec 6 := 3;
      s.unitDark UnitId.shf = false ∧ s.shelfUp = true ∧ s.isOwn new.toNat = true ∧ List.length s.sgm.nodes < 4096) ∧
    (let s := (shelfUpS up 0 2).set HIF_MSG_CFG_SIZE 4 |>.set HIF_MSG_IDX_HEAD 0 |>.set HIF_MSG_IDX_TAIL ((0 + 5) % 16);
     let size : Nat := s.msgRingSize;
      s.unitDark UnitId.shf = false ∧ s.shelfUp = true ∧ s.isLead = true ∧ size = s.msgRingSize ∧ size ≠ 0 ∧
      (s.f HIF_MSG_IDX_HEAD + 1) % size ≠ s.f HIF_MSG_IDX_TAIL % size) := by
  refine ⟨?_, ?_, ?_, ?_, ?_, ?_, ?_, ?_, ?_, ?_, ?_, ?_, ?_, ?_, ?_, ?_⟩ <;> decide +kernel

/-- States and operands that meet the hypotheses of each clause of HostRowsComplete. -/
theorem witness_HostRowsComplete :
    (let s := up; let o := BitVec.ofNat 25 (64 * 0 + 0); let n := BitVec.ofNat 7 (1 + 0);
     let d := List.replicate n.toNat ((0 : BitVec 8)); let a : Nat := o.toNat;
      s.isOff = false ∧ s.unitDark UnitId.hif = false ∧ n ≠ 0 ∧ o.toNat % 64 + n.toNat ≤ 64 ∧ d.length = n.toNat ∧
      bar4At (s.f HIF_DWIN_BASE) o.toNat = Bar4.shared a) ∧
    (let s := ((up.setReady .drc true).down DRC_STATUS_FROZEN).set HIF_DWIN_BASE 2;
     let o := BitVec.ofNat 25 (0x1000000 + 64 * 0 + 0); let n := BitVec.ofNat 7 (1 + 0);
     let d := List.replicate n.toNat ((0 : BitVec 8)); let a : Nat := 0x1000000 + o.toNat;
      s.isOff = false ∧ s.unitDark UnitId.hif = false ∧ n ≠ 0 ∧ o.toNat % 64 + n.toNat ≤ 64 ∧ d.length = n.toNat ∧
      bar4At (s.f HIF_DWIN_BASE) o.toNat = Bar4.dram a ∧ s.unitDark UnitId.drc = false ∧ s.dramUp = true) ∧
    (let s := { up with bad := [], shared := [⟨3, 7⟩, ⟨67, 9⟩] }; let o := BitVec.ofNat 25 (64 * 0 + 0);
     let n := BitVec.ofNat 7 (1 + 0); let a : Nat := o.toNat;
      s.isOff = false ∧ s.unitDark UnitId.hif = false ∧ n ≠ 0 ∧ o.toNat % 64 + n.toNat ≤ 64 ∧
      bar4At (s.f HIF_DWIN_BASE) o.toNat = Bar4.shared a ∧ s.sharedBad a n.toNat = false) ∧
    (let s := { up with hif.table := [⟨3, 7⟩, ⟨67, 9⟩] }; let o := BitVec.ofNat 25 (0x800000 + 64 * 0 + 0);
     let n := BitVec.ofNat 7 (1 + 0); let a : Nat := o.toNat - 0x800000;
      s.isOff = false ∧ s.unitDark UnitId.hif = false ∧ n ≠ 0 ∧ o.toNat % 64 + n.toNat ≤ 64 ∧
      bar4At (s.f HIF_DWIN_BASE) o.toNat = Bar4.table a) ∧
    (let s := up.up DRC_STATUS_FROZEN |>.set HIF_DWIN_BASE 2; let o := BitVec.ofNat 25 (0x1000000 + 64 * 0 + 0);
     let n := BitVec.ofNat 7 (1 + 0); let a : Nat := 0x1000000 + o.toNat;
      s.isOff = false ∧ s.unitDark UnitId.hif = false ∧ n ≠ 0 ∧ o.toNat % 64 + n.toNat ≤ 64 ∧
      bar4At (s.f HIF_DWIN_BASE) o.toNat = Bar4.dram a ∧ s.dramUp = false) ∧
    (let req := vendorReq; let s := up;
      s.admits UnitId.hif Level.operator req = true) ∧
    (let req := vendorReq; let s := up;
      s.admits UnitId.hif Level.operator req = true ∧ s.admits UnitId.hif Level.vendor req = true) := by
  refine ⟨?_, ?_, ?_, ?_, ?_, ?_, ?_⟩ <;> decide +kernel

/-- States and operands that meet the hypotheses of each clause of DaliRowsComplete. -/
theorem witness_DaliRowsComplete :
    (let req := vendorReq; let p := (0 : BitVec 2); let s := { up with fld.dali := [] }.down ASY_STATUS_SAFE;
     let prio : BitVec 3 := 2 + BitVec.ofNat 3 0;
      s.accepts (daliCmd p.toNat) req = true ∧ 2 ≤ prio.toNat ∧ prio.toNat ≤ 5) ∧
    (let req := vendorReq; let p := (0 : BitVec 2);
     let s := { up with fld.dali := [] }.up ASY_STATUS_SAFE |>.set (FLD_DALI_TX_FRAME p.toNat) ((0x01FF));
     let prio : BitVec 3 := 2 + BitVec.ofNat 3 0;
      s.accepts (daliCmd p.toNat) req = true ∧ 2 ≤ prio.toNat ∧ prio.toNat ≤ 5) ∧
    (let p := (0 : BitVec 2); let f := (⟨.soft, 16, 0x0280, 2 + 0⟩ : DaliFrame);
     let s := { up with fld.dali := [(p.toNat, { queue := [f], idleSince := 0 })] }.up (FLD_DALI_CFG_EN p.toNat) |>.down (busLow p.toNat);
     let rest : List DaliFrame := [];
      (s.daliP p.toNat).queue = f :: rest ∧ (s.daliP p.toNat).phase = DaliPhase.idle ∧
      s.on (FLD_DALI_CFG_EN p.toNat) = true ∧ s.on (busLow p.toNat) = false ∧ (s.daliP p.toNat).safePend = false ∧
      s.cfg.noImage = false) ∧
    (let p := (0 : BitVec 2); let f := (⟨.soft, 16, 0x0180, 2 + 0⟩ : DaliFrame);
     let s := { up with fld.dali := [(p.toNat, { queue := [f], phase := .sending, collisions := 0 })] };
     let rest : List DaliFrame := [];
      (s.daliP p.toNat).queue = f :: rest ∧ (s.daliP p.toNat).phase = DaliPhase.sending ∧
      (s.daliP p.toNat).safeSending = false ∧ (s.daliP p.toNat).collisions + 1 < 3) ∧
    (let p := (0 : BitVec 2); let f := (⟨.soft, 16, 0x0180, 2 + 0⟩ : DaliFrame);
     let s := { up with fld.dali := [(p.toNat, { queue := [f], phase := .sending, collisions := 2 })] };
     let rest : List DaliFrame := [];
      (s.daliP p.toNat).queue = f :: rest ∧ (s.daliP p.toNat).phase = DaliPhase.sending ∧
      (s.daliP p.toNat).safeSending = false ∧ 3 ≤ (s.daliP p.toNat).collisions + 1 ∧ f.kind = DaliKind.soft) ∧
    (let p := (0 : BitVec 2); let f := (⟨.soft, 16, 0x0180, 2 + 0⟩ : DaliFrame);
     let s := { up with fld.dali := [(p.toNat, { queue := [f], phase := .sending, frameEnd := 0 })] };
     let rest : List DaliFrame := [];
      (s.daliP p.toNat).queue = f :: rest ∧ (s.daliP p.toNat).phase = DaliPhase.sending ∧
      (s.daliP p.toNat).safeSending = false ∧ f.kind = DaliKind.soft ∧ levelTarget f = none) ∧
    (let p := (0 : BitVec 2); let s := up.down (busLow p.toNat);
      s.on (busLow p.toNat) = false) ∧
    (let p := (0 : BitVec 2); let s := up.up (busLow p.toNat);
      s.on (busLow p.toNat) = true) ∧
    (let p := (0 : BitVec 2); let g := (0 : BitVec 6);
     let s := { up with fld.dali := [(p.toNat, { echoDue := [(g.toNat, 0)] })] }.up (FLD_DALI_CFG_EN p.toNat) |>.setW (FLD_ECHO_MASK_MASK p.toNat) (2 ^ 64 - 1);
     let due : Nat := 0;
      s.on (FLD_DALI_CFG_EN p.toNat) = true ∧ (s.w (FLD_ECHO_MASK_MASK p.toNat)).testBit g.toNat = true ∧
      (s.daliP p.toNat).echoDue.look g.toNat = some due ∧ (s.daliP p.toNat).queue.length < 16 ∧
      s.cfg.noImage = false) ∧
    (let p := (0 : BitVec 2);
     let s := { up with fld.dali := [(p.toNat, { safePend := true, idleSince := 0 })] }.down (busLow p.toNat);
      (s.daliP p.toNat).safePend = true ∧ (s.daliP p.toNat).phase = DaliPhase.idle ∧ s.on (busLow p.toNat) = false) ∧
    (let p := (0 : BitVec 2);
     let s := { up with fld.dali := [(p.toNat, { safePend := true, safeSending := true, frameEnd := 0 })] }.setW (FLD_ECHO_MASK_MASK p.toNat) 6;
      (s.daliP p.toNat).safeSending = true) := by
  refine ⟨?_, ?_, ?_, ?_, ?_, ?_, ?_, ?_, ?_, ?_, ?_⟩ <;> decide +kernel

/-- States and operands that meet the hypotheses of each clause of OutputAndInputRowsComplete. -/
theorem witness_OutputAndInputRowsComplete :
    (let p := (0 : BitVec 2); let s := { up with fld.pwm := [(p.toNat, { drive := .run, lowReads := 0 })] };
      (s.pwmO p.toNat).drive = PwmDrive.run) ∧
    (let req := vendorReq; let s := up.down ASY_STATUS_SAFE;
      s.admits UnitId.fld Level.operator req = true ∧ s.safe = false) ∧
    (let req := vendorReq; let s := up.up ASY_STATUS_SAFE;
      s.admits UnitId.fld Level.operator req = true ∧ s.safe = true) ∧
    (let i := Fin.ofNat 17 0;
     let s := { up with fld.gpio := [(i.val, { seen := !false })] }.set (FLD_GPIO_CFG_MODE i.val) 0;
     let level : Bool := false;
      s.isInput ↑i = true ∧ (s.gpioN ↑i).seen ≠ level ∧ (s.gpioN ↑i).edges.length < 8 ∧ (s.gpioN ↑i).chatterEnd = none) ∧
    (let i := Fin.ofNat 17 0;
     let s := { up with now := 50, fld.gpio := [(i.val, { seen := !false, edges := List.replicate 8 40 })] }.set (FLD_GPIO_CFG_MODE i.val) 0;
     let level : Bool := false;
      s.isInput ↑i = true ∧ (s.gpioN ↑i).seen ≠ level ∧
      (8 ≤ (List.filter (fun (t : Nat) => decide (s.now < t + 1000000000)) (s.gpioN ↑i).edges).length)) ∧
    (let i := Fin.ofNat 17 0; let s := { up with fld.gpio := [(i.val, { chatterEnd := some 0 })] }; let e : Nat := 0;
      (s.gpioN ↑i).chatterEnd = some e) ∧
    (let i := Fin.ofNat 17 0;
     let s := ({ up with fld.gpio := [(i.val, { assertedSince := some 0, level := false, seen := false })] }.set (FLD_GPIO_CFG_MODE i.val) 0).set ⟨inputCfg i.val, 27, 16⟩ 5 |>.set (inputState i.val) 0;
     let t0 : Nat := 0;
      (s.gpioN ↑i).assertedSince = some t0 ∧ s.isInput ↑i = true ∧ s.stuckS ↑i ≠ 0 ∧ s.f (inputState ↑i) = 0) ∧
    (let g := (0 : BitVec 4); let s := { up with fld.gpio := [(g.toNat, { pulseEnd := some 0, out := false })] };
     let e : Nat := 0;
      (s.gpioN g.toNat).pulseEnd = some e) := by
  refine ⟨?_, ?_, ?_, ?_, ?_, ?_, ?_, ?_⟩ <;> decide +kernel

/-- States and operands that meet the hypotheses of each clause of ObservationRowsComplete. -/
theorem witness_ObservationRowsComplete :
    (let req := vendorReq; let s := up;
      s.admits UnitId.prf Level.operator req = true) ∧
    (let req := vendorReq; let s := up;
      s.accepts prfSnapCmd req = true) ∧
    (let req := vendorReq; let s := { up with prf.samplers := [(0, { candidate := true }), (6, { candidate := false })] };
      s.admits UnitId.prf Level.operator req = true) ∧
    (let e := (Engine.core 0);
     let s := ({ up with prf.samplers := [(e.num, { candidate := true })], prf.samples := [] }.up PRF_SAMPLE_CFG_EN |>.down PRF_FREEZE_FREEZE).set PRF_SAMPLE_CFG_ENGINES 127 |>.set PRF_SAMPLE_LAT_MIN_LAT 0 |>.up PRF_SAMPLE_CFG_VENDOR;
     let w : RetiredWord := ⟨(0 : BitVec 32), (0 : BitVec 32), (0 : BitVec 16), false, false, false, false, .vendor, (0 : BitVec 32), (0 : BitVec 8), (0 : BitVec 8), (0 : BitVec 32)⟩;
      s.on PRF_SAMPLE_CFG_EN = true ∧ s.on PRF_FREEZE_FREEZE = false ∧ s.sampled e = true ∧
      (s.prf.samplers.lookD e.num { : Sampler }).candidate = true ∧ s.f PRF_SAMPLE_LAT_MIN_LAT ≤ w.latency.toNat ∧
      (w.level ≠ Level.vendor ∨ s.on PRF_SAMPLE_CFG_VENDOR = true) ∧ List.length s.prf.samples < 4096) ∧
    (let u := (UnitId.pwr); let s := { up with log.staging := [] };
      unitAon u = true ∧ s.log.staging.length < 127) ∧
    (let u := (UnitId.eth);
     let s := { up with log.ring := [], cfg.stage := 10, pwr.doms := Dom.all.map fun (d : Dom) => (d.num, DomSt.up) };
      unitAon u = false ∧ s.coreUp = true ∧ List.length s.log.ring < 16384) ∧
    (let e := (⟨3, 4, .asy, false, false, true, false, Ev.ASY_FAULT, 6, [7]⟩ : LogEntry);
     let s := { up with log.staging := [e], log.ring := [], cfg.stage := 10, pwr.doms := Dom.all.map fun (d : Dom) => (d.num, DomSt.up) };
      s.coreUp = true ∧ s.log.staging = [e] ∧ List.length s.log.ring < 16384) ∧
    (let req := vendorReq; let s := up.up PRF_LOG_STAT_STOPPED;
      s.admits UnitId.prf Level.operator req = true ∧ s.on PRF_LOG_STAT_STOPPED = true) := by
  refine ⟨?_, ?_, ?_, ?_, ?_, ?_, ?_, ?_⟩ <;> decide +kernel

/-- States and operands that meet the hypotheses of each clause of TestPortRowsComplete. -/
theorem witness_TestPortRowsComplete :
    (let s := up;
      s.tapUp = true) ∧
    (let s := { up with cfg.testMode := true, cfg.stage := 10 };
      s.tapUp = true ∧ s.cfg.testMode = true) ∧
    (let s := { up with cfg.testMode := true };
      s.tapUp = true ∧ s.cfg.testMode = true) ∧
    (let s := { up with cfg.testMode := false };
      s.tapUp = true ∧ s.cfg.testMode = false) := by
  refine ⟨?_, ?_, ?_, ?_⟩ <;> decide +kernel

/-- States and operands that meet the hypotheses of each clause of ShelfFrameRowsComplete_b. -/
theorem witness_ShelfFrameRowsComplete_b :
    (let s := shelfUpS up 3 1; let l : List Byte := List.replicate 0 ((0 : BitVec 8) &&& 0xF0);
      s.unitDark UnitId.shf = false ∧ s.shelfUp = true ∧ smpParse l = none) ∧
    (let s := smpUp.up CIP_STATUS_RNG_FAIL; let x := smpRead smpMac; let link : BitVec 4 := 2; let l := smpBody ++ smpMac;
      s.unitDark UnitId.shf = false ∧ s.shelfUp = true ∧ smpParse l = some x ∧ x.host = false ∧
      s.shelfLink link.toNat = true ∧ s.noLane = false ∧ s.cipHeld = true) ∧
    (let s := smpUp; let t := List.replicate 16 (0 : Byte); let x := smpRead t; let link : BitVec 4 := 2;
     let l := smpBody ++ t; let key := List.replicate 16 (1 : Byte);
      s.unitDark UnitId.shf = false ∧ s.shelfUp = true ∧ smpParse l = some x ∧ x.host = false ∧
      s.shelfLink link.toNat = true ∧ s.noLane = false ∧ s.cipHeld = false ∧ (s.deriveNow s.smpTag).2 = some key ∧
      x.tag ≠ cmac key x.body) ∧
    (let s := smpUp; let x := smpRead smpMac; let link : BitVec 4 := 2;
     let l := smpBody ++ smpMac; let key := List.replicate 16 (1 : Byte);
     let k : Replay := (replayTake none x.frame.epoch x.frame.ctr).getD ⟨0, 0, []⟩;
      s.unitDark UnitId.shf = false ∧ s.shelfUp = true ∧ smpParse l = some x ∧ x.host = false ∧
      s.shelfLink link.toNat = true ∧ s.noLane = false ∧ s.cipHeld = false ∧ (s.deriveNow s.smpTag).2 = some key ∧
      s.isOwn x.frame.src = false ∧ replayTake (s.shf.replay.look x.frame.src) x.frame.epoch x.frame.ctr = some k ∧
      smpType x.frame.typ = true ∧ x.frame.term ≤ s.f SHF_TERM_TERM ∧ (x.bcast = true ∨ s.isOwn x.dst = true) ∧
      x.tag = cmac key x.body) ∧
    (let s := { up with shf.holdEnd := [(9, 0)], shf.held := [⟨1, some 9, 0, [], 0, 0, 0, 0, 0, 0, none, []⟩] };
     let m : BitVec 6 := 9; let t0 : Nat := 0;
      s.shf.holdEnd.look m.toNat = some t0) ∧
    (let s := { (shelfUpS up 0 2).up MTM_STATUS_VALID with mtm.mt := 65536 * 0, shf.timeCycle := none };
      s.isLead = true ∧ s.on MTM_STATUS_VALID = true ∧ s.mtm.mt % 65536 = 0 ∧ s.shf.timeCycle ≠ some (s.mtm.mt / 65536)) ∧
    (let s := shelfUpS up 3 1;
      s.unitDark UnitId.shf = false ∧ s.shelfUp = true ∧ s.isLead = false) := by
  refine ⟨?_, ?_, ?_, ?_, ?_, ?_, ?_⟩ <;> decide +kernel

/-! ### The spec's worked examples and tables -/

/-- R103: the second word of R102's example, read with c3 = 0x41, has byte 35 corrected by 0x01. -/
theorem test_wgc_corrects_the_example : wgcDecode (List.replicate 31 0 ++ [1, 0x0F, 0x36, 0x78, 0x41]) = .corrected 35 1 := by
  decide +kernel

/-- R6: a 48-bit counter that holds 0x0001_FFFF_FFFF: its lowest word reads 0xFFFF_FFFF and the upper one is held. -/
def counterPkb : Wide := ⟨UnitId.pkb.base + wgcOffset .pkb, 48⟩
def wideRead : State :=
  nextOf (exec (.wideValueLatch vendorReq (BitVec.ofNat 32 counterPkb.addr)) (up.setW counterPkb 0x1FFFFFFFF))
theorem test_wide_read_low : wideRead.readData = 0xFFFFFFFF := by decide +kernel
theorem test_wide_read_high_is_held :
    (nextOf (exec (.readClear vendorReq (BitVec.ofNat 32 (counterPkb.addr + 4))) (wideRead.setW counterPkb 0x200000000))).readData =
      1 := by decide +kernel

/-- R237: an entry for channels 1 to 93 with PSD +23.0 dBm/MHz and EIRP +36.0 dBm gives the 320 MHz channel 31, with a gain of
5.0 dBi and 8 chains, class 5. -/
theorem test_reg_cap_example : (up.set RFA_ANT_GAIN 10).grantCap [⟨1, 93, 72, 46⟩] (31 + 4 * 256) 8 = some 5 := by decide +kernel

/-- R214: radio B on channel 165 and radio A on channel 1 keep 100 MHz apart. -/
theorem test_coexistence_example : apart 1 165 = true := by decide +kernel

/-- R166: at 100 Mb/s a bucket 8,000 bytes in debt is eligible 640 µs later. -/
theorem test_shaper_due_example : shaperDue { rate := 100000, burst := 16000, tokens := -8000 * 256, last := 0 } 0 = 640000 := by
  decide +kernel

/-- R170: 230 µs at 100 Mb/s take a bucket from −8,000 to −5,125 bytes. -/
theorem test_shaper_refill_example :
    shaperTokens { rate := 100000, burst := 16000, tokens := -8000 * 256, last := 0 } 230000 = -5125 * 256 := by decide +kernel

/-- The stack after an operation of core 0 on a stack, its top first (R383). -/
def ranStack (i : Engine → Instr) (stack : List Word) : List Word :=
  (nextOf (exec (i (.core 0)) (engineUp up (.core 0) stack [] false))).stackOf (.core 0)
theorem test_sub : ranStack .sub [4, 10] = [6] := by decide +kernel
theorem test_add_wraps : ranStack .add [2, 0xFFFFFFFF] = [1] := by decide +kernel
theorem test_over : ranStack .overCopy [2, 1] = [1, 2, 1] := by decide +kernel
theorem test_rot : ranStack .rot [3, 2, 1] = [1, 3, 2] := by decide +kernel
theorem test_pick : ranStack (.pick · 2) [3, 2, 1] = [1, 3, 2, 1] := by decide +kernel
theorem test_mulhs : ranStack .mulhs [2, 0xFFFFFFFF] = [0xFFFFFFFF] := by decide +kernel
theorem test_mulhu : ranStack .mulhu [2, 0xFFFFFFFF] = [1] := by decide +kernel
theorem test_lt : ranStack .lt [1, 0xFFFFFFFF] = [1] := by decide +kernel
theorem test_ltu : ranStack .ltu [1, 0xFFFFFFFF] = [0] := by decide +kernel
theorem test_sel_takes_the_second : ranStack .sel [5, 7, 1] = [7] := by decide +kernel
theorem test_sel_takes_the_top : ranStack .sel [5, 7, 0] = [5] := by decide +kernel
theorem test_sar_by_operand : ranStack (.sar · false 4) [0x80000000] = [0xF8000000] := by decide +kernel
theorem test_shl_by_stack : ranStack (.shl · true 0) [33, 1] = [2] := by decide +kernel
theorem test_lti_signed : ranStack (.lti · 1) [0xFFFFFFFF] = [1] := by decide +kernel
/-- R395: BEXT on a parse engine takes `len` bits from `pos`. -/
theorem test_bext :
    (nextOf (exec (.bext (.pe 4) 8 7) (engineUp up (.pe 4) [0xABCD1234] [] false))).stackOf (.pe 4) = [0x12] := by decide +kernel

/-! ### Commands whose operands do not fit together -/

theorem test_wf_strap_samples : (Instr.strapSampleDone []).wellFormed = false := by decide
theorem test_wf_beat : (Instr.quireDataBeat 0 (List.replicate 9 0)).wellFormed = false := by decide
theorem test_wf_host_vendor : (Instr.registerWrite { path := .host, level := .vendor } 0 0 15).wellFormed = false := by decide
theorem test_wf_maint_vendor : (Instr.ltLoad { path := .maint, level := .vendor }).wellFormed = false := by decide
theorem test_wf_pfc_quanta : (Instr.pfcRx 0 0xFF []).wellFormed = false := by decide
theorem test_wf_core_five : (Instr.add (.core 5)).wellFormed = false := by decide
theorem test_wf_load : (Instr.loadRx 1 0 false [] (List.replicate 256 0)).wellFormed = false := by decide +kernel
theorem test_wf_placement_orders : (Instr.tier4Rx (List.replicate 256 (0, 0)) []).wellFormed = false := by decide +kernel
theorem test_wf_dram_no_word : (Instr.dramRequest 0 0 0 none).wellFormed = false := by decide
theorem test_wf_dram_two_ranges : (Instr.dramRequest 0 480 2 none).wellFormed = false := by decide
theorem test_wf_dram_data : (Instr.dramRequest 0 0 1 (some [])).wellFormed = false := by decide
theorem test_wf_host_two_blocks : (Instr.hostMemoryAccess false 63 2 [] []).wellFormed = false := by decide
theorem test_wf_host_data : (Instr.hostMemoryAccess true 0 4 [] []).wellFormed = false := by decide

/-! ### Witnesses: states and operands that meet the hypotheses of the statements, all together -/

/-- An outcome is a next state. -/
def isNext (o : Host.Outcome State Fault Refusal) : Bool := match o with | .next _ => true | _ => false
theorem next_of_isNext {o : Host.Outcome State Fault Refusal} (h : isNext o = true) : o = .next (nextOf o) := by
  cases o <;> simp [isNext, nextOf] at h ⊢

/-- Two commands wait. -/
def queued : State := { up with pending := [.ltSyncLost, .aonUp] }
theorem witness_StepRunsTheFrontCommand : queued.pending = .ltSyncLost :: [.aonUp] := rfl
theorem witness_QueueIsConsumedInOrder :
    (queued.pending = .ltSyncLost :: [.aonUp] ∧ step queued = .next (nextOf (step queued))) ∧ up.pending = [] :=
  ⟨⟨rfl, next_of_isNext (by decide +kernel)⟩, rfl⟩
theorem witness_EveryStepKeepsTheCanonicalForm : queued.Canonical ∧ step queued = .next (nextOf (step queued)) :=
  ⟨⟨by decide +kernel, by decide +kernel, by decide +kernel, by decide +kernel, by decide +kernel, by decide +kernel,
    by decide +kernel, by decide +kernel⟩, next_of_isNext (by decide +kernel)⟩
theorem witness_MainsTimeNeverDecreases :
    coldResets .mtCycleBoundary = false ∧ up.mtm.mt < 2 ^ 48 ∧
      exec .mtCycleBoundary up = .next (nextOf (exec .mtCycleBoundary up)) :=
  ⟨by decide +kernel, by decide +kernel, next_of_isNext (by decide +kernel)⟩

/-- An Operator writes a register whose one field only a Vendor may change, with `TOP_LOCK.BOOT` set. -/
def operatorReq : Req := { path := .host, level := .operator }
def vendorField : FieldDesc := (descAt 1052672).fields.headD ⟨0, 0, .ro, none, 0, false⟩
def locked : State := up.up TOP_LOCK_BOOT
theorem witness_WritePrivilege :
    regAt 1052672 = some (.mtm, descAt 1052672, 0) ∧ locked.cmdLevel (1052672 - 4 * 0) (descAt 1052672) = none ∧
      exec (.registerWrite operatorReq 1052672 0 15) locked = .next (nextOf (exec (.registerWrite operatorReq 1052672 0 15) locked)) ∧
      vendorField ∈ (descAt 1052672).fields ∧ vendorField.lvl = some .vendor ∧ operatorReq.level.covers .vendor = false ∧
      vendorField.acc = .rw ∧ someTakes operatorReq.level (locked.on TOP_LOCK_BOOT) (descAt 1052672) 0 = false ∧
      (∀ c, operatorReq.path ≠ .core c) ∧ locked.on TOP_LOCK_BOOT = true :=
  ⟨by decide +kernel, by decide +kernel, next_of_isNext (by decide +kernel), by decide +kernel, by decide +kernel, by decide +kernel,
   by decide +kernel, by decide +kernel, fun _ h => (by cases h), by decide +kernel⟩

theorem witness_FrameOfControlCommands :
    (reachOf .mtCycleBoundary).1 = .control ∧ exec .mtCycleBoundary up = .next (nextOf (exec .mtCycleBoundary up)) :=
  ⟨rfl, next_of_isNext (by decide +kernel)⟩
theorem witness_FrameOfPacketCommands :
    (reachOf .flowLookup).1 = .packets ∧ exec .flowLookup up = .next (nextOf (exec .flowLookup up)) :=
  ⟨rfl, next_of_isNext (by decide +kernel)⟩
theorem witness_FrameOfRadioCommands :
    (reachOf .grantExpired).1 = .radios ∧ exec .grantExpired up = .next (nextOf (exec .grantExpired up)) :=
  ⟨rfl, next_of_isNext (by decide +kernel)⟩
theorem witness_FrameOfEngineCommands :
    (reachOf .cipErase).1 = .engines ∧ exec .cipErase up = .next (nextOf (exec .cipErase up)) :=
  ⟨rfl, next_of_isNext (by decide +kernel)⟩
theorem witness_RegistersOutsideReach :
    exec .grantExpired up = .next (nextOf (exec .grantExpired up)) ∧ unitAt RFC_CMD_STATE.addr = some .rfc ∧
      UnitId.rfc ∉ regUnits .grantExpired :=
  ⟨next_of_isNext (by decide +kernel), by decide +kernel, by decide +kernel⟩

/-- A codeword, one with a wrong byte, and one with two wrong bytes. -/
def cwGood : List Byte := List.replicate 31 0 ++ [1, 0x0F, 0x36, 0x78, 0x40]
def cwOne : List Byte := List.replicate 31 0 ++ [1, 0x0F, 0x36, 0x78, 0x41]
def cwTwo : List Byte := List.replicate 31 0 ++ [1, 0x0F, 0x36, 0x79, 0x42]
theorem witness_WordCodeDecoder_good :
    cwGood.length = 36 ∧ wgcSyndrome cwGood 0 = 0 ∧ wgcSyndrome cwGood 1 = 0 ∧ wgcSyndrome cwGood 2 = 0 ∧ wgcSyndrome cwGood 3 = 0 := by
  decide +kernel
theorem witness_WordCodeDecoder_one :
    cwOne.length = 36 ∧ wgcSyndrome cwOne 0 ≠ 0 ∧ wgcSyndrome cwOne 1 = gfMul (wgcSyndrome cwOne 0) (gfPow 0) ∧
      wgcSyndrome cwOne 2 = gfMul (wgcSyndrome cwOne 1) (gfPow 0) ∧ wgcSyndrome cwOne 3 = gfMul (wgcSyndrome cwOne 2) (gfPow 0) := by
  decide +kernel
theorem witness_WordCodeDecoder_two :
    cwTwo.length = 36 ∧ wgcSyndrome cwTwo 0 ≠ 0 ∧
      ∀ p, p < 36 → wgcSyndrome cwTwo 1 ≠ gfMul (wgcSyndrome cwTwo 0) (gfPow p) ∨
        wgcSyndrome cwTwo 2 ≠ gfMul (wgcSyndrome cwTwo 1) (gfPow p) := by
  decide +kernel
theorem witness_WordCodeDecoder_errors :
    (List.replicate 32 (0 : Byte)).length = 32 ∧ (0 : Fin 36) < 18 ∧ (18 : Fin 36) < 35 ∧ (1 : Byte) ≠ 0 := by decide +kernel

/-- The command registers whose actions take time. -/
def busyRegs : List CmdReg :=
  [ltLoadCmd, ltStepCmd, mtSnapCmd, cfgCmd, resetCmd, folioCmd, ruleCmd, commitCmd, flowCmd, routeCmd, schCmd, pinCmd, rfCmd .a,
   rfCmd .b, rfCalCmd .a, rfCalCmd .b, rfGrantCmd, rfcCmd, rfcOpCmd, staCmd, wmaKeyCmd, sgmCmd, nodeCmd, keyCmd, rootCmd, saCmd 0,
   saCmd 3, drcCmd, pwrStateCmd, asyCmd, shfCmd, daliCmd 0, daliCmd 3, prfSnapCmd]
theorem witness_RunningCommandsRejectWrites :
    ∀ c ∈ busyRegs, (up.set (cmdState c.addr) 1).admits c.unit c.level vendorReq = true ∧
      (up.set (cmdState c.addr) 1).f (cmdState c.addr) = 1 := by decide +kernel

end Sys2Proof.Tests
end

section
/-! Register access (spec/00). R14 for the commands that run (O11), whole words and unmapped addresses (R5, R7, R27: O7, O8) and
reserved bits (R4: O6) hold; the statements on privilege (R13, R16, R17: O9) and on the rows of register access (O14) fail, each on
a state written out below. -/

namespace Sys2Proof.Machine

/-! ### A command register whose action runs (R14) -/

/-- The same field written in both states adds no difference to what the shared services made. -/
theorem ServiceOnly.set_both {s t : State} (h : ServiceOnly s t) (x : Field) (n : Nat) (k : serviceReg x.addr = false) :
    ServiceOnly (s.set x n) (t.set x n) := by
  have hx : PWR_STATE_STATE.addr ≠ x.addr := fun e => by rw [← e] at k; exact absurd k (by decide)
  obtain ⟨hregs, hrest, ⟨hstate, hreturn⟩, hcores⟩ := h
  refine ⟨fun a ka => ?_, hrest, ⟨?_, ?_⟩, hcores⟩
  · unfold State.set
    rw [State.rd_wr, State.rd_wr, hregs _ k, hregs _ ka]
  · rw [State.set, State.set, State.f_wr_ne _ _ _ _ hx, State.f_wr_ne _ _ _ _ hx, hstate]
  · rw [State.set, State.set, State.f_wr_ne _ PWR_STATE_RETURN _ _ hx, State.f_wr_ne _ PWR_STATE_RETURN _ _ hx, hreturn]

/-- A write of a command register whose action runs gives BUSY on the entered state, whatever the command. -/
theorem State.command_running {s : State} {c : CmdReg} {req : Req} (k : serviceReg c.addr = false)
    (ha : s.admits c.unit c.level req = true) (hrun : s.f (cmdState c.addr) = 1) (f : State → State) :
    s.command c req f = (s.entered c.unit).cmdBusy c.addr := by
  rw [State.command, State.gate_admits ha, if_pos]
  rw [(ServiceOnly.entered s c.unit).f _ k, hrun]

/-- STATE and RESULT of a command register share no bit. -/
theorem cmdResult_apart_cmdState (a : Nat) : (cmdResult a).apart (cmdState a) = true :=
  (Field.apart_iff _ _).2 (Or.inr (Or.inr ⟨Nat.zero_le 3, Nat.lt_succ_self 3⟩))

/-- A state is what a write of a command register gives, for some action behind its gate. -/
def State.IsCommand (s : State) (c : CmdReg) (req : Req) (t : State) : Prop := ∃ f, t = s.command c req f

theorem State.isCommand_rfGoCmd (s : State) (req : Req) (r : Radio) (l target : Nat) :
    s.IsCommand (rfCmd r) req (s.rfGoCmd req r l target) := ⟨_, rfl⟩
theorem State.isCommand_rfcOp (s : State) (req : Req) (f : State → State) : s.IsCommand rfcOpCmd req (s.rfcOp req f) := ⟨_, rfl⟩
theorem State.isCommand_wmaKey (s : State) (req : Req) (index slot : Nat) (f : State → Nat → State) :
    s.IsCommand wmaKeyCmd req (s.wmaKey req index slot f) := ⟨_, rfl⟩

/-- A row that is a command rejects a write while its action runs (R14). -/
theorem State.command_rejects {s t : State} {c : CmdReg} {req : Req}
    {o : Host.Outcome State Fault Refusal} (ho : o = .next t) (k : serviceReg c.addr = false) (hc : s.IsCommand c req t)
    (ha : s.admits c.unit c.level req = true) (hrun : s.f (cmdState c.addr) = 1) :
    Gives o fun t => t.f (cmdState c.addr) = 1 ∧ t.f (cmdResult c.addr) = 1 ∧ ServiceOnly (s.set (cmdResult c.addr) 1) t := by
  obtain ⟨f, rfl⟩ := hc
  refine ⟨_, ho.trans (congrArg _ (State.command_running k ha hrun f)), ?_, ?_, ?_⟩
  · rw [State.cmdBusy, State.f_set_apart _ _ _ _ rfl (cmdResult_apart_cmdState _), (ServiceOnly.entered s c.unit).f _ k, hrun]
  · exact State.f_set_self _ _ _ rfl
  · exact (ServiceOnly.entered s c.unit).set_both _ _ k

theorem serviceReg_rfCmd (r : Radio) : serviceReg (rfCmd r).addr = false := by cases r <;> rfl
theorem serviceReg_rfCalCmd (r : Radio) : serviceReg (rfCalCmd r).addr = false := by cases r <;> rfl
theorem serviceReg_saCmd : ∀ p : BitVec 2, serviceReg (saCmd p.toNat).addr = false := by decide
theorem serviceReg_daliCmd : ∀ p : BitVec 2, serviceReg (daliCmd p.toNat).addr = false := by decide

/-- Settles O11: every row named is one use of `State.command`, with its own register. -/
theorem runningCommandsRejectWrites : Obligations.RunningCommandsRejectWrites := by
  intro s req v16 v24 folio radio link p2 sc prio idx10 idx12 idx16 idx20 b busy
  have command {c : CmdReg} {t : State} {o : Host.Outcome State Fault Refusal} (ho : o = .next t)
      (k : serviceReg c.addr = false) (hc : s.IsCommand c req t) : busy o c := State.command_rejects ho k hc
  have row {c : CmdReg} {f : State → State} {o : Host.Outcome State Fault Refusal} (ho : o = .next (s.command c req f))
      (k : serviceReg c.addr = false) : busy o c := command ho k ⟨f, rfl⟩
  have hgo := s.isCommand_rfGoCmd req radio link.toNat
  have hop := s.isCommand_rfcOp req
  have hkey := s.isCommand_wmaKey req
  have hrf := serviceReg_rfCmd radio
  have hcal := serviceReg_rfCalCmd radio
  have hsa := serviceReg_saCmd p2
  have hdali := serviceReg_daliCmd p2
  refine ⟨row rfl rfl, row rfl rfl, ?_⟩ -- LT_LOAD, LT_STEP
  refine ⟨row rfl rfl, row rfl rfl, row rfl rfl, ?_⟩ -- MT_SNAP, CONFIRM, ERASE_BANK
  refine ⟨row rfl rfl, row rfl rfl, row rfl rfl, row rfl rfl, ?_⟩ -- resets and folios
  refine ⟨row rfl rfl, row rfl rfl, row rfl rfl, row rfl rfl, ?_⟩ -- rules and the commit
  refine ⟨row rfl rfl, row rfl rfl, row rfl rfl, row rfl rfl, ?_⟩ -- flows
  refine ⟨row rfl rfl, row rfl rfl, ?_⟩ -- routes
  refine ⟨row rfl rfl, row rfl rfl, row rfl rfl, row rfl rfl, ?_⟩ -- scheduling nodes
  refine ⟨row rfl rfl, row rfl rfl, row rfl rfl, ?_⟩ -- pins
  refine ⟨command rfl hrf (hgo 0), command rfl hrf (hgo 3), row rfl hcal, row rfl rfl, row rfl rfl, ?_⟩ -- radios A and B
  refine ⟨row rfl rfl, row rfl rfl, command rfl rfl (hop _),
    command rfl rfl (hop _), command rfl rfl (hop _), ?_⟩ -- radio C
  refine ⟨row rfl rfl, row rfl rfl, command rfl rfl (hkey _ _ _), command rfl rfl (hkey _ _ _), ?_⟩ -- stations and their keys
  refine ⟨row rfl rfl, row rfl rfl, row rfl rfl, row rfl rfl, ?_⟩ -- the sub-GHz plan and nodes
  refine ⟨row rfl rfl, fun _ => row rfl rfl, row rfl rfl, row rfl hsa, ?_⟩ -- the cipher engine's keys
  refine ⟨row rfl rfl, row rfl rfl, row rfl rfl, row rfl rfl, ?_⟩ -- DRAM and the device state
  refine ⟨row rfl rfl, row rfl rfl, row rfl rfl, row rfl rfl, ?_⟩ -- Assay
  exact ⟨row rfl rfl, row rfl rfl, row rfl hdali, row rfl hdali, row rfl rfl⟩ -- shelf, DALI, snapshot

/-! ### The event log's sequence numbers (R473) -/

/-- What a chain of effects keeps, if each of them keeps it. -/
theorem State.each_keeps {α β : Type} (g : State → β) {f : State → α → State} (h : ∀ s a, g (f s a) = g s) (l : List α)
    (s : State) : g (s.each l f) = g s := by
  induction l generalizing s with
  | nil => rfl
  | cons a t ih => exact (ih (f s a)).trans (h s a)

@[simp] theorem State.prfIrq_log (s : State) : s.prfIrq.log = s.log := by
  unfold State.prfIrq; split <;> rfl

@[simp] theorem State.prfAdd_log (s : State) (i n : Nat) : (s.prfAdd i n).log = s.log := by
  unfold State.prfAdd
  dsimp only
  split
  · rw [State.prfIrq_log]; rfl
  · rfl

@[simp] theorem State.prfCount_log (s : State) (u : UnitId) (e : Nat) (p : Option Nat) (n : Nat) :
    (s.prfCount u e p n).log = s.log := by
  unfold State.prfCount
  split
  · rfl
  · refine State.each_keeps State.log (fun s k => ?_) _ s
    dsimp only
    split
    · exact State.prfAdd_log _ _ _
    · rfl

@[simp] theorem State.bump_log (s : State) (c : Wide) (n : Nat) : (s.bump c n).log = s.log := by
  unfold State.bump
  dsimp only
  split
  · rfl
  · split
    · rfl
    · rw [apply_ite State.log, State.prfCount_log, ite_self, State.setW_log]

@[simp] theorem State.setDom_log (s : State) (d : Dom) (c : DomSt) : (s.setDom d c).log = s.log := rfl

@[simp] theorem State.wake_log (s : State) (d : Dom) : (s.wake d).log = s.log := by
  unfold State.wake
  split
  · exact (State.bump_log _ _ _).trans (State.setDom_log _ _ _)
  · rfl
  · rfl
  · rfl

theorem State.logDrop_seq (s : State) (u : UnitId) : (s.logDrop u).log.seq = s.log.seq := rfl
theorem State.stagePut_seq (s : State) (e : LogEntry) : (s.stagePut e).log.seq = s.log.seq := rfl
theorem State.ringPut_seq (s : State) (e : LogEntry) : (s.ringPut e).log.seq = s.log.seq := rfl

theorem State.stagePush_seq (s : State) (e : LogEntry) : (s.stagePush e).log.seq = s.log.seq := by
  unfold State.stagePush
  split
  · exact State.logDrop_seq _ _
  · split
    · rw [State.wake_log, State.stagePut_seq]
    · exact State.stagePut_seq _ _

theorem State.ringPush_seq (s : State) (e : LogEntry) : (s.ringPush e).log.seq = s.log.seq := by
  unfold State.ringPush
  split
  · rw [State.logDrop_seq, State.up_log]
  · rw [State.set_log]
    split
    · rw [State.up_log, State.ringPut_seq]
    · exact State.ringPut_seq _ _

/-- Wherever an entry goes, the numbers that the next entries take stay. -/
theorem State.logStore_seq (s : State) (u : UnitId) (e : LogEntry) : (s.logStore u e).log.seq = s.log.seq := by
  unfold State.logStore
  split
  · exact State.stagePush_seq _ _
  · exact State.ringPush_seq _ _

/-- An entry takes its unit's next sequence number (R473). -/
theorem State.ev_seq (s : State) (u : UnitId) (e : Ev) (l : List Nat) :
    (s.ev u e l).log.seq.lookD u.num 0 = (s.log.seq.lookD u.num 0 + 1) % 65536 := by
  rw [State.ev, State.logAt, State.logStore_seq, State.prfCount_log]
  exact Map.lookD_put_self _ _ _ _

/-! ### Register accesses: whole words (R5), addresses that no register occupies (R7, R27) -/

/-- Outside OFF, and on the maintenance port always, an access reaches the device (R9). -/
theorem State.access_reaches {s : State} {req : Req} (h : s.isOff = false ∨ req.path = .maint) :
    (s.isOff && decide (req.path ≠ .maint)) = false := by
  rcases h with h | h <;> simp [h]

/-- The address without its lowest two bits is that of its word. -/
theorem wordAddr_toNat (a : BitVec 32) : (a &&& 0xFFFFFFFC).toNat = a.toNat / 4 * 4 := by
  have hmask : BitVec.toNat (0xFFFFFFFC : BitVec 32) = (2 ^ 30 - 1) <<< 2 := by decide
  rw [show a.toNat / 4 * 4 = (a.toNat >>> 2) <<< 2 by rw [Nat.shiftRight_eq_div_pow, Nat.shiftLeft_eq]]
  apply Nat.eq_of_testBit_eq
  intro i
  have hi : 32 ≤ i → a.toNat.testBit i = false := fun h =>
    Nat.testBit_lt_two_pow (Nat.lt_of_lt_of_le a.isLt (Nat.pow_le_pow_right (by decide) h))
  rw [BitVec.toNat_and, hmask, Nat.testBit_and, Nat.testBit_shiftLeft, Nat.testBit_shiftLeft, Nat.testBit_shiftRight,
    Nat.testBit_two_pow_sub_one]
  by_cases h2 : 2 ≤ i
  · rw [show 2 + (i - 2) = i by omega]
    by_cases h : 32 ≤ i
    · simp [hi h]
    · simp [h2, show i - 2 < 30 by omega]
  · simp [h2]

/-- A read acts on the word that holds its address. -/
theorem State.csrRead_word (s : State) (req : Req) {a b : Nat} (h : a / 4 * 4 = b / 4 * 4) : s.csrRead req a = s.csrRead req b := by
  unfold State.csrRead
  rw [h]

/-- A partial write wakes the domain of the register it names and is logged, and has no other effect (R5, R8). -/
theorem exec_registerWrite_partial {s : State} {req : Req} (addr value : BitVec 32) {be : BitVec 4} (hbe : be ≠ 15)
    (hr : s.isOff = false ∨ req.path = .maint) :
    exec (.registerWrite req addr value be) s =
      .next ((s.with? (regAt (addr.toNat / 4 * 4)) fun s r => s.demand r.1).ev ((unitAt addr.toNat).getD .top)
        Ev.ACCESS_PARTIAL (addr.toNat :: reqId req)) := by
  show execRegisterWrite req addr value be s = _
  unfold execRegisterWrite
  rw [State.access_reaches hr, if_neg Bool.false_ne_true, if_pos hbe]

/-- A whole-word write is a write of its register. -/
theorem exec_registerWrite_whole (s : State) (req : Req) (addr value : BitVec 32) :
    exec (.registerWrite req addr value 15) s = .next (s.csrWrite req addr.toNat value) := by
  show execRegisterWrite req addr value 15 s = _
  unfold execRegisterWrite State.csrWrite
  split
  · rfl
  · rw [if_neg (fun h => h rfl)]

/-- A read of an address that no register occupies returns 0 and is logged. -/
theorem State.csrRead_unmapped {s : State} {req : Req} {a : Nat} (hr : s.isOff = false ∨ req.path = .maint)
    (h : regAt (a / 4 * 4) = none) : s.csrRead req a = ({ s with readData := 0 } : State).unmapped req (a / 4 * 4) := by
  unfold State.csrRead
  dsimp only
  rw [State.access_reaches hr, if_neg Bool.false_ne_true, h]

/-- A write of an address that no register occupies is discarded and logged. -/
theorem State.csrWrite_unmapped {s : State} {req : Req} {a : Nat} (hr : s.isOff = false ∨ req.path = .maint)
    (h : regAt (a / 4 * 4) = none) (v : Word) : s.csrWrite req a v = s.unmapped req (a / 4 * 4) := by
  unfold State.csrWrite
  dsimp only
  rw [State.access_reaches hr, if_neg Bool.false_ne_true, h]

/-- Settles O7: a read uses its word's address alone, and a partial write is a wake of its domain and a log entry. -/
theorem alignedWholeWordAccess : Obligations.AlignedWholeWordAccess := by
  refine ⟨fun s req addr => ?_, fun s req addr value be u v hbe hr hu hv => ?_⟩
  · refine congrArg Host.Outcome.next (State.csrRead_word s req ?_)
    rw [wordAddr_toNat]
    omega
  · have hw : (s.with? (regAt (addr.toNat / 4 * 4)) fun s r => s.demand r.1) = v := by
      rw [hv]
      cases regAt (addr.toNat / 4 * 4) <;> rfl
    refine ⟨_, exec_registerWrite_partial addr value hbe hr, ?_⟩
    rw [hw, ← hu]
    exact ⟨rfl, ServiceOnly.ev _ _ _ _, State.ev_seq _ _ _ _⟩

/-- Settles O8: both accesses are a log entry alone, of the unit whose window holds the address, else of TOP. -/
theorem unmappedAccess : Obligations.UnmappedAccess := by
  intro s req addr value u a ha hreg hr hu
  subst ha hu
  refine ⟨⟨_, congrArg Host.Outcome.next (State.csrRead_unmapped hr hreg), ?_, rfl, ServiceOnly.ev _ _ _ _, ?_⟩,
    ⟨_, (exec_registerWrite_whole s req addr value).trans (congrArg _ (State.csrWrite_unmapped hr hreg value)), rfl,
      ServiceOnly.ev _ _ _ _, State.ev_seq _ _ _ _⟩⟩
  · exact State.ev_readData _ _ _ _
  · exact State.ev_seq _ _ _ _

/-! ### Reserved bits (R4) -/

/-- The bits of word `w` of a register that some field has; the others are reserved. -/
def RegDesc.mask (r : RegDesc) (w : Nat) : Nat := r.fields.foldl (fun m f => m ||| fieldMask f w) 0

theorem testBit_foldl_or {α : Type} (g : α → Nat) (l : List α) (n i : Nat) :
    (l.foldl (fun m x => m ||| g x) n).testBit i = (n.testBit i || l.any fun x => (g x).testBit i) := by
  induction l generalizing n with
  | nil => simp
  | cons x t ih => simp [ih, Nat.testBit_or, Bool.or_assoc]

theorem RegDesc.testBit_mask (r : RegDesc) (w i : Nat) :
    (r.mask w).testBit i = r.fields.any fun f => (fieldMask f w).testBit i := by
  rw [RegDesc.mask, testBit_foldl_or, Nat.zero_testBit, Bool.false_or]

/-- A field's bits are no reserved ones. -/
theorem fieldMask_and_mask {r : RegDesc} {f : FieldDesc} (hf : f ∈ r.fields) (w : Nat) :
    fieldMask f w &&& r.mask w = fieldMask f w := by
  apply Nat.eq_of_testBit_eq
  intro i
  rw [Nat.testBit_and, RegDesc.testBit_mask]
  cases h : (fieldMask f w).testBit i with
  | false => rfl
  | true => rw [Bool.true_and]; exact List.any_eq_true.2 ⟨f, hf, h⟩

/-- What a read may return of a word are bits of its fields. -/
theorem readMask_and_mask (r : RegDesc) (w : Nat) : readMask r w &&& r.mask w = readMask r w := by
  refine List.foldlRecOn (motive := fun n => n &&& r.mask w = n) r.fields _ (Nat.zero_and _) fun n hn f hf => ?_
  split
  · exact hn
  · rw [Nat.and_or_distrib_right, hn, fieldMask_and_mask hf]

/-- A word masked by what may be read of it has no reserved bit. -/
theorem masked_reserved (v : Word) (r : RegDesc) (w n : Nat) :
    masked v (readMask r w &&& n) &&& ~~~ BitVec.ofNat 32 (r.mask w) = 0 := by
  unfold masked
  rw [← readMask_and_mask r w, Nat.and_assoc, Nat.and_comm (r.mask w), ← Nat.and_assoc, BitVec.ofNat_and, ← BitVec.and_assoc,
    BitVec.and_assoc, BitVec.and_not_self]
  exact BitVec.and_zero

/-- What a read of a word returns: the holding copy of an upper word, else what the register shows, where it may be read. -/
theorem State.readWord_readData (s : State) (r : RegDesc) (w a n : Nat) :
    (s.readWord r w a n).readData =
      masked (if r.latch && decide (0 < w) then s.hold.lookD a 0 else s.live a) (readMask r w &&& n) := by
  have clear (t : State) (l : List Nat) (b : Nat → Nat) (m : Nat → Nat) :
      (t.each l fun t k => if m k = 0 then t else t.wr (b k) (t.rd (b k) &&& ~~~ BitVec.ofNat 32 (m k))).readData =
        t.readData :=
    State.each_keeps State.readData (fun t k => by split <;> rfl) l t
  unfold State.readWord
  dsimp only
  split
  · split <;> rfl
  · refine (clear _ _ _ _).trans ?_
    split <;> split <;> rfl

/-- The unit of a register is that of its address. -/
theorem unitAt_of_regAt {a : Nat} {u : UnitId} {r : RegDesc} {w : Nat} (h : regAt a = some (u, r, w)) : unitAt a = some u := by
  unfold regAt at h
  split at h
  · cases h
  · next v hv =>
    obtain ⟨p, -, hp⟩ := Option.map_eq_some_iff.1 h
    cases hp
    exact hv

theorem unitAt_window {a : Nat} {u : UnitId} (h : unitAt a = some u) : a / 0x100000 = u.base / 0x100000 :=
  beq_iff_eq.1 (List.find?_some (p := fun u : UnitId => a / 0x100000 == u.base / 0x100000) h)

/-- The lowest words of the ports' timestamp FIFOs have no reserved bit. -/
theorem mask_tsFifo : ∀ p : Fin 8,
    (regAt (0x3000030 + 0x10000 * p.val)).map (fun x => x.2.1.mask x.2.2) = some 0xFFFFFFFF := by decide +kernel

/-- A read of any register, however it ends, returns 0 in the reserved bits (R4). -/
theorem State.csrRead_reserved {s : State} {req : Req} {addr : Nat} {u : UnitId} {r : RegDesc} {w : Nat}
    (hreg : regAt (addr / 4 * 4) = some (u, r, w)) (hr : s.isOff = false ∨ req.path = .maint) :
    (s.csrRead req addr).readData &&& ~~~ BitVec.ofNat 32 (r.mask w) = 0 := by
  unfold State.csrRead
  dsimp only
  rw [State.access_reaches hr, if_neg Bool.false_ne_true, hreg]
  dsimp only
  split
  · rw [State.ev_readData]; exact BitVec.zero_and
  split
  · rw [State.ev_readData]; exact BitVec.zero_and
  split
  · next _ _ h =>
    obtain ⟨rfl, h30, hlt⟩ := h
    have hwin : addr / 4 * 4 / 0x100000 = 0x30 := unitAt_window (unitAt_of_regAt hreg)
    have hp : addr / 4 * 4 / 0x10000 % 16 < 8 := by omega
    have hts := mask_tsFifo ⟨_, hp⟩
    rw [show 0x3000030 + 0x10000 * (addr / 4 * 4 / 0x10000 % 16) = addr / 4 * 4 by omega, hreg] at hts
    rw [show r.mask w = 0xFFFFFFFF from Option.some.inj hts]
    exact BitVec.and_zero
  · rw [State.readWord_readData]
    exact masked_reserved _ _ _ _

/-! ### A write and its reserved bits (R4) -/

/-- The word with its reserved bits clear. -/
def RegDesc.clip (r : RegDesc) (w : Nat) (v : Word) : Word := v &&& BitVec.ofNat 32 (r.mask w)

/-- Bits of fields are kept. -/
theorem RegDesc.clip_and {r : RegDesc} {w n : Nat} (h : n &&& r.mask w = n) (v : Word) :
    r.clip w v &&& BitVec.ofNat 32 n = v &&& BitVec.ofNat 32 n := by
  rw [RegDesc.clip, BitVec.and_assoc, ← BitVec.ofNat_and, Nat.and_comm, h]

theorem RegDesc.xor_clip_and {r : RegDesc} {w n : Nat} (h : n &&& r.mask w = n) (old v : Word) :
    (old ^^^ r.clip w v) &&& BitVec.ofNat 32 n = (old ^^^ v) &&& BitVec.ofNat 32 n := by
  have distrib (x y m : Word) : (x ^^^ y) &&& m = (x &&& m) ^^^ (y &&& m) := by
    apply BitVec.eq_of_getLsbD_eq
    intro i _
    simp only [BitVec.getLsbD_and, BitVec.getLsbD_xor, Bool.and_xor_distrib_right]
  rw [distrib, RegDesc.clip_and h, ← distrib]

/-- A write acts on a field as it does without the reserved bits. -/
theorem fieldActs_clip {r : RegDesc} {f : FieldDesc} (hf : f ∈ r.fields) (w : Nat) (old v : Word) :
    fieldActs f w old (r.clip w v) = fieldActs f w old v := by
  unfold fieldActs
  dsimp only
  rw [RegDesc.xor_clip_and (fieldMask_and_mask hf w), RegDesc.clip_and (fieldMask_and_mask hf w)]

/-- What the fields take is what they take of the word without its reserved bits. -/
theorem fieldsTake_clip (lvl : Level) (locked : Bool) (r : RegDesc) (w : Nat) (old v : Word) :
    fieldsTake lvl locked r w old (r.clip w v) = fieldsTake lvl locked r w old v := by
  refine List.foldl_rel (r := Eq) rfl fun f hf n _ hn => ?_
  subst hn
  dsimp only
  rw [RegDesc.clip_and (fieldMask_and_mask hf w)]

/-- Bits of fields read as they were written. -/
theorem RegDesc.bitsOf_clip {r : RegDesc} {w hi lo : Nat}
    (h : ∀ i < hi - lo + 1, (r.mask w).testBit (i + lo) = true) (h32 : hi < 32) (hlo : lo ≤ hi) (v : Word) :
    bitsOf (r.clip w v) hi lo = bitsOf v hi lo := by
  apply Nat.eq_of_testBit_eq
  intro i
  rw [testBit_bitsOf, testBit_bitsOf, RegDesc.clip, BitVec.toNat_and, Nat.testBit_and, BitVec.toNat_ofNat,
    Nat.testBit_mod_two_pow]
  by_cases hi' : i < hi - lo + 1
  · rw [h i hi', decide_eq_true (show i + lo < 32 by omega), Bool.and_true, Bool.and_true]
  · simp [hi']

theorem RegDesc.clip_full {r : RegDesc} {w : Nat} (h : r.mask w = 0xFFFFFFFF) (v : Word) : r.clip w v = v := by
  rw [RegDesc.clip, h]
  exact BitVec.and_allOnes

/-- A register that takes no command takes none in any state. -/
theorem State.cmdLevel_none {s : State} {a : Nat} {r : RegDesc} (h : s.cmdLevel a r = none) (t : State) :
    t.cmdLevel a r = none := by
  unfold State.cmdLevel at h ⊢
  split at h
  · cases h
  · rw [if_neg ‹_›]; exact h

/-! The registers of which a write reads more than its fields' new values: the program slots' CTL, the cipher engine's rings'
CFG, `CPU_SWI`, `CFG_NVM_DATA` and `HIF_DOORBELL`. -/

theorem mask_slotCtl : ∀ n : Fin 16,
    (regAt (0x5000118 + 32 * n.val)).map (fun x => x.2.1.mask x.2.2) = some 0xB000FFFF := by decide +kernel
theorem mask_ringCfg : ∀ n : Fin 8,
    (regAt (0x1500108 + 16 * n.val)).map (fun x => x.2.1.mask x.2.2) = some 0xB000010F := by decide +kernel
theorem mask_swiSet : (regAt CPU_SWI_SET.addr).map (fun x => x.2.1.mask x.2.2) = some 0xF := by decide +kernel
theorem mask_nvmData : (regAt CFG_NVM_DATA_DATA.addr).map (fun x => x.2.1.mask x.2.2) = some 0xFFFFFFFF := by decide +kernel
theorem mask_doorbell : (regAt HIF_DOORBELL_VALUE.addr).map (fun x => x.2.1.mask x.2.2) = some 0xFFFFFFFF := by decide +kernel

section
variable {a : Nat} {u : UnitId} {r : RegDesc} {w : Nat} (hreg : regAt a = some (u, r, w))
include hreg

/-- A register's mask, where its address has been evaluated. -/
theorem mask_of_regAt {b m : Nat} (hb : (regAt b).map (fun x => x.2.1.mask x.2.2) = some m) (h : a = b) : r.mask w = m := by
  rw [← h, hreg] at hb
  exact Option.some.inj hb

theorem mask_of_slotCtl {n : Nat} (h : slotCtl a = some n) : r.mask w = 0xB000FFFF := by
  unfold slotCtl at h
  split at h
  · next hr =>
    have hn : (a - 0x5000118) / 32 < 16 := by omega
    exact mask_of_regAt hreg (mask_slotCtl ⟨_, hn⟩) (show a = 0x5000118 + 32 * ((a - 0x5000118) / 32) by omega)
  · cases h

theorem mask_of_ringCfg {n : Nat} (h : ringCfg a = some n) : r.mask w = 0xB000010F := by
  unfold ringCfg at h
  split at h
  · next hr =>
    have hn : (a - 0x1500108) / 16 < 8 := by omega
    exact mask_of_regAt hreg (mask_ringCfg ⟨_, hn⟩) (show a = 0x1500108 + 16 * ((a - 0x1500108) / 16) by omega)
  · cases h

theorem State.slotShut_clip (s : State) (lvl : Level) (v : Word) : s.slotShut lvl a (r.clip w v) = s.slotShut lvl a v := by
  unfold State.slotShut
  split
  · next n h =>
    have hm := mask_of_slotCtl hreg h
    rw [RegDesc.bitsOf_clip (by rw [hm]; decide) (by decide) (by decide)]
  · rfl

theorem ringShut_clip (lvl : Level) (v : Word) : ringShut lvl a (r.clip w v) = ringShut lvl a v := by
  unfold ringShut
  cases h : ringCfg a with
  | none => rfl
  | some n =>
    have hm := mask_of_ringCfg hreg h
    rw [RegDesc.bitsOf_clip (by rw [hm]; decide) (by decide) (by decide)]

/-- R17 denies a write as it denies it without its reserved bits. -/
theorem State.denies_clip {s : State} (hcmd : s.cmdLevel (a - 4 * w) r = none) (req : Req) (v : Word) :
    s.denies req r w a (r.clip w v) = s.denies req r w a v := by
  have hacts : (r.fields.any fun f => fieldShut req.level false f && f.lvl.isSome && fieldActs f w (s.rd a) (r.clip w v)) =
      r.fields.any fun f => fieldShut req.level false f && f.lvl.isSome && fieldActs f w (s.rd a) v := by
    rw [Bool.eq_iff_iff, List.any_eq_true, List.any_eq_true]
    exact exists_congr fun f => and_congr_right fun hf => by rw [fieldActs_clip hf]
  have hslot : (s.slotShut req.level a v && decide ((s.rd a ^^^ r.clip w v) &&& 0xB000FFFF ≠ 0)) =
      (s.slotShut req.level a v && decide ((s.rd a ^^^ v) &&& 0xB000FFFF ≠ 0)) := by
    cases h : slotCtl a with
    | none => simp [State.slotShut, h]
    | some n =>
      have hm : 0xB000FFFF &&& r.mask w = 0xB000FFFF := by rw [mask_of_slotCtl hreg h]; decide
      rw [show (0xB000FFFF : Word) = BitVec.ofNat 32 0xB000FFFF from rfl, RegDesc.xor_clip_and hm]
  have hring : (ringShut req.level a v && !(s.rd a).getLsbD 31 && decide (bitsOf (r.clip w v) 29 28 ≠ bitsOf (s.rd a) 29 28)) =
      (ringShut req.level a v && !(s.rd a).getLsbD 31 && decide (bitsOf v 29 28 ≠ bitsOf (s.rd a) 29 28)) := by
    cases h : ringCfg a with
    | none => simp [ringShut, h]
    | some n => rw [RegDesc.bitsOf_clip (by rw [mask_of_ringCfg hreg h]; decide) (by decide) (by decide)]
  unfold State.denies
  dsimp only
  rw [hcmd]
  dsimp only
  rw [hacts, State.slotShut_clip hreg, ringShut_clip hreg, hslot, hring]

/-- A register takes a word as it takes it without its reserved bits. -/
theorem State.regStore_clip (s : State) (req : Req) (v new : Word) :
    s.regStore req u a (r.clip w v) new = s.regStore req u a v new := by
  unfold State.regStore
  split
  case h_3 =>
    split
    · rw [RegDesc.clip_full (mask_of_regAt hreg mask_nvmData ‹_›)]
    · rfl
  all_goals try rfl
  · unfold State.storeCip
    rw [ringShut_clip hreg]
  · unfold State.storeCpu
    rw [State.slotShut_clip hreg]
    split
    · rfl
    split
    · rw [RegDesc.bitsOf_clip (by rw [mask_of_regAt hreg mask_swiSet ‹_›]; decide) (by decide) (by decide)]
    · rfl
  · unfold State.storeHif
    split
    · rw [RegDesc.clip_full (mask_of_regAt hreg mask_doorbell ‹_›)]
    · rfl

theorem State.fieldWrite_clip {s : State} (hcmd : s.cmdLevel (a - 4 * w) r = none) (req : Req) (v : Word) :
    s.fieldWrite req u r w a (r.clip w v) = s.fieldWrite req u r w a v := by
  unfold State.fieldWrite
  dsimp only
  rw [State.denies_clip hreg hcmd, State.regStore_clip hreg, fieldsTake_clip]

/-- A write of a register without a command has the effect of the write with its reserved bits clear (R4). -/
theorem State.csrWrite_clip {s : State} {addr : Nat} (ha : a = addr / 4 * 4) (hcmd : s.cmdLevel (a - 4 * w) r = none)
    (req : Req) (v : Word) : s.csrWrite req addr (r.clip w v) = s.csrWrite req addr v := by
  subst ha
  unfold State.csrWrite
  dsimp only
  rw [hreg]
  dsimp only
  rw [hcmd]
  refine ite_congr rfl (fun _ => rfl) fun _ => ?_
  exact congrArg (s.gate u .guest _ req) (funext fun t => State.fieldWrite_clip hreg (State.cmdLevel_none hcmd t) req v)

end

/-- Settles O6: what a read returns is masked by its register's fields, and a write uses no bit outside them. -/
theorem reservedBits : Obligations.ReservedBits := by
  refine ⟨fun s req addr u r w hreg hr => ⟨_, rfl, State.csrRead_reserved hreg hr⟩,
    fun s req addr value be u r w hreg hcmd => ?_⟩
  by_cases hbe : be = 15
  · rw [hbe, exec_registerWrite_whole, exec_registerWrite_whole]
    exact congrArg _ (State.csrWrite_clip hreg rfl hcmd req value).symm
  · show execRegisterWrite req addr value be s = execRegisterWrite req addr _ be s
    unfold execRegisterWrite
    rw [if_pos hbe, if_pos hbe]

/-! ### A stored write and what follows it -/

/-- The state that a whole-word write leaves, where it reaches a register without a command, is not denied and some field takes
it (R17). -/
theorem State.csrWrite_stores {s : State} {req : Req} {addr : Nat} {u : UnitId} {r : RegDesc} {w : Nat} (v : Word)
    (hreg : regAt (addr / 4 * 4) = some (u, r, w)) (hcmd : s.cmdLevel (addr / 4 * 4 - 4 * w) r = none)
    (hadm : s.admits u .guest req = true) (hden : (s.entered u).denies req r w (addr / 4 * 4) v = false)
    (htakes : someTakes req.level ((s.entered u).on TOP_LOCK_BOOT) r w = true) :
    s.csrWrite req addr v =
      ((((s.entered u).regStore req u (addr / 4 * 4) v
        (fieldsTake req.level ((s.entered u).on TOP_LOCK_BOOT) r w ((s.entered u).rd (addr / 4 * 4)) v)).follow
          (s.entered u)).when (r.fields.any fun f => fieldLocked ((s.entered u).on TOP_LOCK_BOOT) f w)
        (·.ev u Ev.ACCESS_DENIED (addr / 4 * 4 :: reqId req))) := by
  have hoff : (s.isOff && decide (req.path ≠ .maint)) = false := by
    simp only [State.admits, Bool.and_eq_true, Bool.not_eq_true'] at hadm
    obtain ⟨⟨⟨hoff, -⟩, -⟩, -⟩ := hadm
    exact hoff
  unfold State.csrWrite
  dsimp only
  rw [hoff, if_neg Bool.false_ne_true, hreg]
  dsimp only
  rw [hcmd, Option.isSome_none, if_neg Bool.false_ne_true, State.gate_admits hadm]
  unfold State.fieldWrite
  dsimp only
  rw [hden, htakes]
  cases req.path <;> rfl

/-- A chain of effects that each leave the state as it is. -/
theorem State.each_id {α : Type} {s : State} {f : State → α → State} {l : List α} (h : ∀ x ∈ l, f s x = s) :
    s.each l f = s := by
  unfold State.each
  induction l with
  | nil => rfl
  | cons x t ih => rw [List.foldl_cons, h x List.mem_cons_self, ih fun y hy => h y (List.mem_cons_of_mem _ hy)]

/-- A configuration field that some unit watches lies neither in TOP's window nor in FLD's. -/
def watchable (a : Nat) : Bool := decide (0x100000 ≤ a) && decide (a < 0x8000000)

/-- Where no register that a unit watches has changed, only the radios' status, the backhaul and the scheduler follow. -/
theorem State.follow_unwatched {s old : State} (h : ∀ a, watchable a = true → s.rd a = old.rd a) :
    s.follow old = (((s.rfSync .a).rfSync .b).bhFollow).schSync := by
  have same {a : Nat} (ha : watchable a = true) : s.changed old a = false := by
    rw [State.changed, h a ha]; exact decide_eq_false fun hne => hne rfl
  have hmtm : s.followMtm old = s := by
    simp only [State.followMtm, State.when, same (show watchable MTM_REF_OFFSET_DELAY.addr = true by decide),
      same (show watchable MTM_CTL_REF_EN.addr = true by decide), Bool.false_eq_true, if_false]
  have hpwr : s.followPwr old = s := by
    simp only [State.followPwr, State.when, same (show watchable PWR_PERMIT_CFG_WANT_A.addr = true by decide),
      same (show watchable PWR_PMBUS_CFG_EN.addr = true by decide),
      same (show watchable PWR_AON_CTL_LP_ACTIVE.addr = true by decide), Bool.false_eq_true, if_false]
  have hpar : s.followPar old = s := State.each_id fun c hc => by
    have hw : ∀ c : Fin 7, watchable (PAR_MAL_CFG_N c.val).addr = true := by decide
    rw [same (hw ⟨c, List.mem_range.1 hc⟩), State.when, if_neg Bool.false_ne_true]
  have hcpu : s.followCpu old = s := State.each_id fun c _ => by
    have hb : s.bit CPU_CTL_RUN c = old.bit CPU_CTL_RUN c := by
      rw [State.bit, State.bit, State.f, State.f, h CPU_CTL_RUN.addr (by decide)]
    exact if_pos hb
  have hshf : s.followShf old = s := by
    simp only [State.followShf, State.when, same (show watchable SHF_CFG_EN.addr = true by decide), Bool.false_eq_true, if_false]
  unfold State.follow
  dsimp only
  rw [hmtm, hpwr, hpar, hcpu, hshf]

/-- The windows of radios A and B. -/
def radioWindow (a : Nat) : Bool := decide (a / 0x200000 = 0x10)

/-- The second state has the first's permits, and its registers but for those of the radios. -/
structure RadioStat (s t : State) : Prop where
  regs : ∀ a, radioWindow a = false → t.rd a = s.rd a
  permit : ∀ r, t.permit r = s.permit r

theorem RadioStat.refl (s : State) : RadioStat s s := ⟨fun _ _ => rfl, fun _ => rfl⟩

theorem RadioStat.trans {s t u : State} (h : RadioStat s t) (g : RadioStat t u) : RadioStat s u :=
  ⟨fun a k => (g.regs a k).trans (h.regs a k), fun r => (g.permit r).trans (h.permit r)⟩

theorem RadioStat.set (s : State) {x : Field} (n : Nat) (h : radioWindow x.addr = true) : RadioStat s (s.set x n) := by
  refine ⟨fun a k => State.rd_set_ne _ _ _ _ fun e => ?_, fun r => by cases r <;> rfl⟩
  rw [e, h] at k
  exact Bool.noConfusion k

theorem RadioStat.caps (s : State) (m : Map Nat) : RadioStat s { s with pwr.caps := m } :=
  ⟨fun _ _ => rfl, fun r => by cases r <;> rfl⟩

theorem RadioStat.each {α : Type} {f : State → α → State} {l : List α} (h : ∀ s, ∀ x ∈ l, RadioStat s (f s x)) (s : State) :
    RadioStat s (s.each l f) :=
  List.foldlRecOn (motive := RadioStat s) l f (.refl s) fun t ht x hx => ht.trans (h t x hx)

theorem radioWindow_usable (r : Radio) (l : Nat) :
    radioWindow (rx r (if l = 0 then RFB_CLASS_STAT_USABLE0 else RFB_CLASS_STAT_USABLE1)).addr = true := by
  cases r <;> split <;> rfl
theorem radioWindow_capBits (r : Radio) (l : Nat) :
    radioWindow (rx r (if l = 0 then RFB_CLASS_STAT_CAPS0 else RFB_CLASS_STAT_CAPS1)).addr = true := by
  cases r <;> split <;> rfl
theorem radioWindow_dpdStat (r : Radio) {l : Nat} (h : l ∈ [0, 1]) : radioWindow (rx r (RFB_DPD_STAT_CLASS l)).addr = true := by
  rcases List.mem_cons.1 h with rfl | h
  · cases r <;> rfl
  · obtain rfl := List.mem_singleton.1 h
    cases r <;> rfl

/-- With every backhaul link down there is none to take down. -/
theorem State.bhFollow_down {s : State} (h : ∀ n : Fin 8, s.on (WMA_BH_PEER_UP n.val) = false) : s.bhFollow = s := by
  unfold State.bhFollow
  split
  · refine State.each_id fun n hn => ?_
    unfold State.bhDown
    rw [h ⟨n, List.mem_range.1 hn⟩]
    rfl
  · rfl

/-- With every backhaul link down and no grant, the caps change registers of the radio alone. -/
theorem State.rfSync_radioStat {s : State} (h : ∀ n : Fin 8, s.on (WMA_BH_PEER_UP n.val) = false) (r : Radio)
    (hg : (s.permit r).grant = none) : RadioStat s (s.rfSync r) := by
  have hbh : s.when (decide (r = .a)) State.bhFollow = s := by
    unfold State.when
    rw [State.bhFollow_down h, ite_self]
  unfold State.rfSync
  dsimp only
  rw [hbh]
  split
  case' h_1 g hgrant =>
    refine absurd (hgrant.symm.trans ((congrArg Permit.grant (RadioStat.permit (s := s) ?_ r)).trans hg)) (Option.some_ne_none g)
  all_goals
    refine (RadioStat.each (fun t l hl => ?_) s).trans (RadioStat.caps _ _)
    split
    · exact .refl t
    · exact ((RadioStat.set t _ (radioWindow_usable r l)).trans (.set _ _ (radioWindow_capBits r l))).trans
        (.set _ _ (radioWindow_dpdStat r hl))

theorem State.schSync_regs (s : State) : s.schSync.regs = s.regs := by
  have set (s : State) (level parent : Nat) (kids : List Nat) : (s.listSet level parent kids).regs = s.regs := by
    unfold State.listSet
    refine State.each_keeps State.regs (fun _ _ => ?_) _ s
    rfl
  have sync (level : Nat) (l : List Nat) (s : State) : (s.each l fun s p => s.listSync level p).regs = s.regs :=
    State.each_keeps State.regs (fun s p => set s _ _ _) l s
  unfold State.schSync
  dsimp only
  rw [sync, sync, sync]

/-- A write that changes no watched register, with every backhaul link down and no grant: what follows changes the radios'
registers alone. -/
theorem State.rd_follow_settled {s old : State} (hw : ∀ a, watchable a = true → s.rd a = old.rd a)
    (hbh : ∀ n : Fin 8, s.on (WMA_BH_PEER_UP n.val) = false) (hg : ∀ r, (s.permit r).grant = none) {a : Nat}
    (ha : radioWindow a = false) : (s.follow old).rd a = s.rd a := by
  have peers {t : State} (h : RadioStat s t) : ∀ n : Fin 8, t.on (WMA_BH_PEER_UP n.val) = false := fun n => by
    have hout : ∀ n : Fin 8, radioWindow (WMA_BH_PEER_UP n.val).addr = false := by decide
    rw [State.on, State.f, h.regs _ (hout n)]
    exact hbh n
  have hA := State.rfSync_radioStat hbh .a (hg .a)
  have hB := hA.trans (State.rfSync_radioStat (peers hA) .b ((congrArg Permit.grant (hA.permit .b)).trans (hg .b)))
  rw [State.follow_unwatched hw, State.rd_congr (State.schSync_regs _), State.bhFollow_down (peers hB)]
  exact hB.regs a ha

/-- What follows a write of a register that no unit watches leaves the word that was written. -/
theorem State.rd_follow_wr {s : State} {x : Nat} (hx : watchable x = false) (hr : radioWindow x = false)
    (hbh : ∀ n : Fin 8, s.on (WMA_BH_PEER_UP n.val) = false) (hg : ∀ r, (s.permit r).grant = none) (v : Word) :
    ((s.wr x v).follow s).rd x = v := by
  have hne {a : Nat} (ha : watchable a = true) : (s.wr x v).rd a = s.rd a :=
    State.rd_wr_ne _ _ fun e => by rw [e, hx] at ha; exact Bool.noConfusion ha
  have hpeer (n : Fin 8) : (s.wr x v).on (WMA_BH_PEER_UP n.val) = false := by
    have hin : ∀ n : Fin 8, watchable (WMA_BH_PEER_UP n.val).addr = true := by decide
    rw [State.on, State.f, hne (hin n)]
    exact hbh n
  have hgrant (r : Radio) : ((s.wr x v).permit r).grant = none := by
    rw [show (s.wr x v).permit r = s.permit r by cases r <;> rfl, hg r]
  rw [State.rd_follow_settled (fun a ha => hne ha) hpeer hgrant hr, State.rd_wr_self]

/-! ### Two statements that the model does not meet -/

/-- A device after reset in whose `TOP_LOCK` a reserved bit, and not BOOT, is stored. -/
def lockReserved : State := { State.reset with regs := [(TOP_LOCK_BOOT.addr, 2)] }

/-- The row of `TOP_LOCK`. -/
def topLock : RegDesc := ⟨0x24, 1, 0x4, 1, false, [fv 0 0 .rw 0x0 false]⟩

theorem lockReserved_entered : lockReserved.entered .top = lockReserved := rfl

/-- What follows a write of `TOP_LOCK` in that state leaves the word that was written. -/
theorem lockReserved_follow (v : Word) :
    ((lockReserved.wr TOP_LOCK_BOOT.addr v).follow lockReserved).rd TOP_LOCK_BOOT.addr = v :=
  State.rd_follow_wr (by decide) (by decide) (by decide +kernel) (fun r => by cases r <;> rfl) v

/-- BOOT is only ever set: the register keeps what it holds (R13). -/
theorem State.regStore_lock (s : State) (req : Req) (v new : Word) :
    s.regStore req .top TOP_LOCK_BOOT.addr v new = s.wr TOP_LOCK_BOOT.addr (new ||| s.rd TOP_LOCK_BOOT.addr) := rfl

/-- BOOT is written beside the reserved bit, which stays. -/
theorem lockReserved_bootLock : lockReserved.csrWrite vendorReq TOP_LOCK_BOOT.addr 1 =
    (lockReserved.wr TOP_LOCK_BOOT.addr 3).follow lockReserved := by
  have hword : TOP_LOCK_BOOT.addr / 4 * 4 = TOP_LOCK_BOOT.addr := rfl
  have hnew : fieldsTake vendorReq.level (lockReserved.on TOP_LOCK_BOOT) topLock 0 (lockReserved.rd TOP_LOCK_BOOT.addr) 1 |||
      lockReserved.rd TOP_LOCK_BOOT.addr = 3 := by decide +kernel
  have hfree : topLock.fields.any (fun f => fieldLocked (lockReserved.on TOP_LOCK_BOOT) f 0) = false := by decide +kernel
  rw [State.csrWrite_stores (u := .top) (r := topLock) (w := 0) 1 (by decide +kernel) (by decide +kernel) (by decide +kernel)
    (by decide +kernel) (by decide +kernel), lockReserved_entered, hword, State.regStore_lock, hnew, hfree, State.when,
    if_neg Bool.false_ne_true]

/-- Refutes O14: where a reserved bit of `TOP_LOCK` is stored beside BOOT 0, BOOT_LOCK_SET leaves 3 in the register, and not the
1 that its clause gives. -/
theorem not_registerAccessRowsComplete : ¬ Obligations.RegisterAccessRowsComplete := by
  rintro ⟨⟨-, -, hset, -⟩, -⟩
  have h : (lockReserved.wr TOP_LOCK_BOOT.addr 3).follow lockReserved = (lockReserved.wr TOP_LOCK_BOOT.addr 1).follow lockReserved :=
    lockReserved_bootLock.symm.trans
      (Host.Outcome.next.inj (hset lockReserved vendorReq (by decide +kernel) (by decide +kernel)))
  have h3 := congrArg (State.rd · TOP_LOCK_BOOT.addr) h
  rw [lockReserved_follow, lockReserved_follow] at h3
  exact absurd h3 (by decide)

/-- A device whose units are ready, after a folio's word with `FLD_WAKE_CFG.ACT_HIGH` 1 has been loaded (R73). -/
def wakeHigh : State :=
  ({ State.reset with regs := [(TOP_UNIT_READY_READY.addr, 0x7FFFFF)] } : State).loadWord ⟨0x8000540, 0x10000000⟩

/-- The row of `FLD_WAKE_CFG`: ACT_HIGH in bit 28 is an Operator's, bit 29 a Guest's. -/
def wakeCfg : RegDesc :=
  ⟨0x8000540, 1, 0x4, 1, false, [fg 29 29 .rw 0x0 true, fo 28 28 .rw 0x0 true, fo 27 16 .rw 0x0 true, fn 9 8 .ro 0x0 false,
    fo 7 0 .rw 0x0 true]⟩

/-- A Guest program. -/
def guestReq : Req := { path := .core 0, level := .guest }

theorem wakeHigh_entered : wakeHigh.entered .fld = wakeHigh := rfl

/-- What follows a write of `FLD_WAKE_CFG` in that state leaves the word that was written. -/
theorem wakeHigh_follow (v : Word) :
    ((wakeHigh.wr FLD_WAKE_CFG_ACT_HIGH.addr v).follow wakeHigh).rd FLD_WAKE_CFG_ACT_HIGH.addr = v :=
  State.rd_follow_wr (by decide) (by decide) (by decide +kernel) (fun r => by cases r <;> rfl) v

/-- A write of `FLD_WAKE_CFG`, whoever writes, clears ACT_HIGH (R464). -/
theorem State.regStore_wakeCfg (s : State) (req : Req) (v new : Word) :
    s.regStore req .fld FLD_WAKE_CFG_ACT_HIGH.addr v new = s.wr FLD_WAKE_CFG_ACT_HIGH.addr (withBits new 28 28 0) := by
  show s.storeFld req FLD_WAKE_CFG_ACT_HIGH.addr new = _
  unfold State.storeFld
  rw [if_neg (by decide), if_pos rfl]

/-- A Guest writes bit 29 and the stored value of every other bit: ACT_HIGH is 0 afterwards. -/
theorem wakeHigh_guestWrite : (wakeHigh.csrWrite guestReq FLD_WAKE_CFG_ACT_HIGH.addr 0x30000000).rd FLD_WAKE_CFG_ACT_HIGH.addr =
    0x20000000 := by
  have hword : FLD_WAKE_CFG_ACT_HIGH.addr / 4 * 4 = FLD_WAKE_CFG_ACT_HIGH.addr := rfl
  have hnew : withBits (fieldsTake guestReq.level (wakeHigh.on TOP_LOCK_BOOT) wakeCfg 0 (wakeHigh.rd FLD_WAKE_CFG_ACT_HIGH.addr)
      0x30000000) 28 28 0 = 0x20000000 := by decide +kernel
  have hfree : wakeCfg.fields.any (fun f => fieldLocked (wakeHigh.on TOP_LOCK_BOOT) f 0) = false := by decide +kernel
  rw [State.csrWrite_stores (u := .fld) (r := wakeCfg) (w := 0) 0x30000000 (by decide +kernel) (by decide +kernel)
    (by decide +kernel) (by decide +kernel) (by decide +kernel), wakeHigh_entered, hword, State.regStore_wakeCfg, hnew, hfree,
    State.when, if_neg Bool.false_ne_true, wakeHigh_follow]

/-- Refutes O9: `FLD_WAKE_CFG.ACT_HIGH` is an Operator's field that is stored as 0 by every write of its register, so a Guest's
write of the register's Guest field clears it where a folio has set it. -/
theorem not_writePrivilege : ¬ Obligations.WritePrivilege := by
  intro h
  obtain ⟨hfield, -, -⟩ := h wakeHigh _ guestReq 0x8000540 0x30000000 15 _ .fld wakeCfg 0 rfl (by decide +kernel)
    (by decide +kernel) (exec_registerWrite_whole _ _ _ _)
  have hkeep := hfield (fo 28 28 .rw 0x0 true) (by decide) .operator rfl rfl (Or.inl rfl)
  rw [show (0x8000540 : BitVec 32).toNat / 4 * 4 = FLD_WAKE_CFG_ACT_HIGH.addr from rfl,
    show (0x8000540 : BitVec 32).toNat = FLD_WAKE_CFG_ACT_HIGH.addr from rfl, wakeHigh_guestWrite] at hkeep
  exact absurd hkeep (by decide +kernel)

end Sys2Proof.Machine
end

section
/-! Registers outside a command's reach (spec/01 R26; O60). The statement fails: it speaks of every state, and a packet of a state may
name a quire past the 128 that PKB has, whose status word the model places by number alone, beyond PKB's window. -/

namespace Sys2Proof.Machine

/-! ### Where the status of a quire is written -/

/-- The cells that a quire uses are shown at the place of its number, however large that is. -/
theorem State.f_pkbSync_cells (s : State) (q : Nat) : (s.pkbSync q).f (PKB_Q_STAT_CELLS q) = (s.quire q).used % 2 ^ 18 := by
  have hapart : (PKB_Q_STAT_PKTS q).apart (PKB_Q_STAT_CELLS q) = true :=
    (Field.apart_iff _ _).2 (Or.inr (Or.inr ⟨show 0 ≤ 17 by decide, show 17 < 18 by decide⟩))
  unfold State.pkbSync
  dsimp only
  rw [State.f_set_apart _ _ _ _ rfl hapart, State.f_set_self _ _ _ rfl]
  rfl

/-- A packet's cells go back to the quire that the packet names. -/
theorem State.f_pktFree_cells {s : State} {id : Nat} {p : Packet} (hp : s.pkt id = some p) :
    (s.pktFree id).f (PKB_Q_STAT_CELLS p.quire) = ((s.quire p.quire).used - p.cells) % 2 ^ 18 := by
  unfold State.pktFree
  rw [hp]
  dsimp only
  rw [State.editQuire, State.f_pkbSync_cells]
  exact congrArg (fun k : Quire => k.used % 2 ^ 18) (Map.lookD_put_self _ _ _ _)

/-- A count changes no register but the counter's and the services' own. -/
theorem State.f_bump_ne (s : State) (c : Wide) (n : Nat) {x : Field} (hx : serviceReg x.addr = false)
    (hlow : x.addr ≠ c.addr) (hhigh : x.addr ≠ c.addr + 4) : (s.bump c n).f x = s.f x :=
  ((ServiceOnly.bump s c n).f x hx).trans (State.f_setW_ne _ _ _ _ hlow hhigh)

/-- ABORT at END frees the packet being written (R96); a truncated one takes no more bytes before that (R95). -/
theorem State.quireEnd_abort_trunc {s : State} {q id : Nat} {p : Packet} (hopen : (s.quire q).opened = some id)
    (hkept : (s.quire q).discard = false) (hp : s.pkt id = some p) (htrunc : p.trunc = true) (bytes : List Byte) :
    s.quireEnd q bytes .abort = (s.pktFree id).bump PKB_CNT_ABORT := by
  have hbytes : s.quireBytes q id bytes = s := by
    unfold State.quireBytes
    rw [hp]
    exact if_pos htrunc
  unfold State.quireEnd
  dsimp only
  rw [hkept, if_neg Bool.false_ne_true, hopen]
  dsimp only
  rw [hbytes, hkept, if_neg Bool.false_ne_true, State.quireAbort, hopen]

/-! ### A packet that names no quire -/

/-- The number at whose place in the array of quires `PAR_RULE_BUF_RANGE` lies. -/
def strayQuire : Nat := 32652

theorem addr_strayQuire : (PKB_Q_STAT_CELLS strayQuire).addr = PAR_RULE_BUF_RANGE_FROM.addr := rfl

/-- A truncated packet that is charged to no quire of PKB. -/
def strayed : Packet := { quire := strayQuire, ingress := 0, trunc := true }

/-- A device with CORE up: the packet being written to quire 0 names quire 32,652, which has one cell in use. -/
def strayPacket : State :=
  { State.reset with
    pwr := { State.reset.pwr with doms := [(Dom.core.num, .up)] }
    pkb := { State.reset.pkb with
      pkts := [(0, strayed)]
      quires := [(0, { opened := some 0 }), (strayQuire, { used := 1 })] } }

/-- An ABORT on quire 0 frees that packet (R96). -/
theorem exec_abort_strayPacket :
    exec (.quireEndBeat 0 [] .abort) strayPacket = .next (((strayPacket.demand .pkb).pktFree 0).bump PKB_CNT_ABORT) := by
  have hpowered : strayPacket.unitDark .pkb = false := rfl
  have hrow : exec (.quireEndBeat 0 [] .abort) strayPacket =
      .next (strayPacket.datapath .pkb fun s => s.quireEnd 0 (s.lane 0 []) .abort) := rfl
  rw [hrow, State.datapath, hpowered, if_neg Bool.false_ne_true]
  exact congrArg _ (State.quireEnd_abort_trunc (p := strayed) rfl rfl rfl rfl _)

/-- The ABORT writes the one cell of quire 32,652 into `PAR_RULE_BUF_RANGE`. -/
theorem f_abort_strayPacket :
    (((strayPacket.demand .pkb).pktFree 0).bump PKB_CNT_ABORT).f (PKB_Q_STAT_CELLS strayQuire) = 1 :=
  (State.f_bump_ne _ _ _ (by decide) (by decide) (by decide)).trans
    (State.f_pktFree_cells (p := strayed) rfl)

/-- Refutes O60: in a state whose packet names quire 32,652, an END beat with ABORT changes `PAR_RULE_BUF_RANGE`, and PAR is not in the
reach of QUIRE_END_BEAT. No packet of the hardware names such a quire; the statement does not shut the state out. -/
theorem not_registersOutsideReach : ¬ Obligations.RegistersOutsideReach := by
  intro h
  have hkeep := h _ _ _ exec_abort_strayPacket .par PAR_RULE_BUF_RANGE_FROM.addr (by decide) (by decide)
  have hold : strayPacket.f (PKB_Q_STAT_CELLS strayQuire) = 0 := by decide +kernel
  have hnew := f_abort_strayPacket
  rw [State.f, addr_strayQuire, hkeep, ← addr_strayQuire] at hnew
  exact absurd (hold.symm.trans hnew) (by decide)

end Sys2Proof.Machine
end

section
/-! Parsing and classification (spec/05; O22, O44). Both statements fail, each in one clause: a fragment that is held may itself be the
first fragment of an outer datagram, and KEY may cost more cycles than its pass has left. -/

namespace Sys2Proof.Machine

/-! ### The end of a hold window (R124, R125) -/

/-- A HOLDING entry's window closes (R125): its entry is freed, and the fragment that it held is FRAG_ORPHAN. -/
theorem exec_fragHoldExpire_one {s : State} {i : BitVec 12} {e : FragEntry} {h : Nat × Nat × Nat × Bool}
    (he : s.par.frags.look i.toNat = some e) (hdecision : e.decision = none) (hheld : e.held = [h]) :
    exec (.fragHoldExpire i) s = .next (((s.reach (e.since + 64000000)).fragFree i.toNat).malTake h.1 3) := by
  have hrow : exec (.fragHoldExpire i) s = execFragHoldExpire i s := rfl
  have hreach : (s.reach (e.since + 64000000)).par.frags.look i.toNat = some e := by rw [State.reach_par, he]
  rw [hrow, execFragHoldExpire, he]
  dsimp only
  rw [hdecision, Option.isSome_none, if_neg Bool.false_ne_true, State.fragOrphan, hreach]
  dsimp only
  rw [hheld]
  rfl

/-- What the first pass of a tunnelled packet reports: the first fragment of the outer datagram. -/
def outerReport : FragReport :=
  { v6 := false, src := [10, 0, 0, 1], dst := [10, 0, 0, 2], ident := 1, proto := 17, offset := 0, len := 128, more := true }

/-- A packet on its second pass that carries the report of its first. -/
def tunnelled : Packet := { quire := 0, ingress := 0, data := List.replicate 148 0, good := true, passes := 2, frags := [outerReport] }

/-- The entry of the inner datagram, of which the packet is a later fragment: HOLDING, with the packet alone. -/
def innerHolding : FragEntry :=
  { v6 := false, src := [192, 168, 0, 1], dst := [192, 168, 0, 2], ident := 9, proto := 6, since := 0
    ranges := [(8, 72)], final := some 72, held := [(7, 8, 72, true)] }

/-- A device with CORE up whose fragment table has that entry alone, at number 0. Rows of the model lead here: a first pass reports the
outer fragment and ends in RECIRC, and the DONE of the second reports the inner one. -/
def tunnelledHeld : State :=
  { State.reset with
    pwr := { State.reset.pwr with doms := [(Dom.core.num, .up)] }
    pkb := { State.reset.pkb with pkts := [(7, tunnelled)] }
    par := { State.reset.par with frags := [(0, innerHolding)] } }

/-- The entry of the outer datagram once its first fragment has been dropped (R124). -/
def outerActive : FragEntry :=
  { v6 := outerReport.v6, src := outerReport.src, dst := outerReport.dst, ident := outerReport.ident, proto := outerReport.proto
    since := innerHolding.since + 64000000, decision := some .drop, ranges := [(0, 128)] }

/-- FRAG_ORPHAN drops the packet, which decides its outer datagram: that takes the lowest free entry, the one just freed. -/
theorem look_orphaned :
    (((tunnelledHeld.reach (innerHolding.since + 64000000)).fragFree 0).malTake 7 3).par.frags.look 0 = some outerActive := by decide +kernel

/-- Refutes O22: FRAG_HOLD_EXPIRE on entry 0 of `tunnelledHeld` frees the entry, and the outcome of the fragment that it held takes the
same entry for another datagram, so that the entry is in use after the row. -/
theorem not_parseRowsComplete : ¬ Obligations.ParseRowsComplete := by
  rintro ⟨⟨-, -, -, -, hexpire, -⟩, -⟩
  obtain ⟨t, ht, hfree, -⟩ := hexpire tunnelledHeld 0 innerHolding rfl rfl
  have hrow : exec (.fragHoldExpire 0) tunnelledHeld =
      .next (((tunnelledHeld.reach (innerHolding.since + 64000000)).fragFree 0).malTake 7 3) :=
    exec_fragHoldExpire_one (e := innerHolding) (h := (7, 8, 72, true)) rfl rfl rfl
  obtain rfl := Host.Outcome.next.inj (hrow.symm.trans ht)
  exact Option.some_ne_none _ (look_orphaned.symm.trans hfree)

/-! ### The cycles of a long operation (R114, R396) -/

/-- A long operation that would end past the 512th cycle of its pass is not performed: the pass ends with PARSE_TIMEOUT (R114). -/
theorem State.peOp_long_overrun {s : State} {n k : Nat} {x : PeCtx} (hx : s.pe n = some x) (hfinal : x.final = none)
    (hslot : x.slotA = none) (hcycles : 512 < x.cycles + k) (f : State → OpEnd) :
    s.peOp n (.long k) f = s.passMal n 6 := by
  have hcost : 512 < x.cycles + OpForm.cost (.long k) x.slotA := hcycles
  unfold State.peOp
  rw [hx]
  dsimp only
  rw [hfinal, Option.isSome_none, if_neg Bool.false_ne_true, if_pos hcost, hslot]

/-- KEY on a parse engine is a long operation of 1 cycle per 8 bytes appended, rounded up (R396). -/
theorem exec_key_pe (s : State) (n : Fin 32) (exact value : Bool) (len : BitVec 6) (errs : List WordErr) :
    ∃ f, exec (.key (.pe n) exact value len errs) s =
      .next (s.datapath .par fun s => s.peOp n.val (.long ((len.toNat + 1 + 7) / 8)) f) := ⟨_, rfl⟩

/-- KEY ends its pass where its bytes cost more cycles than the pass has left. -/
theorem exec_key_overrun {s : State} {n : Fin 32} {x : PeCtx} {len : BitVec 6} (hpowered : s.unitDark .par = false)
    (hx : s.pe n.val = some x) (hfinal : x.final = none) (hslot : x.slotA = none)
    (hcycles : 512 < x.cycles + (len.toNat + 1 + 7) / 8) (exact value : Bool) (errs : List WordErr) :
    exec (.key (.pe n) exact value len errs) s = .next ((s.demand .par).passMal n.val 6) := by
  obtain ⟨f, hrow⟩ := exec_key_pe s n exact value len errs
  have hpe : (s.demand .par).pe n.val = some x := by rw [State.pe, State.demand_par]; exact hx
  rw [hrow, State.datapath, hpowered, if_neg Bool.false_ne_true, State.peOp_long_overrun hpe hfinal hslot hcycles]

/-- A pass after 510 cycles, with a window offset on its stack and one entry below it. -/
def latePass : PeCtx := { pkt := 7, stack := [0, 5], cycles := 510 }

/-- Its packet, of 64 bytes. -/
def latePacket : Packet := { quire := 0, ingress := 0, data := List.replicate 64 0, good := true, passes := 1 }

/-- A device with CORE up whose parse engine 0 runs that pass. -/
def lateKey : State :=
  { State.reset with
    pwr := { State.reset.pwr with doms := [(Dom.core.num, .up)] }
    pkb := { State.reset.pkb with pkts := [(7, latePacket)] }
    par := { State.reset.par with engines := [(0, latePass)] } }

/-- PARSE_TIMEOUT leaves the engine of that pass free. -/
theorem pe_timedOut : ((lateKey.demand .par).passMal 0 6).pe 0 = none := by decide +kernel

/-- Refutes O44: its clause for the bytes that KEY appends from the window supposes that the pass has cycles left for one word of 1
cycle, whatever KEY's length. After 510 cycles the 17 bytes of a KEY cost 3 more (R396): the pass ends with PARSE_TIMEOUT (R114). -/
theorem not_parseOperationRowsComplete : ¬ Obligations.ParseOperationRowsComplete := by
  rintro ⟨-, -, hwindow, -⟩
  obtain ⟨-, hkey, -⟩ := hwindow lateKey 0 latePass latePacket (by decide +kernel) (by decide) rfl rfl
  obtain ⟨t, ht, hstack, -⟩ := hkey false 16 0 [5] rfl (by decide) (by decide)
  have hrow : exec (.key (.pe 0) false false 16 []) lateKey = .next ((lateKey.demand .par).passMal 0 6) :=
    exec_key_overrun rfl rfl rfl rfl (by decide) _ _ _
  obtain rfl := Host.Outcome.next.inj (hrow.symm.trans ht)
  rw [State.stackOf, show ((0 : Fin 32) : Nat) = 0 from rfl, pe_timedOut] at hstack
  exact List.cons_ne_nil _ _ hstack.symm

end Sys2Proof.Machine
end

section
/-! Flows and routing (spec/06). The rows of a packet's way through FLW hold (O23); the statement on the table and route commands fails
in one clause (O24): ADD of a route with LIMP 0 may change the limp table. -/

namespace Sys2Proof.Machine

/-! ### A row on powered logic -/

/-- A row of a unit that has power runs on the woken unit (R400). -/
theorem State.datapath_powered {s : State} {u : UnitId} (h : s.unitDark u = false) (f : State → State) :
    s.datapath u f = f (s.demand u) := by
  rw [State.datapath, h, if_neg Bool.false_ne_true]

@[simp] theorem State.pkt_demand (s : State) (u : UnitId) (id : Nat) : (s.demand u).pkt id = s.pkt id := by
  rw [State.pkt, State.pkt, State.demand_pkb]

@[simp] theorem State.firstWait_demand (s : State) (u : UnitId) (p : FlwPkt → Bool) :
    (s.demand u).firstWait p = s.firstWait p := by
  rw [State.firstWait, State.firstWait, State.demand_flw]

@[simp] theorem State.fence_demand (s : State) (u : UnitId) (key : List Byte) : (s.demand u).fence key = s.fence key := by
  rw [State.fence, State.fence, State.demand_ple]

@[simp] theorem State.limp_demand (s : State) (u : UnitId) : (s.demand u).limp = s.limp :=
  (ServiceOnly.demand s u).on _ rfl

@[simp] theorem State.bucketDone_demand (s : State) (u : UnitId) : (s.demand u).bucketDone = s.bucketDone := by
  funext x
  rw [State.bucketDone, State.bucketDone, State.demand_drc]

/-! ### Lookups in the flow table (R138 to R140) -/

/-- The second state has FLW as it is in the first, and hashes keys alike: it finds each key where the first does. -/
structure SameFlw (s t : State) : Prop where
  flw : t.flw = s.flw
  seed : t.f FLW_HASH_SEED_SEED = s.f FLW_HASH_SEED_SEED

namespace SameFlw

variable {s t u : State}

theorem refl (s : State) : SameFlw s s := ⟨rfl, rfl⟩
theorem trans (h : SameFlw s t) (g : SameFlw t u) : SameFlw s u := ⟨g.flw.trans h.flw, g.seed.trans h.seed⟩

theorem each {α : Type} {f : State → α → State} (h : ∀ s a, SameFlw s (f s a)) (l : List α) (s : State) :
    SameFlw s (s.each l f) := by
  induction l generalizing s with
  | nil => exact refl s
  | cons a l ih => exact (h s a).trans (ih _)

theorem tierOf (h : SameFlw s t) (sram : Bool) : t.tierOf sram = s.tierOf sram := by
  rw [State.tierOf, State.tierOf, h.flw]

theorem flowAt (h : SameFlw s t) (p : Bool × Nat) : t.flowAt p = s.flowAt p := by
  rw [State.flowAt, State.flowAt, h.tierOf]

theorem bucket (h : SameFlw s t) (sram : Bool) (key : List Byte) : t.bucket sram key = s.bucket sram key := by
  rw [State.bucket, State.bucket, State.flowHash, State.flowHash, h.seed]

theorem flowIn (h : SameFlw s t) (sram : Bool) (key : List Byte) : t.flowIn sram key = s.flowIn sram key := by
  rw [State.flowIn, State.flowIn, h.bucket, h.tierOf]

theorem flowFind (h : SameFlw s t) (key : List Byte) : t.flowFind key = s.flowFind key := by
  rw [State.flowFind, State.flowFind, h.flowIn, h.flowIn]

theorem flowGet (h : SameFlw s t) (key : List Byte) : t.flowGet key = s.flowGet key := by
  rw [State.flowGet, State.flowGet, h.flowFind, show t.flowAt = s.flowAt from funext h.flowAt]

end SameFlw

theorem ServiceOnly.sameFlw {s t : State} (h : ServiceOnly s t) : SameFlw s t := ⟨h.flw, h.f _ rfl⟩

theorem SameFlw.demand (s : State) (u : UnitId) : SameFlw s (s.demand u) := (ServiceOnly.demand s u).sameFlw

/-- A key that neither tier holds is not in SRAM. -/
theorem State.flowIn_sram_none {s : State} {key : List Byte} (h : s.flowFind key = none) : s.flowIn true key = none := by
  unfold State.flowFind at h
  split at h
  · exact absurd h (Option.some_ne_none _)
  · assumption

/-- A key whose place is known has the entry of that place. -/
theorem State.flowGet_of_find {s : State} {key : List Byte} {p : Bool × Nat} {f : Flow} (hfind : s.flowFind key = some p)
    (hat : s.flowAt p = some f) : s.flowGet key = some f := by
  rw [State.flowGet, hfind]
  exact hat

/-! ### What asking DRAM and sending to the shelf leave alone -/

@[simp] theorem State.bump_flw (s : State) (c : Wide) (n : Nat) : (s.bump c n).flw = s.flw :=
  (ServiceOnly.bump s c n).flw.trans (State.setW_flw _ _ _)

@[simp] theorem State.bump_ple (s : State) (c : Wide) (n : Nat) : (s.bump c n).ple = s.ple :=
  (ServiceOnly.bump s c n).ple.trans (State.setW_ple _ _ _)

theorem SameFlw.drcQueue (s : State) (r : DrcReq) : SameFlw s (s.drcQueue r) := by
  have hstall (s : State) (g : DrcCh → DrcCh) : SameFlw s (s.editCh (dramChannel r.addr) g) := ⟨rfl, rfl⟩
  have hplace : SameFlw s (s.drcPlace (dramChannel r.addr) r).1 := by
    unfold State.drcPlace
    split
    · dsimp only
      exact hstall s _
    · split
      · exact .refl s
      · dsimp only
        exact hstall s _
  have hfull (s : State) : SameFlw s (s.bump DRC_CNT_WQ_FULL) :=
    ⟨State.bump_flw _ _ _, State.f_bump_ne _ _ _ rfl (by decide) (by decide)⟩
  unfold State.drcQueue
  dsimp only
  split
  · exact hstall _ _
  · split
    next t heq => rw [heq] at hplace; exact hplace
    next t heq => rw [heq] at hplace; exact (hplace.trans (hstall _ _)).trans (hfull _)

/-- A request of DRAM leaves FLW as it is. -/
theorem SameFlw.drcAsk (s : State) (source addr words : Nat) (data : Option (List Byte)) :
    SameFlw s (s.drcAsk source addr words data) := by
  have hnext : SameFlw s { s with drc.next := s.drc.next + 1 } := ⟨rfl, rfl⟩
  have hend (s : State) (r : DrcReq) : SameFlw s (s.drcEnd r false []) := ⟨rfl, rfl⟩
  unfold State.drcAsk
  dsimp only
  split
  · exact (hnext.trans (ServiceOnly.ev _ _ _ _).sameFlw).trans (hend _ _)
  · split
    · exact hnext.trans (hend _ _)
    · exact hnext.trans (.each SameFlw.drcQueue _ _)

theorem SameFlw.bucketRead (s : State) (key : List Byte) : SameFlw s (s.bucketRead key) := SameFlw.drcAsk _ _ _ _ _

theorem State.derivedPut_ple (s : State) (t : CipTag) : (s.derivedPut t).ple = s.ple := rfl

@[simp] theorem State.deriveNow_ple (s : State) (t : CipTag) : (s.deriveNow t).1.ple = s.ple := by
  unfold State.deriveNow
  split
  · rfl
  · split
    · rfl
    · split
      · rfl
      · exact (State.derivedPut_ple _ _).trans (State.bump_ple _ _ _)

@[simp] theorem State.inlineEnd_ple (s : State) : (s.inlineEnd true).ple = s.ple := by
  rw [State.inlineEnd, State.when, Bool.not_true, if_neg Bool.false_ne_true, State.bump_ple]

@[simp] theorem State.smpGo_ple (s : State) (f : SmpSent) : (s.smpGo f).ple = s.ple := by
  unfold State.smpGo
  split
  · rw [State.inlineLost, State.bump_ple, State.bump_ple]
  · split
    · rfl
    · have hderive := State.deriveNow_ple s s.smpTag
      split
      next t heq => rw [heq] at hderive; exact (State.inlineEnd_ple t).trans hderive
      next t key heq => rw [heq] at hderive; exact (State.inlineEnd_ple t).trans hderive

@[simp] theorem State.smpSeq_ple (s : State) : s.smpSeq.ple = s.ple := by
  unfold State.smpSeq; split <;> rfl

theorem State.ite_ple {c : Prop} [Decidable c] {s t u : State} (ht : t.ple = s.ple) (hu : u.ple = s.ple) :
    (if c then t else u).ple = s.ple := by
  split
  · exact ht
  · exact hu

@[simp] theorem State.smpOut_ple (s : State) (f : SmpSent) : (s.smpOut f).ple = s.ple := by
  unfold State.smpOut
  refine State.ite_ple rfl ?_
  split
  · exact State.ite_ple rfl (State.smpGo_ple _ _)
  · exact State.smpGo_ple _ _

/-- A frame to the shelf leaves placement as it is. -/
@[simp] theorem State.smpSend_ple (s : State) (typ : Nat) (dst : Option Nat) (payload : List Nat) :
    (s.smpSend typ dst payload).ple = s.ple := by
  unfold State.smpSend State.smpSendAt
  split
  · rw [State.smpSeq_ple, State.smpOut_ple]
  · rfl

/-! ### The lookup of a packet (R135, R140, R141) -/

theorem exec_flowLookup {s : State} {x : FlwPkt} (hpowered : s.unitDark .flw = false)
    (hx : s.firstWait (fun y => decide (y.stage = .arrived)) = some x) :
    exec .flowLookup s = .next ((s.demand .flw).flowLookup x) := by
  have hrow : exec .flowLookup s = .next (s.datapath .flw fun s =>
      s.with? (s.firstWait fun y => decide (y.stage = .arrived)) State.flowLookup) := rfl
  rw [hrow, State.datapath_powered hpowered, State.firstWait_demand, hx]
  rfl

/-- A packet whose key no rule holds back is looked up in the table. -/
theorem State.flowLookup_search {s : State} {x : FlwPkt} {p : Packet} {key : List Byte} (hp : s.pkt x.pkt = some p)
    (hparam : paramBad x.param = false) (hkey : flowKey p (paramVrf x.param) = some key) (hclean : p.poison = false)
    (hnat : paramNat x.param = 0) (hfrag : p.laterFrag = false) (hflow : paramNoflow x.param = false)
    (hfence : s.fence key = none) : s.flowLookup x = s.flowSearch { x with key := key } false := by
  unfold State.flowLookup
  simp only [hp, hparam, State.when, Bool.false_eq_true, if_false, hkey, hclean, hnat, ne_eq, not_true, false_and, hfrag,
    hflow, hfence]

/-- A packet without an IP layer has no key (R136). -/
theorem State.flowLookup_noKey {s : State} {x : FlwPkt} {p : Packet} (hp : s.pkt x.pkt = some p)
    (hparam : paramBad x.param = false) (hkey : flowKey p (paramVrf x.param) = none) :
    s.flowLookup x = (s.flwDrop x.pkt).bump FLW_CNT_NO_KEY := by
  unfold State.flowLookup
  simp only [hp, hparam, State.when, Bool.false_eq_true, if_false, hkey]

/-- SRAM has the entry. -/
theorem State.flowSearch_sram {s : State} {x : FlwPkt} {p : Bool × Nat} {f : Flow} (hin : s.flowIn true x.key = some p)
    (hat : s.flowAt p = some f) (dram : Bool) : s.flowSearch x dram = s.useFlow x f := by
  unfold State.flowSearch
  rw [hin]
  dsimp only
  rw [hat]
  rfl

/-- SRAM has no entry: the packet waits for the DRAM bucket. -/
theorem State.flowSearch_wait {s : State} {x : FlwPkt} (hin : s.flowIn true x.key = none) (hlimp : s.limp = false) :
    s.flowSearch x false = (s.editWait x.pkt fun y =>
      { y with stage := .dram, key := x.key, param := x.param, dreq := s.drc.next }).bucketRead x.key := by
  unfold State.flowSearch
  rw [hin, hlimp]
  rfl

/-- DRAM has the entry. -/
theorem State.flowSearch_dram {s : State} {x : FlwPkt} {f : Flow} (hin : s.flowIn true x.key = none)
    (hget : s.flowGet x.key = some f) : s.flowSearch x true = s.useFlow x f := by
  unfold State.flowSearch
  rw [hin, Bool.true_or]
  dsimp only
  rw [hget]

/-- Neither tier has the entry. -/
theorem State.flowSearch_none {s : State} {x : FlwPkt} (hin : s.flowIn true x.key = none)
    (hget : s.flowGet x.key = none) : s.flowSearch x true = s.flowNew x := by
  unfold State.flowSearch
  rw [hin, Bool.true_or]
  dsimp only
  rw [hget]

theorem exec_flowDramReadDone {s : State} {x : FlwPkt} (hpowered : s.unitDark .flw = false)
    (hx : s.firstWait (fun y => decide (y.stage = .dram) && s.bucketDone y) = some x) :
    exec .flowDramReadDone s = .next ((s.demand .flw).flowSearch x true) := by
  have hrow : exec .flowDramReadDone s = .next (s.datapath .flw fun s =>
      s.with? (s.firstWait fun y => decide (y.stage = .dram) && s.bucketDone y) fun s x => s.flowSearch x true) := rfl
  rw [hrow, State.datapath_powered hpowered, State.bucketDone_demand, State.firstWait_demand, hx]
  rfl

/-! ### The next hop across a wake of CORE (R147)

The number of a next hop is any number in the statement; from 10,190,852 on, its words are those of `PRF_OVF`, where a count of the wake
may set a flag. No flag that it can set lies in QBASE or REWRITE, and one set in VALID or MTU takes nothing from a hop that was usable. -/

/-- The second state has next hop `q` as it is in the first, but for a VALID that has become 1 and an MTU that has grown. -/
structure HopKept (q : Nat) (s t : State) : Prop where
  qbase : t.f (FLW_NH_QBASE q) = s.f (FLW_NH_QBASE q)
  rewrite : t.f (FLW_NH_REWRITE q) = s.f (FLW_NH_REWRITE q)
  valid : s.f (FLW_NH_VALID q) ≤ t.f (FLW_NH_VALID q)
  mtu : s.f (FLW_NH_MTU q) ≤ t.f (FLW_NH_MTU q)

/-- A bit that becomes 1 makes no field smaller. -/
theorem State.f_le_setBit (s : State) (a b : Nat) (hb : b < 32) (y : Field) : s.f y ≤ (s.set ⟨a, b, b⟩ 1).f y := by
  by_cases ha : y.addr = a
  · have hbits : (s.set ⟨a, b, b⟩ 1).f y = s.f y ||| (s.set ⟨a, b, b⟩ 1).f y := by
      apply Nat.eq_of_testBit_eq
      intro i
      rw [Nat.testBit_or, State.f, State.f, State.set, ha, State.rd_wr_self, testBit_bitsOf, testBit_bitsOf,
        testBit_withBits _ (Nat.le_refl b) hb]
      split
      · rw [show i + y.lo - b = 0 by omega]
        simp +contextual
      · simp
    rw [hbits]
    exact Nat.left_le_or
  · exact Nat.le_of_eq (by rw [State.f, State.f, State.rd_set_ne _ _ _ _ ha])

namespace HopKept

variable {q : Nat} {s t u : State}

theorem refl (q : Nat) (s : State) : HopKept q s s := ⟨rfl, rfl, Nat.le_refl _, Nat.le_refl _⟩

theorem trans (h : HopKept q s t) (g : HopKept q t u) : HopKept q s u :=
  ⟨g.qbase.trans h.qbase, g.rewrite.trans h.rewrite, Nat.le_trans h.valid g.valid, Nat.le_trans h.mtu g.mtu⟩

theorem ite {c : Prop} [Decidable c] (h : HopKept q s t) (g : HopKept q s u) : HopKept q s (if c then t else u) := by
  split
  · exact h
  · exact g

/-- What changes no word from the first next hop's on. -/
theorem of_rd (h : ∀ a, 0x1240000 ≤ a → t.rd a = s.rd a) : HopKept q s t := by
  have hf (x : Field) (hx : 0x1240000 ≤ x.addr) : t.f x = s.f x := by rw [State.f, State.f, h _ hx]
  exact ⟨hf _ (Nat.le_add_right ..), hf _ (show _ ≤ 0x1240004 + 8 * q by omega),
    Nat.le_of_eq (hf (FLW_NH_VALID q) (show _ ≤ 0x1240004 + 8 * q by omega)).symm,
    Nat.le_of_eq (hf (FLW_NH_MTU q) (Nat.le_add_right ..)).symm⟩

theorem set_below (s : State) (x : Field) (n : Nat) (hx : x.addr < 0x1240000) : HopKept q s (s.set x n) :=
  of_rd fun _ ha => State.rd_set_ne _ _ _ _ (by omega)

theorem each {α : Type} {f : State → α → State} (l : List α) (h : ∀ s, ∀ a ∈ l, HopKept q s (f s a)) (s : State) :
    HopKept q s (s.each l f) := by
  induction l generalizing s with
  | nil => exact refl q s
  | cons a l ih => exact (h s a List.mem_cons_self).trans (ih (fun s b hb => h s b (List.mem_cons_of_mem _ hb)) _)

/-- The overflow flag of a counter of PWR or FLW. -/
theorem flag (s : State) {i : Nat} (hi : 16 ≤ i ∧ i < 24 ∨ 56 ≤ i ∧ i < 64) :
    HopKept q s (s.set ⟨0x6000020 + 4 * (i / 32), i % 32, i % 32⟩ 1) := by
  have hbit : i % 32 < 32 := Nat.mod_lt _ (by decide)
  have hok : Field.ok ⟨0x6000020 + 4 * (i / 32), i % 32, i % 32⟩ = true := (Field.ok_iff _).2 ⟨Nat.le_refl _, hbit⟩
  refine ⟨State.f_set_apart _ _ _ _ hok ((Field.apart_iff _ _).2 ?_), State.f_set_apart _ _ _ _ hok ((Field.apart_iff _ _).2 ?_),
    State.f_le_setBit _ _ _ hbit _, State.f_le_setBit _ _ _ hbit _⟩
  · show 0x6000020 + 4 * (i / 32) ≠ 0x1240000 + 8 * q ∨ i % 32 < 0 ∨ 0 ≤ 14 ∧ 14 < i % 32
    omega
  · show 0x6000020 + 4 * (i / 32) ≠ 0x1240004 + 8 * q ∨ i % 32 < 0 ∨ 0 ≤ 19 ∧ 19 < i % 32
    omega

theorem prfAdd (s : State) {i : Nat} (n : Nat) (hi : 16 ≤ i ∧ i < 24 ∨ 56 ≤ i ∧ i < 64) : HopKept q s (s.prfAdd i n) := by
  have hstore (v : Nat) : HopKept q s (s.prfStore i v) := of_rd fun _ _ => rfl
  have hirq (s : State) : HopKept q s s.prfIrq := of_rd fun a _ => by unfold State.prfIrq; split <;> rfl
  unfold State.prfAdd
  dsimp only
  split
  · exact ((hstore _).trans (flag _ hi)).trans (hirq _)
  · exact hstore _

theorem prfCount (s : State) {v : UnitId} (hv : v = .pwr ∨ v = .flw) (e : Nat) (p : Option Nat) (n : Nat) :
    HopKept q s (s.prfCount v e p n) := by
  unfold State.prfCount
  split
  · exact refl q s
  · refine each _ (fun s k hk => ?_) s
    have hk : k < 8 := List.mem_range.1 hk
    dsimp only
    split
    · refine prfAdd _ _ ?_
      rcases hv with rfl | rfl
      · exact Or.inl (show 16 ≤ 8 * 2 + k ∧ 8 * 2 + k < 24 by omega)
      · exact Or.inr (show 56 ≤ 8 * 7 + k ∧ 8 * 7 + k < 64 by omega)
    · exact refl q s

theorem setDom (s : State) (d : Dom) (c : DomSt) : HopKept q s (s.setDom d c) := by
  refine of_rd fun a ha => ?_
  have hlow : a ≠ 0x200000 := by omega
  rw [State.setDom, State.rd_set_ne _ _ _ _ hlow, State.rd_set_ne _ _ _ _ hlow]
  rfl

theorem bumpWake (s : State) : HopKept q s (s.bump PWR_CNT_WAKE) := by
  have hown : HopKept q s (s.setW PWR_CNT_WAKE (s.w PWR_CNT_WAKE + 1)) := of_rd fun a ha =>
    State.rd_setW_ne _ _ _ _ (show a ≠ 0x200318 by omega) (show a ≠ 0x20031C by omega)
  have hunit : unitAt PWR_CNT_WAKE.addr = some .pwr := by decide
  unfold State.bump
  rw [hunit]
  dsimp only
  split
  · exact hown
  · exact .ite (hown.trans (prfCount _ (Or.inl rfl) _ _ _)) hown

theorem wake (s : State) (d : Dom) : HopKept q s (s.wake d) := by
  unfold State.wake
  split
  · exact (setDom _ _ _).trans (bumpWake _)
  · exact setDom _ _ _
  · exact of_rd fun _ _ => rfl
  · exact refl q s

/-- A row of FLW finds the next hop as it was. -/
theorem demand (q : Nat) (s : State) : HopKept q s (s.demand .flw) := by
  have hcore : unitDom .flw = some .core := rfl
  unfold State.demand
  rw [hcore]
  dsimp only
  split
  · exact (wake _ _).trans (prfCount _ (Or.inr rfl) _ _ _)
  · exact wake _ _

/-- A usable hop stays usable. -/
theorem nhUsable (h : HopKept q s t) (hbad : t.bad = s.bad) {tc : Nat} (hu : s.nhUsable q tc = true) : t.nhUsable q tc = true := by
  simp only [State.nhUsable, State.on, Bool.and_eq_true, decide_eq_true_eq, h.qbase, hbad] at hu ⊢
  obtain ⟨⟨hvalid, hgood⟩, hqueue⟩ := hu
  exact ⟨⟨fun h0 => hvalid (Nat.le_zero.1 (h0 ▸ h.valid)), hgood⟩, hqueue⟩

end HopKept

/-! ### The route stage (R146, R147, R278) -/

@[simp] theorem State.countUse_unused (s : State) (x : FlwPkt) (len : Option Nat) : s.countUse x false len = s := by
  unfold State.countUse
  rfl

/-- The route lookup ends for a packet that is alone in FLW and uses no entry. -/
theorem exec_routeLookupDone {s : State} {x : FlwPkt} {nh : Option Nat} {gen : Nat} (hpowered : s.unitDark .flw = false)
    (hwait : s.flw.wait = [x]) (hstage : x.stage = .route false nh gen) :
    exec .routeLookupDone s = .next ((s.demand .flw).routeGo x false nh) := by
  have hrow : ∃ p : FlwPkt → Bool, p x = true ∧ exec .routeLookupDone s = .next (s.datapath .flw fun s =>
      s.with? (s.firstWait p) fun s x => match x.stage with
        | .route uses nh gen => s.routeDone x uses nh gen
        | _ => s) := by
    refine ⟨_, ?_, rfl⟩
    rw [hstage]
  obtain ⟨p, hpx, hrow⟩ := hrow
  have hfirst : s.firstWait p = some x := by
    rw [State.firstWait, hwait]
    exact List.find?_cons_of_pos hpx
  rw [hrow, State.datapath_powered hpowered, State.firstWait_demand, hfirst, State.with?, hstage]
  rfl

/-- The only packet of FLW leaves once its queue is decided. -/
theorem State.flwDrain_single {s : State} {y : FlwPkt} {q : Nat} (hwait : s.flw.wait = [y]) (hout : y.stage = .out q) :
    s.flwDrain = ({ s with flw.wait := [] } : State).schEnqueue q y.pkt := by
  have hgo : leaving [] s.flw.wait = [(y.pkt, q)] := by
    rw [hwait, leaving, hout]
    rfl
  have hgone : s.unwait y.pkt = { s with flw.wait := [] } := by
    rw [State.unwait, hwait, List.filter_cons_of_neg (by simp)]
    rfl
  rw [State.flwDrain, hgo]
  show (s.unwait y.pkt).schEnqueue q y.pkt = _
  rw [hgone]

/-- A hop whose Wi-Fi station is gone drops the packet, and both units count it. -/
theorem State.routeGo_lost {s : State} {x : FlwPkt} {p : Packet} {q : Nat} (hp : s.pkt x.pkt = some p)
    (husable : s.nhUsable q (paramTc x.param) = true) (hlost : s.wifiHopLost q (paramTc x.param) = true) :
    s.routeGo x false (some q) = ((s.flwDrop x.pkt).bump FLW_CNT_NO_ROUTE).bump WMA_CNT_UNKNOWN_TA := by
  unfold State.routeGo
  simp only [hp, husable, hlost, State.countUse_unused, Bool.not_true, Bool.false_eq_true, if_false, if_true]

/-- A packet alone in FLW that passes every check of the route stage goes to its queue. -/
theorem State.routeGo_out {s : State} {x : FlwPkt} {p : Packet} {q code ip : Nat} (hwait : s.flw.wait = [x])
    (hp : s.pkt x.pkt = some p) (husable : s.nhUsable q (paramTc x.param) = true)
    (hstation : s.wifiHopLost q (paramTc x.param) = false) (hmtu : ipLength p ≤ s.f (FLW_NH_MTU q))
    (hip : ipLayer p = some (code, ip)) (httl : 1 < beAt p.data (ip + (if code = 0x10 then 8 else 7)) 1) :
    s.routeGo x false (some q) =
      ({ (s.editPkt x.pkt fun p => { p with routed := true, rewrite := some (s.f (FLW_NH_REWRITE q)) }) with
        flw.wait := [] } : State).schEnqueue (s.f (FLW_NH_QBASE q) + paramTc x.param) x.pkt := by
  unfold State.routeGo
  simp only [hp, hip, husable, hstation, State.countUse_unused, Bool.not_true, Bool.false_eq_true, if_false,
    if_neg (Nat.not_le.2 httl), if_neg (Nat.not_lt.2 hmtu)]
  refine State.flwDrain_single (y := { x with stage := .out (s.f (FLW_NH_QBASE q) + paramTc x.param) }) ?_ rfl
  simp only [State.editWait, State.editPkt, hwait, List.map_cons, List.map_nil, if_true]

/-! ### Remote lookups (R154, R155, R205) -/

/-- The packet of the earliest deadline, of equal ones the first, is what a search that keeps the earlier of two ends with. -/
theorem foldl_earliest {f : Option FlwPkt → FlwPkt → Option FlwPkt} (hnone : ∀ x, f none x = some x)
    (hkeep : ∀ k x, k.deadline ≤ x.deadline → f (some k) x = some k)
    (htake : ∀ k x, x.deadline < k.deadline → f (some k) x = some x) {x : FlwPkt} {before after : List FlwPkt}
    (hbefore : ∀ y ∈ before, x.deadline < y.deadline) (hafter : ∀ y ∈ after, x.deadline ≤ y.deadline) :
    (before ++ x :: after).foldl f none = some x := by
  have hrest : after.foldl f (some x) = some x := by
    induction after with
    | nil => rfl
    | cons y l ih =>
      rw [List.foldl_cons, hkeep _ _ (hafter y List.mem_cons_self)]
      exact ih fun z hz => hafter z (List.mem_cons_of_mem _ hz)
  have hlater (m : Option FlwPkt) (hm : ∀ k ∈ m, x.deadline < k.deadline) : (before ++ x :: after).foldl f m = some x := by
    induction before generalizing m with
    | nil =>
      have hx : f m x = some x := by
        cases m with
        | none => exact hnone x
        | some k => exact htake k x (hm k rfl)
      rw [List.nil_append, List.foldl_cons, hx, hrest]
    | cons y l ih =>
      have hy := hbefore y List.mem_cons_self
      refine ih (fun z hz => hbefore z (List.mem_cons_of_mem _ hz)) (f m y) fun k hk => ?_
      cases m with
      | none =>
        rw [hnone y] at hk
        exact Option.some.inj hk ▸ hy
      | some j =>
        rcases Nat.lt_or_ge y.deadline j.deadline with h | h
        · rw [htake j y h] at hk
          exact Option.some.inj hk ▸ hy
        · rw [hkeep j y h] at hk
          exact hm k hk
  exact hlater none (fun k hk => absurd hk (Option.not_mem_none k))

/-- The earliest deadline passes (R154). -/
theorem exec_remoteLookupTimeout {s : State} {x : FlwPkt} {before after : List FlwPkt}
    (hremote : (s.flw.wait.filter fun y => decide (y.stage = .remote)) = before ++ x :: after)
    (hbefore : ∀ y ∈ before, x.deadline < y.deadline) (hafter : ∀ y ∈ after, x.deadline ≤ y.deadline) :
    exec .remoteLookupTimeout s = .next ((((s.reach x.deadline).flwDrop x.pkt).bump FLW_CNT_REMOTE_TMO).fencesCheck) := by
  have hrow : ∃ f : Option FlwPkt → FlwPkt → Option FlwPkt, (∀ x, f none x = some x) ∧
      (∀ k x, k.deadline ≤ x.deadline → f (some k) x = some k) ∧
      (∀ k x, x.deadline < k.deadline → f (some k) x = some x) ∧
      exec .remoteLookupTimeout s = .next (s.with? ((s.flw.wait.filter fun y => decide (y.stage = .remote)).foldl f none)
        fun s x => (((s.reach x.deadline).flwDrop x.pkt).bump FLW_CNT_REMOTE_TMO).fencesCheck) := by
    refine ⟨_, ?_, ?_, ?_, rfl⟩
    · exact fun _ => rfl
    · exact fun _ _ h => if_pos h
    · exact fun _ _ h => if_neg (Nat.not_le.2 h)
  obtain ⟨f, hnone, hkeep, htake, hrow⟩ := hrow
  rw [hrow, hremote, foldl_earliest hnone hkeep htake hbefore hafter]
  rfl

/-- A lookup of a flow that neither tier holds is answered MISS, once its DRAM bucket has been asked for (R140, R155). -/
theorem State.ownerAnswer_miss {s : State} {key : List Byte} (h : s.flowFind key = none) (src req ed param len : Nat)
    (redirected : Bool) : s.ownerAnswer src req key ed param len redirected =
      (s.when (!s.limp) (·.bucketRead key)).lookupResp src req true .none 0 0 := by
  have hask : SameFlw s (s.when (!s.limp) (·.bucketRead key)) := by
    unfold State.when
    split
    · exact SameFlw.bucketRead s key
    · exact SameFlw.refl s
  have hget : (s.when (!s.limp) (·.bucketRead key)).flowGet key = none := by
    rw [hask.flowGet, State.flowGet, h]
    rfl
  unfold State.ownerAnswer
  rw [State.flowIn_sram_none h, Option.isNone_none, Bool.true_and]
  dsimp only
  rw [hget]

theorem exec_remoteLookupRx_miss {s : State} {key : BitVec 312} (hpowered : s.unitDark .flw = false)
    (hfence : s.fence (natLe 39 key.toNat) = none) (hfind : s.flowFind (natLe 39 key.toNat) = none) (src : BitVec 6)
    (req : BitVec 32) (ed : BitVec 16) (param : BitVec 32) (len : BitVec 16) (redirected : Bool) :
    exec (.remoteLookupRx src req key ed param len redirected) s =
      .next (((s.demand .flw).when (!s.limp) (·.bucketRead (natLe 39 key.toNat))).lookupResp src.toNat req.toNat true .none 0 0) := by
  have hrow : exec (.remoteLookupRx src req key ed param len redirected) s =
    execRemoteLookupRx src req key ed param len redirected s := rfl
  rw [hrow, execRemoteLookupRx, State.datapath_powered hpowered]
  dsimp only
  rw [State.fence_demand, hfence]
  dsimp only
  rw [State.ownerAnswer_miss (((SameFlw.demand s .flw).flowFind _).trans hfind), State.limp_demand]

/-- What a fence takes stands last among what it holds. -/
theorem State.fenceHold_held (s : State) (id : Nat) (h : FenceItem) :
    ((s.fenceHold id h).ple.movesIn.filter fun k => decide (k.id = id)).map (·.held) =
      (s.ple.movesIn.filter fun k => decide (k.id = id)).map fun k => k.held ++ [h] := by
  show ((s.ple.movesIn.map _).filter _).map _ = _
  induction s.ple.movesIn with
  | nil => rfl
  | cons m l ih =>
    by_cases hm : m.id = id
    · simpa [hm] using ih
    · simpa [hm] using ih

theorem exec_remoteLookupRx_fenced {s : State} {key : BitVec 312} {m : MoveIn} (hpowered : s.unitDark .flw = false)
    (hfence : s.fence (natLe 39 key.toNat) = some m) (src : BitVec 6) (req : BitVec 32) (ed : BitVec 16) (param : BitVec 32)
    (len : BitVec 16) (redirected : Bool) :
    exec (.remoteLookupRx src req key ed param len redirected) s =
      .next (((s.demand .flw).fenceHold m.id (.lookup src.toNat req.toNat (natLe 39 key.toNat) ed.toNat param.toNat len.toNat
        redirected)).smpSend 0x37 (some src.toNat) (octets (natLe 39 key.toNat))) := by
  have hrow : exec (.remoteLookupRx src req key ed param len redirected) s =
    execRemoteLookupRx src req key ed param len redirected s := rfl
  rw [hrow, execRemoteLookupRx, State.datapath_powered hpowered]
  dsimp only
  rw [State.fence_demand, hfence]

theorem exec_lookupRespRx {s : State} {x : FlwPkt} {req : BitVec 32} (hpowered : s.unitDark .flw = false)
    (hx : s.firstWait (fun x => decide (x.stage = .remote) && decide (x.req = req.toNat)) = some x) (miss : Bool) (o : NatOutcome)
    (xlat : BitVec 48) : exec (.lookupRespRx req miss o xlat) s =
      .next (((s.demand .flw).lookupAnswer x miss o (beAt (natLe 6 xlat.toNat) 0 4) (beAt (natLe 6 xlat.toNat) 4 2)).fencesCheck) := by
  have hrow : exec (.lookupRespRx req miss o xlat) s = execLookupRespRx req miss o xlat s := rfl
  rw [hrow, execLookupRespRx, State.datapath_powered hpowered]
  dsimp only
  rw [State.firstWait_demand, hx]
  rfl

/-- Settles O23: each row finds FLW, the packets and the fences as they were before CORE woke, and so takes the branch that the clause
names. -/
theorem flowRowsComplete : Obligations.FlowRowsComplete := by
  refine ⟨⟨?arrived, ?noKey, ?bucketRead, ?routed, ?stationGone⟩, ?timeout, ?miss, ?fenced, ?answered⟩
  case arrived =>
    intro s x p key hpowered hx hp hparam hkey hclean hnat hfrag hflow hfence
    have hrow : exec .flowLookup s = .next ((s.demand .flw).flowSearch { x with key := key } false) :=
      (exec_flowLookup hpowered hx).trans (congrArg _ (State.flowLookup_search ((s.pkt_demand _ _).trans hp) hparam hkey
        hclean hnat hfrag hflow ((s.fence_demand _ _).trans hfence)))
    have hsame := SameFlw.demand s .flw
    refine ⟨fun hin hlimp => ⟨_, hrow.trans (congrArg _ (State.flowSearch_wait ((hsame.flowIn _ _).trans hin)
      ((s.limp_demand _).trans hlimp))), ?_⟩, fun place f hin hat => hrow.trans (congrArg _
      (State.flowSearch_sram ((hsame.flowIn _ _).trans hin) ((hsame.flowAt _).trans hat) _))⟩
    dsimp only
    rw [(SameFlw.bucketRead _ _).flw, State.editWait, State.demand_flw, State.demand_drc]
  case noKey =>
    intro s x p hpowered hx hp hparam hkey
    rw [exec_flowLookup hpowered hx, State.flowLookup_noKey ((s.pkt_demand _ _).trans hp) hparam hkey]
  case bucketRead =>
    intro s x hpowered hx hin
    have hsame := SameFlw.demand s .flw
    have hin' := (hsame.flowIn true x.key).trans hin
    refine ⟨fun f hget => ?_, fun hget => ?_⟩
    · rw [exec_flowDramReadDone hpowered hx, State.flowSearch_dram hin' ((hsame.flowGet _).trans hget)]
    · rw [exec_flowDramReadDone hpowered hx, State.flowSearch_none hin' ((hsame.flowGet _).trans hget)]
  case routed =>
    rintro s x gen p q hpowered hwait hstage hp husable hmtu hstation ⟨code, ip, hip, httl⟩
    have hkept := HopKept.demand q s
    rw [exec_routeLookupDone hpowered hwait hstage, State.routeGo_out (by rw [State.demand_flw, hwait])
      ((s.pkt_demand _ _).trans hp) (hkept.nhUsable (s.demand_bad _) husable) hstation (Nat.le_trans hmtu hkept.mtu) hip httl,
      hkept.rewrite, hkept.qbase]
  case stationGone =>
    intro s x gen p q hpowered hwait hstage hp husable hlost
    rw [exec_routeLookupDone hpowered hwait hstage, State.routeGo_lost ((s.pkt_demand _ _).trans hp)
      ((HopKept.demand q s).nhUsable (s.demand_bad _) husable) hlost]
  case timeout =>
    exact fun s x before after => exec_remoteLookupTimeout
  case miss =>
    exact fun s src req key ed param len redirected hpowered hfence hfind =>
      exec_remoteLookupRx_miss hpowered hfence hfind src req ed param len redirected
  case fenced =>
    intro s src req key ed param len redirected m hpowered hfence
    refine ⟨_, exec_remoteLookupRx_fenced hpowered hfence _ _ _ _ _ _, ?_⟩
    dsimp only
    rw [State.smpSend_ple, State.fenceHold_held, State.demand_ple]
  case answered =>
    exact fun s req xlat x hpowered hx => by
      simp only [exec_lookupRespRx hpowered hx, State.lookupAnswer, Bool.false_eq_true, if_false, and_self]

/-! ### ADD of a route that is in the limp table (R145, R158) -/

theorem exec_routeAdd {s : State} {req : Req} {r : Route} (haccepts : s.accepts routeCmd req = true)
    (hbuf : (s.entered .flw).routeBuf = some r) : exec (.routeAdd req) s = .next ((s.entered .flw).routeAdd r) := by
  have hrow : exec (.routeAdd req) s = .next (s.routeOp req 1 0) := rfl
  rw [hrow, State.routeOp, State.command_accepts haccepts rfl, show routeCmd.unit = .flw from rfl, hbuf]
  rfl

/-- Outside Limp mode, ADD with LIMP 0 stores the route in the main table and takes the destination out of the limp table. -/
theorem State.routeAdd_main {s : State} {r : Route} (hlimp : s.limp = false) (hr : r.limp = false)
    (hroom : (s.flw.routes.filter fun x => !sameRoute x r).foldl (fun n x => n + routeSize x) (routeSize r) ≤ 1048576) :
    s.routeAdd r = ({ s with
      flw.routes := (s.flw.routes.filter fun x => !sameRoute x r) ++ [r]
      flw.limpRoutes := s.flw.limpRoutes.filter fun x => !sameRoute x r } : State).cmdDone routeCmd.addr := by
  unfold State.routeAdd
  simp only [hlimp, hr, Bool.false_and, Bool.false_eq_true, if_false, if_neg (Nat.not_lt.2 hroom)]

/-- The default route of VRF 0, stored with LIMP 1. -/
def limpDefault : Route := { vrf := 0, v6 := false, len := 0, prefix_ := 0, nh := 5, limp := true }

/-- The same destination as `FLW_ROUTE_BUF` holds it out of reset: next hop 0, LIMP 0. -/
def plainDefault : Route := { vrf := 0, v6 := false, len := 0, prefix_ := 0, nh := 0, limp := false }

/-- A device with CORE up in whose two tables that route stands, as an ADD with LIMP 1 leaves it. -/
def limpRouted : State :=
  { State.reset with
    pwr := { State.reset.pwr with doms := [(Dom.core.num, .up)] }
    flw := { State.reset.flw with routes := [limpDefault], limpRoutes := [limpDefault] } }

/-- Refutes O24: its clause for ADD says that a route with LIMP 0 leaves the limp table as it is. Where the same destination is stored with
LIMP 1, ADD replaces that route (R145), and the model takes it out of the limp table too, so that Limp mode does not find its old next hop. -/
theorem not_flowTableAndRouteRowsComplete : ¬ Obligations.FlowTableAndRouteRowsComplete := by
  rintro ⟨-, hroutes, -⟩
  have haccepts : limpRouted.accepts routeCmd vendorReq = true := by decide +kernel
  obtain ⟨hadd, -⟩ := hroutes limpRouted vendorReq plainDefault haccepts (by decide +kernel) (by decide +kernel)
  obtain ⟨t, ht, -, hkept, -⟩ := hadd (by decide +kernel) rfl
  have hrow := exec_routeAdd haccepts (r := plainDefault) (by decide +kernel)
  rw [State.routeAdd_main (by decide +kernel) rfl (by decide +kernel)] at hrow
  obtain rfl := Host.Outcome.next.inj (hrow.symm.trans ht)
  rw [State.cmdDone_flw, State.entered_flw] at hkept
  exact absurd hkept (by decide)

end Sys2Proof.Machine
end
